-- ==== Sys2Proof/Word.lean ====
section
/-! DEFINITION. The word types of the module and the sparse keyed store that registers, memories and tables are held in. -/

namespace Sys2Proof

/-- A register of 32 bits (R7). -/
abbrev Word := BitVec 32

/-- A register or memory data word of 64 bits (R7, R435). -/
abbrev DWord := BitVec 64

/-- A byte; multi-byte values are little-endian (R5 and the conventions beside it). -/
abbrev Byte := BitVec 8

/-- A sparse store: (key, value) pairs, keys strictly rising, no pair whose value equals what an unlisted key reads as. -/
abbrev KV (α : Type) := List (Nat × α)

end Sys2Proof
end

