-- ==== Sys2Proof/Syntax.lean ====
section
/-! DEFINITION. The commands of the module as data: one constructor for each row of the opcode table, with the operands the
model gives it, and the types those operands have. Facts of the world outside (what a sensor reads, whether a signature
verifies, which cells fail) are operands. -/

namespace Sys2Proof

/-- A client: one logical device, 0 to 15 (scope, roles). -/
abbrev Client := Fin 16

/-- A page of BAR0 (R29). -/
abbrev Page := Fin 256

/-- An Edlux link LK00 to LK31. -/
abbrev LinkNo := Fin 32

/-- A physical lane row ROW00 to ROW103. -/
abbrev RowNo := Fin 104

/-- A Collator COL0 to COL7. -/
abbrev ColNo := Fin 8

/-- A NAND channel and its engine CHN00 to CHN31. -/
abbrev ChanNo := Fin 32

/-- A memory device: HBM0 to HBM7 are 0 to 7, LPD00 to LPD15 are 8 to 23 (the order of R445). -/
abbrev DevNo := Fin 24

/-- A cage of the setpoint port. -/
abbrev CageNo := Fin 2

/-- The width of a register access (R33). -/
inductive Width where
  | b8
  | b16
  | b32
  | b64
  deriving DecidableEq, Repr

/-- The bytes an access of this width covers. -/
def Width.bytes : Width → Nat
  | .b8 => 1
  | .b16 => 2
  | .b32 => 4
  | .b64 => 8

/-- A time message of R83. Instants are DTIME values in units of 1/16 ns. -/
structure TimeMessage where
  departure : Nat
  origin : Nat
  originM : Nat
  period : Nat
  change : Option (Nat × Nat)
  key : BitVec 32
  hops : Nat
  deriving DecidableEq, Repr

/-- One two-way exchange of R87, its four stamps in 1/16 ns, and whether either leg was retried. -/
structure CalSample where
  t1 : Nat
  t2 : Nat
  t3 : Nat
  t4 : Nat
  retried : Bool
  deriving DecidableEq, Repr

/-- A leg of a calibration exchange as it arrives (R87): the follower's request, or the neighbour's reply. -/
inductive CalLeg where
  | request (t1 : Nat)
  | reply (t1 t2 t3 : Nat)
  deriving DecidableEq, Repr

/-- A PTP frame on the cage of R397. `master` names the sending clock and `rank` its place under the best master clock
algorithm, the lower the better; times are in 1/16 ns. -/
inductive PtpMessage where
  | announce (domain master rank : Nat)
  | sync (domain master seq : Nat) (twoStep : Bool) (origin arrival : Nat)
  | followUp (domain master seq : Nat) (origin : Nat)
  | delayResp (domain master : Nat) (received : Nat) (interval : Nat)
  | other
  deriving DecidableEq, Repr

/-- A PTP frame, over UDP/IPv4 or else over IEEE 802.3 (R397). -/
structure PtpFrame where
  udp : Bool
  msg : PtpMessage
  deriving DecidableEq, Repr

/-- A format a lane executes (R96). -/
inductive Fmt where
  | int8
  | bell4
  | bf16
  deriving DecidableEq, Repr

/-- K, the block rows of a weight block (R96). -/
def Fmt.k : Fmt → Nat
  | .int8 => 32
  | .bell4 => 64
  | .bf16 => 16

/-- A grid a bell4 pass names: the standard grid, or a custom slot with the 16 levels the figure carries (R132, R134). -/
inductive GridRef where
  | standard
  | custom (slot : Fin 256) (levels : List Int)
  deriving DecidableEq, Repr

/-- A word of a Leaf, the gathering buffer or another on-die store: 128 bytes and the poison flag (R99, R442). -/
structure LeafWord where
  bits : BitVec 1024
  poison : Bool
  deriving DecidableEq, Repr

/-- Where a Trim operand comes from: the chain's running value, a vector register, the Leaf through the feed, or a compiled
constant. Leaf elements are fp32, one of bf16 or int8 for TOFP32. -/
inductive TrimSrc where
  | prev
  | reg (i : Fin 32)
  | leaf (word : Nat)
  | const (w : BitVec 32)
  deriving DecidableEq, Repr

/-- The relation compiled into a CMPSEL (R565). -/
inductive CmpRel where
  | gt
  | ge
  | lt
  | le
  | eq
  | ne
  deriving DecidableEq, Repr

/-- The Trim operations of R114. -/
inductive TrimOp where
  | scale
  | add (a b : TrimSrc)
  | sub (a b : TrimSrc)
  | mul (a b : TrimSrc)
  | fma (a b c : TrimSrc)
  | max (a b : TrimSrc)
  | min (a b : TrimSrc)
  | cmpsel (rel : CmpRel) (c a b : TrimSrc)
  | rcp (a : TrimSrc)
  | rsqrt (a : TrimSrc)
  | exp2 (a : TrimSrc)
  | log2 (a : TrimSrc)
  | tanh (a : TrimSrc)
  | sigmoid (a : TrimSrc)
  | silu (a : TrimSrc)
  | sum64 (a : TrimSrc)
  | req8 (a recip : TrimSrc) (monitor : Option (Fin 64))
  | req32 (a : TrimSrc)
  | tobf16 (a : TrimSrc)
  | tofp32int8 (a : TrimSrc)
  | tofp32bf16 (a : TrimSrc)
  deriving DecidableEq, Repr

/-- The element format a Trim pass writes (R102), or a vector register it keeps its results in. -/
inductive TrimDst where
  | int8 (word : Nat)
  | bf16 (word : Nat)
  | fp32 (word : Nat)
  | int32 (word : Nat)
  | reg (i : Fin 32)
  deriving DecidableEq, Repr

/-- A Collator operation (R149). -/
inductive ColOp where
  | thresh
  | topk
  | sort
  | merge
  deriving DecidableEq, Repr

/-- A Collator descriptor, field by field (R167); `op` and `rel` are the coded fields, so that an undefined code can be
told. An address is the 32-bit value of R167: target in [31:28], word in [27:0]. A figure holds its 64 bytes, which `descOf` reads. -/
structure Desc where
  op : Nat
  etype : Fin 4
  dir : Bool
  rel : Nat
  lc : Bool
  n : Nat
  k : Nat
  nlists : Nat
  cap : Nat
  indexBase : Nat
  thr : BitVec 32
  kin : Nat
  src : Nat
  sstride : Nat
  dst : Nat
  deriving DecidableEq, Repr

/-- A term of a filter predicate (R313): the constants as bits of the field's type, the group as a bitmask. -/
structure PredTerm where
  off : Nat
  ftype : Nat
  op : Nat
  lo : BitVec 64
  hi : BitVec 64
  group : BitVec 4
  deriving DecidableEq, Repr

/-- The output mode of a filter job (R314): PASS of bytes P0 to P0 + P - 1 of at most CAP records, or a local top-k under a
32-bit key at an offset. -/
inductive FilterMode where
  | pass (p0 p cap : Nat)
  | topk (k off : Nat) (etype : Fin 4) (dir : Bool)
  deriving DecidableEq, Repr

/-- A filter job (R312, R314): a T3 region, units u0 to u1 - 1, the record length and the predicate, the output mode, and the output
area in T1, from byte `out` of the state of the run's context `x` on: that of channel 0, then the others in ascending order. -/
structure FilterJob where
  region : Nat
  u0 : Nat
  u1 : Nat
  r : Nat
  terms : List PredTerm
  mode : FilterMode
  x : Nat
  out : Nat
  deriving DecidableEq, Repr

/-- One read of a dependent flash wave (R222): `count` units from unit `unit` of a T3 region into the run's wave buffer, a
filter of a region (R312), or the query of the index that the RUN of context `x` names (R326): the offsets in the context's state where the figure
places the probe list and the query or distance table, and the words of the gathering buffer where it places the channel lists. -/
inductive WaveRead where
  | plain (region unit count : Nat)
  | filter (job : FilterJob)
  | query (x probe table out : Nat)
  deriving DecidableEq, Repr

/-- What the partials of a cross-row merge hold (R247). -/
inductive PartFmt where
  | fp32
  | bf16
  | int48
  deriving DecidableEq, Repr

/-- What a step does, in the order its figure takes it. `r` is a logical row, `x` an index into the run's contexts, word
numbers are Leaf words, gathering buffer words are `g`. -/
inductive RowOp where
  /-- 8 words of lane scales into the lane scale file (R100). -/
  | laneScales (r word : Nat)
  /-- A weight block from 64 Leaf words into the latches (R100, R104). -/
  | block (r : Nat) (fmt : Fmt) (grid : GridRef) (word : Nat)
  /-- `tokens` feed slices of format `fmt` from `word`, the first block of a pass or a later one (R101, R107). -/
  | feed (r : Nat) (fmt : Fmt) (word tokens : Nat) (first : Bool)
  /-- The activation scales of a tile into the token scale file (R108). -/
  | tokenScales (r word tokens : Nat)
  /-- The drain of a pass of `tokens` tokens through a Trim chain (R108, R114). -/
  | drain (r tokens : Nat) (chain : List TrimOp) (dst : TrimDst)
  /-- A Trim pass over `n` elements through a chain (R114). -/
  | trim (r n : Nat) (chain : List TrimOp) (dst : TrimDst)
  /-- The cross-row merge of `n` elements of partials held in Leaves, each a logical row and a word, into gathering buffer words
  from `g` (R247, R249). -/
  | merge (parts : List (Nat × Nat)) (n : Nat) (fmt : PartFmt) (g : Nat)
  /-- A Collator descriptor, its 64 bytes as the figure holds them, issued by a row, in the same cycle as the operation before it when
  `beside` says so (R164, R167). -/
  | collate (r : Nat) (d : BitVec 512) (beside : Bool)
  /-- Words of a Leaf into the shadow of context state (R210). -/
  | commit (r word count x off : Nat)
  /-- A result of a context, from words of a Leaf (R252, R426); `search` says that it is the list of a search, which the summary of
  R331 follows. -/
  | result (r word bytes x : Nat) (search : Bool)
  /-- A setpoint record from a Leaf word (R386): the 16 int32, then the endpoint in bytes 64 and 65, the launch measure in bytes 72 to 79,
  and START in bytes 80 to 91 (log entry 36). -/
  | setpoint (r word x : Nat)
  /-- A DTIME value read into a Leaf word (R260). -/
  | readTime (r word : Nat)
  /-- A gradient bucket of `mib` MiB released by a row from gathering buffer words on, landing in a T1 region; `wait` says that the run's
  next step waits for the landing (R360, R363). -/
  | release (r g mib region off : Nat) (wait : Bool)
  /-- A peer message of T1 bytes of a context's state sent toward a neighbour, at once or timed (R376). -/
  | peer (x off bytes : Nat) (link : LinkNo) (timed : Bool)
  /-- A T1 buffer in a context's state posted for a message on a link (R376). -/
  | post (link : LinkNo) (x off len : Nat)
  /-- A message consumed: in Pavane mode that of the first link named, in Galliard mode the first complete arrival (R376). -/
  | receive (links : List LinkNo)
  deriving DecidableEq, Repr

/-- An operation of a step, with the contexts whose data it works on, by their index in the run: its units (the tokens of a tile, the
elements of a Trim pass, the descriptor itself) are shared out evenly among them, in order; with none named, what it works on, such as weights,
is every context's (R250, R254). A run that holds none of the contexts named skips the operation. -/
structure StepOp where
  of : List Nat
  op : RowOp
  deriving DecidableEq, Repr

/-- What the Binder stages into a Leaf during G_i (R175, R259). -/
inductive StageOp where
  /-- Bytes of a context's committed state. -/
  | state (x off r word count : Nat)
  /-- Bytes of a layer, or of the pinned image. -/
  | layer (j off r word count : Nat)
  /-- Bytes of the host input of a context (RUN). -/
  | input (x off r word count : Nat)
  /-- Random words of request site `site` for context `x`, in a FORMAT of R259. -/
  | draws (site : Nat) (x logicalRow r word count : Nat) (format : Fin 3)
  /-- Words of the run's wave buffer. -/
  | wave (off r word count : Nat)
  deriving DecidableEq, Repr

/-- One step of a figure (R205, R209). -/
structure StepDef where
  g : Nat
  c : Nat
  wave : List WaveRead
  grids : List GridRef
  stage : List StageOp
  ops : List StepOp
  deriving DecidableEq, Repr

/-- The grids a step names: those it lists, and those of its weight blocks, each once (R132). -/
def StepDef.allGrids (d : StepDef) : List GridRef :=
  (d.grids ++ d.ops.filterMap fun o => match o.op with
    | .block _ .bell4 g _ => some g
    | _ => none).eraseDups

/-- A stored Press frame (R179). -/
structure PressFrame where
  magic : Nat
  type : Nat
  raw : Bool
  poison : Bool
  ulen : Nat
  slen : Nat
  check : BitVec 32
  payload : List (BitVec 8)
  deriving DecidableEq, Repr

/-- One row of a figure's layer table (R183), with its image: the Press frames of a streamed layer in T2. -/
structure Layer where
  size : Nat
  firstStep : Nat
  lastStep : Nat
  frames : List PressFrame
  deriving DecidableEq, Repr

/-- The parameters every figure carries (R205). `hashOk` and `wellFormed` are the facts the load checks (R206): that the hash
the image names is SHAKE256 of it, and that it is well formed with layout version 0x01. -/
structure FigureCore where
  hash : BitVec 256
  hashOk : Bool
  wellFormed : Bool
  lc : Bool
  galliard : Bool
  streamed : Bool
  rows : Nat
  groups : List Nat
  bmax : Nat
  warm : List StepDef
  cold : List StepDef
  layout : BitVec 32
  stateLen : Nat
  resultSize : Nat
  hbmLcMin : Option Nat
  tokens : Nat
  usesBf16 : Bool
  layers : List Layer
  windows : Nat
  slots : Nat
  deriving DecidableEq, Repr

/-- A figure image: the main figure, and its reserve with the entry table, step by step of the main figure; `nested` says that the
reserve carries a reserve of its own (R186, R188). -/
structure Figure where
  main : FigureCore
  reserve : Option (FigureCore × List Nat)
  nested : Bool
  deriving DecidableEq, Repr

/-- Who submitted a command: the client, its queue and the command identifier. -/
structure Cid where
  c : Client
  q : Nat
  id : Nat
  deriving DecidableEq, Repr

/-- What the check of an on-die line found as a step ran (R443): the row, or none for the gathering buffer, the word, whether a Binder STAGE wrote the
line last (clean), and which mismatch of the line in the step it is. -/
structure LineFault where
  row : Option RowNo
  word : Nat
  clean : Bool
  nth : Nat
  deriving DecidableEq, Repr

/-- A request at a Leaf port (R99, R117): the word, for a write its 128 bytes with those that its byte enables leave out, and whether it
is made on behalf of another step than the one that runs on the row (R119). -/
structure PortReq where
  word : Nat
  write : Option (List (Option (BitVec 8)))
  other : Bool
  deriving DecidableEq, Repr

/-- The new requests that one cycle brings to a Leaf port: for requester i of R117 (0 weight loader, 1 feed, 2 Trim writeback,
3 Collator, 4 Binder), its request. -/
structure PortCycle where
  row : RowNo
  reqs : List (Option PortReq)
  deriving DecidableEq, Repr

/-- A submission queue entry of the Gonum command set, without its opcode and data pointer (R424, R425): the namespace
identifier, the reserved dwords 2, 3 and the metadata pointer, and CDW10 to CDW15. -/
structure Sqe where
  nsid : BitVec 32
  cdw2 : BitVec 32
  cdw3 : BitVec 32
  mptr : BitVec 64
  cdw10 : BitVec 32
  cdw11 : BitVec 32
  cdw12 : BitVec 32
  cdw13 : BitVec 32
  cdw14 : BitVec 32
  cdw15 : BitVec 32
  deriving DecidableEq, Repr

/-- The 64-byte descriptor of MOVE and COPY (R425), its last 16 bytes as one flags word and one reserved word. -/
structure MoveDesc where
  src : BitVec 64
  srcOff : BitVec 64
  dst : BitVec 64
  dstOff : BitVec 64
  len : BitVec 64
  flags : BitVec 64
  rsv : BitVec 128
  deriving DecidableEq, Repr

/-- An entry of IDX_INSERT (R333), or with an empty code of IDX_DELETE (R334). -/
structure IdxItem where
  list : BitVec 32
  item : BitVec 64
  code : List (BitVec 8)
  deriving DecidableEq, Repr

/-- A die of a channel group: channel within the channel die times 17, plus the die position (R274, R283). -/
abbrev GroupDie := Fin 136

/-- How a read of one unit's page fared on the medium (R287): its place among the units read, whether it needed a retry, the
codewords that fail LDPC after all retries, whether the rebuild from parity fails too, the die that takes a rebuilt unit, and whether
the read met its die at an operation: true a program, false an erase (R291). A unit not listed reads clean, on an idle die. -/
structure ReadFault where
  nth : Nat
  retry : Bool
  codewords : List (Fin 4)
  rebuildFails : Bool
  die : GroupDie
  meets : Option Bool
  deriving DecidableEq, Repr

/-- How the image of a FIG_LOAD arrives (R206): whether the host's data does, and what the medium does to the units of an image in T3. -/
structure FigData where
  ok : Bool
  reads : List ReadFault
  deriving DecidableEq, Repr

/-- Where the FTL places a copy of a unit, and what the medium does as the unit is read for it (R287). -/
structure CopyTo where
  die : GroupDie
  fault : Option ReadFault
  deriving DecidableEq, Repr

/-- How an erase ends (R284, R299): cut off before its end; with every block blank; or with a block that fails the blank check. -/
inductive EraseEnd where
  | cut
  | blank
  | marred
  deriving DecidableEq, Repr

/-- A channel die QDI0 to QDI3. -/
abbrev QdiNo := Fin 4

/-- How a power-loss flush went (R294, R302): whether the clean marker was written, and the dies whose program failed, so that the flush
moved on to the next block there. -/
structure FlushEnd where
  complete : Bool
  fails : List (QdiNo × GroupDie)
  deriving DecidableEq, Repr

/-- A move of a unit: the T3 region, the unit, the die the FTL places the copy on, and what the medium does as it is read. -/
structure UnitMove where
  region : Nat
  unit : Nat
  die : GroupDie
  fault : Option ReadFault
  deriving DecidableEq, Repr

/-- The HDM decoder of a logical device (R198): the base, the size and the ways it was last committed with. -/
structure Hdm where
  base : Nat
  size : Nat
  ways : Nat
  deriving DecidableEq, Repr

/-- What a memory device delivers for one word it reads (R435, R437): the stored bits that have flipped, the address the word
came from when it is not the one read, the bank, and whether the device does not answer. -/
structure WordFault where
  flips : List (Fin 80)
  wrong : Option Nat
  bank : Nat
  dead : Bool
  deriving DecidableEq, Repr

/-- A word of a T1 or T2 read that does not arrive as stored: its place among the words read, the device and the data byte
address where it lies, and what the device delivers. A word not listed arrives as stored. -/
structure EccFault where
  nth : Nat
  dev : DevNo
  word : Nat
  fault : WordFault
  deriving DecidableEq, Repr

/-- A management message of a link (R347): TREE_READY and TREE_GO (R359), TREE_DOWN (R372), STOP with its event code, cause and
raising rank (R374), and SWITCH (R355). -/
inductive Mgmt where
  | treeReady (tree : Fin 10)
  | treeGo (tree : Fin 10) (gen : Nat)
  | treeDown (tree : Fin 10) (gen : Nat)
  | stop (code cause rank : Nat)
  | switch
  deriving DecidableEq, Repr

/-- A block-float block, 34 bytes little-endian (R365). -/
abbrev Block := BitVec 272

/-- What a flit carries, by type (R347). `red` is a flit of blocks, up or down, of the bucket whose sequence number ends in
BSEQ; `start` is the start flit of a tree's share (R361); `peer` is 240 bytes of a peer message at an offset of its length. -/
inductive FlitBody where
  | idle
  | ctrl (credits : List (BitVec 16))
  | time (m : TimeMessage)
  | cal (leg : CalLeg)
  | mgmt (m : Mgmt)
  | start (seq size mask gen : Nat)
  | red (down : Bool) (bseq fidx mask : Nat) (blocks : List Block)
  | peer (off len : Nat) (bytes : List (BitVec 8)) (poison : Bool)
  | reserved (type : Nat)
  deriving DecidableEq, Repr

/-- A flit as it arrives (R346): SEQ, ACK, NAK, its content, whether its CRC passes, the symbols FEC corrected, and whether a
codeword was beyond correction. -/
structure Flit where
  seq : Nat
  ack : Nat
  nak : Bool
  body : FlitBody
  crcOk : Bool
  corrected : Nat
  uncorrected : Bool
  deriving DecidableEq, Repr

/-- What the peer says of itself in training (R348): its rank, link number and role. -/
structure PeerPlan where
  rank : Nat
  link : Nat
  tree : Nat
  dir : Nat
  deriving DecidableEq, Repr

/-- The header of an attestation or sideband message (R472). -/
structure MsgHead where
  magic : Nat
  version : Nat
  code : Nat
  tag : Nat
  status : Nat
  len : Nat
  deriving DecidableEq, Repr

/-- The path of an attestation request (R472): the DOE mailbox of a logical device, or the sideband. -/
inductive AttPath where
  | doe (c : Client)
  | sideband
  deriving DecidableEq, Repr

/-- What the data pointer of a mailbox entry names (R430): the data each command takes, and whether it
arrived; and what the reads of a MOVE or COPY meet. -/
structure DptrData where
  fig : Option Figure
  items : List IdxItem
  targets : List (BitVec 32)
  desc : Option MoveDesc
  ok : Bool
  reads : List ReadFault
  ecc : List EccFault
  redo : Nat
  deriving DecidableEq, Repr

/-- What the boot ROM meets as it starts (R466, R467, R469, R495, R518, R544): the PUF reading when one is made (the cells
corrected and the seed reconstructed), whether the chain verifies, whether the NOR die and the key digest answer, which
endpapers' signatures verify, and whether every sensor it reads is below its hold threshold. -/
structure RomFacts where
  puf : Nat × Option (List (BitVec 8))
  chainOk : Bool
  norOk : Bool
  frontSig : Bool
  backSig : Bool
  cool : Bool
  deriving DecidableEq, Repr

/-- Candidates for the tiny shape that fail their own test (R511). -/
structure TinyFails where
  cores : List (Fin 3)
  rows : List RowNo
  hbm : List (Fin 8)
  chans : List ChanNo
  deriving DecidableEq, Repr

/-- What the growth phase finds (R303, R510, R517, R519): the usable energy of the bank in mJ, whether the vote on the FTL
root pointers passes, how many of the groups in staging at the loss were torn, whether the energy coefficients of NOR pass their
check (R237), and of the other triplicated words of NOR those with one minority copy and those with no majority (R444): 34 the learnt
frequency, 64 + c the QMIN and QMAX of client c in T3. -/
structure GrowFacts where
  bankMj : Nat
  rootOk : Bool
  torn : Nat
  coefsOk : Bool
  minority : List Nat
  lost : List Nat
  deriving DecidableEq, Repr

/-- The commands and events of the module, one for each row of the opcode table. -/
inductive Instr where
  /-- REGISTER_WRITE: a register write of any width by client `c` at byte address `addr` of BAR0 (R33). -/
  | registerWrite (c : Client) (addr : BitVec 24) (w : Width) (v : BitVec 64)
  /-- READ_CLEAR_ACCESS: a register read of any width; RC fields clear (R8, R33). -/
  | readClearAccess (c : Client) (addr : BitVec 24) (w : Width)
  /-- LOWER_HALF_READ: a 32-bit read of the lower half of the 64-bit register at `addr` (R34). -/
  | lowerHalfRead (c : Client) (addr : BitVec 24)
  /-- UPPER_HALF_READ: a 32-bit read of the upper half of the 64-bit register at `addr` (R34). -/
  | upperHalfRead (c : Client) (addr : BitVec 24)
  /-- LOWER_HALF_WRITE: a 32-bit write to the lower half of the 64-bit register at `addr` (R35). -/
  | lowerHalfWrite (c : Client) (addr : BitVec 24) (v : BitVec 32)
  /-- UPPER_HALF_WRITE: a 32-bit write to the upper half of the 64-bit register at `addr` (R35). -/
  | upperHalfWrite (c : Client) (addr : BitVec 24) (v : BitVec 32)
  /-- ENABLE: 1 written to PG_CTL[0] (R39). -/
  | enable (c : Client) (p : Page)
  /-- DISABLE: 0 written to PG_CTL[0] (R39). -/
  | disable (c : Client) (p : Page)
  /-- QUIESCE_REQUEST: 1 written to PG_CTL[1] (R38). -/
  | quiesceRequest (c : Client) (p : Page)
  /-- QUIESCE_CLEAR: 0 written to PG_CTL[1] (R38). -/
  | quiesceClear (c : Client) (p : Page)
  /-- QUIESCE_COMPLETE: the work in progress of the block ends (R38, R39). -/
  | quiesceComplete (p : Page)
  /-- BLOCK_RESET: 1 written to PG_CTL[2] (R40). -/
  | blockReset (c : Client) (p : Page)
  /-- IRQ_MOD_INTERVAL_END: the IRQ_MOD interval of client `n`'s vector 48 + `cat` ends (R53). -/
  | irqModIntervalEnd (n : Client) (cat : Fin 13)
  /-- ERR_WRITER_TAKE: the log writer takes one report (R454). -/
  | errWriterTake
  /-- ERR_TAIL_WRITE: a 64-bit write of ERR_TAIL (R455, R461). -/
  | errTailWrite (c : Client) (v : BitVec 64)
  /-- TMB_NOW_FRAC_READ: a 32-bit read of TMB_NOW_FRAC (R92). -/
  | tmbNowFracRead (c : Client)
  /-- TMB_PPSIN_FRAC_READ: a 32-bit read of TMB_PPSIN_FRAC (R91). -/
  | tmbPpsinFracRead (c : Client)
  /-- SEC_MEAS_READ: a 32-bit read of SEC_MEAS[i] (R485). -/
  | secMeasRead (c : Client) (slot : Fin 16)
  /-- LOAD_NOW: TMB_CMD[0] written 1 (R92). -/
  | loadNow (c : Client)
  /-- LOAD_AT_PPS: TMB_CMD[1] written 1 (R91). -/
  | loadAtPps (c : Client)
  /-- SAVE_FREQ: TMB_CMD[2] written 1 (R65). -/
  | saveFreq (c : Client)
  /-- PPS_IN_EDGE: a rising edge on PPS_IN, stamped by the timebase in 1/16 ns (R57, R60). -/
  | ppsInEdge (stamp : Nat)
  /-- TREF_10M_LOSS: 10 µs pass without valid TREF_10M cycles (R60). -/
  | tref10mLoss
  /-- PTP_MESSAGE_RECEIVE: a frame arrives on a cage, over UDP/IPv4 or else over IEEE 802.3 (R397). -/
  | ptpMessageReceive (cage : CageNo) (frame : PtpFrame)
  /-- DELAY_REQ_SEND: the port sends a Delay_Req, stamped on departure (R397). -/
  | delayReqSend (stamp : Nat)
  /-- PTP_SYNC_TIMEOUT: four expected Sync messages in a row are missing (R60). -/
  | ptpSyncTimeout
  /-- LOCK_ACHIEVED: the error has stayed within the bound of R61 for 16 s. -/
  | lockAchieved
  /-- OVEN_READY: the oven reports its crystal at temperature (R63). -/
  | ovenReady
  /-- LEARNT_FREQUENCY_SAVE: the hourly saving of the learnt frequency (R65). -/
  | learntFrequencySave
  /-- HOLDOVER_LIMIT_EXCEEDED: the computed TMB_HO_EST first exceeds TMB_HO_LIMIT (R64). -/
  | holdoverLimitExceeded
  /-- PPS_OUT_EDGE: the next DTIME instant with NS 0 and FRAC 0 (R67). -/
  | ppsOutEdge
  /-- RUN_SET: 1 written to MSR_CTL.RUN (R564). -/
  | runSet (c : Client)
  /-- RUN_CLEAR: 0 written to MSR_CTL.RUN (R72). -/
  | runClear (c : Client)
  /-- MSR_LEAD_WRITE: a write of MSR_LEAD (R74). -/
  | msrLeadWrite (c : Client) (v : BitVec 32)
  /-- PERIOD_CHANGE_SUBMIT: MSR_CHANGE_AT written (R73). -/
  | periodChangeSubmit (c : Client) (at_ : BitVec 64)
  /-- MEASURE_ANNOUNCE: the announce instant of the next measure (R74). -/
  | measureAnnounce
  /-- MEASURE_STRIKE: the instant of the oldest announced measure (R75). -/
  | measureStrike
  /-- IDLE_TICK: an idle tick while RUN is 0 (R72). -/
  | idleTick
  /-- ARM: 1 written to ARM_CMD[s][0] (R77). -/
  | arm (c : Client) (slot : Fin 256)
  /-- CANCEL: 1 written to ARM_CMD[s][1] (R94). -/
  | cancel (c : Client) (slot : Fin 256)
  /-- HELD_ARM_STRIKE: the running step of the target unit ends and the held action starts (R80). -/
  | heldArmStrike (slot : Fin 256)
  /-- TIME_MESSAGE_SEND: the caller sends a time message on `link` (R83). -/
  | timeMessageSend (link : LinkNo)
  /-- TIME_MESSAGE_RECEIVE: a time message arrives (R83, R84, R88). -/
  | timeMessageReceive (link : LinkNo) (msg : TimeMessage) (arrival : Nat) (retried : Bool)
  /-- CALLER_KEY_ADVERTISE: a neighbour's caller key and hop count arrive on a trained link (R81, R82). -/
  | callerKeyAdvertise (link : LinkNo) (key : BitVec 32) (hops : Nat)
  /-- UPSTREAM_LOSS: 8 consecutive time messages are missed (R85). -/
  | upstreamLoss
  /-- LINK_CALIBRATION: a calibration of `link` runs its exchanges (R87). -/
  | linkCalibration (link : LinkNo) (samples : List CalSample)
  /-- CAL_MESSAGE_RECEIVE: a calibration leg arrives and is stamped (R87). -/
  | calMessageReceive (link : LinkNo) (leg : CalLeg) (arrival : Nat) (retried : Bool)
  /-- STEP_ADMIT: the next step of run `run` is admitted on rows `rows` (R216). -/
  | stepAdmit (run : Nat) (rows : List RowNo)
  /-- HELD_ADMISSION: an admission held for wake, clear or a lent step takes place (R121, R216). -/
  | heldAdmission (run : Nat) (rows : List RowNo)
  /-- STEP_STRIKE: admission + G_i: the step's compute begins; `ecc` are words of T1 that its stage does not read as stored, `orders` is the order in which the partials of each merge site arrive (R209, R249, R437). -/
  | stepStrike (run : Nat) (ecc : List EccFault) (faults : List LineFault) (ports : List PortCycle) (orders : List (List Nat))
  /-- STAGE_OVERRUN_STRIKE: a stage complete `late` core cycles after admission + G_i, and its strike (R218). -/
  | stageOverrunStrike (run : Nat) (late : Nat) (ecc : List EccFault) (faults : List LineFault) (ports : List PortCycle) (orders : List (List Nat))
  /-- STEP_BOUNDARY: the compute of the run's step ends; `suspends` are the dies that program (true) or erase as a wave's reads reach them (R210, R291). -/
  | stepBoundary (run : Nat) (suspends : List (QdiNo × GroupDie × Bool))
  /-- WAVE_LANDED: the last result of a flash wave lands in T1 (R222). -/
  | waveLanded (run : Nat) (faults : List ReadFault) (late : Bool)
  /-- STEP_WATCHDOG_EXPIRY: the step's watchdog expires (R228). -/
  | stepWatchdogExpiry (run : Nat)
  /-- STEP_REPLAY: the step restarts from its admission after a dirty-line mismatch (R257). -/
  | stepReplay (run : Nat)
  /-- BE_RUN_FORMATION: a BE run of figure `handle` is formed (R211). -/
  | beRunFormation (handle : Fin 1024)
  /-- CONTEXT_SPILL: a BE context's state is spilled to T2, `redo` line mismatches met in the codec (R443, R233). -/
  | contextSpill (x : Fin 262144) (redo : Nat) (ecc : List EccFault)
  /-- ROW_GATE: 1,000 idle cycles have passed (R121). -/
  | rowGate (r : RowNo)
  /-- ROW_OFF: OFF_DELAY of idleness has passed (R121). -/
  | rowOff (r : RowNo)
  /-- ROW_WAKE_COMPLETE: the wake of a row ends (R121). -/
  | rowWakeComplete (r : RowNo)
  /-- LEAF_CLEAR_COMPLETE: a Leaf clear ends (R122). -/
  | leafClearComplete (r : RowNo)
  /-- SCH_RES_COMMIT: SCH_RES_CMD[0] written 1 (R213). -/
  | schResCommit (c : Client)
  /-- SCH_RES_DISCARD: SCH_RES_CMD[1] written 1 (R242). -/
  | schResDiscard (c : Client)
  /-- QNT_GCMD_LOAD: LOAD of slot `slot` written to QNT_GCMD (R133). -/
  | qntGcmdLoad (c : Client) (slot : Fin 256)
  /-- QNT_GCMD_CLEAR: CLEAR of slot `slot` written to QNT_GCMD (R133). -/
  | qntGcmdClear (c : Client) (slot : Fin 256)
  /-- QNT_MON_LATCH: LATCH of monitor `m` written to QNT_MON_CMD (R145). -/
  | qntMonLatch (c : Client) (m : Fin 64)
  /-- QNT_MON_CLEAR: CLEAR of monitor `m` written to QNT_MON_CMD (R145). -/
  | qntMonClear (c : Client) (m : Fin 64)
  /-- THRESH: the Collator executes the THRESH descriptor at the head of its queues, once more for each of `redo` line mismatches (R443, R155). -/
  | thresh (col : ColNo) (redo : Nat)
  /-- TOPK: the Collator executes the TOPK descriptor at the head of its queues, once more for each of `redo` line mismatches (R443, R156). -/
  | topk (col : ColNo) (redo : Nat)
  /-- SORT: the Collator executes the SORT descriptor at the head of its queues, once more for each of `redo` line mismatches (R443, R157). -/
  | sort (col : ColNo) (redo : Nat)
  /-- MERGE: the Collator executes the MERGE descriptor at the head of its queues, once more for each of `redo` line mismatches (R443, R158). -/
  | merge (col : ColNo) (redo : Nat)
  /-- COLLATOR_SEGMENT_BOUNDARY: a segment boundary of a divided BE descriptor (R164). -/
  | collatorSegmentBoundary (col : ColNo)
  /-- STREAM: the Binder decodes a layer's image into its window slot, its frames decoded again for `redo` line mismatches (R443, R183). -/
  | stream (run : Nat) (layer : Nat) (redo : Nat) (ecc : List EccFault)
  /-- LAYER_LANDED: every frame of the layer has been written to T1 (R185). -/
  | layerLanded (run : Nat) (layer : Nat)
  /-- FILL: the Binder fills a context's state back to T1, `redo` line mismatches met in the codec (R443, R175, R233). -/
  | fill (x : Fin 262144) (redo : Nat) (ecc : List EccFault)
  /-- BINDER_CHUNK_BOUNDARY: a 64 KiB chunk boundary of an engine (R177). -/
  | binderChunkBoundary
  /-- ZERO_FILL_COMPLETE: the zero fill of a region ends (R196). -/
  | zeroFillComplete (region : Nat)
  /-- QUOTA_WRITE: a 64-bit write of client `n`'s TQ_MIN or TQ_MAX of a tier (R194). -/
  | quotaWrite (c : Client) (n : Client) (tier : Fin 3) (max : Bool) (v : BitVec 64)
  /-- TQ_CXLM_WRITE: a write of client `n`'s TQ_CXLM (R199). -/
  | tqCxlmWrite (c : Client) (n : Client) (v : BitVec 32)
  /-- FIG_LOAD: Gonum FIG_LOAD, with the image its data pointer names; `reads` is how the reads of an image in T3 fare (R206). -/
  | figLoad (cid : Cid) (e : Sqe) (fig : Figure) (data : FigData)
  /-- FIG_UNLOAD: Gonum FIG_UNLOAD (R207). -/
  | figUnload (cid : Cid) (e : Sqe)
  /-- CTX_CREATE: Gonum CTX_CREATE (R232). -/
  | ctxCreate (cid : Cid) (e : Sqe)
  /-- CTX_RESET: Gonum CTX_RESET (R232). -/
  | ctxReset (cid : Cid) (e : Sqe)
  /-- CTX_RELEASE: Gonum CTX_RELEASE (R232). -/
  | ctxRelease (cid : Cid) (e : Sqe)
  /-- RUN: Gonum RUN, with the input its data pointer names (R426). -/
  | run (cid : Cid) (e : Sqe) (input : List (BitVec 8)) (dataOk : Bool)
  /-- REGION_ALLOC: Gonum REGION_ALLOC (R191). -/
  | regionAlloc (cid : Cid) (e : Sqe)
  /-- REGION_FREE: Gonum REGION_FREE (R192). -/
  | regionFree (cid : Cid) (e : Sqe)
  /-- MOVE: Gonum MOVE, `redo` line mismatches met in the codec (R175, R443). -/
  | move (cid : Cid) (e : Sqe) (d : MoveDesc) (reads : List ReadFault) (ecc : List EccFault) (redo : Nat)
  /-- COPY: Gonum COPY, `redo` line mismatches met in the codec (R175, R443). -/
  | copy (cid : Cid) (e : Sqe) (d : MoveDesc) (ecc : List EccFault) (redo : Nat)
  /-- IDX_CREATE: Gonum IDX_CREATE (R316). -/
  | idxCreate (cid : Cid) (e : Sqe)
  /-- IDX_INSERT: Gonum IDX_INSERT (R333). -/
  | idxInsert (cid : Cid) (e : Sqe) (items : List IdxItem) (dies : List GroupDie)
  /-- IDX_DELETE: Gonum IDX_DELETE (R334). -/
  | idxDelete (cid : Cid) (e : Sqe) (items : List IdxItem)
  /-- IDX_COMPACT: Gonum IDX_COMPACT (R335). -/
  | idxCompact (cid : Cid) (e : Sqe) (dies : List GroupDie)
  /-- IDX_MERGE: Gonum IDX_MERGE (R336). -/
  | idxMerge (cid : Cid) (e : Sqe) (dies : List GroupDie)
  /-- IDX_DROP: Gonum IDX_DROP (R336). -/
  | idxDrop (cid : Cid) (e : Sqe)
  /-- IDX_EDGES: Gonum IDX_EDGES (R336). -/
  | idxEdges (cid : Cid) (e : Sqe) (targets : List (BitVec 32))
  /-- IDX_DESTROY: Gonum IDX_DESTROY (R336). -/
  | idxDestroy (cid : Cid) (e : Sqe)
  /-- NS_CREATE: Gonum NS_CREATE (R418). -/
  | nsCreate (cid : Cid) (e : Sqe)
  /-- NS_DELETE: Gonum NS_DELETE (R425). -/
  | nsDelete (cid : Cid) (e : Sqe)
  /-- CTX_CMD_READ: READ written to CTX_CMD (R244). -/
  | ctxCmdRead (c : Client)
  /-- CTX_CMD_RESET: RESET written to CTX_CMD (R244). -/
  | ctxCmdReset (c : Client)
  /-- CTX_CMD_RELEASE: RELEASE written to CTX_CMD (R244). -/
  | ctxCmdRelease (c : Client)
  /-- DET_CCMD_READ: READ written to DET_CCMD (R272). -/
  | detCcmdRead (c : Client)
  /-- DJ_CTL_WRITE: a write of client `n`'s DJ_CTL (R265). -/
  | djCtlWrite (c : Client) (n : Client) (v : BitVec 32)
  /-- JOURNAL_RECORD_WRITE: the record unit writes the `count` oldest buffered records of client `n` to its region (R263). -/
  | journalRecordWrite (n : Client) (count : Nat)
  /-- JOURNAL_BUFFER_DRAINED: client `n`'s journal buffer falls below half full (R263). -/
  | journalBufferDrained (n : Client)
  /-- DR_START: START written to client `n`'s DR_CMD (R266). -/
  | drStart (c : Client) (n : Client)
  /-- DR_ABORT: ABORT written to client `n`'s DR_CMD (R269). -/
  | drAbort (c : Client) (n : Client)
  /-- WRITE: an NVMe Write of the blocks that `data` fills from block `slba` on (R281, R420). -/
  | write (cid : Cid) (nsid : Nat) (slba : Nat) (data : List (BitVec 8)) (poisoned : Bool)
  /-- READ: an NVMe Read of `nlb` blocks (R422). -/
  | read (cid : Cid) (nsid : Nat) (slba : Nat) (nlb : Nat) (faults : List ReadFault)
  /-- WRITE_ZEROES: an NVMe Write Zeroes of `nlb` blocks (R280). -/
  | writeZeroes (cid : Cid) (nsid : Nat) (slba : Nat) (nlb : Nat)
  /-- DATASET_MANAGEMENT: an NVMe Dataset Management over ranges of first block and length (R280). -/
  | datasetManagement (cid : Cid) (nsid : Nat) (deallocate : Bool) (ranges : List (Nat × Nat))
  /-- FLUSH: an NVMe Flush (R421). -/
  | flush (cid : Cid) (nsid : Nat)
  /-- PROGRAM_COMPLETE: the SLC programs of staged atomic group number `group` complete, on dies the FTL chose, and with
  what the medium does to a unit read for a merge (R277, R281). -/
  | programComplete (group : Nat) (dies : List CopyTo)
  /-- PROGRAM_FAILURE: a program into the open quire of a stream fails on a die; its units go to other dies (R298). -/
  | programFailure (n : QdiNo) (stream : Fin 4) (die : GroupDie) (moves : List GroupDie)
  /-- ERASE_FAILURE: the erase of a quire's block on a die fails (R298). -/
  | eraseFailure (n : QdiNo) (quire : Nat) (die : GroupDie)
  /-- QUIRE_ERASE: a FREE quire that is next to open is erased for a stream; `done` says how the erase ended (R284,
  R285). -/
  | quireErase (n : QdiNo) (quire : Nat) (stream : Fin 4) (done : EraseEnd)
  /-- QUIRE_VERIFY: a CLOSED quire is read back; `weak` are the units of weak pages and where they go (R286). -/
  | quireVerify (n : QdiNo) (quire : Nat) (weak : List UnitMove)
  /-- FOLD: units of SLC quires are folded into the group's QLC quire (R288). -/
  | fold (n : QdiNo) (moves : List UnitMove)
  /-- GARBAGE_COLLECTION: the valid units of the least-valid VERIFIED quire are copied (R295). -/
  | garbageCollection (n : QdiNo) (moves : List CopyTo)
  /-- WEAR_LEVELLING_MOVE: the units of the coldest quire are moved (R296). -/
  | wearLevellingMove (n : QdiNo) (moves : List CopyTo)
  /-- MAP_CHECKPOINT: dirty map segments are rewritten (R282). -/
  | mapCheckpoint (n : QdiNo)
  /-- DIE_FAILURE: a die stops answering; `moves` is where rebuilt units go (R276). -/
  | dieFailure (n : QdiNo) (die : GroupDie) (moves : List GroupDie)
  /-- SPARE_DIE_MIGRATION: a worn die loses another block (R276). -/
  | spareDieMigration (n : QdiNo) (die : GroupDie) (moves : List CopyTo)
  /-- SUSPENDED_OPERATION_RESUME: the last LC read data has left the die (R291). -/
  | suspendedOperationResume (n : QdiNo) (die : GroupDie)
  /-- RETRY_RATE_WARNING: the hourly test of the retry rate (R300). -/
  | retryRateWarning (n : QdiNo)
  /-- POWER_LOSS_FLUSH: the flush on loss of 54 V, and how it went (R302). -/
  | powerLossFlush (e : FlushEnd)
  /-- CHANNEL_JOB_START: the first queued job takes the lowest free slot (R310). -/
  | channelJobStart (ch : ChanNo)
  /-- FILTER_JOB_PAGE: the engine tests the next unit of a filter job, its page read again for `redo` line mismatches (R443, R312). -/
  | filterJobPage (ch : ChanNo) (slot : Fin 4) (fault : Option ReadFault) (redo : Nat)
  /-- SCAN_JOB_PAGE: the engine compares the next folio of a scan job, its page read again for `redo` line mismatches (R443, R329). -/
  | scanJobPage (ch : ChanNo) (slot : Fin 4) (fault : Option ReadFault) (waitCycles : Nat) (redo : Nat)
  /-- COMPACTION: the VSX compacts a list (R335). -/
  | compaction (index : Fin 256) (list : Fin 1048576) (dies : List GroupDie)
  /-- OLD_FOLIO_RELEASE: replaced folios that no run needs are deallocated (R324). -/
  | oldFolioRelease (index : Fin 256)
  /-- READ_INDEX: READ_INDEX written to VSX_CMD (R344). -/
  | readIndex (c : Client)
  /-- READ_LIST: READ_LIST written to VSX_CMD (R344). -/
  | readList (c : Client)
  /-- TRAIN: LNK_CTL.TRAIN written (R348). -/
  | train (c : Client) (link : LinkNo) (v : Bool)
  /-- TRAINING_COMPLETE: training ends (R351). -/
  | trainingComplete (link : LinkNo) (peer : PeerPlan)
  /-- AUTH: the exchange of chains and signed transcripts ends; `key` is the peer's public key, and `ok` says that
  its chain and signature verify (R349). -/
  | auth (link : LinkNo) (key : List (BitVec 8)) (ok : Bool)
  /-- ADMIT: ADMIT written to LNK_ADMIT (R350). -/
  | lnkAdmit (c : Client) (link : LinkNo)
  /-- REFUSE: REFUSE written to LNK_ADMIT (R350). -/
  | refuse (c : Client) (link : LinkNo)
  /-- FORGET: FORGET written to LNK_ADMIT (R380). -/
  | forget (c : Client) (link : LinkNo)
  /-- FLIT_RECEIVE: a flit arrives (R352). -/
  | flitReceive (link : LinkNo) (f : Flit) (arrival : Nat)
  /-- NAK_REPLAY: the sender replays after a NAK, or after 2 µs without progress of ACK (R352). -/
  | nakReplay (link : LinkNo) (fromNak : Bool)
  /-- RETRAIN: a link loses FEC lock, flits, or too many replays (0 to 2), and retrains after `fails` failures in a row, the
  peer authenticating with `key` (R353). -/
  | retrain (link : LinkNo) (cause : Fin 3) (fails : Nat) (authOk : Bool) (key : List (BitVec 8))
  /-- LINK_RETRY_WARNING: the test of the retry rate, once per second (R353). -/
  | linkRetryWarning (link : LinkNo)
  /-- SWITCH: a backed link has failed and its traffic moves to the spare (R355). -/
  | switch (link : LinkNo)
  /-- TREE_READY: this rank and its children are ready in a tree (R359). -/
  | treeReady (tree : Fin 10)
  /-- TREE_GO: the root sends TREE_GO, or it arrives from the parent (R359). -/
  | treeGo (tree : Fin 10) (gen : Nat)
  /-- TREE_DOWN: an unbacked link of a tree fails at this end, or a TREE_DOWN message arrives (R372). -/
  | treeDown (tree : Fin 10) (gen : Nat) (own : Option LinkNo)
  /-- RED_FLIT_REDUCE: RED adds one flit of a bucket (R368). -/
  | redFlitReduce (seq : Nat) (fidx : Nat)
  /-- BUCKET_LANDING: the last RED_DOWN flit of a bucket has arrived (R363). -/
  | bucketLanding (seq : Nat)
  /-- STOP: RED enters FAULT: an empty set, a mismatch, or a STOP received (R374). -/
  | stop (code : Nat) (cause : Nat) (rank : Nat) (received : Bool)
  /-- BUCKET_TIMEOUT: a bucket has not landed within RED_TIMEOUT (R374). -/
  | bucketTimeout (seq : Nat)
  /-- RED_EN_SET: 1 written to RED_CTL.EN (R383). -/
  | redEnSet (c : Client)
  /-- RED_EN_CLEAR: 0 written to RED_CTL.EN (R375). -/
  | redEnClear (c : Client)
  /-- PEER_MESSAGE_SEND: the oldest message posted on a link leaves (R376). -/
  | peerMessageSend (link : LinkNo)
  /-- PEER_MESSAGE_RECEIVE: the last flit of a peer message has arrived (R376). -/
  | peerMessageReceive (link : LinkNo)
  /-- SETPOINT_FRAME_DEPART: the frame of an endpoint starts toward its PHY at DTIME `start`, and on cage 1 too at `also` when it goes to both; `bad` says that a word of the entry is beyond correction (R389). -/
  | setpointFrameDepart (endpoint : Nat) (start : Nat) (also : Option Nat) (bad : Bool)
  /-- SPT_CMD_READ: READ written to SPT_CMD (R400). -/
  | sptCmdRead (c : Client)
  /-- SPT_CMD_WRITE: WRITE written to SPT_CMD (R385). -/
  | sptCmdWrite (c : Client)
  /-- SPT_CTL_WRITE: a write of SPT_CTL (R395). -/
  | sptCtlWrite (c : Client) (v : BitVec 32)
  /-- CAGE_LINK_CHANGE: the signals of a cage change (R534). -/
  | cageLinkChange (cage : CageNo) (modAbs : Bool) (txFault : Bool) (los : Bool) (lock : Bool)
  /-- SUBMISSION_DOORBELL_WRITE: a tail doorbell; `ids` are the identifiers of the new entries and whether each is a Gonum command, `ns` the time to the scheduler (R411). -/
  | submissionDoorbellWrite (c : Client) (q : Nat) (tail : Nat) (ids : List (Nat × Bool)) (ns : Nat)
  /-- COMPLETION_DOORBELL_WRITE: a head doorbell of a completion queue (R413). -/
  | completionDoorbellWrite (c : Client) (q : Nat) (head : Nat)
  /-- IDENTIFY: the admin Identify (R415). -/
  | identify (cid : Cid) (cns : Nat) (nsid : Nat)
  /-- GET_LOG_PAGE: the admin Get Log Page (R416). -/
  | getLogPage (cid : Cid) (lid : Nat) (off : Nat) (len : Nat) (rae : Bool)
  /-- SET_FEATURES: the admin Set Features with its CDW11 (R414). -/
  | setFeatures (cid : Cid) (fid : Nat) (v : BitVec 32)
  /-- GET_FEATURES: the admin Get Features with its CDW11 (R414). -/
  | getFeatures (cid : Cid) (fid : Nat) (v : BitVec 32)
  /-- CREATE_IO_SUBMISSION_QUEUE: the admin command (R411). -/
  | createIoSubmissionQueue (cid : Cid) (q : Nat) (size : Nat) (prio : Fin 4) (cq : Nat) (contiguous : Bool)
  /-- DELETE_IO_SUBMISSION_QUEUE: the admin command (R431). -/
  | deleteIoSubmissionQueue (cid : Cid) (q : Nat)
  /-- CREATE_IO_COMPLETION_QUEUE: the admin command (R412). -/
  | createIoCompletionQueue (cid : Cid) (q : Nat) (size : Nat) (vector : Nat) (ien : Bool) (contiguous : Bool)
  /-- DELETE_IO_COMPLETION_QUEUE: the admin command (R410). -/
  | deleteIoCompletionQueue (cid : Cid) (q : Nat)
  /-- ABORT: the admin Abort of command `id` of queue `q` (R429). -/
  | abort (cid : Cid) (q : Nat) (id : Nat)
  /-- ASYNCHRONOUS_EVENT_REQUEST: the admin command (R417). -/
  | asynchronousEventRequest (cid : Cid)
  /-- FIRMWARE_IMAGE_DOWNLOAD: the admin command, at a byte offset (R498). -/
  | firmwareImageDownload (cid : Cid) (off : Nat) (data : List (BitVec 8))
  /-- FIRMWARE_COMMIT_REPLACE: Firmware Commit action 001b; `sigOk` says that the staged image's signature verifies (R499). -/
  | firmwareCommitReplace (cid : Cid) (slot : Nat) (sigOk : Bool) (readBackOk : Bool)
  /-- FIRMWARE_COMMIT_SELECT: Firmware Commit action 010b; `sigOk` says that the endpaper's signature verifies (R499). -/
  | firmwareCommitSelect (cid : Cid) (slot : Nat) (sigOk : Bool)
  /-- FIRMWARE_COMMIT_ACTIVATE: Firmware Commit action 011b (R500). -/
  | firmwareCommitActivate (cid : Cid) (slot : Nat) (sigOk : Bool) (readBackOk : Bool)
  /-- ACTIVATION_DRAIN_END: the fetched work has completed, or 1 s has passed (R500). -/
  | activationDrainEnd (drained : Bool) (frontSig : Bool) (backSig : Bool)
  /-- TRIAL_CONFIRMATION: trial firmware has brought the module to ready (R496). -/
  | trialConfirmation
  /-- ACTIVATION_CONFIRM_TIMEOUT: new firmware has not confirmed within 3 s (R500). -/
  | activationConfirmTimeout
  /-- ROM_RECOVERY_IMAGE: an image arrives over the sideband in ROM recovery (R497). -/
  | romRecoveryImage (h : MsgHead) (image : List (BitVec 8)) (sigOk : Bool) (readBackOk : Bool)
  /-- PMB_GO: HIF_PMB_GO written (R430). -/
  | pmbGo (c : Client) (v : BitVec 32) (d : DptrData) (dies : List GroupDie)
  /-- LOGICAL_DEVICE_RESET: a function-level or CXL reset of a logical device (R406). -/
  | logicalDeviceReset (n : Client)
  /-- HOST_LINK_TRAINING: the host link has trained, or retrained (R403). -/
  | hostLinkTraining (width : Nat) (rate : Nat) (lowLatency : Bool) (again : Bool)
  /-- CXL_MEM_READ: a CXL.mem read of bytes of the client's window (R449). -/
  | cxlMemRead (c : Client) (addr : Nat) (len : Nat) (ecc : List EccFault)
  /-- CXL_MEM_WRITE: a CXL.mem write within one 64-byte block; `dev` and `block` are where it lies (R200). -/
  | cxlMemWrite (c : Client) (addr : Nat) (data : List (BitVec 8)) (poison : Bool) (dev : DevNo) (block : Nat)
  /-- GET_LD_INFO: the FM API command (R404). -/
  | getLdInfo
  /-- GET_LD_ALLOCATIONS: the FM API command (R404). -/
  | getLdAllocations (first : Nat) (count : Nat)
  /-- SET_LD_ALLOCATIONS: the FM API command (R404). -/
  | setLdAllocations (first : Nat) (bound : List Bool)
  /-- DOE_DISCOVERY: the DOE Discovery protocol (R405). -/
  | doeDiscovery (c : Client) (index : Nat)
  /-- CXL_TABLE_ACCESS: the CXL Table Access protocol (R405). -/
  | cxlTableAccess (c : Client) (entry : Nat)
  /-- ATTENTION_PATTERN: the module emits the attention pattern that is due (R408). -/
  | attentionPattern
  /-- ATTENTION_REEMIT: the wait after a read of SYS_ATTN or after a busy release has passed (R409). -/
  | attentionReemit
  /-- GET_VERSION: the attestation request; `busy` says that another is outstanding on its path (R473). -/
  | getVersion (path : AttPath) (h : MsgHead) (p : List (BitVec 8)) (busy : Bool)
  /-- GET_DIGEST: the attestation request (R473). -/
  | getDigest (path : AttPath) (h : MsgHead) (p : List (BitVec 8)) (busy : Bool)
  /-- GET_CERT: the attestation request (R473). -/
  | getCert (path : AttPath) (h : MsgHead) (p : List (BitVec 8)) (busy : Bool)
  /-- GET_MEAS: the attestation request (R473). -/
  | getMeas (path : AttPath) (h : MsgHead) (p : List (BitVec 8)) (busy : Bool)
  /-- QUOTE: the attestation request (R475). -/
  | quote (path : AttPath) (h : MsgHead) (p : List (BitVec 8)) (busy : Bool)
  /-- GET_LOG: the attestation request (R473). -/
  | getLog (path : AttPath) (h : MsgHead) (p : List (BitVec 8)) (busy : Bool)
  /-- DIAG_NONCE: the attestation request (R478). -/
  | diagNonce (path : AttPath) (h : MsgHead) (p : List (BitVec 8)) (busy : Bool)
  /-- DIAG_UNLOCK: the attestation request; `sigOk` says that the token's signature verifies (R478). -/
  | diagUnlock (path : AttPath) (h : MsgHead) (p : List (BitVec 8)) (busy : Bool) (sigOk : Bool)
  /-- DIAG_UNLOCK_EXPIRY: the unlock's count of measures has run out (R478). -/
  | diagUnlockExpiry
  /-- LOCK: LOCK written to SEC_DIAG_CTL (R478). -/
  | lock (c : Client)
  /-- HOLD_SET: 1 written to SEC_RIGHTS_CTL.HOLD (R481). -/
  | holdSet (c : Client)
  /-- HOLD_CLEAR: 0 written to SEC_RIGHTS_CTL.HOLD (R481). -/
  | holdClear (c : Client)
  /-- HOLD_MAX_EXPIRY: HOLD has stayed 1 for SEC_HOLD_MAX measures (R481). -/
  | holdMaxExpiry
  /-- MERGE_BUFFER_FLUSH: the merge buffer entry of a 64-byte block is flushed; `faults` are what the reads of its partial words deliver, by word of the block (R440). -/
  | mergeBufferFlush (d : DevNo) (block : Nat) (faults : List (Nat × WordFault))
  /-- SCRUB_READ: the scrubber reads the next data word (R445). -/
  | scrubRead (fault : WordFault)
  /-- TRIPLICATE_WALK: the walk over the triplicated words; words with a minority copy, and words with no majority (R444). -/
  | triplicateWalk (minority : List Nat) (lost : List Nat)
  /-- RETIRE_FRAME: RETIRE_FRAME written to MEM_RET_CMD; `region` is the region that holds the frame, `reserve` says that it belongs to the module reserve (R450). -/
  | retireFrame (c : Client) (d : DevNo) (region : Option Nat) (reserve : Bool)
  /-- RETIRE_BANK: RETIRE_BANK written to MEM_RET_CMD (R451). -/
  | retireBank (c : Client) (d : DevNo)
  /-- POWER_ON: the 54 V input rises within range; `aux` says that the auxiliary supply was held (R504). -/
  | powerOn (aux : Bool)
  /-- AUX_POWER_RISE: P3V3_AUX enters its range (R506). -/
  | auxPowerRise
  /-- PERST_ASSERT: PERST# is asserted for `ns`; between 1 µs and 100 µs `resets` says whether the module resets (R508, R550). -/
  | perstAssert (ns : Nat) (resets : Bool)
  /-- PERST_DEASSERT: PERST# is deasserted (R507). -/
  | perstDeassert
  /-- HOT_RESET: a CXL hot reset (R504). -/
  | hotReset
  /-- MODULE: RST_CMD written (R528). -/
  | moduleReset (c : Client) (v : BitVec 32)
  /-- RST_WD_KICK: a management core writes RST_WD_KICK (R509). -/
  | rstWdKick (core : Fin 4)
  /-- MANAGEMENT_WATCHDOG_EXPIRY: the watchdog has run RST_WD_LIMIT ms (R509). -/
  | managementWatchdogExpiry
  /-- WATCHDOG_RECORD_CLEAR: 10 min in READY without an expiry (R509). -/
  | watchdogRecordClear
  /-- BRINGUP_ROM: the ROM phase (R495, R510). -/
  | bringupRom (ms : Nat) (f : RomFacts)
  /-- BRINGUP_TINY: the TINY phase (R511). -/
  | bringupTiny (ms : Nat) (f : TinyFails)
  /-- BRINGUP_FILL: the FILL phase; `dead` are the devices that fail training or fill (R446). -/
  | bringupFill (ms : Nat) (dead : List DevNo)
  /-- BRINGUP_TEST: the TEST phase; the pages of units that fail, with the test (R513). -/
  | bringupTest (ms : Nat) (fails : List (Page × Nat))
  /-- BRINGUP_GROW: the GROW phase and the release of RB# (R510). -/
  | bringupGrow (ms : Nat) (f : GrowFacts)
  /-- BRINGUP_TIMEOUT: bring-up has taken more than 60 s (R518). -/
  | bringupTimeout
  /-- REQUEST: REQUEST written to RST_FENCE_CMD (R516). -/
  | request (c : Client)
  /-- WITHDRAW: WITHDRAW written to RST_FENCE_CMD (R516). -/
  | withdraw (c : Client)
  /-- REG_READ: the sideband request (R523). -/
  | regRead (h : MsgHead) (p : List (BitVec 8)) (busy : Bool)
  /-- REG_WRITE: the sideband request (R523). -/
  | regWrite (h : MsgHead) (p : List (BitVec 8)) (busy : Bool)
  /-- SIDEBAND_RESET: the sideband request (R523). -/
  | sidebandReset (h : MsgHead) (p : List (BitVec 8)) (busy : Bool)
  /-- SENSORS: the sideband request (R546). -/
  | sensors (h : MsgHead) (p : List (BitVec 8)) (busy : Bool)
  /-- POWER_MONITOR_SAMPLE: the 1 µs check of P54, in mV (R536). -/
  | powerMonitorSample (mv : Nat)
  /-- POWER_LOSS_DECLARED: the sequence of a declared power loss (R539). -/
  | powerLossDeclared
  /-- SENSOR_READING: the 1 ms reading: the 11 sensors in 1/16 °C, and the power averages over 1 ms and 100 ms in W (R541). -/
  | sensorReading (temps : List Int) (w1 : Nat) (w100 : Nat)
  /-- TMB_CTL_WRITE: a write of TMB_CTL (R59). -/
  | tmbCtlWrite (c : Client) (v : BitVec 32)
  /-- PPS_IN_EDGE_MISSING: an expected PPS_IN edge has not arrived (R60). -/
  | ppsInEdgeMissing
  /-- TREF_10M_VALID: valid TREF_10M cycles appear, off by `ppm` (R60). -/
  | tref10mValid (ppm : Int)
  /-- P3V3_AUX_LOSS: P3V3_AUX has been below 3.0 V for 2 µs (R536). -/
  | p3v3AuxLoss
  /-- HOST_LINK_LOSS: the host link goes down (R432). -/
  | hostLinkLoss
  /-- CC_EN_WRITE: CC.EN written, with the sizes of the admin queues (R410). -/
  | ccEnWrite (c : Client) (v : Bool) (asqs : Nat) (acqs : Nat)
  /-- HDM_DECODER_COMMIT: an HDM decoder, as it is programmed, is committed, or with none it is uncommitted (R198, R199). -/
  | hdmDecoderCommit (n : Client) (decoder : Option Hdm)
  /-- FENCING_IN_SERVICE: a unit fails in service (R25). -/
  | fencingInService (p : Page)
  deriving DecidableEq, Repr

end Sys2Proof
end

