-- ==== Sys2Proof/Decode.lean ====
section
/-! DEFINITION. The command a word spells by the opcode table's bits. The table gives no row any bits: a command of this block
is an access, an event or a queue entry, not a word, so no word spells one (log entry 10). -/

namespace Sys2Proof

/-- The command that the low `nbits` of `w` spell by the table's bits: none, as no row has bits. -/
def decodeTableWord (_nbits _w : Nat) : Option Instr := none

end Sys2Proof
end

