-- ==== Sys2Proof/Config.lean ====
section
/-! DEFINITION. What the spec leaves open, as constants with no body: nothing can be proved of their values, so a claim that
holds, holds whatever they are. -/

namespace Sys2Proof

/-- The boot code of the I/O die, mask ROM (R470, R487). -/
opaque Config.bootCode : List Byte

/-- The n-th free value a run draws, for a value the spec leaves open (log entry 3). -/
opaque Config.freeNat : Nat → Nat

/-- The decoding of a coded Press payload by the method of its TYPE, whose code the spec does not give: the payload's bytes
expanded to the given length, or nothing when the payload overruns (R180, R181; log entry 4). -/
opaque Config.pressDecode : (type ulen : Nat) → List Byte → Option (List Byte)

/-- The coded payload the encoder makes of a frame's bytes by the method of its TYPE (R180; log entry 4). -/
opaque Config.pressEncode : (type : Nat) → List Byte → List Byte

/-- The security unit's signature over a transcript with a key, by the scheme R465 names, whose signer's randomness the
spec leaves open (log entry 5). -/
opaque Config.sign : (key : List Byte) → (message : List Byte) → List Byte

/-- The code that the SPARSE method gives a frame of zeros, of which one stored unit holds 112 bytes (R179, R180; log entry 4). -/
opaque Config.pressZero : (ulen : Nat) → List Byte

/-- The figure that the bytes of an image hold, whose encoding the spec does not give, or none (R205, R206; log entry 50). -/
opaque Config.parseFigure : List Byte → Option Figure

/-- The byte address of a state region in the tier manager's address space, which locates it for diagnosis only
(STATE_ADDR of R231; log entry 6). -/
opaque Config.tierAddress : (tier region : Nat) → Nat

/-- The vendor identifier the functions report (R405, R472), which the spec does not give (log entry 7). -/
opaque Config.vendorId : Nat

/-- The module's CDAT for a logical device whose window has the given bytes, entry by entry (R199, R405), which the spec does not
give (log entry 7). -/
opaque Config.cdat : (range : Nat) → (entry : Nat) → List Byte

/-- ML-DSA-65 key generation (R466): the public key of a 32-byte seed (log entry 5). -/
opaque Config.publicKey : List Byte → List Byte

/-- The attestation certificate of a public key under the device key, with slots 0 to 2 (R469; log entry 5). -/
opaque Config.certify : (dik ak slots : List Byte) → List Byte

/-- The TAG of a flit that is not of blocks, and the payload of one whose bytes the spec does not lay out: management, time, calibration and
start flits (R346, R347, R361; log entry 35). -/
opaque Config.flitTag : FlitBody → Nat
opaque Config.flitPayload : FlitBody → List Byte

/-- The T2 bytes that one pending delete takes of an index's DEL_SPACE (R316, R334; log entry 18). -/
opaque Config.deleteBytes : Nat

/-- The bytes of one record of the map journal, whose layout is internal to the firmware (R275, R282; log entry 56). -/
opaque Config.mapRecordBytes : Nat

end Sys2Proof
end

