-- ==== Sys2Proof/Machine/Regs.lean ====
section
/-! DEFINITION. The registers of BAR0, page by page, from the field tables of the spec (R30, R36, R48, R52, R91, R93, R127,
R147, R170, R204, R242, R244, R246, R272, R306, R308, R340, R344, R380, R383, R400, R434, R461, R462, R464, R485, R503,
R527, R528): for every register its byte address in BAR0 (the page number times 0x10000 plus the offset, R6 and R29),
its width, the bits each access code of R8 covers, and its reset value. A register table row is one `RegDef`. -/

namespace Sys2Proof.Machine

/-- One row of a register table: a register, or a one- or two-dimensional array of registers.
`rw`, `w1c`, `rc` are the bits with that access code of R8, `sup` the writable bits that only client 0 writes (R561),
`wo` marks a register whose written value acts once and is not stored, `banked` one that each client has its own copy of. -/
structure RegDef where
  off : Nat
  n1 : Nat
  s1 : Nat
  n2 : Nat
  s2 : Nat
  wide : Bool
  rw : Nat
  w1c : Nat
  rc : Nat
  sup : Nat
  wo : Bool
  reset : Nat
  banked : Bool
  deriving DecidableEq, Repr

/-- The pages of one block type (R30): its name's type code, its first page, its instance count, its registers. -/
structure RegBlock where
  code : Nat
  page : Nat
  count : Nat
  defs : List RegDef
  deriving DecidableEq, Repr

namespace R

abbrev PG_ID (p : Nat) : Nat := p * 0x10000 + 0
abbrev PG_SHAPE (p : Nat) : Nat := p * 0x10000 + 4
abbrev PG_PRESENT (p : Nat) : Nat := p * 0x10000 + 8
abbrev PG_CTL (p : Nat) : Nat := p * 0x10000 + 0xc
abbrev PG_STAT (p : Nat) : Nat := p * 0x10000 + 0x10
abbrev PG_ERR (p : Nat) : Nat := p * 0x10000 + 0x14
abbrev PG_IRQ_EN (p : Nat) : Nat := p * 0x10000 + 0x18
abbrev PG_IRQ_STAT (p : Nat) : Nat := p * 0x10000 + 0x1c
abbrev PG_OWNER (p : Nat) : Nat := p * 0x10000 + 0x20
abbrev PG_GUARD (p : Nat) : Nat := p * 0x10000 + 0x24
abbrev DIR_PAGES : Nat := 0x100
abbrev DIR_GEN : Nat := 0x104
abbrev DIR_ENTRY (i : Nat) : Nat := 0x400 + 4 * i
abbrev IRQ_CAT_STAT (i : Nat) : Nat := 0x58000 + 0x800 * i
abbrev IRQ_CAT_EN (i : Nat) : Nat := 0x58004 + 0x800 * i
abbrev IRQ_MOD (i : Nat) : Nat := 0x58008 + 0x800 * i
abbrev IRQ_PEND (i j : Nat) : Nat := 0x58020 + 0x800 * i + 4 * j
abbrev TMB_CTL : Nat := 0x30100
abbrev TMB_STAT : Nat := 0x30104
abbrev TMB_NOW_FRAC : Nat := 0x30110
abbrev TMB_NOW_NS : Nat := 0x30114
abbrev TMB_NOW_SEC_LO : Nat := 0x30118
abbrev TMB_NOW_SEC_HI : Nat := 0x3011c
abbrev TMB_SET_NS : Nat := 0x30120
abbrev TMB_SET_SEC_LO : Nat := 0x30124
abbrev TMB_SET_SEC_HI : Nat := 0x30128
abbrev TMB_CMD : Nat := 0x3012c
abbrev TMB_FREQ_ADJ : Nat := 0x30130
abbrev TMB_PHASE_ERR : Nat := 0x30134
abbrev TMB_HO_EST : Nat := 0x30138
abbrev TMB_HO_LIMIT : Nat := 0x3013c
abbrev TMB_PPS_CTL : Nat := 0x30140
abbrev TMB_REJECT : Nat := 0x30144
abbrev TMB_PPSIN_FRAC : Nat := 0x30150
abbrev TMB_PPSIN_NS : Nat := 0x30154
abbrev TMB_PPSIN_SEC_LO : Nat := 0x30158
abbrev TMB_PPSIN_SEC_HI : Nat := 0x3015c
abbrev TMB_PTP_CTL : Nat := 0x30160
abbrev TMB_PTP_OFFS : Nat := 0x30164
abbrev TMB_CALLER : Nat := 0x30170
abbrev TMB_UP_LINK : Nat := 0x30174
abbrev TMB_CAL_CTL : Nat := 0x30178
abbrev TMB_DISCARD : Nat := 0x3017c
abbrev TMB_LDLY (i : Nat) : Nat := 0x30200 + 8 * i
abbrev TMB_LASYM (i : Nat) : Nat := 0x30204 + 8 * i
abbrev MSR_CTL : Nat := 0x40100
abbrev MSR_LEAD : Nat := 0x40104
abbrev MSR_PERIOD : Nat := 0x40108
abbrev MSR_NEXT_PERIOD : Nat := 0x4010c
abbrev MSR_CHANGE_AT : Nat := 0x40110
abbrev MSR_NOW : Nat := 0x40118
abbrev MSR_ORIGIN_FRAC : Nat := 0x40120
abbrev MSR_ORIGIN_NS : Nat := 0x40124
abbrev MSR_ORIGIN_SEC_LO : Nat := 0x40128
abbrev MSR_ORIGIN_SEC_HI : Nat := 0x4012c
abbrev MSR_ORIGIN_M : Nat := 0x40130
abbrev MSR_MISSED : Nat := 0x40138
abbrev ARM_TGT (i : Nat) : Nat := 0x41000 + 0x10 * i
abbrev ARM_ACT (i : Nat) : Nat := 0x41008 + 0x10 * i
abbrev ARM_CMD (i : Nat) : Nat := 0x4100c + 0x10 * i
abbrev ROW_STAT (u : Nat) : Nat := (0x28 + u) * 0x10000 + 0x100
abbrev ROW_PWR (u : Nat) : Nat := (0x28 + u) * 0x10000 + 0x104
abbrev ROW_CTX (u : Nat) : Nat := (0x28 + u) * 0x10000 + 0x108
abbrev ROW_LEAF_CLIENT (u : Nat) : Nat := (0x28 + u) * 0x10000 + 0x10c
abbrev ROW_CYC_BUSY (u : Nat) : Nat := (0x28 + u) * 0x10000 + 0x110
abbrev ROW_CYC_FEED (u : Nat) : Nat := (0x28 + u) * 0x10000 + 0x118
abbrev ROW_CYC_LOAD (u : Nat) : Nat := (0x28 + u) * 0x10000 + 0x120
abbrev ROW_CYC_STARVE (u : Nat) : Nat := (0x28 + u) * 0x10000 + 0x128
abbrev ROW_CYC_TRIM (u : Nat) : Nat := (0x28 + u) * 0x10000 + 0x130
abbrev ROW_BLOCKS (u : Nat) : Nat := (0x28 + u) * 0x10000 + 0x138
abbrev ROW_LOSS (u i : Nat) : Nat := (0x28 + u) * 0x10000 + 0x140 + 8 * i
abbrev ROW_FWD (u : Nat) : Nat := (0x28 + u) * 0x10000 + 0x168
abbrev ROW_SAT (u : Nat) : Nat := (0x28 + u) * 0x10000 + 0x170
abbrev ROW_NONFIN (u : Nat) : Nat := (0x28 + u) * 0x10000 + 0x174
abbrev ROW_POISON (u : Nat) : Nat := (0x28 + u) * 0x10000 + 0x178
abbrev ROW_FAULT (u : Nat) : Nat := (0x28 + u) * 0x10000 + 0x17c
abbrev ROW_CLR_CNT (u : Nat) : Nat := (0x28 + u) * 0x10000 + 0x180
abbrev ROW_SNAP (u i : Nat) : Nat := (0x28 + u) * 0x10000 + 0x190 + 8 * i
abbrev ROW_SNAP_M (u : Nat) : Nat := (0x28 + u) * 0x10000 + 0x1c0
abbrev QNT_GSTAGE (i : Nat) : Nat := 0xe20100 + 4 * i
abbrev QNT_GCMD : Nat := 0xe20110
abbrev QNT_GRESULT : Nat := 0xe20114
abbrev QNT_MON_CMD : Nat := 0xe20118
abbrev QNT_MON_MISS : Nat := 0xe2011c
abbrev QNT_STD0 : Nat := 0xe20120
abbrev QNT_STD1 : Nat := 0xe20124
abbrev QNT_STD2 : Nat := 0xe20128
abbrev QNT_STD3 : Nat := 0xe2012c
abbrev QNT_GRID (i j : Nat) : Nat := 0xe21000 + 0x10 * i + 4 * j
abbrev QNT_GSTAT (i : Nat) : Nat := 0xe22000 + 4 * i
abbrev MON_CTL (i : Nat) : Nat := 0xe24000 + 0x80 * i
abbrev MON_N (i : Nat) : Nat := 0xe24008 + 0x80 * i
abbrev MON_CLIP_LO (i : Nat) : Nat := 0xe24010 + 0x80 * i
abbrev MON_CLIP_HI (i : Nat) : Nat := 0xe24018 + 0x80 * i
abbrev MON_SQERR (i : Nat) : Nat := 0xe24020 + 0x80 * i
abbrev MON_LN (i : Nat) : Nat := 0xe24028 + 0x80 * i
abbrev MON_LCLIP_LO (i : Nat) : Nat := 0xe24030 + 0x80 * i
abbrev MON_LCLIP_HI (i : Nat) : Nat := 0xe24038 + 0x80 * i
abbrev MON_LSQERR (i : Nat) : Nat := 0xe24040 + 0x80 * i
abbrev MON_LATCH_M (i : Nat) : Nat := 0xe24048 + 0x80 * i
abbrev COL_STAT (u : Nat) : Nat := (0x90 + u) * 0x10000 + 0x100
abbrev COL_FAULT (u : Nat) : Nat := (0x90 + u) * 0x10000 + 0x104
abbrev COL_FAULT_SRC (u : Nat) : Nat := (0x90 + u) * 0x10000 + 0x108
abbrev COL_OPS (u : Nat) : Nat := (0x90 + u) * 0x10000 + 0x110
abbrev COL_ELEMS (u : Nat) : Nat := (0x90 + u) * 0x10000 + 0x118
abbrev COL_CYC_BUSY (u : Nat) : Nat := (0x90 + u) * 0x10000 + 0x120
abbrev COL_CYC_WAIT (u : Nat) : Nat := (0x90 + u) * 0x10000 + 0x128
abbrev COL_NAN (u : Nat) : Nat := (0x90 + u) * 0x10000 + 0x130
abbrev COL_DUP (u : Nat) : Nat := (0x90 + u) * 0x10000 + 0x134
abbrev COL_TIE (u : Nat) : Nat := (0x90 + u) * 0x10000 + 0x138
abbrev COL_OVF (u : Nat) : Nat := (0x90 + u) * 0x10000 + 0x13c
abbrev COL_POISON (u : Nat) : Nat := (0x90 + u) * 0x10000 + 0x140
abbrev COL_LOSS (u : Nat) : Nat := (0x90 + u) * 0x10000 + 0x144
abbrev COL_LC_WAIT_MAX (u : Nat) : Nat := (0x90 + u) * 0x10000 + 0x148
abbrev COL_SNAP (u i : Nat) : Nat := (0x90 + u) * 0x10000 + 0x150 + 8 * i
abbrev COL_SNAP_M (u : Nat) : Nat := (0x90 + u) * 0x10000 + 0x170
abbrev TIER_STAT : Nat := 0xa0100
abbrev TIER_BIND_CAP : Nat := 0xa0104
abbrev TIER_DL_GUARD : Nat := 0xa0108
abbrev TIER_CAP_T1 : Nat := 0xa0110
abbrev TIER_CAP_T2 : Nat := 0xa0118
abbrev TIER_CAP_T3 : Nat := 0xa0120
abbrev TIER_FREE_T1 : Nat := 0xa0128
abbrev TIER_FREE_T2 : Nat := 0xa0130
abbrev TIER_FREE_T3 : Nat := 0xa0138
abbrev TIER_CXLM_TOTAL : Nat := 0xa0140
abbrev TIER_MISS_M : Nat := 0xa0148
abbrev TIER_MISS_CTX : Nat := 0xa0150
abbrev TIER_MISS_LAYER : Nat := 0xa0154
abbrev TIER_PRESS_ERR : Nat := 0xa0158
abbrev TIER_PRESS_IN : Nat := 0xa0160
abbrev TIER_PRESS_OUT : Nat := 0xa0168
abbrev TQ_MIN_T1 (i : Nat) : Nat := 0xa1000 + 0x100 * i
abbrev TQ_MAX_T1 (i : Nat) : Nat := 0xa1008 + 0x100 * i
abbrev TQ_USE_T1 (i : Nat) : Nat := 0xa1010 + 0x100 * i
abbrev TQ_MIN_T2 (i : Nat) : Nat := 0xa1018 + 0x100 * i
abbrev TQ_MAX_T2 (i : Nat) : Nat := 0xa1020 + 0x100 * i
abbrev TQ_USE_T2 (i : Nat) : Nat := 0xa1028 + 0x100 * i
abbrev TQ_MIN_T3 (i : Nat) : Nat := 0xa1030 + 0x100 * i
abbrev TQ_MAX_T3 (i : Nat) : Nat := 0xa1038 + 0x100 * i
abbrev TQ_USE_T3 (i : Nat) : Nat := 0xa1040 + 0x100 * i
abbrev TQ_STAT (i : Nat) : Nat := 0xa1048 + 0x100 * i
abbrev TQ_REFUSE (i : Nat) : Nat := 0xa104c + 0x100 * i
abbrev TQ_CXLM (i : Nat) : Nat := 0xa1050 + 0x100 * i
abbrev TQ_CXLM_STAT (i : Nat) : Nat := 0xa1054 + 0x100 * i
abbrev TQ_MISS (i : Nat) : Nat := 0xa1058 + 0x100 * i
abbrev SCH_STAT : Nat := 0x70100
abbrev SCH_HBM_LC : Nat := 0x70104
abbrev SCH_WD_SLACK : Nat := 0x70108
abbrev SCH_BE_WAIT : Nat := 0x7010c
abbrev SCH_BE_AGE : Nat := 0x70110
abbrev SCH_HOT : Nat := 0x70114
abbrev SCH_RES_CMD : Nat := 0x70118
abbrev SCH_RES_RESULT : Nat := 0x7011c
abbrev SCH_FIG_LOADED : Nat := 0x70120
abbrev SCH_RES_STAGE (i : Nat) : Nat := 0x70200 + 4 * i
abbrev SCH_RES (i : Nat) : Nat := 0x70280 + 4 * i
abbrev SCH_C_CTL (i : Nat) : Nat := 0x71000 + 0x100 * i
abbrev SCH_C_STAT (i : Nat) : Nat := 0x71004 + 0x100 * i
abbrev SCH_C_Q (i : Nat) : Nat := 0x71008 + 0x100 * i
abbrev SCH_C_LAT_MAX (i : Nat) : Nat := 0x7100c + 0x100 * i
abbrev SCH_C_BREAK (i : Nat) : Nat := 0x71010 + 0x100 * i
abbrev SCH_C_UNCOV (i : Nat) : Nat := 0x71014 + 0x100 * i
abbrev SCH_C_LAST (i : Nat) : Nat := 0x71018 + 0x100 * i
abbrev SCH_C_LAST_CTX (i : Nat) : Nat := 0x7101c + 0x100 * i
abbrev CTX_TOTAL : Nat := 0x90100
abbrev CTX_FREE : Nat := 0x90104
abbrev CTX_SEL : Nat := 0x90108
abbrev CTX_CMD : Nat := 0x9010c
abbrev CTX_RESULT : Nat := 0x90110
abbrev CTX_ENTRY (i : Nat) : Nat := 0x90180 + 4 * i
abbrev CTX_MAX (i : Nat) : Nat := 0x91000 + 0x10 * i
abbrev CTX_USE (i : Nat) : Nat := 0x91004 + 0x10 * i
abbrev CTX_FAULTED (i : Nat) : Nat := 0x91008 + 0x10 * i
abbrev ACC_SNAP_EVERY : Nat := 0x80100
abbrev ACC_STAT : Nat := 0x80104
abbrev ACC_SNAP_M : Nat := 0x80108
abbrev ACC_COEF (i : Nat) : Nat := 0x80110 + 4 * i
abbrev ACC_ENG_ROW (i : Nat) : Nat := 0x81000 + 0x800 * i
abbrev ACC_ENG_COL (i : Nat) : Nat := 0x81008 + 0x800 * i
abbrev ACC_ENG_CHN (i : Nat) : Nat := 0x81010 + 0x800 * i
abbrev ACC_T1_RD (i : Nat) : Nat := 0x81018 + 0x800 * i
abbrev ACC_T1_WR (i : Nat) : Nat := 0x81020 + 0x800 * i
abbrev ACC_T2_RD (i : Nat) : Nat := 0x81028 + 0x800 * i
abbrev ACC_T2_WR (i : Nat) : Nat := 0x81030 + 0x800 * i
abbrev ACC_T3_RD (i : Nat) : Nat := 0x81038 + 0x800 * i
abbrev ACC_T3_WR (i : Nat) : Nat := 0x81040 + 0x800 * i
abbrev ACC_HOST_RD (i : Nat) : Nat := 0x81048 + 0x800 * i
abbrev ACC_HOST_WR (i : Nat) : Nat := 0x81050 + 0x800 * i
abbrev ACC_ENERGY_UJ (i : Nat) : Nat := 0x81058 + 0x800 * i
abbrev ACC_RUNS (i : Nat) : Nat := 0x81060 + 0x800 * i
abbrev ACC_STEPS (i : Nat) : Nat := 0x81068 + 0x800 * i
abbrev ACC_TOKENS (i : Nat) : Nat := 0x81070 + 0x800 * i
abbrev ACC_LC_RUNS (i : Nat) : Nat := 0x81078 + 0x800 * i
abbrev ACC_LC_UNCOV (i : Nat) : Nat := 0x81080 + 0x800 * i
abbrev ACC_LC_BREAK (i : Nat) : Nat := 0x81088 + 0x800 * i
abbrev ACC_TEARDOWNS (i : Nat) : Nat := 0x81090 + 0x800 * i
abbrev ACC_SNAP (i j : Nat) : Nat := 0x81100 + 0x800 * i + 8 * j
abbrev ACC_LINK_TX (i j : Nat) : Nat := 0x81200 + 0x800 * i + 0x10 * j
abbrev ACC_LINK_RX (i j : Nat) : Nat := 0x81208 + 0x800 * i + 0x10 * j
abbrev ACC_LINK_TX_SNAP (i j : Nat) : Nat := 0x81400 + 0x800 * i + 0x10 * j
abbrev ACC_LINK_RX_SNAP (i j : Nat) : Nat := 0x81408 + 0x800 * i + 0x10 * j
abbrev DET_STAT : Nat := 0xb0100
abbrev DET_J_RATE : Nat := 0xb0104
abbrev DET_J_FILL : Nat := 0xb0108
abbrev DET_RECOMP : Nat := 0xb0110
abbrev DET_FALLBACK : Nat := 0xb0118
abbrev DET_ORDERS : Nat := 0xb0120
abbrev DET_DRAWS : Nat := 0xb0128
abbrev DET_CSEL : Nat := 0xb0140
abbrev DET_CCMD : Nat := 0xb0144
abbrev DET_CRESULT : Nat := 0xb0148
abbrev DET_COLO (i : Nat) : Nat := 0xb0180 + 4 * i
abbrev DJ_CTL (i : Nat) : Nat := 0xb1000 + 0x100 * i
abbrev DJ_REGION (i : Nat) : Nat := 0xb1008 + 0x100 * i
abbrev DJ_SEQ (i : Nat) : Nat := 0xb1010 + 0x100 * i
abbrev DJ_OLDEST (i : Nat) : Nat := 0xb1018 + 0x100 * i
abbrev DJ_BYTES (i : Nat) : Nat := 0xb1020 + 0x100 * i
abbrev DJ_GAP (i : Nat) : Nat := 0xb1028 + 0x100 * i
abbrev DJ_STAT (i : Nat) : Nat := 0xb102c + 0x100 * i
abbrev DR_FROM (i : Nat) : Nat := 0xb1040 + 0x100 * i
abbrev DR_STOP (i : Nat) : Nat := 0xb1048 + 0x100 * i
abbrev DR_SRC_CTX (i : Nat) : Nat := 0xb1050 + 0x100 * i
abbrev DR_DST_CTX (i : Nat) : Nat := 0xb1054 + 0x100 * i
abbrev DR_CMD (i : Nat) : Nat := 0xb1058 + 0x100 * i
abbrev DR_STAT (i : Nat) : Nat := 0xb105c + 0x100 * i
abbrev DR_AT (i : Nat) : Nat := 0xb1060 + 0x100 * i
abbrev DR_STEPCTR (i : Nat) : Nat := 0xb1068 + 0x100 * i
abbrev DR_SDIG (i j : Nat) : Nat := 0xb1070 + 0x100 * i + 4 * j
abbrev QDI_STAT (u : Nat) : Nat := (0xb8 + u) * 0x10000 + 0x100
abbrev QDI_DIE_SEL (u : Nat) : Nat := (0xb8 + u) * 0x10000 + 0x104
abbrev QDI_DIE_STAT (u : Nat) : Nat := (0xb8 + u) * 0x10000 + 0x108
abbrev QDI_DIE_EC (u : Nat) : Nat := (0xb8 + u) * 0x10000 + 0x10c
abbrev QDI_DIE_BAD (u : Nat) : Nat := (0xb8 + u) * 0x10000 + 0x110
abbrev QDI_FREE_Q (u : Nat) : Nat := (0xb8 + u) * 0x10000 + 0x114
abbrev QDI_READS (u : Nat) : Nat := (0xb8 + u) * 0x10000 + 0x118
abbrev QDI_PROGS (u : Nat) : Nat := (0xb8 + u) * 0x10000 + 0x120
abbrev QDI_ERASES (u : Nat) : Nat := (0xb8 + u) * 0x10000 + 0x128
abbrev QDI_RETRY (u : Nat) : Nat := (0xb8 + u) * 0x10000 + 0x130
abbrev QDI_UNCORR (u : Nat) : Nat := (0xb8 + u) * 0x10000 + 0x138
abbrev QDI_PFAIL (u : Nat) : Nat := (0xb8 + u) * 0x10000 + 0x13c
abbrev QDI_EFAIL (u : Nat) : Nat := (0xb8 + u) * 0x10000 + 0x140
abbrev QDI_SUSP (u : Nat) : Nat := (0xb8 + u) * 0x10000 + 0x144
abbrev QDI_LC_LATE (u : Nat) : Nat := (0xb8 + u) * 0x10000 + 0x148
abbrev QDI_SPREAD (u : Nat) : Nat := (0xb8 + u) * 0x10000 + 0x14c
abbrev FTL_STAT : Nat := 0xbc0100
abbrev FTL_WL_SPREAD : Nat := 0xbc0104
abbrev FTL_GC_CTL : Nat := 0xbc0108
abbrev FTL_RSV_WARN : Nat := 0xbc010c
abbrev FTL_RETRY_WARN : Nat := 0xbc0110
abbrev FTL_FILL : Nat := 0xbc0114
abbrev FTL_LIFE : Nat := 0xbc0118
abbrev FTL_BOOT : Nat := 0xbc011c
abbrev FTL_SLC_CAP : Nat := 0xbc0120
abbrev FTL_SLC_USED : Nat := 0xbc0128
abbrev FTL_MAPPED : Nat := 0xbc0130
abbrev FTL_HOST_WR : Nat := 0xbc0138
abbrev FTL_MEDIA_WR : Nat := 0xbc0140
abbrev FTL_JSEQ : Nat := 0xbc0148
abbrev CHN_STAT (u : Nat) : Nat := (0x98 + u) * 0x10000 + 0x100
abbrev CHN_FAULT (u : Nat) : Nat := (0x98 + u) * 0x10000 + 0x104
abbrev CHN_JOBS (u : Nat) : Nat := (0x98 + u) * 0x10000 + 0x108
abbrev CHN_FOLIOS (u : Nat) : Nat := (0x98 + u) * 0x10000 + 0x110
abbrev CHN_ENTRIES (u : Nat) : Nat := (0x98 + u) * 0x10000 + 0x118
abbrev CHN_PASSED (u : Nat) : Nat := (0x98 + u) * 0x10000 + 0x120
abbrev CHN_CYC_BUSY (u : Nat) : Nat := (0x98 + u) * 0x10000 + 0x128
abbrev CHN_CYC_WAIT (u : Nat) : Nat := (0x98 + u) * 0x10000 + 0x130
abbrev CHN_HIDDEN (u : Nat) : Nat := (0x98 + u) * 0x10000 + 0x138
abbrev CHN_DELETED (u : Nat) : Nat := (0x98 + u) * 0x10000 + 0x13c
abbrev CHN_POISON_SKIP (u : Nat) : Nat := (0x98 + u) * 0x10000 + 0x140
abbrev CHN_HDR_ERR (u : Nat) : Nat := (0x98 + u) * 0x10000 + 0x144
abbrev CHN_UNMAPPED (u : Nat) : Nat := (0x98 + u) * 0x10000 + 0x148
abbrev CHN_SNAP (u i : Nat) : Nat := (0x98 + u) * 0x10000 + 0x150 + 8 * i
abbrev CHN_SNAP_M (u : Nat) : Nat := (0x98 + u) * 0x10000 + 0x180
abbrev VSX_STAT : Nat := 0xbd0100
abbrev VSX_PF_CTL : Nat := 0xbd0104
abbrev VSX_COMPACT_AT : Nat := 0xbd0108
abbrev VSX_DEL_CAP : Nat := 0xbd010c
abbrev VSX_QUERIES : Nat := 0xbd0110
abbrev VSX_LISTS : Nat := 0xbd0118
abbrev VSX_PF_LISTS : Nat := 0xbd0120
abbrev VSX_EDGE_SKIP : Nat := 0xbd0128
abbrev VSX_PROBE_SKIP : Nat := 0xbd012c
abbrev VSX_COMPACTIONS : Nat := 0xbd0130
abbrev VSX_SEL : Nat := 0xbd0200
abbrev VSX_CMD : Nat := 0xbd0204
abbrev VSX_RESULT : Nat := 0xbd0208
abbrev VSX_I_CFG : Nat := 0xbd0210
abbrev VSX_I_LISTS : Nat := 0xbd0214
abbrev VSX_I_ITEMS : Nat := 0xbd0218
abbrev VSX_I_EPOCH : Nat := 0xbd0220
abbrev VSX_I_OLDSNAP : Nat := 0xbd0228
abbrev VSX_L_STAT : Nat := 0xbd0230
abbrev VSX_L_FOLIOS : Nat := 0xbd0234
abbrev VSX_L_ENTRIES : Nat := 0xbd0238
abbrev VSX_L_EPOCH : Nat := 0xbd0240
abbrev VSX_L_TARGET : Nat := 0xbd0248
abbrev VSX_L_EDGE (i : Nat) : Nat := 0xbd0250 + 8 * i
abbrev LNK_CTL (u : Nat) : Nat := (0xc0 + u) * 0x10000 + 0x100
abbrev LNK_ROLE (u : Nat) : Nat := (0xc0 + u) * 0x10000 + 0x104
abbrev LNK_STAT (u : Nat) : Nat := (0xc0 + u) * 0x10000 + 0x108
abbrev LNK_PEER (u : Nat) : Nat := (0xc0 + u) * 0x10000 + 0x10c
abbrev LNK_ADMIT (u : Nat) : Nat := (0xc0 + u) * 0x10000 + 0x110
abbrev LNK_RETRY_WARN (u : Nat) : Nat := (0xc0 + u) * 0x10000 + 0x114
abbrev LNK_RT_MAX (u : Nat) : Nat := (0xc0 + u) * 0x10000 + 0x118
abbrev LNK_LAST_DOWN (u : Nat) : Nat := (0xc0 + u) * 0x10000 + 0x11c
abbrev LNK_FLITS_TX (u : Nat) : Nat := (0xc0 + u) * 0x10000 + 0x120
abbrev LNK_FLITS_RX (u : Nat) : Nat := (0xc0 + u) * 0x10000 + 0x128
abbrev LNK_FEC_CORR (u : Nat) : Nat := (0xc0 + u) * 0x10000 + 0x130
abbrev LNK_RETRY (u : Nat) : Nat := (0xc0 + u) * 0x10000 + 0x138
abbrev LNK_FEC_UNCORR (u : Nat) : Nat := (0xc0 + u) * 0x10000 + 0x140
abbrev LNK_CRC_ERR (u : Nat) : Nat := (0xc0 + u) * 0x10000 + 0x144
abbrev LNK_RETRAINS (u : Nat) : Nat := (0xc0 + u) * 0x10000 + 0x148
abbrev LNK_SWITCHES (u : Nat) : Nat := (0xc0 + u) * 0x10000 + 0x14c
abbrev LNK_PEER_ID (u i : Nat) : Nat := (0xc0 + u) * 0x10000 + 0x160 + 4 * i
abbrev LNK_ADM_ID (u i : Nat) : Nat := (0xc0 + u) * 0x10000 + 0x180 + 4 * i
abbrev LNK_SNAP (u i : Nat) : Nat := (0xc0 + u) * 0x10000 + 0x1a0 + 8 * i
abbrev LNK_SNAP_M (u : Nat) : Nat := (0xc0 + u) * 0x10000 + 0x1c0
abbrev RED_CTL : Nat := 0xe00100
abbrev RED_FAB : Nat := 0xe00104
abbrev RED_STAT : Nat := 0xe00108
abbrev RED_TSET : Nat := 0xe0010c
abbrev RED_TIMEOUT : Nat := 0xe00110
abbrev RED_FAULT : Nat := 0xe00114
abbrev RED_LAT_MAX : Nat := 0xe00118
abbrev RED_SEQ : Nat := 0xe00120
abbrev RED_BUCKETS : Nat := 0xe00128
abbrev RED_BLOCKS : Nat := 0xe00130
abbrev RED_ALIGN_LOSS : Nat := 0xe00138
abbrev RED_RESTART : Nat := 0xe00140
abbrev RED_POISON : Nat := 0xe00144
abbrev RED_NONFIN : Nat := 0xe00148
abbrev RED_TREE (i : Nat) : Nat := 0xe00200 + 4 * i
abbrev SPT_CTL : Nat := 0xe10100
abbrev SPT_STAT : Nat := 0xe10104
abbrev SPT_MIN_LEAD : Nat := 0xe10108
abbrev SPT_LAST_WH : Nat := 0xe1010c
abbrev SPT_MAC0_LO : Nat := 0xe10110
abbrev SPT_MAC0_HI : Nat := 0xe10114
abbrev SPT_MAC1_LO : Nat := 0xe10118
abbrev SPT_MAC1_HI : Nat := 0xe1011c
abbrev SPT_IP0 : Nat := 0xe10120
abbrev SPT_IP1 : Nat := 0xe10124
abbrev SPT_VLAN : Nat := 0xe10128
abbrev SPT_FRAMES_TX : Nat := 0xe10130
abbrev SPT_WITHHELD : Nat := 0xe10138
abbrev SPT_CLAMPED : Nat := 0xe10140
abbrev SPT_LATE : Nat := 0xe10144
abbrev SPT_REFUSED : Nat := 0xe10148
abbrev SPT_REPLACED : Nat := 0xe1014c
abbrev SPT_PTP_RX : Nat := 0xe10150
abbrev SPT_PTP_IGN : Nat := 0xe10158
abbrev SPT_SNAP (i : Nat) : Nat := 0xe10160 + 8 * i
abbrev SPT_SNAP_M : Nat := 0xe10170
abbrev SPT_SEL : Nat := 0xe10200
abbrev SPT_CMD : Nat := 0xe10204
abbrev SPT_RESULT : Nat := 0xe10208
abbrev SPT_E (i : Nat) : Nat := 0xe10280 + 4 * i
abbrev SPT_EK (i : Nat) : Nat := 0xe102a0 + 4 * i
abbrev HIF_LINK : Nat := 0x60100
abbrev HIF_LD_EN : Nat := 0x60104
abbrev HIF_STAT : Nat := 0x60108
abbrev HIF_ATTN_CNT : Nat := 0x6010c
abbrev HIF_ACC_LAST : Nat := 0x60110
abbrev HIF_RETRAIN : Nat := 0x60114
abbrev HIF_FETCH_MAX : Nat := 0x60118
abbrev HIF_QFREE : Nat := 0x6011c
abbrev HIF_CMDS : Nat := 0x60120
abbrev HIF_ERR_CPL : Nat := 0x60128
abbrev HIF_QMAX (i : Nat) : Nat := 0x61000 + 0x10 * i
abbrev HIF_QUSE (i : Nat) : Nat := 0x61004 + 0x10 * i
abbrev HIF_QHELD (i : Nat) : Nat := 0x61008 + 0x10 * i
abbrev HIF_PMB_SQE (i : Nat) : Nat := 0x62000 + 4 * i
abbrev HIF_PMB_GO : Nat := 0x62040
abbrev HIF_PMB_CQE (i : Nat) : Nat := 0x62080 + 4 * i
abbrev HIF_PMB_STAT : Nat := 0x62090
abbrev ERR_CTL : Nat := 0xc0100
abbrev ERR_STAT : Nat := 0xc0104
abbrev ERR_HEAD : Nat := 0xc0108
abbrev ERR_TAIL : Nat := 0xc0110
abbrev ERR_WRAP : Nat := 0xc0118
abbrev ERR_WIN : Nat := 0xc0120
abbrev ERR_COAL : Nat := 0xc0124
abbrev ERR_CNT (i : Nat) : Nat := 0xc0140 + 8 * i
abbrev ERR_OVF (i : Nat) : Nat := 0xc01c0 + 4 * i
abbrev ERR_ENTRY (i j : Nat) : Nat := 0xc8000 + 0x20 * i + 4 * j
abbrev SCR_CTL : Nat := 0xd0100
abbrev SCR_PERIOD : Nat := 0xd0104
abbrev SCR_STAT : Nat := 0xd0108
abbrev SCR_POS : Nat := 0xd0110
abbrev SCR_PASSES : Nat := 0xd0118
abbrev SCR_CORR : Nat := 0xd0120
abbrev SCR_UNCORR : Nat := 0xd0128
abbrev SCR_PASS_SEC : Nat := 0xd0130
abbrev MEM_STAT (p : Nat) : Nat := p * 0x10000 + 0x100
abbrev MEM_CORR1 (p : Nat) : Nat := p * 0x10000 + 0x108
abbrev MEM_CORR2 (p : Nat) : Nat := p * 0x10000 + 0x110
abbrev MEM_UNCORR (p : Nat) : Nat := p * 0x10000 + 0x118
abbrev MEM_ADDRERR (p : Nat) : Nat := p * 0x10000 + 0x11c
abbrev MEM_LAST_ADDR (p : Nat) : Nat := p * 0x10000 + 0x120
abbrev MEM_LAST_SYN (p : Nat) : Nat := p * 0x10000 + 0x128
abbrev MEM_MRG (p : Nat) : Nat := p * 0x10000 + 0x12c
abbrev MEM_RMW (p : Nat) : Nat := p * 0x10000 + 0x130
abbrev MEM_BANK_SEL (p : Nat) : Nat := p * 0x10000 + 0x138
abbrev MEM_BANK_CNT (p : Nat) : Nat := p * 0x10000 + 0x13c
abbrev MEM_RET_CMD (p : Nat) : Nat := p * 0x10000 + 0x140
abbrev MEM_RET_ARG (p : Nat) : Nat := p * 0x10000 + 0x144
abbrev MEM_RET_RESULT (p : Nat) : Nat := p * 0x10000 + 0x148
abbrev MEM_RET_LEFT (p : Nat) : Nat := p * 0x10000 + 0x14c
abbrev MEM_RET_FRAME (p i : Nat) : Nat := p * 0x10000 + 0x1000 + 4 * i
abbrev MEM_RET_BANK (p i : Nat) : Nat := p * 0x10000 + 0x1400 + 4 * i
abbrev SEC_STAT : Nat := 0xe0100
abbrev SEC_PUF_ERR : Nat := 0xe0104
abbrev SEC_RIGHTS_CTL : Nat := 0xe0108
abbrev SEC_HOLD_MAX : Nat := 0xe010c
abbrev SEC_RIGHTS_GEN : Nat := 0xe0110
abbrev SEC_RIGHTS_M : Nat := 0xe0118
abbrev SEC_OLDSTEPS : Nat := 0xe0120
abbrev SEC_ATT_ERR : Nat := 0xe0124
abbrev SEC_QUOTES : Nat := 0xe0128
abbrev SEC_DIAG_CTL : Nat := 0xe0130
abbrev SEC_DIAG_LEFT : Nat := 0xe0138
abbrev SEC_ID_DIGEST (i : Nat) : Nat := 0xe0140 + 4 * i
abbrev SEC_MEAS_SEL : Nat := 0xe0180
abbrev SEC_MEAS_CNT : Nat := 0xe0188
abbrev SEC_MEAS (i : Nat) : Nat := 0xe01c0 + 4 * i
abbrev NOR_STAT : Nat := 0xf0100
abbrev NOR_ROLLBACK : Nat := 0xf0104
abbrev NOR_F_SEQ : Nat := 0xf0108
abbrev NOR_F_SVN : Nat := 0xf010c
abbrev NOR_F_VER : Nat := 0xf0110
abbrev NOR_B_SEQ : Nat := 0xf0114
abbrev NOR_B_SVN : Nat := 0xf0118
abbrev NOR_B_VER : Nat := 0xf011c
abbrev NOR_DL_STAT : Nat := 0xf0120
abbrev NOR_CMT_STAT : Nat := 0xf0124
abbrev NOR_ATTEMPTS : Nat := 0xf0128
abbrev NOR_SUSP : Nat := 0xf012c
abbrev NOR_ERASE_MAX : Nat := 0xf0130
abbrev NOR_WEAR_WARN : Nat := 0xf0134
abbrev NOR_LAST_SECT : Nat := 0xf0138
abbrev NOR_ACT_DIGEST (i : Nat) : Nat := 0xf0140 + 4 * i
abbrev SYS_PART : Nat := 0x10100
abbrev SYS_STATE : Nat := 0x10104
abbrev SYS_SHAPE : Nat := 0x10108
abbrev SYS_FLAGS : Nat := 0x1010c
abbrev SYS_TINY : Nat := 0x10110
abbrev SYS_FATAL : Nat := 0x10114
abbrev SYS_BOOT_CAUSE : Nat := 0x10118
abbrev SYS_BRINGUP_MS : Nat := 0x1011c
abbrev SYS_ATTN : Nat := 0x10120
abbrev SYS_ATTN_EN : Nat := 0x10124
abbrev SYS_RESETS : Nat := 0x10128
abbrev RST_CMD : Nat := 0x20100
abbrev RST_WD_CTL : Nat := 0x20104
abbrev RST_WD_LIMIT : Nat := 0x20108
abbrev RST_WD_KICK : Nat := 0x2010c
abbrev RST_FENCE_SEL : Nat := 0x20110
abbrev RST_FENCE_CMD : Nat := 0x20114
abbrev RST_FENCE_RESULT : Nat := 0x20118
abbrev RST_FENCE_CNT : Nat := 0x2011c
abbrev RST_FENCE (i : Nat) : Nat := 0x20200 + 4 * i

end R

/-- The common page header (R36). -/
def headerDefs : List RegDef :=
  [
   ⟨0, 1, 0, 1, 0, false, 0, 0, 0, 0, false, 0, false⟩,  -- PG_ID
   ⟨4, 1, 0, 1, 0, false, 0, 0, 0, 0, false, 0, false⟩,  -- PG_SHAPE
   ⟨8, 1, 0, 1, 0, false, 0, 0, 0, 0, false, 0, false⟩,  -- PG_PRESENT
   ⟨0xc, 1, 0, 1, 0, false, 0x80000003, 0, 0, 0x80000000, false, 0, false⟩,  -- PG_CTL
   ⟨0x10, 1, 0, 1, 0, false, 0, 0, 0, 0, false, 1, false⟩,  -- PG_STAT
   ⟨0x14, 1, 0, 1, 0, false, 0, 0, 0, 0, false, 0, false⟩,  -- PG_ERR
   ⟨0x18, 1, 0, 1, 0, false, 0xffffffff, 0, 0, 0, false, 0, false⟩,  -- PG_IRQ_EN
   ⟨0x1c, 1, 0, 1, 0, false, 0, 0xffffffff, 0, 0, false, 0, false⟩,  -- PG_IRQ_STAT
   ⟨0x20, 1, 0, 1, 0, false, 0xff, 0, 0, 0xff, false, 0xff, false⟩,  -- PG_OWNER
   ⟨0x24, 1, 0, 1, 0, false, 0xfffe, 0, 0, 0xfffe, false, 1, false⟩  -- PG_GUARD
  ]

/-- The block registers of DIR (R48). -/
def dirDefs : List RegDef :=
  [
   ⟨0x100, 1, 0, 1, 0, false, 0, 0, 0, 0, false, 0x100, false⟩,  -- DIR_PAGES
   ⟨0x104, 1, 0, 1, 0, false, 0, 0, 0, 0, false, 0, false⟩,  -- DIR_GEN
   ⟨0x400, 256, 4, 1, 0, false, 0, 0, 0, 0, false, 0, false⟩  -- DIR_ENTRY
  ]

/-- The block registers of SYS (R527). -/
def sysDefs : List RegDef :=
  [
   ⟨0x100, 1, 0, 1, 0, false, 0, 0, 0, 0, false, 0x882400a1, false⟩,  -- SYS_PART
   ⟨0x104, 1, 0, 1, 0, false, 0, 0, 0, 0, false, 1, false⟩,  -- SYS_STATE
   ⟨0x108, 1, 0, 1, 0, false, 0, 0, 0, 0, false, 0, false⟩,  -- SYS_SHAPE
   ⟨0x10c, 1, 0, 1, 0, false, 0, 0, 0, 0, false, 0, false⟩,  -- SYS_FLAGS
   ⟨0x110, 1, 0, 1, 0, false, 0, 0, 0, 0, false, 0, false⟩,  -- SYS_TINY
   ⟨0x114, 1, 0, 1, 0, false, 0, 0, 0, 0, false, 0, false⟩,  -- SYS_FATAL
   ⟨0x118, 1, 0, 1, 0, false, 0, 0, 0, 0, false, 0, false⟩,  -- SYS_BOOT_CAUSE
   ⟨0x11c, 1, 0, 1, 0, false, 0, 0, 0, 0, false, 0, false⟩,  -- SYS_BRINGUP_MS
   ⟨0x120, 1, 0, 1, 0, false, 0, 0xfff, 0, 0, false, 0, false⟩,  -- SYS_ATTN
   ⟨0x124, 1, 0, 1, 0, false, 0xfff, 0, 0, 0xfff, false, 0xfff, false⟩,  -- SYS_ATTN_EN
   ⟨0x128, 1, 0, 1, 0, false, 0, 0, 0, 0, false, 0, false⟩  -- SYS_RESETS
  ]

/-- The block registers of RST (R528). -/
def rstDefs : List RegDef :=
  [
   ⟨0x100, 1, 0, 1, 0, false, 0, 0, 0, 0, true, 0, false⟩,  -- RST_CMD
   ⟨0x104, 1, 0, 1, 0, false, 0, 0, 0, 0, false, 0, false⟩,  -- RST_WD_CTL
   ⟨0x108, 1, 0, 1, 0, false, 0, 0, 0, 0, false, 0x7d0, false⟩,  -- RST_WD_LIMIT
   ⟨0x10c, 1, 0, 1, 0, false, 0, 0, 0, 0, true, 0, false⟩,  -- RST_WD_KICK
   ⟨0x110, 1, 0, 1, 0, false, 0xff, 0, 0, 0, false, 0, false⟩,  -- RST_FENCE_SEL
   ⟨0x114, 1, 0, 1, 0, false, 0, 0, 0, 0, true, 0, false⟩,  -- RST_FENCE_CMD
   ⟨0x118, 1, 0, 1, 0, false, 0, 0, 0, 0, false, 0, false⟩,  -- RST_FENCE_RESULT
   ⟨0x11c, 1, 0, 1, 0, false, 0, 0, 0, 0, false, 0, false⟩,  -- RST_FENCE_CNT
   ⟨0x200, 64, 4, 1, 0, false, 0, 0, 0, 0, false, 0, false⟩  -- RST_FENCE
  ]

/-- The block registers of TMB (R91). -/
def tmbDefs : List RegDef :=
  [
   ⟨0x100, 1, 0, 1, 0, false, 0xff1f, 0, 0, 0, false, 0x8000, false⟩,  -- TMB_CTL
   ⟨0x104, 1, 0, 1, 0, false, 0, 0, 0, 0, false, 0xf000, false⟩,  -- TMB_STAT
   ⟨0x110, 1, 0, 1, 0, false, 0, 0, 0, 0, false, 0, false⟩,  -- TMB_NOW_FRAC
   ⟨0x114, 1, 0, 1, 0, false, 0, 0, 0, 0, false, 0, false⟩,  -- TMB_NOW_NS
   ⟨0x118, 1, 0, 1, 0, false, 0, 0, 0, 0, false, 0, false⟩,  -- TMB_NOW_SEC_LO
   ⟨0x11c, 1, 0, 1, 0, false, 0, 0, 0, 0, false, 0, false⟩,  -- TMB_NOW_SEC_HI
   ⟨0x120, 1, 0, 1, 0, false, 0xffffffff, 0, 0, 0, false, 0, false⟩,  -- TMB_SET_NS
   ⟨0x124, 1, 0, 1, 0, false, 0xffffffff, 0, 0, 0, false, 0, false⟩,  -- TMB_SET_SEC_LO
   ⟨0x128, 1, 0, 1, 0, false, 0xffff, 0, 0, 0, false, 0, false⟩,  -- TMB_SET_SEC_HI
   ⟨0x12c, 1, 0, 1, 0, false, 0, 0, 0, 0, true, 0, false⟩,  -- TMB_CMD
   ⟨0x130, 1, 0, 1, 0, false, 0, 0, 0, 0, false, 0, false⟩,  -- TMB_FREQ_ADJ
   ⟨0x134, 1, 0, 1, 0, false, 0, 0, 0, 0, false, 0, false⟩,  -- TMB_PHASE_ERR
   ⟨0x138, 1, 0, 1, 0, false, 0, 0, 0, 0, false, 0xffffffff, false⟩,  -- TMB_HO_EST
   ⟨0x13c, 1, 0, 1, 0, false, 0xffffffff, 0, 0, 0, false, 0x3e8, false⟩,  -- TMB_HO_LIMIT
   ⟨0x140, 1, 0, 1, 0, false, 0x8007ffff, 0, 0, 0, false, 0x186a0, false⟩,  -- TMB_PPS_CTL
   ⟨0x144, 1, 0, 1, 0, false, 0, 0, 0xffffffff, 0, false, 0, false⟩,  -- TMB_REJECT
   ⟨0x150, 1, 0, 1, 0, false, 0, 0, 0, 0, false, 0, false⟩,  -- TMB_PPSIN_FRAC
   ⟨0x154, 1, 0, 1, 0, false, 0, 0, 0, 0, false, 0, false⟩,  -- TMB_PPSIN_NS
   ⟨0x158, 1, 0, 1, 0, false, 0, 0, 0, 0, false, 0, false⟩,  -- TMB_PPSIN_SEC_LO
   ⟨0x15c, 1, 0, 1, 0, false, 0, 0, 0, 0, false, 0, false⟩,  -- TMB_PPSIN_SEC_HI
   ⟨0x160, 1, 0, 1, 0, false, 0x3ff, 0, 0, 0, false, 0, false⟩,  -- TMB_PTP_CTL
   ⟨0x164, 1, 0, 1, 0, false, 0, 0, 0, 0, false, 0, false⟩,  -- TMB_PTP_OFFS
   ⟨0x170, 1, 0, 1, 0, false, 0, 0, 0, 0, false, 0, false⟩,  -- TMB_CALLER
   ⟨0x174, 1, 0, 1, 0, false, 0, 0, 0, 0, false, 0, false⟩  -- TMB_UP_LINK
  ] ++
  [
   ⟨0x178, 1, 0, 1, 0, false, 0xffffffff, 0, 0, 0, false, 0x14003e8, false⟩,  -- TMB_CAL_CTL
   ⟨0x17c, 1, 0, 1, 0, false, 0, 0, 0xffffffff, 0, false, 0, false⟩,  -- TMB_DISCARD
   ⟨0x200, 32, 8, 1, 0, false, 0, 0, 0, 0, false, 0, false⟩,  -- TMB_LDLY
   ⟨0x204, 32, 8, 1, 0, false, 0xffff, 0, 0, 0, false, 0, false⟩  -- TMB_LASYM
  ]

/-- The block registers of MSR (R93). -/
def msrDefs : List RegDef :=
  [
   ⟨0x100, 1, 0, 1, 0, false, 1, 0, 0, 0, false, 0, false⟩,  -- MSR_CTL
   ⟨0x104, 1, 0, 1, 0, false, 0x7ff, 0, 0, 0, false, 0x100, false⟩,  -- MSR_LEAD
   ⟨0x108, 1, 0, 1, 0, false, 0, 0, 0, 0, false, 0x3e8, false⟩,  -- MSR_PERIOD
   ⟨0x10c, 1, 0, 1, 0, false, 0xffffffff, 0, 0, 0, false, 0x3e8, false⟩,  -- MSR_NEXT_PERIOD
   ⟨0x110, 1, 0, 1, 0, true, 0xffffffffffffffff, 0, 0, 0, false, 0, false⟩,  -- MSR_CHANGE_AT
   ⟨0x118, 1, 0, 1, 0, true, 0, 0, 0, 0, false, 0, false⟩,  -- MSR_NOW
   ⟨0x120, 1, 0, 1, 0, false, 0xffff, 0, 0, 0, false, 0, false⟩,  -- MSR_ORIGIN_FRAC
   ⟨0x124, 1, 0, 1, 0, false, 0xffffffff, 0, 0, 0, false, 0, false⟩,  -- MSR_ORIGIN_NS
   ⟨0x128, 1, 0, 1, 0, false, 0xffffffff, 0, 0, 0, false, 0, false⟩,  -- MSR_ORIGIN_SEC_LO
   ⟨0x12c, 1, 0, 1, 0, false, 0xffff, 0, 0, 0, false, 0, false⟩,  -- MSR_ORIGIN_SEC_HI
   ⟨0x130, 1, 0, 1, 0, true, 0xffffffffffffffff, 0, 0, 0, false, 0, false⟩,  -- MSR_ORIGIN_M
   ⟨0x138, 1, 0, 1, 0, false, 0, 0, 0xffffffff, 0, false, 0, false⟩,  -- MSR_MISSED
   ⟨0x1000, 256, 0x10, 1, 0, true, 0xffffffffffffffff, 0, 0, 0, false, 0, false⟩,  -- ARM_TGT
   ⟨0x1008, 256, 0x10, 1, 0, false, 0xffffff, 0, 0, 0, false, 0, false⟩,  -- ARM_ACT
   ⟨0x100c, 256, 0x10, 1, 0, false, 0, 0, 0, 0, true, 0, false⟩  -- ARM_CMD
  ]

/-- The block registers of IRQ (R52). -/
def irqDefs : List RegDef :=
  [
   ⟨0x8000, 16, 0x800, 1, 0, false, 0, 0x1fff, 0, 0, false, 0, false⟩,  -- IRQ_CAT_STAT
   ⟨0x8004, 16, 0x800, 1, 0, false, 0x1fff, 0, 0, 0, false, 0, false⟩,  -- IRQ_CAT_EN
   ⟨0x8008, 16, 0x800, 1, 0, false, 0xffff, 0, 0, 0, false, 0, false⟩,  -- IRQ_MOD
   ⟨0x8020, 16, 0x800, 8, 4, false, 0, 0, 0, 0, false, 0, false⟩  -- IRQ_PEND
  ]

/-- The block registers of HIF (R434). -/
def hifDefs : List RegDef :=
  [
   ⟨0x100, 1, 0, 1, 0, false, 0, 0, 0, 0, false, 0, false⟩,  -- HIF_LINK
   ⟨0x104, 1, 0, 1, 0, false, 0, 0, 0, 0, false, 0, false⟩,  -- HIF_LD_EN
   ⟨0x108, 1, 0, 1, 0, false, 0, 0, 0, 0, false, 0, false⟩,  -- HIF_STAT
   ⟨0x10c, 1, 0, 1, 0, false, 0, 0, 0xffffffff, 0, false, 0, false⟩,  -- HIF_ATTN_CNT
   ⟨0x110, 1, 0, 1, 0, false, 0, 0, 0, 0, false, 0, false⟩,  -- HIF_ACC_LAST
   ⟨0x114, 1, 0, 1, 0, false, 0, 0, 0xffffffff, 0, false, 0, false⟩,  -- HIF_RETRAIN
   ⟨0x118, 1, 0, 1, 0, false, 0, 0, 0xffffffff, 0, false, 0, false⟩,  -- HIF_FETCH_MAX
   ⟨0x11c, 1, 0, 1, 0, false, 0, 0, 0, 0, false, 0x1000, false⟩,  -- HIF_QFREE
   ⟨0x120, 1, 0, 1, 0, true, 0, 0, 0, 0, false, 0, false⟩,  -- HIF_CMDS
   ⟨0x128, 1, 0, 1, 0, true, 0, 0, 0, 0, false, 0, false⟩,  -- HIF_ERR_CPL
   ⟨0x1000, 16, 0x10, 1, 0, false, 0x7ff, 0, 0, 0x7ff, false, 0x100, false⟩,  -- HIF_QMAX
   ⟨0x1004, 16, 0x10, 1, 0, false, 0, 0, 0, 0, false, 0, false⟩,  -- HIF_QUSE
   ⟨0x1008, 16, 0x10, 1, 0, false, 0, 0, 0xffffffff, 0, false, 0, false⟩,  -- HIF_QHELD
   ⟨0x2000, 16, 4, 1, 0, false, 0xffffffff, 0, 0, 0xffffffff, false, 0, false⟩,  -- HIF_PMB_SQE
   ⟨0x2040, 1, 0, 1, 0, false, 0, 0, 0, 0x1, true, 0, false⟩,  -- HIF_PMB_GO
   ⟨0x2080, 4, 4, 1, 0, false, 0, 0, 0, 0, false, 0, false⟩,  -- HIF_PMB_CQE
   ⟨0x2090, 1, 0, 1, 0, false, 0, 0, 0, 0, false, 0, false⟩  -- HIF_PMB_STAT
  ]

/-- The block registers of SCH (R242). -/
def schDefs : List RegDef :=
  [
   ⟨0x100, 1, 0, 1, 0, false, 0, 0, 0, 0, false, 0, false⟩,  -- SCH_STAT
   ⟨0x104, 1, 0, 1, 0, false, 0x1f, 0, 0, 0x1f, false, 8, false⟩,  -- SCH_HBM_LC
   ⟨0x108, 1, 0, 1, 0, false, 0xffff, 0, 0, 0xffff, false, 0x800, false⟩,  -- SCH_WD_SLACK
   ⟨0x10c, 1, 0, 1, 0, false, 0xffff, 0, 0, 0xffff, false, 0x10, false⟩,  -- SCH_BE_WAIT
   ⟨0x110, 1, 0, 1, 0, false, 0xffff, 0, 0, 0xffff, false, 0x3e8, false⟩,  -- SCH_BE_AGE
   ⟨0x114, 1, 0, 1, 0, false, 0xffff, 0, 0, 0xffff, false, 0x3e8, false⟩,  -- SCH_HOT
   ⟨0x118, 1, 0, 1, 0, false, 0, 0, 0, 0x3, true, 0, false⟩,  -- SCH_RES_CMD
   ⟨0x11c, 1, 0, 1, 0, false, 0, 0, 0, 0, false, 0, false⟩,  -- SCH_RES_RESULT
   ⟨0x120, 1, 0, 1, 0, false, 0, 0, 0, 0, false, 0, false⟩,  -- SCH_FIG_LOADED
   ⟨0x200, 26, 4, 1, 0, false, 0x8f8f8f8f, 0, 0, 0x8f8f8f8f, false, 0, false⟩,  -- SCH_RES_STAGE
   ⟨0x280, 26, 4, 1, 0, false, 0, 0, 0, 0, false, 0, false⟩,  -- SCH_RES
   ⟨0x1000, 16, 0x100, 1, 0, false, 0x1ff, 0, 0, 0x1ff, false, 0, false⟩,  -- SCH_C_CTL
   ⟨0x1004, 16, 0x100, 1, 0, false, 0, 0, 0, 0, false, 0, false⟩,  -- SCH_C_STAT
   ⟨0x1008, 16, 0x100, 1, 0, false, 0, 0, 0, 0, false, 0, false⟩,  -- SCH_C_Q
   ⟨0x100c, 16, 0x100, 1, 0, false, 0, 0, 0xffffffff, 0, false, 0, false⟩,  -- SCH_C_LAT_MAX
   ⟨0x1010, 16, 0x100, 1, 0, false, 0, 0, 0xffffffff, 0, false, 0, false⟩,  -- SCH_C_BREAK
   ⟨0x1014, 16, 0x100, 1, 0, false, 0, 0, 0xffffffff, 0, false, 0, false⟩,  -- SCH_C_UNCOV
   ⟨0x1018, 16, 0x100, 1, 0, false, 0, 0, 0, 0, false, 0, false⟩,  -- SCH_C_LAST
   ⟨0x101c, 16, 0x100, 1, 0, false, 0, 0, 0, 0, false, 0, false⟩  -- SCH_C_LAST_CTX
  ]

/-- The block registers of ACC (R235, R246). -/
def accDefs : List RegDef :=
  [
   ⟨0x100, 1, 0, 1, 0, false, 0xffffffff, 0, 0, 0xffffffff, false, 0x3e8, false⟩,  -- ACC_SNAP_EVERY
   ⟨0x104, 1, 0, 1, 0, false, 0, 0, 0, 0, false, 0, false⟩,  -- ACC_STAT
   ⟨0x108, 1, 0, 1, 0, true, 0, 0, 0, 0, false, 0, false⟩,  -- ACC_SNAP_M
   ⟨0x110, 12, 4, 1, 0, false, 0, 0, 0, 0, false, 0, false⟩,  -- ACC_COEF
   ⟨0x1000, 17, 0x800, 1, 0, true, 0, 0, 0, 0, false, 0, false⟩,  -- ACC_ENG_ROW
   ⟨0x1008, 17, 0x800, 1, 0, true, 0, 0, 0, 0, false, 0, false⟩,  -- ACC_ENG_COL
   ⟨0x1010, 17, 0x800, 1, 0, true, 0, 0, 0, 0, false, 0, false⟩,  -- ACC_ENG_CHN
   ⟨0x1018, 17, 0x800, 1, 0, true, 0, 0, 0, 0, false, 0, false⟩,  -- ACC_T1_RD
   ⟨0x1020, 17, 0x800, 1, 0, true, 0, 0, 0, 0, false, 0, false⟩,  -- ACC_T1_WR
   ⟨0x1028, 17, 0x800, 1, 0, true, 0, 0, 0, 0, false, 0, false⟩,  -- ACC_T2_RD
   ⟨0x1030, 17, 0x800, 1, 0, true, 0, 0, 0, 0, false, 0, false⟩,  -- ACC_T2_WR
   ⟨0x1038, 17, 0x800, 1, 0, true, 0, 0, 0, 0, false, 0, false⟩,  -- ACC_T3_RD
   ⟨0x1040, 17, 0x800, 1, 0, true, 0, 0, 0, 0, false, 0, false⟩,  -- ACC_T3_WR
   ⟨0x1048, 17, 0x800, 1, 0, true, 0, 0, 0, 0, false, 0, false⟩,  -- ACC_HOST_RD
   ⟨0x1050, 17, 0x800, 1, 0, true, 0, 0, 0, 0, false, 0, false⟩,  -- ACC_HOST_WR
   ⟨0x1058, 17, 0x800, 1, 0, true, 0, 0, 0, 0, false, 0, false⟩,  -- ACC_ENERGY_UJ
   ⟨0x1060, 17, 0x800, 1, 0, true, 0, 0, 0, 0, false, 0, false⟩,  -- ACC_RUNS
   ⟨0x1068, 17, 0x800, 1, 0, true, 0, 0, 0, 0, false, 0, false⟩,  -- ACC_STEPS
   ⟨0x1070, 17, 0x800, 1, 0, true, 0, 0, 0, 0, false, 0, false⟩,  -- ACC_TOKENS
   ⟨0x1078, 17, 0x800, 1, 0, true, 0, 0, 0, 0, false, 0, false⟩,  -- ACC_LC_RUNS
   ⟨0x1080, 17, 0x800, 1, 0, true, 0, 0, 0, 0, false, 0, false⟩,  -- ACC_LC_UNCOV
   ⟨0x1088, 17, 0x800, 1, 0, true, 0, 0, 0, 0, false, 0, false⟩,  -- ACC_LC_BREAK
   ⟨0x1090, 17, 0x800, 1, 0, true, 0, 0, 0, 0, false, 0, false⟩,  -- ACC_TEARDOWNS
   ⟨0x1098, 17, 0x800, 1, 0, true, 0, 0, 0, 0, false, 0, false⟩,
   ⟨0x1100, 17, 0x800, 20, 8, true, 0, 0, 0, 0, false, 0, false⟩  -- ACC_SNAP
  ] ++
  [
   ⟨0x1200, 17, 0x800, 32, 0x10, true, 0, 0, 0, 0, false, 0, false⟩,  -- ACC_LINK_TX
   ⟨0x1208, 17, 0x800, 32, 0x10, true, 0, 0, 0, 0, false, 0, false⟩,  -- ACC_LINK_RX
   ⟨0x1400, 17, 0x800, 32, 0x10, true, 0, 0, 0, 0, false, 0, false⟩,  -- ACC_LINK_TX_SNAP
   ⟨0x1408, 17, 0x800, 32, 0x10, true, 0, 0, 0, 0, false, 0, false⟩  -- ACC_LINK_RX_SNAP
  ]

/-- The block registers of CTX (R244). -/
def ctxDefs : List RegDef :=
  [
   ⟨0x100, 1, 0, 1, 0, false, 0, 0, 0, 0, false, 0x40000, false⟩,  -- CTX_TOTAL
   ⟨0x104, 1, 0, 1, 0, false, 0, 0, 0, 0, false, 0x40000, false⟩,  -- CTX_FREE
   ⟨0x108, 1, 0, 1, 0, false, 0x3ffff, 0, 0, 0, false, 0, true⟩,  -- CTX_SEL
   ⟨0x10c, 1, 0, 1, 0, false, 0, 0, 0, 0, true, 0, false⟩,  -- CTX_CMD
   ⟨0x110, 1, 0, 1, 0, false, 0, 0, 0, 0, false, 0, true⟩,  -- CTX_RESULT
   ⟨0x180, 32, 4, 1, 0, false, 0, 0, 0, 0, false, 0, true⟩,  -- CTX_ENTRY
   ⟨0x1000, 16, 0x10, 1, 0, false, 0x7ffff, 0, 0, 0x7ffff, false, 0, false⟩,  -- CTX_MAX
   ⟨0x1004, 16, 0x10, 1, 0, false, 0, 0, 0, 0, false, 0, false⟩,  -- CTX_USE
   ⟨0x1008, 16, 0x10, 1, 0, false, 0, 0, 0, 0, false, 0, false⟩  -- CTX_FAULTED
  ]

/-- The block registers of TIER (R204). -/
def tierDefs : List RegDef :=
  [
   ⟨0x100, 1, 0, 1, 0, false, 0, 0, 0, 0, false, 0, false⟩,  -- TIER_STAT
   ⟨0x104, 1, 0, 1, 0, false, 0x7ff, 0, 0, 0x7ff, false, 0x320, false⟩,  -- TIER_BIND_CAP
   ⟨0x108, 1, 0, 1, 0, false, 0xff, 0, 0, 0xff, false, 4, false⟩,  -- TIER_DL_GUARD
   ⟨0x110, 1, 0, 1, 0, true, 0, 0, 0, 0, false, 0, false⟩,  -- TIER_CAP_T1
   ⟨0x118, 1, 0, 1, 0, true, 0, 0, 0, 0, false, 0, false⟩,  -- TIER_CAP_T2
   ⟨0x120, 1, 0, 1, 0, true, 0, 0, 0, 0, false, 0, false⟩,  -- TIER_CAP_T3
   ⟨0x128, 1, 0, 1, 0, true, 0, 0, 0, 0, false, 0, false⟩,  -- TIER_FREE_T1
   ⟨0x130, 1, 0, 1, 0, true, 0, 0, 0, 0, false, 0, false⟩,  -- TIER_FREE_T2
   ⟨0x138, 1, 0, 1, 0, true, 0, 0, 0, 0, false, 0, false⟩,  -- TIER_FREE_T3
   ⟨0x140, 1, 0, 1, 0, false, 0, 0, 0, 0, false, 0, false⟩,  -- TIER_CXLM_TOTAL
   ⟨0x148, 1, 0, 1, 0, true, 0, 0, 0, 0, false, 0, false⟩,  -- TIER_MISS_M
   ⟨0x150, 1, 0, 1, 0, false, 0, 0, 0, 0, false, 0, false⟩,  -- TIER_MISS_CTX
   ⟨0x154, 1, 0, 1, 0, false, 0, 0, 0, 0, false, 0, false⟩,  -- TIER_MISS_LAYER
   ⟨0x158, 1, 0, 1, 0, false, 0, 0, 0xffffffff, 0, false, 0, false⟩,  -- TIER_PRESS_ERR
   ⟨0x160, 1, 0, 1, 0, true, 0, 0, 0, 0, false, 0, false⟩,  -- TIER_PRESS_IN
   ⟨0x168, 1, 0, 1, 0, true, 0, 0, 0, 0, false, 0, false⟩,  -- TIER_PRESS_OUT
   ⟨0x1000, 16, 0x100, 1, 0, true, 0xffffffffffffffff, 0, 0, 0xffffffffffffffff, false, 0, false⟩,  -- TQ_MIN_T1
   ⟨0x1008, 16, 0x100, 1, 0, true, 0xffffffffffffffff, 0, 0, 0xffffffffffffffff, false, 0, false⟩,  -- TQ_MAX_T1
   ⟨0x1010, 16, 0x100, 1, 0, true, 0, 0, 0, 0, false, 0, false⟩,  -- TQ_USE_T1
   ⟨0x1018, 16, 0x100, 1, 0, true, 0xffffffffffffffff, 0, 0, 0xffffffffffffffff, false, 0, false⟩,  -- TQ_MIN_T2
   ⟨0x1020, 16, 0x100, 1, 0, true, 0xffffffffffffffff, 0, 0, 0xffffffffffffffff, false, 0, false⟩,  -- TQ_MAX_T2
   ⟨0x1028, 16, 0x100, 1, 0, true, 0, 0, 0, 0, false, 0, false⟩,  -- TQ_USE_T2
   ⟨0x1030, 16, 0x100, 1, 0, true, 0xffffffffffffffff, 0, 0, 0xffffffffffffffff, false, 0, false⟩,  -- TQ_MIN_T3
   ⟨0x1038, 16, 0x100, 1, 0, true, 0xffffffffffffffff, 0, 0, 0xffffffffffffffff, false, 0, false⟩  -- TQ_MAX_T3
  ] ++
  [
   ⟨0x1040, 16, 0x100, 1, 0, true, 0, 0, 0, 0, false, 0, false⟩,  -- TQ_USE_T3
   ⟨0x1048, 16, 0x100, 1, 0, false, 0, 0, 0, 0, false, 0, false⟩,  -- TQ_STAT
   ⟨0x104c, 16, 0x100, 1, 0, false, 0, 0, 0xffffffff, 0, false, 0, false⟩,  -- TQ_REFUSE
   ⟨0x1050, 16, 0x100, 1, 0, false, 0x7ff, 0, 0, 0x7ff, false, 0, false⟩,  -- TQ_CXLM
   ⟨0x1054, 16, 0x100, 1, 0, false, 0, 0, 0, 0, false, 0, false⟩,  -- TQ_CXLM_STAT
   ⟨0x1058, 16, 0x100, 1, 0, false, 0, 0, 0xffffffff, 0, false, 0, false⟩  -- TQ_MISS
  ]

/-- The block registers of DET (R272). -/
def detDefs : List RegDef :=
  [
   ⟨0x100, 1, 0, 1, 0, false, 0, 0, 0, 0, false, 0, false⟩,  -- DET_STAT
   ⟨0x104, 1, 0, 1, 0, false, 0x1f, 0, 0, 0x1f, false, 8, false⟩,  -- DET_J_RATE
   ⟨0x108, 1, 0, 1, 0, false, 0, 0, 0, 0, false, 0, false⟩,  -- DET_J_FILL
   ⟨0x110, 1, 0, 1, 0, true, 0, 0, 0, 0, false, 0, false⟩,  -- DET_RECOMP
   ⟨0x118, 1, 0, 1, 0, true, 0, 0, 0, 0, false, 0, false⟩,  -- DET_FALLBACK
   ⟨0x120, 1, 0, 1, 0, true, 0, 0, 0, 0, false, 0, false⟩,  -- DET_ORDERS
   ⟨0x128, 1, 0, 1, 0, true, 0, 0, 0, 0, false, 0, false⟩,  -- DET_DRAWS
   ⟨0x140, 1, 0, 1, 0, false, 0x3ffff, 0, 0, 0, false, 0, true⟩,  -- DET_CSEL
   ⟨0x144, 1, 0, 1, 0, false, 0, 0, 0, 0, true, 0, false⟩,  -- DET_CCMD
   ⟨0x148, 1, 0, 1, 0, false, 0, 0, 0, 0, false, 0, true⟩,  -- DET_CRESULT
   ⟨0x180, 32, 4, 1, 0, false, 0, 0, 0, 0, false, 0, true⟩,  -- DET_COLO
   ⟨0x1000, 16, 0x100, 1, 0, false, 0x7fff, 0, 0, 0, false, 0, false⟩,  -- DJ_CTL
   ⟨0x1008, 16, 0x100, 1, 0, true, 0xffffffffffffffff, 0, 0, 0, false, 0, false⟩,  -- DJ_REGION
   ⟨0x1010, 16, 0x100, 1, 0, true, 0, 0, 0, 0, false, 0, false⟩,  -- DJ_SEQ
   ⟨0x1018, 16, 0x100, 1, 0, true, 0, 0, 0, 0, false, 0, false⟩,  -- DJ_OLDEST
   ⟨0x1020, 16, 0x100, 1, 0, true, 0, 0, 0, 0, false, 0, false⟩,  -- DJ_BYTES
   ⟨0x1028, 16, 0x100, 1, 0, false, 0, 0, 0xffffffff, 0, false, 0, false⟩,  -- DJ_GAP
   ⟨0x102c, 16, 0x100, 1, 0, false, 0, 0, 0, 0, false, 0, false⟩,  -- DJ_STAT
   ⟨0x1040, 16, 0x100, 1, 0, true, 0xffffffffffffffff, 0, 0, 0, false, 0, false⟩,  -- DR_FROM
   ⟨0x1048, 16, 0x100, 1, 0, true, 0xffffffffffffffff, 0, 0, 0, false, 0xffffffffffffffff, false⟩,  -- DR_STOP
   ⟨0x1050, 16, 0x100, 1, 0, false, 0x3ffff, 0, 0, 0, false, 0, false⟩,  -- DR_SRC_CTX
   ⟨0x1054, 16, 0x100, 1, 0, false, 0x3ffff, 0, 0, 0, false, 0, false⟩,  -- DR_DST_CTX
   ⟨0x1058, 16, 0x100, 1, 0, false, 0, 0, 0, 0, true, 0, false⟩,  -- DR_CMD
   ⟨0x105c, 16, 0x100, 1, 0, false, 0, 0, 0, 0, false, 0, false⟩  -- DR_STAT
  ] ++
  [
   ⟨0x1060, 16, 0x100, 1, 0, true, 0, 0, 0, 0, false, 0, false⟩,  -- DR_AT
   ⟨0x1068, 16, 0x100, 1, 0, true, 0, 0, 0, 0, false, 0, false⟩,  -- DR_STEPCTR
   ⟨0x1070, 16, 0x100, 4, 4, false, 0, 0, 0, 0, false, 0, false⟩  -- DR_SDIG
  ]

/-- The block registers of ERR (R461). -/
def errDefs : List RegDef :=
  [
   ⟨0x100, 1, 0, 1, 0, false, 1, 0, 0, 0, false, 0, false⟩,  -- ERR_CTL
   ⟨0x104, 1, 0, 1, 0, false, 0, 0, 0, 0, false, 0, false⟩,  -- ERR_STAT
   ⟨0x108, 1, 0, 1, 0, true, 0, 0, 0, 0, false, 0, false⟩,  -- ERR_HEAD
   ⟨0x110, 1, 0, 1, 0, true, 0xffffffffffffffff, 0, 0, 0, false, 0, false⟩,  -- ERR_TAIL
   ⟨0x118, 1, 0, 1, 0, true, 0, 0, 0, 0, false, 0, false⟩,  -- ERR_WRAP
   ⟨0x120, 1, 0, 1, 0, false, 3, 0, 0, 0, false, 0, false⟩,  -- ERR_WIN
   ⟨0x124, 1, 0, 1, 0, false, 0, 0, 0xffffffff, 0, false, 0, false⟩,  -- ERR_COAL
   ⟨0x140, 13, 8, 1, 0, true, 0, 0, 0, 0, false, 0, false⟩,  -- ERR_CNT
   ⟨0x1c0, 13, 4, 1, 0, false, 0, 0, 0xffffffff, 0, false, 0, false⟩,  -- ERR_OVF
   ⟨0x8000, 1024, 0x20, 8, 4, false, 0, 0, 0, 0, false, 0, false⟩  -- ERR_ENTRY
  ]

/-- The block registers of SCR (R462). -/
def scrDefs : List RegDef :=
  [
   ⟨0x100, 1, 0, 1, 0, false, 1, 0, 0, 1, false, 1, false⟩,  -- SCR_CTL
   ⟨0x104, 1, 0, 1, 0, false, 0x3ff, 0, 0, 0x3ff, false, 0x18, false⟩,  -- SCR_PERIOD
   ⟨0x108, 1, 0, 1, 0, false, 0, 0, 0, 0, false, 0, false⟩,  -- SCR_STAT
   ⟨0x110, 1, 0, 1, 0, true, 0, 0, 0, 0, false, 0, false⟩,  -- SCR_POS
   ⟨0x118, 1, 0, 1, 0, true, 0, 0, 0, 0, false, 0, false⟩,  -- SCR_PASSES
   ⟨0x120, 1, 0, 1, 0, true, 0, 0, 0, 0, false, 0, false⟩,  -- SCR_CORR
   ⟨0x128, 1, 0, 1, 0, false, 0, 0, 0xffffffff, 0, false, 0, false⟩,  -- SCR_UNCORR
   ⟨0x130, 1, 0, 1, 0, true, 0, 0, 0, 0, false, 0, false⟩  -- SCR_PASS_SEC
  ]

/-- The block registers of SEC (R485). -/
def secDefs : List RegDef :=
  [
   ⟨0x100, 1, 0, 1, 0, false, 0, 0, 0, 0, false, 0, false⟩,  -- SEC_STAT
   ⟨0x104, 1, 0, 1, 0, false, 0, 0, 0, 0, false, 0, false⟩,  -- SEC_PUF_ERR
   ⟨0x108, 1, 0, 1, 0, false, 1, 0, 0, 1, false, 0, false⟩,  -- SEC_RIGHTS_CTL
   ⟨0x10c, 1, 0, 1, 0, false, 0xffffff, 0, 0, 0xffffff, false, 0x2710, false⟩,  -- SEC_HOLD_MAX
   ⟨0x110, 1, 0, 1, 0, true, 0, 0, 0, 0, false, 0, false⟩,  -- SEC_RIGHTS_GEN
   ⟨0x118, 1, 0, 1, 0, true, 0, 0, 0, 0, false, 0, false⟩,  -- SEC_RIGHTS_M
   ⟨0x120, 1, 0, 1, 0, false, 0, 0, 0, 0, false, 0, false⟩,  -- SEC_OLDSTEPS
   ⟨0x124, 1, 0, 1, 0, false, 0, 0, 0xffffffff, 0, false, 0, false⟩,  -- SEC_ATT_ERR
   ⟨0x128, 1, 0, 1, 0, true, 0, 0, 0, 0, false, 0, false⟩,  -- SEC_QUOTES
   ⟨0x130, 1, 0, 1, 0, false, 0, 0, 0, 0x1, true, 0, false⟩,  -- SEC_DIAG_CTL
   ⟨0x138, 1, 0, 1, 0, true, 0, 0, 0, 0, false, 0, false⟩,  -- SEC_DIAG_LEFT
   ⟨0x140, 8, 4, 1, 0, false, 0, 0, 0, 0, false, 0, false⟩,  -- SEC_ID_DIGEST
   ⟨0x180, 1, 0, 1, 0, false, 7, 0, 0, 0, false, 0, false⟩,  -- SEC_MEAS_SEL
   ⟨0x188, 1, 0, 1, 0, true, 0, 0, 0, 0, false, 0, false⟩,  -- SEC_MEAS_CNT
   ⟨0x1c0, 16, 4, 1, 0, false, 0, 0, 0, 0, false, 0, false⟩  -- SEC_MEAS
  ]

/-- The block registers of NOR (R503). -/
def norDefs : List RegDef :=
  [
   ⟨0x100, 1, 0, 1, 0, false, 0, 0, 0, 0, false, 0, false⟩,  -- NOR_STAT
   ⟨0x104, 1, 0, 1, 0, false, 0, 0, 0, 0, false, 0, false⟩,  -- NOR_ROLLBACK
   ⟨0x108, 1, 0, 1, 0, false, 0, 0, 0, 0, false, 0, false⟩,  -- NOR_F_SEQ
   ⟨0x10c, 1, 0, 1, 0, false, 0, 0, 0, 0, false, 0, false⟩,  -- NOR_F_SVN
   ⟨0x110, 1, 0, 1, 0, false, 0, 0, 0, 0, false, 0, false⟩,  -- NOR_F_VER
   ⟨0x114, 1, 0, 1, 0, false, 0, 0, 0, 0, false, 0, false⟩,  -- NOR_B_SEQ
   ⟨0x118, 1, 0, 1, 0, false, 0, 0, 0, 0, false, 0, false⟩,  -- NOR_B_SVN
   ⟨0x11c, 1, 0, 1, 0, false, 0, 0, 0, 0, false, 0, false⟩,  -- NOR_B_VER
   ⟨0x120, 1, 0, 1, 0, false, 0, 0, 0, 0, false, 0, false⟩,  -- NOR_DL_STAT
   ⟨0x124, 1, 0, 1, 0, false, 0, 0, 0, 0, false, 0, false⟩,  -- NOR_CMT_STAT
   ⟨0x128, 1, 0, 1, 0, false, 0, 0, 0, 0, false, 0, false⟩,  -- NOR_ATTEMPTS
   ⟨0x12c, 1, 0, 1, 0, false, 0, 0, 0xffffffff, 0, false, 0, false⟩,  -- NOR_SUSP
   ⟨0x130, 1, 0, 1, 0, false, 0, 0, 0, 0, false, 0, false⟩,  -- NOR_ERASE_MAX
   ⟨0x134, 1, 0, 1, 0, false, 0xffffff, 0, 0, 0, false, 0x13880, false⟩,  -- NOR_WEAR_WARN
   ⟨0x138, 1, 0, 1, 0, false, 0, 0, 0, 0, false, 0, false⟩,  -- NOR_LAST_SECT
   ⟨0x140, 8, 4, 1, 0, false, 0, 0, 0, 0, false, 0, false⟩  -- NOR_ACT_DIGEST
  ]

/-- The block registers of HBM and LPD (R464). -/
def memDefs : List RegDef :=
  [
   ⟨0x100, 1, 0, 1, 0, false, 0, 0, 0, 0, false, 0, false⟩,  -- MEM_STAT
   ⟨0x108, 1, 0, 1, 0, true, 0, 0, 0, 0, false, 0, false⟩,  -- MEM_CORR1
   ⟨0x110, 1, 0, 1, 0, true, 0, 0, 0, 0, false, 0, false⟩,  -- MEM_CORR2
   ⟨0x118, 1, 0, 1, 0, false, 0, 0, 0xffffffff, 0, false, 0, false⟩,  -- MEM_UNCORR
   ⟨0x11c, 1, 0, 1, 0, false, 0, 0, 0xffffffff, 0, false, 0, false⟩,  -- MEM_ADDRERR
   ⟨0x120, 1, 0, 1, 0, true, 0, 0, 0, 0, false, 0, false⟩,  -- MEM_LAST_ADDR
   ⟨0x128, 1, 0, 1, 0, false, 0, 0, 0, 0, false, 0, false⟩,  -- MEM_LAST_SYN
   ⟨0x12c, 1, 0, 1, 0, false, 0, 0, 0, 0, false, 0, false⟩,  -- MEM_MRG
   ⟨0x130, 1, 0, 1, 0, true, 0, 0, 0, 0, false, 0, false⟩,  -- MEM_RMW
   ⟨0x138, 1, 0, 1, 0, false, 0x7ff, 0, 0, 0, false, 0, true⟩,  -- MEM_BANK_SEL
   ⟨0x13c, 1, 0, 1, 0, false, 0, 0, 0, 0, false, 0, false⟩,  -- MEM_BANK_CNT
   ⟨0x140, 1, 0, 1, 0, false, 0, 0, 0, 0x3, true, 0, false⟩,  -- MEM_RET_CMD
   ⟨0x144, 1, 0, 1, 0, false, 0xfffff, 0, 0, 0xfffff, false, 0, false⟩,  -- MEM_RET_ARG
   ⟨0x148, 1, 0, 1, 0, false, 0, 0, 0, 0, false, 0, false⟩,  -- MEM_RET_RESULT
   ⟨0x14c, 1, 0, 1, 0, false, 0, 0, 0, 0, false, 0, false⟩,  -- MEM_RET_LEFT
   ⟨0x1000, 256, 4, 1, 0, false, 0, 0, 0, 0, false, 0, false⟩,  -- MEM_RET_FRAME
   ⟨0x1400, 8, 4, 1, 0, false, 0, 0, 0, 0, false, 0, false⟩  -- MEM_RET_BANK
  ]

/-- The block registers of ROW (R127). -/
def rowDefs : List RegDef :=
  [
   ⟨0x100, 1, 0, 1, 0, false, 0, 0, 0, 0, false, 0, false⟩,  -- ROW_STAT
   ⟨0x104, 1, 0, 1, 0, false, 0xff01, 0, 0, 0, false, 0xa00, false⟩,  -- ROW_PWR
   ⟨0x108, 1, 0, 1, 0, false, 0, 0, 0, 0, false, 0, false⟩,  -- ROW_CTX
   ⟨0x10c, 1, 0, 1, 0, false, 0, 0, 0, 0, false, 0xff, false⟩,  -- ROW_LEAF_CLIENT
   ⟨0x110, 1, 0, 1, 0, true, 0, 0, 0, 0, false, 0, false⟩,  -- ROW_CYC_BUSY
   ⟨0x118, 1, 0, 1, 0, true, 0, 0, 0, 0, false, 0, false⟩,  -- ROW_CYC_FEED
   ⟨0x120, 1, 0, 1, 0, true, 0, 0, 0, 0, false, 0, false⟩,  -- ROW_CYC_LOAD
   ⟨0x128, 1, 0, 1, 0, true, 0, 0, 0, 0, false, 0, false⟩,  -- ROW_CYC_STARVE
   ⟨0x130, 1, 0, 1, 0, true, 0, 0, 0, 0, false, 0, false⟩,  -- ROW_CYC_TRIM
   ⟨0x138, 1, 0, 1, 0, true, 0, 0, 0, 0, false, 0, false⟩,  -- ROW_BLOCKS
   ⟨0x140, 5, 8, 1, 0, true, 0, 0, 0, 0, false, 0, false⟩,  -- ROW_LOSS
   ⟨0x168, 1, 0, 1, 0, true, 0, 0, 0, 0, false, 0, false⟩,  -- ROW_FWD
   ⟨0x170, 1, 0, 1, 0, false, 0, 0, 0xffffffff, 0, false, 0, false⟩,  -- ROW_SAT
   ⟨0x174, 1, 0, 1, 0, false, 0, 0, 0xffffffff, 0, false, 0, false⟩,  -- ROW_NONFIN
   ⟨0x178, 1, 0, 1, 0, false, 0, 0, 0xffffffff, 0, false, 0, false⟩,  -- ROW_POISON
   ⟨0x17c, 1, 0, 1, 0, false, 0, 0, 0, 0, false, 0, false⟩,  -- ROW_FAULT
   ⟨0x180, 1, 0, 1, 0, false, 0, 0, 0, 0, false, 0, false⟩,  -- ROW_CLR_CNT
   ⟨0x190, 6, 8, 1, 0, true, 0, 0, 0, 0, false, 0, false⟩,  -- ROW_SNAP
   ⟨0x1c0, 1, 0, 1, 0, true, 0, 0, 0, 0, false, 0, false⟩  -- ROW_SNAP_M
  ]

/-- The block registers of COL (R170). -/
def colDefs : List RegDef :=
  [
   ⟨0x100, 1, 0, 1, 0, false, 0, 0, 0, 0, false, 0, false⟩,  -- COL_STAT
   ⟨0x104, 1, 0, 1, 0, false, 0, 0, 0, 0, false, 0, false⟩,  -- COL_FAULT
   ⟨0x108, 1, 0, 1, 0, false, 0, 0, 0, 0, false, 0, false⟩,  -- COL_FAULT_SRC
   ⟨0x110, 1, 0, 1, 0, true, 0, 0, 0, 0, false, 0, false⟩,  -- COL_OPS
   ⟨0x118, 1, 0, 1, 0, true, 0, 0, 0, 0, false, 0, false⟩,  -- COL_ELEMS
   ⟨0x120, 1, 0, 1, 0, true, 0, 0, 0, 0, false, 0, false⟩,  -- COL_CYC_BUSY
   ⟨0x128, 1, 0, 1, 0, true, 0, 0, 0, 0, false, 0, false⟩,  -- COL_CYC_WAIT
   ⟨0x130, 1, 0, 1, 0, false, 0, 0, 0xffffffff, 0, false, 0, false⟩,  -- COL_NAN
   ⟨0x134, 1, 0, 1, 0, false, 0, 0, 0xffffffff, 0, false, 0, false⟩,  -- COL_DUP
   ⟨0x138, 1, 0, 1, 0, false, 0, 0, 0xffffffff, 0, false, 0, false⟩,  -- COL_TIE
   ⟨0x13c, 1, 0, 1, 0, false, 0, 0, 0xffffffff, 0, false, 0, false⟩,  -- COL_OVF
   ⟨0x140, 1, 0, 1, 0, false, 0, 0, 0xffffffff, 0, false, 0, false⟩,  -- COL_POISON
   ⟨0x144, 1, 0, 1, 0, false, 0, 0, 0xffffffff, 0, false, 0, false⟩,  -- COL_LOSS
   ⟨0x148, 1, 0, 1, 0, false, 0, 0, 0xffffffff, 0, false, 0, false⟩,  -- COL_LC_WAIT_MAX
   ⟨0x150, 4, 8, 1, 0, true, 0, 0, 0, 0, false, 0, false⟩,  -- COL_SNAP
   ⟨0x170, 1, 0, 1, 0, true, 0, 0, 0, 0, false, 0, false⟩  -- COL_SNAP_M
  ]

/-- The block registers of CHN (R340). -/
def chnDefs : List RegDef :=
  [
   ⟨0x100, 1, 0, 1, 0, false, 0, 0, 0, 0, false, 0, false⟩,  -- CHN_STAT
   ⟨0x104, 1, 0, 1, 0, false, 0, 0, 0, 0, false, 0, false⟩,  -- CHN_FAULT
   ⟨0x108, 1, 0, 1, 0, true, 0, 0, 0, 0, false, 0, false⟩,  -- CHN_JOBS
   ⟨0x110, 1, 0, 1, 0, true, 0, 0, 0, 0, false, 0, false⟩,  -- CHN_FOLIOS
   ⟨0x118, 1, 0, 1, 0, true, 0, 0, 0, 0, false, 0, false⟩,  -- CHN_ENTRIES
   ⟨0x120, 1, 0, 1, 0, true, 0, 0, 0, 0, false, 0, false⟩,  -- CHN_PASSED
   ⟨0x128, 1, 0, 1, 0, true, 0, 0, 0, 0, false, 0, false⟩,  -- CHN_CYC_BUSY
   ⟨0x130, 1, 0, 1, 0, true, 0, 0, 0, 0, false, 0, false⟩,  -- CHN_CYC_WAIT
   ⟨0x138, 1, 0, 1, 0, false, 0, 0, 0xffffffff, 0, false, 0, false⟩,  -- CHN_HIDDEN
   ⟨0x13c, 1, 0, 1, 0, false, 0, 0, 0xffffffff, 0, false, 0, false⟩,  -- CHN_DELETED
   ⟨0x140, 1, 0, 1, 0, false, 0, 0, 0xffffffff, 0, false, 0, false⟩,  -- CHN_POISON_SKIP
   ⟨0x144, 1, 0, 1, 0, false, 0, 0, 0xffffffff, 0, false, 0, false⟩,  -- CHN_HDR_ERR
   ⟨0x148, 1, 0, 1, 0, false, 0, 0, 0xffffffff, 0, false, 0, false⟩,  -- CHN_UNMAPPED
   ⟨0x150, 6, 8, 1, 0, true, 0, 0, 0, 0, false, 0, false⟩,  -- CHN_SNAP
   ⟨0x180, 1, 0, 1, 0, true, 0, 0, 0, 0, false, 0, false⟩  -- CHN_SNAP_M
  ]

/-- The block registers of QDI (R306). -/
def qdiDefs : List RegDef :=
  [
   ⟨0x100, 1, 0, 1, 0, false, 0, 0, 0, 0, false, 0, false⟩,  -- QDI_STAT
   ⟨0x104, 1, 0, 1, 0, false, 0x1f07, 0, 0, 0, false, 0, true⟩,  -- QDI_DIE_SEL
   ⟨0x108, 1, 0, 1, 0, false, 0, 0, 0, 0, false, 0, false⟩,  -- QDI_DIE_STAT
   ⟨0x10c, 1, 0, 1, 0, false, 0, 0, 0, 0, false, 0, false⟩,  -- QDI_DIE_EC
   ⟨0x110, 1, 0, 1, 0, false, 0, 0, 0, 0, false, 0, false⟩,  -- QDI_DIE_BAD
   ⟨0x114, 1, 0, 1, 0, false, 0, 0, 0, 0, false, 0, false⟩,  -- QDI_FREE_Q
   ⟨0x118, 1, 0, 1, 0, true, 0, 0, 0, 0, false, 0, false⟩,  -- QDI_READS
   ⟨0x120, 1, 0, 1, 0, true, 0, 0, 0, 0, false, 0, false⟩,  -- QDI_PROGS
   ⟨0x128, 1, 0, 1, 0, true, 0, 0, 0, 0, false, 0, false⟩,  -- QDI_ERASES
   ⟨0x130, 1, 0, 1, 0, true, 0, 0, 0, 0, false, 0, false⟩,  -- QDI_RETRY
   ⟨0x138, 1, 0, 1, 0, false, 0, 0, 0xffffffff, 0, false, 0, false⟩,  -- QDI_UNCORR
   ⟨0x13c, 1, 0, 1, 0, false, 0, 0, 0xffffffff, 0, false, 0, false⟩,  -- QDI_PFAIL
   ⟨0x140, 1, 0, 1, 0, false, 0, 0, 0xffffffff, 0, false, 0, false⟩,  -- QDI_EFAIL
   ⟨0x144, 1, 0, 1, 0, false, 0, 0, 0xffffffff, 0, false, 0, false⟩,  -- QDI_SUSP
   ⟨0x148, 1, 0, 1, 0, false, 0, 0, 0xffffffff, 0, false, 0, false⟩,  -- QDI_LC_LATE
   ⟨0x14c, 1, 0, 1, 0, false, 0, 0, 0, 0, false, 0, false⟩  -- QDI_SPREAD
  ]

/-- The block registers of FTL (R308). -/
def ftlDefs : List RegDef :=
  [
   ⟨0x100, 1, 0, 1, 0, false, 0, 0, 0, 0, false, 0, false⟩,  -- FTL_STAT
   ⟨0x104, 1, 0, 1, 0, false, 0xffff, 0, 0, 0xffff, false, 0x78, false⟩,  -- FTL_WL_SPREAD
   ⟨0x108, 1, 0, 1, 0, false, 0xffffff, 0, 0, 0xffffff, false, 0x412402, false⟩,  -- FTL_GC_CTL
   ⟨0x10c, 1, 0, 1, 0, false, 0xffff, 0, 0, 0xffff, false, 0x10, false⟩,  -- FTL_RSV_WARN
   ⟨0x110, 1, 0, 1, 0, false, 0xfffff, 0, 0, 0xfffff, false, 0x3e8, false⟩,  -- FTL_RETRY_WARN
   ⟨0x114, 1, 0, 1, 0, false, 0, 0, 0, 0, false, 0, false⟩,  -- FTL_FILL
   ⟨0x118, 1, 0, 1, 0, false, 0, 0, 0, 0, false, 0, false⟩,  -- FTL_LIFE
   ⟨0x11c, 1, 0, 1, 0, false, 0, 0, 0, 0, false, 0, false⟩,  -- FTL_BOOT
   ⟨0x120, 1, 0, 1, 0, true, 0, 0, 0, 0, false, 0, false⟩,  -- FTL_SLC_CAP
   ⟨0x128, 1, 0, 1, 0, true, 0, 0, 0, 0, false, 0, false⟩,  -- FTL_SLC_USED
   ⟨0x130, 1, 0, 1, 0, true, 0, 0, 0, 0, false, 0, false⟩,  -- FTL_MAPPED
   ⟨0x138, 1, 0, 1, 0, true, 0, 0, 0, 0, false, 0, false⟩,  -- FTL_HOST_WR
   ⟨0x140, 1, 0, 1, 0, true, 0, 0, 0, 0, false, 0, false⟩,  -- FTL_MEDIA_WR
   ⟨0x148, 1, 0, 1, 0, true, 0, 0, 0, 0, false, 0, false⟩  -- FTL_JSEQ
  ]

/-- The block registers of VSX (R344). -/
def vsxDefs : List RegDef :=
  [
   ⟨0x100, 1, 0, 1, 0, false, 0, 0, 0, 0, false, 0, false⟩,  -- VSX_STAT
   ⟨0x104, 1, 0, 1, 0, false, 0xffff, 0, 0, 0xffff, false, 0x422, false⟩,  -- VSX_PF_CTL
   ⟨0x108, 1, 0, 1, 0, false, 0x1fff, 0, 0, 0x1fff, false, 0x800, false⟩,  -- VSX_COMPACT_AT
   ⟨0x10c, 1, 0, 1, 0, false, 0, 0, 0, 0, false, 0x1000, false⟩,  -- VSX_DEL_CAP
   ⟨0x110, 1, 0, 1, 0, true, 0, 0, 0, 0, false, 0, false⟩,  -- VSX_QUERIES
   ⟨0x118, 1, 0, 1, 0, true, 0, 0, 0, 0, false, 0, false⟩,  -- VSX_LISTS
   ⟨0x120, 1, 0, 1, 0, true, 0, 0, 0, 0, false, 0, false⟩,  -- VSX_PF_LISTS
   ⟨0x128, 1, 0, 1, 0, false, 0, 0, 0xffffffff, 0, false, 0, false⟩,  -- VSX_EDGE_SKIP
   ⟨0x12c, 1, 0, 1, 0, false, 0, 0, 0xffffffff, 0, false, 0, false⟩,  -- VSX_PROBE_SKIP
   ⟨0x130, 1, 0, 1, 0, true, 0, 0, 0, 0, false, 0, false⟩,  -- VSX_COMPACTIONS
   ⟨0x200, 1, 0, 1, 0, false, 0xfffffff, 0, 0, 0, false, 0, true⟩,  -- VSX_SEL
   ⟨0x204, 1, 0, 1, 0, false, 0, 0, 0, 0, true, 0, false⟩,  -- VSX_CMD
   ⟨0x208, 1, 0, 1, 0, false, 0, 0, 0, 0, false, 0, true⟩,  -- VSX_RESULT
   ⟨0x210, 1, 0, 1, 0, false, 0, 0, 0, 0, false, 0, true⟩,  -- VSX_I_CFG
   ⟨0x214, 1, 0, 1, 0, false, 0, 0, 0, 0, false, 0, true⟩,  -- VSX_I_LISTS
   ⟨0x218, 1, 0, 1, 0, true, 0, 0, 0, 0, false, 0, true⟩,  -- VSX_I_ITEMS
   ⟨0x220, 1, 0, 1, 0, true, 0, 0, 0, 0, false, 0, true⟩,  -- VSX_I_EPOCH
   ⟨0x228, 1, 0, 1, 0, true, 0, 0, 0, 0, false, 0, true⟩,  -- VSX_I_OLDSNAP
   ⟨0x230, 1, 0, 1, 0, false, 0, 0, 0, 0, false, 0, true⟩,  -- VSX_L_STAT
   ⟨0x234, 1, 0, 1, 0, false, 0, 0, 0, 0, false, 0, true⟩,  -- VSX_L_FOLIOS
   ⟨0x238, 1, 0, 1, 0, true, 0, 0, 0, 0, false, 0, true⟩,  -- VSX_L_ENTRIES
   ⟨0x240, 1, 0, 1, 0, true, 0, 0, 0, 0, false, 0, true⟩,  -- VSX_L_EPOCH
   ⟨0x248, 1, 0, 1, 0, false, 0, 0, 0, 0, false, 0, true⟩,  -- VSX_L_TARGET
   ⟨0x250, 8, 8, 1, 0, true, 0, 0, 0, 0, false, 0, true⟩  -- VSX_L_EDGE
  ]

/-- The block registers of LNK (R380). -/
def lnkDefs : List RegDef :=
  [
   ⟨0x100, 1, 0, 1, 0, false, 1, 0, 0, 1, false, 0, false⟩,  -- LNK_CTL
   ⟨0x104, 1, 0, 1, 0, false, 0x3f3f, 0, 0, 0x3f3f, false, 0, false⟩,  -- LNK_ROLE
   ⟨0x108, 1, 0, 1, 0, false, 0, 0, 0, 0, false, 0, false⟩,  -- LNK_STAT
   ⟨0x10c, 1, 0, 1, 0, false, 0, 0, 0, 0, false, 0, false⟩,  -- LNK_PEER
   ⟨0x110, 1, 0, 1, 0, false, 0, 0, 0, 0x7, true, 0, false⟩,  -- LNK_ADMIT
   ⟨0x114, 1, 0, 1, 0, false, 0xffffffff, 0, 0, 0xffffffff, false, 0x3e8, false⟩,  -- LNK_RETRY_WARN
   ⟨0x118, 1, 0, 1, 0, false, 0xf, 0, 0, 0xf, false, 3, false⟩,  -- LNK_RT_MAX
   ⟨0x11c, 1, 0, 1, 0, false, 0, 0, 0, 0, false, 0, false⟩,  -- LNK_LAST_DOWN
   ⟨0x120, 1, 0, 1, 0, true, 0, 0, 0, 0, false, 0, false⟩,  -- LNK_FLITS_TX
   ⟨0x128, 1, 0, 1, 0, true, 0, 0, 0, 0, false, 0, false⟩,  -- LNK_FLITS_RX
   ⟨0x130, 1, 0, 1, 0, true, 0, 0, 0, 0, false, 0, false⟩,  -- LNK_FEC_CORR
   ⟨0x138, 1, 0, 1, 0, true, 0, 0, 0, 0, false, 0, false⟩,  -- LNK_RETRY
   ⟨0x140, 1, 0, 1, 0, false, 0, 0, 0xffffffff, 0, false, 0, false⟩,  -- LNK_FEC_UNCORR
   ⟨0x144, 1, 0, 1, 0, false, 0, 0, 0xffffffff, 0, false, 0, false⟩,  -- LNK_CRC_ERR
   ⟨0x148, 1, 0, 1, 0, false, 0, 0, 0xffffffff, 0, false, 0, false⟩,  -- LNK_RETRAINS
   ⟨0x14c, 1, 0, 1, 0, false, 0, 0, 0xffffffff, 0, false, 0, false⟩,  -- LNK_SWITCHES
   ⟨0x160, 8, 4, 1, 0, false, 0, 0, 0, 0, false, 0, false⟩,  -- LNK_PEER_ID
   ⟨0x180, 8, 4, 1, 0, false, 0, 0, 0, 0, false, 0, false⟩,  -- LNK_ADM_ID
   ⟨0x1a0, 4, 8, 1, 0, true, 0, 0, 0, 0, false, 0, false⟩,  -- LNK_SNAP
   ⟨0x1c0, 1, 0, 1, 0, true, 0, 0, 0, 0, false, 0, false⟩  -- LNK_SNAP_M
  ]

/-- The block registers of RED (R383). -/
def redDefs : List RegDef :=
  [
   ⟨0x100, 1, 0, 1, 0, false, 1, 0, 0, 1, false, 0, false⟩,  -- RED_CTL
   ⟨0x104, 1, 0, 1, 0, false, 0xfff0fff, 0, 0, 0xfff0fff, false, 0, false⟩,  -- RED_FAB
   ⟨0x108, 1, 0, 1, 0, false, 0, 0, 0, 0, false, 0, false⟩,  -- RED_STAT
   ⟨0x10c, 1, 0, 1, 0, false, 0, 0, 0, 0, false, 0, false⟩,  -- RED_TSET
   ⟨0x110, 1, 0, 1, 0, false, 0xffff, 0, 0, 0xffff, false, 0x2710, false⟩,  -- RED_TIMEOUT
   ⟨0x114, 1, 0, 1, 0, false, 0, 0, 0, 0, false, 0, false⟩,  -- RED_FAULT
   ⟨0x118, 1, 0, 1, 0, false, 0, 0, 0xffffffff, 0, false, 0, false⟩,  -- RED_LAT_MAX
   ⟨0x120, 1, 0, 1, 0, true, 0, 0, 0, 0, false, 0, false⟩,  -- RED_SEQ
   ⟨0x128, 1, 0, 1, 0, true, 0, 0, 0, 0, false, 0, false⟩,  -- RED_BUCKETS
   ⟨0x130, 1, 0, 1, 0, true, 0, 0, 0, 0, false, 0, false⟩,  -- RED_BLOCKS
   ⟨0x138, 1, 0, 1, 0, true, 0, 0, 0, 0, false, 0, false⟩,  -- RED_ALIGN_LOSS
   ⟨0x140, 1, 0, 1, 0, false, 0, 0, 0xffffffff, 0, false, 0, false⟩,  -- RED_RESTART
   ⟨0x144, 1, 0, 1, 0, false, 0, 0, 0xffffffff, 0, false, 0, false⟩,  -- RED_POISON
   ⟨0x148, 1, 0, 1, 0, false, 0, 0, 0xffffffff, 0, false, 0, false⟩,  -- RED_NONFIN
   ⟨0x200, 10, 4, 1, 0, false, 0x8fff0fff, 0, 0, 0x8fff0fff, false, 1, false⟩  -- RED_TREE
  ]

/-- The block registers of SPT (R400). -/
def sptDefs : List RegDef :=
  [
   ⟨0x100, 1, 0, 1, 0, false, 0x1f, 0, 0, 0x1f, false, 0x1a, false⟩,  -- SPT_CTL
   ⟨0x104, 1, 0, 1, 0, false, 0, 0, 0, 0, false, 0, false⟩,  -- SPT_STAT
   ⟨0x108, 1, 0, 1, 0, false, 0xfffff, 0, 0, 0xfffff, false, 0x3e8, false⟩,  -- SPT_MIN_LEAD
   ⟨0x10c, 1, 0, 1, 0, false, 0, 0, 0, 0, false, 0, false⟩,  -- SPT_LAST_WH
   ⟨0x110, 1, 0, 1, 0, false, 0xffffffff, 0, 0, 0xffffffff, false, 0, false⟩,  -- SPT_MAC0_LO
   ⟨0x114, 1, 0, 1, 0, false, 0xffff, 0, 0, 0xffff, false, 0, false⟩,  -- SPT_MAC0_HI
   ⟨0x118, 1, 0, 1, 0, false, 0xffffffff, 0, 0, 0xffffffff, false, 0, false⟩,  -- SPT_MAC1_LO
   ⟨0x11c, 1, 0, 1, 0, false, 0xffff, 0, 0, 0xffff, false, 0, false⟩,  -- SPT_MAC1_HI
   ⟨0x120, 1, 0, 1, 0, false, 0xffffffff, 0, 0, 0xffffffff, false, 0, false⟩,  -- SPT_IP0
   ⟨0x124, 1, 0, 1, 0, false, 0xffffffff, 0, 0, 0xffffffff, false, 0, false⟩,  -- SPT_IP1
   ⟨0x128, 1, 0, 1, 0, false, 0xffffffff, 0, 0, 0xffffffff, false, 0, false⟩,  -- SPT_VLAN
   ⟨0x130, 1, 0, 1, 0, true, 0, 0, 0, 0, false, 0, false⟩,  -- SPT_FRAMES_TX
   ⟨0x138, 1, 0, 1, 0, true, 0, 0, 0, 0, false, 0, false⟩,  -- SPT_WITHHELD
   ⟨0x140, 1, 0, 1, 0, false, 0, 0, 0xffffffff, 0, false, 0, false⟩,  -- SPT_CLAMPED
   ⟨0x144, 1, 0, 1, 0, false, 0, 0, 0xffffffff, 0, false, 0, false⟩,  -- SPT_LATE
   ⟨0x148, 1, 0, 1, 0, false, 0, 0, 0xffffffff, 0, false, 0, false⟩,  -- SPT_REFUSED
   ⟨0x14c, 1, 0, 1, 0, false, 0, 0, 0xffffffff, 0, false, 0, false⟩,  -- SPT_REPLACED
   ⟨0x150, 1, 0, 1, 0, true, 0, 0, 0, 0, false, 0, false⟩,  -- SPT_PTP_RX
   ⟨0x158, 1, 0, 1, 0, false, 0, 0, 0xffffffff, 0, false, 0, false⟩,  -- SPT_PTP_IGN
   ⟨0x160, 2, 8, 1, 0, true, 0, 0, 0, 0, false, 0, false⟩,  -- SPT_SNAP
   ⟨0x170, 1, 0, 1, 0, true, 0, 0, 0, 0, false, 0, false⟩,  -- SPT_SNAP_M
   ⟨0x200, 1, 0, 1, 0, false, 0xffff, 0, 0, 0, false, 0, true⟩,  -- SPT_SEL
   ⟨0x204, 1, 0, 1, 0, false, 0, 0, 0, 2, true, 0, false⟩,  -- SPT_CMD
   ⟨0x208, 1, 0, 1, 0, false, 0, 0, 0, 0, false, 0, true⟩  -- SPT_RESULT
  ] ++
  [
   ⟨0x280, 8, 4, 1, 0, false, 0xffffffff, 0, 0, 0, false, 0, true⟩,  -- SPT_E
   ⟨0x2a0, 24, 4, 1, 0, false, 0, 0, 0, 0, false, 0, true⟩  -- SPT_EK
  ]

/-- The block registers of QNT (R147). -/
def qntDefs : List RegDef :=
  [
   ⟨0x100, 4, 4, 1, 0, false, 0xffffffff, 0, 0, 0xffffffff, false, 0, false⟩,  -- QNT_GSTAGE
   ⟨0x110, 1, 0, 1, 0, false, 0, 0, 0, 0x3ff, true, 0, false⟩,  -- QNT_GCMD
   ⟨0x114, 1, 0, 1, 0, false, 0, 0, 0, 0, false, 0, false⟩,  -- QNT_GRESULT
   ⟨0x118, 1, 0, 1, 0, false, 0, 0, 0, 0, true, 0, false⟩,  -- QNT_MON_CMD
   ⟨0x11c, 1, 0, 1, 0, false, 0, 0, 0xffffffff, 0, false, 0, false⟩,  -- QNT_MON_MISS
   ⟨0x120, 1, 0, 1, 0, false, 0, 0, 0, 0, false, 0xc7b59f81, false⟩,  -- QNT_STD0
   ⟨0x124, 1, 0, 1, 0, false, 0, 0, 0, 0, false, 0xf8eee3d6, false⟩,  -- QNT_STD1
   ⟨0x128, 1, 0, 1, 0, false, 0, 0, 0, 0, false, 0x20140900, false⟩,  -- QNT_STD2
   ⟨0x12c, 1, 0, 1, 0, false, 0, 0, 0, 0, false, 0x7f563f2e, false⟩,  -- QNT_STD3
   ⟨0x1000, 256, 0x10, 4, 4, false, 0, 0, 0, 0, false, 0, false⟩,  -- QNT_GRID
   ⟨0x2000, 256, 4, 1, 0, false, 0, 0, 0, 0, false, 0, false⟩,  -- QNT_GSTAT
   ⟨0x4000, 64, 0x80, 1, 0, false, 0xf03, 0, 0, 0xf01, false, 0, false⟩,  -- MON_CTL
   ⟨0x4008, 64, 0x80, 1, 0, true, 0, 0, 0, 0, false, 0, false⟩,  -- MON_N
   ⟨0x4010, 64, 0x80, 1, 0, true, 0, 0, 0, 0, false, 0, false⟩,  -- MON_CLIP_LO
   ⟨0x4018, 64, 0x80, 1, 0, true, 0, 0, 0, 0, false, 0, false⟩,  -- MON_CLIP_HI
   ⟨0x4020, 64, 0x80, 1, 0, true, 0, 0, 0, 0, false, 0, false⟩,  -- MON_SQERR
   ⟨0x4028, 64, 0x80, 1, 0, true, 0, 0, 0, 0, false, 0, false⟩,  -- MON_LN
   ⟨0x4030, 64, 0x80, 1, 0, true, 0, 0, 0, 0, false, 0, false⟩,  -- MON_LCLIP_LO
   ⟨0x4038, 64, 0x80, 1, 0, true, 0, 0, 0, 0, false, 0, false⟩,  -- MON_LCLIP_HI
   ⟨0x4040, 64, 0x80, 1, 0, true, 0, 0, 0, 0, false, 0, false⟩,  -- MON_LSQERR
   ⟨0x4048, 64, 0x80, 1, 0, true, 0, 0, 0, 0, false, 0, false⟩  -- MON_LATCH_M
  ]

/-- The page directory of R30, block type by block type, with the defining registers. -/
def regBlocks : List RegBlock :=
  [
   ⟨0x1, 0x0, 1, dirDefs⟩,
   ⟨0x2, 0x1, 1, sysDefs⟩,
   ⟨0x3, 0x2, 1, rstDefs⟩,
   ⟨0x4, 0x3, 1, tmbDefs⟩,
   ⟨0x5, 0x4, 1, msrDefs⟩,
   ⟨0x6, 0x5, 1, irqDefs⟩,
   ⟨0x7, 0x6, 1, hifDefs⟩,
   ⟨0x8, 0x7, 1, schDefs⟩,
   ⟨0x9, 0x8, 1, accDefs⟩,
   ⟨0xa, 0x9, 1, ctxDefs⟩,
   ⟨0xb, 0xa, 1, tierDefs⟩,
   ⟨0xc, 0xb, 1, detDefs⟩,
   ⟨0xd, 0xc, 1, errDefs⟩,
   ⟨0xe, 0xd, 1, scrDefs⟩,
   ⟨0xf, 0xe, 1, secDefs⟩,
   ⟨0x10, 0xf, 1, norDefs⟩,
   ⟨0x20, 0x10, 8, memDefs⟩,
   ⟨0x21, 0x18, 16, memDefs⟩,
   ⟨0x30, 0x28, 104, rowDefs⟩,
   ⟨0x31, 0x90, 8, colDefs⟩,
   ⟨0x40, 0x98, 32, chnDefs⟩,
   ⟨0x41, 0xb8, 4, qdiDefs⟩,
   ⟨0x42, 0xbc, 1, ftlDefs⟩,
   ⟨0x43, 0xbd, 1, vsxDefs⟩,
   ⟨0x50, 0xc0, 32, lnkDefs⟩,
   ⟨0x51, 0xe0, 1, redDefs⟩,
   ⟨0x60, 0xe1, 1, sptDefs⟩,
   ⟨0x32, 0xe2, 1, qntDefs⟩
  ]

/-- The block that stands at page `p`, when one does (R30): the reserved and vendor pages have none. -/
def blockAt (p : Nat) : Option RegBlock :=
  regBlocks.find? fun b => b.page ≤ p && p < b.page + b.count

/-- The type code of page `p`: 0 where no block answers (R30, R31). -/
def typeCode (p : Nat) : Nat :=
  match blockAt p with
  | some b => b.code
  | none => 0

/-- The instance number of page `p` within its block type (R30). -/
def instanceNo (p : Nat) : Nat :=
  match blockAt p with
  | some b => p - b.page
  | none => 0

/-- A register found: its row, the page offset of its lowest byte, and whether the address named its upper half. -/
structure RegHit where
  rd : RegDef
  base : Nat
  upper : Bool
  deriving DecidableEq, Repr

/-- Does the 32-bit word at page offset `o` lie in the register (array) of row `d`? -/
def RegDef.hit (d : RegDef) (o : Nat) : Option RegHit :=
  if o < d.off then none
  else
    let r0 := o - d.off
    let i := if d.s1 = 0 then 0 else min (r0 / d.s1) (d.n1 - 1)
    let r1 := r0 - i * d.s1
    let j := if d.s2 = 0 then 0 else min (r1 / d.s2) (d.n2 - 1)
    let r2 := r1 - j * d.s2
    if r2 = 0 then some ⟨d, o, false⟩
    else if d.wide && r2 = 4 then some ⟨d, o - 4, true⟩
    else none

/-- The register that holds the 32-bit word at page offset `o` of page `p` (R36 for offsets below 0x100). -/
def regHit (p o : Nat) : Option RegHit :=
  match blockAt p with
  | none => none
  | some b => (if o < 0x100 then headerDefs else b.defs).findSome? fun d => d.hit o

/-- PG_SHAPE of page `p`, as each block's chapter states it (R48, R52, R91, R93, R126, R147, R169, R203, R241, R243, R245,
R271, R305, R307, R339, R343, R379, R382, R399, R433, R460, R462, R463, R484, R503, R527, R528). -/
def pgShape (p : Nat) : Nat :=
  let n := instanceNo p
  match typeCode p with
  | 0x01 => 0x00000100
  | 0x02 => 0x000000C4
  | 0x03 => 0x00000040
  | 0x04 => 0x00000F20
  | 0x05 => 0x00000100
  | 0x06 => 0x00000D10
  | 0x07 => 0x00020808
  | 0x08 => 0x00103068
  | 0x09 => 0x00018410
  | 0x0A => 0x00040000
  | 0x0B => 0x00481008
  | 0x0C => 0x00000110
  | 0x0D => 0x0201B000
  | 0x0E => 0x00000018
  | 0x0F => 0x00030008
  | 0x10 => 0x00110000
  | 0x20 => 0x01402024
  | 0x21 => 0x01200430
  | 0x30 => 0x00094100 + (n / 13) * 0x100000
  | 0x31 => 0x0400200D + n * 0x10
  | 0x32 => 0x00400100
  | 0x40 => 0x10010400 + n
  | 0x41 => 0x00002118 + 8 * n * 0x10000
  | 0x42 => 0x00002320
  | 0x43 => 0x04D40100
  | 0x50 => 0x00007040 + n + (n / 8) * 0x10000
  | 0x51 => 0x0010002A
  | 0x60 => 0x000D0000
  | _ => 0

/-- PG_ID of page `p` (R36); SYS carries the stepping 0xA1 in place of an instance number (R527). -/
def pgId (p : Nat) : Nat :=
  match typeCode p with
  | 0 => 0
  | 0x02 => 0x0002A101
  | t => t * 0x10000 + instanceNo p * 0x100 + 1

/-- Clients' copies of a banked register stand 2^24 apart, above the 16 MiB of BAR0. -/
def bankStep : Nat := 0x1000000

/-- The reset value of the register that `key` names: the spec's where it gives one, 0 where it gives none
(log entry 2), the values that R36, R244 and R358 make depend on the page, the client or the link. -/
def regDefault (key : Nat) : BitVec 64 :=
  let a := key % bankStep
  let p := a / 0x10000
  let o := a % 0x10000
  if o = 0 then BitVec.ofNat 64 (pgId p)
  else if o = 4 then BitVec.ofNat 64 (pgShape p)
  else if a = R.CTX_MAX 0 then 0x40000#64
  else
    match regHit p o with
    | none => 0#64
    | some h =>
      if typeCode p = 0x50 && h.base = 0x104 then
        let n := instanceNo p
        BitVec.ofNat 64 (if n < 30 then n / 3 + (n % 3) * 16 else 0xE)
      else BitVec.ofNat 64 h.rd.reset

end Sys2Proof.Machine
end

