-- ==== Sys2Proof/Machine/Store.lean ====
section
/-! DEFINITION. Operations on the sparse keyed stores: find, erase, insert in key order, and set under a default value, which
keeps the canonical form (strictly rising keys, no entry equal to what an unlisted key reads as). -/

namespace Sys2Proof.Machine

/-- The value listed at key `k`, when one is. -/
def kvFind {α : Type} : KV α → Nat → Option α
  | [], _ => none
  | (k', v) :: m, k => if k' = k then some v else kvFind m k

/-- What key `k` reads as when an unlisted key reads as `d`. -/
def kvGet {α : Type} (d : α) (m : KV α) (k : Nat) : α := (kvFind m k).getD d

/-- Every entry but those at key `k`. -/
def kvErase {α : Type} (m : KV α) (k : Nat) : KV α := m.filter fun e => e.1 != k

/-- `v` at key `k`, in key order, replacing an entry there. -/
def kvPut {α : Type} : KV α → Nat → α → KV α
  | [], k, v => [(k, v)]
  | (k', v') :: m, k, v =>
    if k < k' then (k, v) :: (k', v') :: m
    else if k = k' then (k, v) :: m
    else (k', v') :: kvPut m k v

/-- `v` at key `k` where an unlisted key reads as `d`: storing `d` removes the entry. -/
def kvSet {α : Type} [DecidableEq α] (d : α) (m : KV α) (k : Nat) (v : α) : KV α :=
  if v = d then kvErase m k else kvPut m k v

/-- Strictly rising keys. -/
def kvSorted {α : Type} : KV α → Bool
  | [] => true
  | [_] => true
  | (k, _) :: (k', v') :: m => decide (k < k') && kvSorted ((k', v') :: m)

/-- The canonical form of a store whose unlisted key `k` reads as `d k`. -/
def kvWf {α : Type} [DecidableEq α] (d : Nat → α) (m : KV α) : Bool :=
  kvSorted m && m.all fun e => decide (e.2 ≠ d e.1)

/-- The keys of a store, in order. -/
def kvKeys {α : Type} (m : KV α) : List Nat := m.map Prod.fst

/-- The entries whose key lies from `lo` up to but not including `hi`. -/
def kvRange {α : Type} (m : KV α) (lo hi : Nat) : KV α := m.filter fun e => decide (lo ≤ e.1) && decide (e.1 < hi)

/-- Every entry but those whose key lies from `lo` up to but not including `hi`. -/
def kvDropRange {α : Type} (m : KV α) (lo hi : Nat) : KV α :=
  m.filter fun e => !(decide (lo ≤ e.1) && decide (e.1 < hi))

/-- The smallest of the `n` numbers from `k` on that no entry has as its key. -/
def kvFirstFree {α : Type} (m : KV α) : Nat → Nat → Option Nat
  | _, 0 => none
  | k, n + 1 => if (kvFind m k).isNone then some k else kvFirstFree m (k + 1) n

end Sys2Proof.Machine
end

