-- ==== Sys2Proof/Machine/State.lean ====
section
/-! DEFINITION. The state of the module as plain data: its registers by address, and beside them all that the spec gives its
units to hold. The faults and refusals a step can end in, and the state right after reset. -/

namespace Sys2Proof.Machine

/-- Why a step stops with a fault. No meaning of this model raises one: the spec gives every command an effect (safe). -/
inductive Fault where
  /-- Raised by nothing; the type keeps one name so that the outcome has its third form (safe). -/
  | none
  deriving DecidableEq, Repr

/-- Why a command has no meaning. -/
inductive Refusal where
  /-- Raised by the dispatch for a command whose meaning is not written, by its mnemonic (safe: nothing is claimed of it). -/
  | notModelled (mnemonic : String)
  /-- Raised by a write of client 0 to a page that a diagnostic unlock has opened: the spec gives those pages no register (R32,
  R478; log entry 19). Safe: the run stops where the module goes on. -/
  | diagnosticPage
  deriving DecidableEq, Repr

/-- What carries a PTP message (R397): an IEEE 802.3 frame with its EtherType and destination, or UDP/IPv4 with its addresses and port. -/
inductive PtpCarrier where
  | ethernet (etherType dst : Nat)
  | udp (src dst port : Nat)
  deriving DecidableEq, Repr

/-- What the module sends out of itself: the answers to reads, interrupt messages, completions, frames, flits and the rest,
in the order they leave. Each constructor cites the rule of what it carries. -/
inductive Output where
  /-- The data of a register read by a client (R33). -/
  | readData (c : Nat) (addr : Nat) (value : BitVec 64)
  /-- An MSI-X message on a vector of a logical device (R50). -/
  | msix (c : Nat) (vector : Nat)
  /-- A completion queue entry (R427, R428): the completion queue, the command, the SQ head, the phase, status code type, status code, do-not-retry, DW0 and DW1. -/
  | cqe (c q id head : Nat) (phase : Bool) (sct sc : Nat) (dnr : Bool) (dw0 dw1 : BitVec 32)
  /-- A result record written to host memory: colophon, then data (R426). -/
  | result (c : Nat) (addr : Nat) (data : List Byte)
  /-- Data written to host memory for a command (reads, log pages, identify data). -/
  | hostData (c q id : Nat) (data : List Byte)
  /-- A rising edge of PPS_OUT at a DTIME, and its width in µs (R67). -/
  | pps (at_ width : Nat)
  /-- A time message on a link (R83). -/
  | timeMessage (link : Nat) (m : TimeMessage)
  /-- A caller key advertised on a link, with the hop count when the link is not the upstream (R81, R82). -/
  | callerKey (link key : Nat) (hops : Option Nat)
  /-- A calibration request on a link, departing at t1 (R87). -/
  | calRequest (link t1 : Nat)
  /-- A calibration reply on a link: t1, t2 and t3 (R87). -/
  | calReply (link t1 t2 t3 : Nat)
  /-- A Delay_Req message on a cage, with its departure stamp and what carries it (R397). -/
  | delayReq (cage stamp : Nat) (by_ : PtpCarrier)
  /-- A setpoint frame on a cage: destination, the bytes from the source address on (R392, R393). -/
  | frame (cage : Nat) (dst : Nat) (bytes : List Byte)
  /-- The frame on the wire of a cage is cut short (R395). -/
  | frameCut (cage : Nat)
  /-- A flit of the link layer (R346): its 256 bytes, which `flitOf` lays out. -/
  | flit (link : Nat) (bytes : List Byte)
  /-- What a link's end says of itself in AUTH (R349): its certificate chain, its challenge, and its signature of the transcript. -/
  | linkAuth (link : Nat) (chain challenge proof : List Byte)
  /-- The range size that a client's CXL.mem registers report, in bytes (R199). -/
  | cxlRange (c size : Nat)
  /-- An FM API response: opcode, status, payload (R404). -/
  | response (code status : Nat) (payload : List Byte)
  /-- An attestation or sideband response on the path of its request: header, payload, padding (R472, R523). -/
  | message (path : AttPath) (bytes : List Byte)
  /-- A CXL.mem response: data, and whether it carries the poison indication (R449); a write's completion has no data. -/
  | cxlMem (c : Nat) (data : List Byte) (poison : Bool)
  /-- A level of RB# (R407): true is released. -/
  | rb (released : Bool)
  /-- The attention pattern: three low pulses of RB# (R408). -/
  | attention
  /-- The register access to a word of flash, a program, an erase or a read of a die (the medium's own traffic). -/
  | medium (die block : Nat) (what : Nat)
  deriving DecidableEq, Repr

/-- A holding register: a half of the 64-bit register at `key` (R34, R35). -/
structure Hold where
  key : Nat
  bits : Nat
  deriving DecidableEq, Repr

/-- A report on its way to the error log, or an entry of it (R453, R454). `routes` are the clients that R51 routes the
event to, for the client logs of R457; `isDropNote` marks a 0x400C entry, which nothing coalesces into. -/
structure Report where
  code : Nat
  page : Nat
  client : Option Nat
  addr : Nat
  aux : Nat
  ns : Nat
  sec : Nat
  count : Nat
  seq : Nat
  routes : List Nat
  isDropNote : Bool
  deriving DecidableEq, Repr

/-- The error log beside its registers: the queue of up to 256 reports, the written entries by slot (SEQ mod 4,096), the
reports dropped since the last 0x400C entry, and each client's log, newest entry first (R453 to R457). -/
structure ErrLog where
  queue : List Report
  ring : KV Report
  dropped : Nat
  clients : KV (List Report)
  deriving DecidableEq, Repr

/-- Interrupt aggregation beside its registers. `cats` holds, for page p and bit b at key 32 p + b, the mask of categories
that a set PG_IRQ_STAT bit has taken (R51). `last` is one more than the measure count of the last message on vector
48 + c of client n at key 16 n + c, `deferred` the vectors with a message put off by IRQ_MOD (R53). `strikeTo` is the
mask of clients whose slots struck, for MSR's bit [4] (R94). `pba` is each client's pending-bit array: the vectors with a message that
the MSI-X table masks (R405). -/
structure Irq where
  cats : KV Nat
  last : KV Nat
  deferred : KV Nat
  strikeTo : Nat
  pba : KV Nat
  deriving DecidableEq, Repr

/-- The slave-only PTP clock of R62 and R397: masters heard in Announce messages with their rank, the last Sync (sequence,
arrival, origin when known), the mean path delay, the last Delay_Req departure and the interval of the next. -/
structure PtpState where
  masters : KV Nat
  sync : Option (Nat × Nat)
  t1 : Option Nat
  t2 : Option Nat
  delay : Int
  t3 : Option Nat
  interval : Nat
  sentAt : Option Nat
  deriving DecidableEq, Repr

/-- What is known of the neighbour on a link: the caller key that it advertises of its own, 0 for none, the key of the caller whose time
messages it sends, and its hop count (R81 to R83). -/
structure Neighbour where
  key : Nat
  caller : Nat
  hops : Nat
  deriving DecidableEq, Repr

/-- The timebase beside its registers. `ppsLast` is the stamp of the last accepted PPS_IN edge, `ppsBad` the rejected or
missing edges in a row, `syncBad` the missing Sync messages in a row (R60). `loadPending` holds a LOAD_AT_PPS (R91).
`learnt` is the learnt frequency and `norLearnt` its NOR word (R65), in parts per trillion. `slew` is the correction still
to be slewed, in 1/16 ns (R68). `lossAt` is the elapsed time from which `hoAcc` grows, present while time is held over,
`hoAcc` the error in units of 10^-9 of 1/16 ns, `hoSaid` whether 0x8004 was raised since the loss (R64). `ownGrid` marks
a follower that keeps its own grid (R86). `lockLog` holds the frequencies used in lock with the elapsed time each began at, newest
first (R59); `okFrom` is the elapsed time since which the error has stayed within the lock bound (R61); `misaligned` says that the
follower has reported that it lies out of the bounds of R89; `advert` is the key, the hop count and the upstream last advertised
(R81, R82); `calReplies` are the exchanges whose replies have arrived, by link (R87). -/
structure Timebase where
  ppsLast : Option Nat
  ppsBad : Nat
  syncBad : Nat
  loadPending : Bool
  learnt : BitVec 32
  norLearnt : Option (BitVec 32)
  slew : Int
  slewCredit : Nat
  lossAt : Option Nat
  hoAcc : Nat
  hoSaid : Bool
  neighbours : KV Neighbour
  ownGrid : Bool
  calReplies : KV (List CalSample)
  ptp : PtpState
  lockLog : List (Nat × Nat)
  okFrom : Option Nat
  misaligned : Bool
  advert : Nat × Nat × Nat
  deriving DecidableEq, Repr

/-- A measure that has been announced and not yet struck (R74): its number and the instant its announce carried. -/
structure Announced where
  m : Nat
  at_ : Nat
  deriving DecidableEq, Repr

/-- The measure distributor beside its registers. `nextM` is the next measure to announce while RUN is 1, `announced` the
measures whose announce was issued on the present grid, as ranges, newest first, `queue` the announced measures, oldest first; `change` a pending period
change: its measure and its period (R73); `armClient` the client that armed each slot, `held` the slots whose strike
waits for their unit (R80), with the elapsed time at which the strike fell due, and `heldBy` the run whose step holds it. `idleFrom` is the elapsed time of the last idle tick,
or of the instant idle ticks count from (R72). `count` counts measures struck and idle ticks together, for the rules that
count in measures whether RUN is 1 or 0. `struckAt` is the elapsed time of the last strike. -/
structure Measures where
  nextM : Nat
  announced : List (Nat × Nat)
  queue : List Announced
  change : Option (Nat × Nat)
  armClient : KV Nat
  held : KV Nat
  heldBy : KV Nat
  idleFrom : Nat
  count : Nat
  struckAt : Option Nat
  deriving DecidableEq, Repr

/-- An accumulator entry (R95): an int48 sum, or the fp32 bits in [31:0] in bf16 mode, with its two flags. -/
structure AccEntry where
  value : Int
  sat : Bool
  poison : Bool
  deriving DecidableEq, Repr

/-- A 32-bit element with its poison: a scale, or an element of a vector register. -/
structure Elem where
  bits : BitVec 32
  poison : Bool
  deriving DecidableEq, Repr

/-- A drain that the next pass of a row follows (R108): its tokens, the cycles each takes, the cycles from the last slice of the pass to
the first of the drain, and those to the first slice of the next pass. -/
structure Drained where
  tokens : Nat
  cyc : Nat
  pipe : Nat
  due : Nat
  deriving DecidableEq, Repr

/-- A lane row beside its registers (R95): the format, grid levels and 64 words of the latched block, the load stage, the feed
buffer, the accumulator file (entry t of lane l at key 512 l + t), the Trim vector registers (element e of register i at
key 64 i + e), the lane and token scale files, the row grid file (R132); the Leaf stands in `State.leaf`. `fed` is the format and the tokens of the
feed that the next load follows, `drained` the drain that the next pass follows (R104, R108);
`waiting` are the requests that lost at the Leaf port, by requester, and `got` the word that each was last given (R117). -/
structure RowUnit where
  fmt : Option Fmt
  grid : List Int
  latch : List LeafWord
  stage : List LeafWord
  feed : List LeafWord
  acc : KV AccEntry
  vregs : KV Elem
  laneScale : KV Elem
  tokenScale : KV Elem
  grids : List (GridRef × List Int)
  idleFrom : Nat
  busyUntil : Nat
  clearDue : Bool
  satSaid : Bool
  nonfinSaid : Bool
  mismatches : KV Nat
  fed : Option (Fmt × Nat)
  drained : Option Drained
  waiting : KV PortReq
  got : KV LeafWord
  deriving DecidableEq, Repr

/-- A descriptor in a Collator queue (R164): the run, the issuing row's position in the group, the physical rows of the group by
position, the context of its data, that context's index when it is one's, and the instant of issue; its client, and whether its output
is to be discarded when the Collator has finished it (R229). -/
structure QDesc where
  d : Desc
  run : Nat
  pos : Nat
  rows : List Nat
  ctx : Nat
  x : List Nat
  at_ : Nat
  cyc : Nat
  client : Nat
  void : Bool
  deriving DecidableEq, Repr

/-- A Collator beside its registers: the LC queue of 8, the BE queue of 16, and the engine cycles left of a divided BE
descriptor at the head of its queue (R164); the events raised once per step (R168). -/
structure ColUnit where
  lc : List QDesc
  be : List QDesc
  begun : Option Nat
  nanSaid : List Nat
  ovfSaid : List Nat
  deriving DecidableEq, Repr

/-- A region of a tier (R190 to R193): what holds it. `use` tells client regions from the module's own allocations on a
client's behalf: figure images, windows, context state, CXL.mem windows. `striped` or `channel` is the placement of a T3 region
(R278), `modCount` its modification count (R315). -/
structure Region where
  client : Nat
  tier : Nat
  bytes : Nat
  use : Nat
  striped : Bool
  channel : Nat
  filled : Bool
  pins : Nat
  modCount : Nat
  deriving DecidableEq, Repr

/-- What a transfer that answers a command, or spills a context, does once its chunks are taken (R175, R177). -/
inductive BinderJob where
  | move (cid : Cid) (d : MoveDesc) (reads : List ReadFault) (ecc : List EccFault) (redo : Nat)
  | copy (cid : Cid) (d : MoveDesc) (ecc : List EccFault) (redo : Nat)
  | spill (x redo : Nat) (ecc : List EccFault)
  | figure (cid : Cid) (e : Sqe) (reads : List ReadFault)
  deriving DecidableEq, Repr

/-- A transfer in the Binder's queues (R177): its kind, class, deadline measure, context and layer, the 64 KiB chunks left, whether an
engine has taken one (R38), and what it does when that is not the STREAM, FILL or STAGE of the run and context it names. -/
structure Transfer where
  kind : Nat
  lc : Bool
  deadline : Option Nat
  ctx : Nat
  layer : Nat
  run : Nat
  chunks : Nat
  begun : Bool
  job : Option BinderJob
  deriving DecidableEq, Repr

/-- The Binder and the tier manager beside their registers (R175 to R199): queues of transfers, and those asked for again once TIER
accepts work after a block reset (R562); the regions by handle and the next handle; the region of each client's window and its
decoder; the tiers whose capacity fell below the sum of QMIN (R195); and the commands that wait for a zero fill (R196). -/
structure TierState where
  lc : List Transfer
  be : List Transfer
  again : List Transfer
  regions : KV Region
  nextHandle : Nat
  cxlm : KV Nat
  hdm : KV Hdm
  degraded : List Nat
  pendingFills : List (Nat × Cid × Nat × Nat)
  deriving DecidableEq, Repr

/-- A context table entry (R231), field by field; `state` is 0 FREE, 1 COLD, 2 WARM, 3 FAULTED. `region` is the handle of the
state region, whose address STATE_ADDR shows. `touchedAt` counts measures from the last commit (R233). -/
structure Ctx where
  state : Nat
  client : Nat
  inRun : Bool
  spilled : Bool
  pinned : Bool
  poison : Bool
  layout : BitVec 32
  stepCtr : Nat
  seed : BitVec 128
  region : Nat
  stateLen : Nat
  lastEvent : Nat
  saveM : Nat
  counters : List Nat
  touchedAt : Nat
  colophon : Option (List Byte)
  resetBy : List Nat
  deriving DecidableEq, Repr

/-- A loaded figure: its handle is its key. `image` and `reserveImage` are the
regions of its images, `windows` those of its windows, `freeWindows` the windows that
serve no run, `arrived` counts the commands queued for it (R205, R206, R211). -/
structure Loaded where
  client : Nat
  fig : Figure
  image : Nat
  reserveImage : Option Nat
  windows : List Nat
  freeWindows : List Nat
  deriving DecidableEq, Repr

/-- A RUN command on its way to a run (R211, R426): who sent it, its context, its input with its poison, the result buffer,
its arrival as DTIME and in measures, and whether measures were stopped or the class uncovered at its arrival (R225). -/
structure RunCmd where
  cid : Cid
  ctx : Nat
  handle : Nat
  input : List Byte
  bufAddr : Nat
  bufLen : Nat
  k : Nat
  index : Nat
  at_ : Nat
  atCount : Nat
  bound : Nat
  order : Nat
  deriving DecidableEq, Repr

/-- The states of a run (R215). -/
inductive RunPhase where
  | formed
  | staging
  | computing
  | boundary
  | waitFlash
  | waitLayer
  | stalled
  | posting
  | tornDown
  | stopped
  | done
  deriving DecidableEq, Repr

/-- A layer of a streamed figure as a run holds it: when its STREAM was issued, its deadline measure, whether it has landed
or missed (R183 to R185). -/
structure LayerState where
  issued : Bool
  deadline : Nat
  landed : Bool
  missed : Bool
  deriving DecidableEq, Repr

/-- A write to context state kept in the step's shadow (R210): context index, offset, bytes and poison. -/
structure Shadow where
  x : Nat
  off : Nat
  bytes : List Byte
  poison : Bool
  deriving DecidableEq, Repr

/-- A result of a context, or the record written for it, in delivery order (R252, R426); `search` marks the list of a search. -/
structure ResultPart where
  x : Nat
  step : Nat
  bytes : List Byte
  poison : Bool
  search : Bool
  deriving DecidableEq, Repr

/-- A peer message that has arrived for a run and not been consumed (R376): its link, the stamp of its last flit, where it was
written, and what it held. -/
structure Arrival where
  link : Nat
  at_ : Nat
  region : Nat
  off : Nat
  bytes : List Byte
  poison : Bool
  deriving DecidableEq, Repr

/-- A run (R211, R215) with all that its colophons say of it (R253, R254). `rows` are the physical rows in logical order,
`cols` the physical Collator group of each logical group, `flags` the kind-R flags of CTL, `vflags` those of kind V by
context index, `bound` the cause of R226 known so far, `fallback` the layer and deadline of the miss that caused it.
`gaveBack` are the lent rows it has given back (R214), `used` the rows in whose Leaf it has placed data (R123), `waitRow` the row that
waits on its operation in hand and the instant since when (R164). `forCtx` are the contexts, by index, whose data the operation in hand works on, shared out among its units (R254). `lentHeld` says that its held admission waits for a lent step.
`mons` and `redOwner` are MON_CTL of each monitor and RED.PG_OWNER in force at the admission of its step (R479, R480). `strikeAt` is the instant the strike falls due, `expireAt` when the watchdog expires, `expiries` its expiries in the step. `pc` counts
the operations of the step done, `replayDue` a step that a dirty-line
mismatch sends back to its admission (R257). `orders` is the order record of the running step (R249), `pmax` the largest measure period in force during the run (R224),
`causes` the mask of causes 0x10 + i that a bound may be exceeded for. `results` are the parts of the running step, `records` what is
ready to be written to the host; `posted` are the buffers a replayed run posts (link, region, offset, length). -/
structure Run where
  handle : Nat
  client : Nat
  lc : Bool
  cold : Bool
  cmds : List RunCmd
  phase : RunPhase
  step : Nat
  inReserve : Bool
  fallback : Option (Nat × Nat)
  formedCount : Nat
  admitM : Nat
  admitted : Bool
  startAt : Nat
  rows : List Nat
  cols : List Nat
  gaveBack : List Nat
  used : List Nat
  waitRow : Option (Nat × Nat)
  covered : Bool
  bound : Nat
  gen : Nat
  admitAt : Nat
  strikeAt : Nat
  endAt : Nat
  expireAt : Nat
  expiries : Nat
  stepReplayed : Bool
  replayDue : Bool
  pc : Nat
  recomp : Nat
  lateCyc : Nat
  heldFrom : Option Nat
  lentHeld : Bool
  mons : List Nat
  redOwner : Nat
  forCtx : List Nat
  flags : Nat
  vflags : KV Nat
  window : Option Nat
  layers : KV LayerState
  missPending : Option (Nat × Nat)
  missSaid : Bool
  shadow : List Shadow
  results : List ResultPart
  colos : KV (List Byte)
  orders : List (List Nat)
  journalled : Bool
  jseq : KV Nat
  jctl : Nat
  epochs : KV Nat
  waveData : List LeafWord
  wavePlan : List WaveRead
  waveAt : Nat
  pmax : Nat
  waves : Nat
  decl : Nat
  replayOf : Option Nat
  charges : List Nat
  bucketWait : List Nat
  arrived : List Arrival
  posted : List (Nat × Nat × Nat × Nat)
  records : List ResultPart
  causes : Nat
  faultEvent : Nat
  place : Nat
  deriving DecidableEq, Repr

/-- The scheduler beside its registers: loaded figures by handle, commands queued by order of arrival, runs by number, the
reservation map in force (the client of each reserved row, by row) and the accepted map awaiting its strike (R213), the
clients whose reservation is degraded with the row owed, and whether a strike has found no idle row for it (R227), events raised this measure once per client (R226). -/
structure SchedState where
  figures : KV Loaded
  queue : List RunCmd
  runs : KV Run
  nextRun : Nat
  nextOrder : Nat
  reserved : KV Nat
  commit : Option (KV Nat)
  degraded : List (Nat × Nat × Bool)
  uncovSaid : List Nat
  deriving DecidableEq, Repr

/-- A record of the journal (R261, R262): its type, its payload, sequence number, STEPCTR and WHO; whether WRAP holds for it (R265), and
where in the region it was written; and the place of its context in its run, which the module knows as it writes the record. -/
structure JRecord where
  type : Nat
  seq : Nat
  stepCtr : Nat
  who : Nat
  payload : List Byte
  poison : Bool
  wrap : Bool
  pos : Nat
  place : Nat
  deriving DecidableEq, Repr

/-- A client's journal and replay beside their registers (R260 to R269): buffered records, records written to the region,
records and bytes lost since the last GAP record with the context of the first, and the replay in progress: the records it has
still to read, whether ABORT was written, and whether a run has been replayed; the contexts whose STATE was written. -/
structure Journal where
  buffer : List JRecord
  written : List JRecord
  lostRecords : Nat
  lostBytes : Nat
  lostCtx : Nat
  replay : Option (List JRecord)
  aborting : Bool
  replayed : Bool
  hadState : List Nat
  deriving DecidableEq, Repr

/-- An endpoint entry (R384). -/
structure Endpoint where
  dst : Nat
  en : Bool
  cage : Nat
  reqCovered : Bool
  allowBe : Bool
  hasLast : Bool
  client : Nat
  step : Nat
  ramp : Nat
  min : Int
  max : Int
  dflt : Int
  dfltUs : Nat
  lastFseq : Nat
  lastStart : Nat
  rE : Nat
  lastSp : List Int
  poison : Bool
  deriving DecidableEq, Repr

/-- A setpoint record as the port holds it (R386): the run's class, client and bound, the colophon of the producing step, and
whether any of its words is poisoned; `strikeAt` is the instant of the strike that launched it. `entry` is the entry as
the frame used it once a cage has had its check, `gone` are the cages that have, `sent` and `held` say whether one of them sent the frame
and whether one withheld it (R396). -/
structure SetRecord where
  endpoint : Nat
  launchM : Nat
  start : Nat
  sp : List Int
  poison : Bool
  lc : Bool
  client : Nat
  colophon : List Byte
  late : Bool
  strikeAt : Nat
  entry : Option Endpoint
  gone : List Nat
  sent : Bool
  held : Bool
  deriving DecidableEq, Repr

/-- The setpoint port beside its registers: the endpoint table, entries written and not yet in force (R385), pending records
and those waiting behind an announced one, by endpoint (R387, R396), frames a strike has released (R387), the frames on
the wire (R395), and the event codes raised this measure (R398). -/
structure SptState where
  table : KV Endpoint
  staged : KV Endpoint
  pending : KV SetRecord
  waiting : KV SetRecord
  launched : KV SetRecord
  said : List Nat
  freeAt : KV Nat
  deriving DecidableEq, Repr

/-- A programmed page (R275): the region and unit it holds, its write sequence number, atomic group, quire, the codewords that carry the
poison marker, its data, whose missing tail is zeros, the sequence number of the quire, and the CRC-32C of the header. -/
structure PageRec where
  region : Nat
  unit : Nat
  seq : Nat
  group : Nat
  quire : Nat
  poison : List Nat
  data : List Byte
  quireSeq : Nat
  check : Nat
  deriving DecidableEq, Repr

/-- The states of a quire (R284). -/
inductive QuirePhase where
  | free
  | erasing
  | erased
  | opened
  | closed
  | verified
  deriving DecidableEq, Repr

/-- A quire (R283 to R286): its phase, sequence number, stream (0 host SLC writes, 1 folds, 2 garbage collection, 3 wear moves),
whether it holds parity, the pages written in its block on each die, and the read hold count when it became FREE; the dies on which it
has a block, whether its blocks pass the blank check, and the stripes whose parity is in the pool. -/
structure Quire where
  phase : QuirePhase
  seq : Nat
  stream : Nat
  parity : Bool
  wp : KV Nat
  freedAt : Nat
  dies : List Nat
  blank : Bool
  stripes : Nat
  deriving DecidableEq, Repr

/-- A NAND die (R274, R276, R306): 0 in service, 1 spare, 2 retired, 3 failed; its reserve blocks, factory and grown bad blocks,
the instants of its erase failures, and whether it is worn: it has lost a block more than its reserve replaces. -/
structure Die where
  status : Nat
  reserve : Nat
  factory : Nat
  grown : Nat
  efails : List Nat
  worn : Bool
  deriving DecidableEq, Repr

/-- A Write, or a transfer into T3, whose data is staged (R281, R297): who completes, the namespace, the atomic groups still to
be programmed, and its order among commands. -/
structure StagedWrite where
  cid : Option Cid
  nsid : Nat
  left : Nat
  order : Nat
  deriving DecidableEq, Repr

/-- An atomic group in write staging (R281): its write, its region, and for each unit the offset, the bytes and the codewords they
poison. -/
structure StagedGroup where
  write : Nat
  region : Nat
  units : List (Nat × Nat × List Byte × List Nat)
  deriving DecidableEq, Repr

/-- A group record in the map journal of a channel die (R281): the atomic group, its member count, and the members on this channel die. -/
structure GroupRec where
  die : Nat
  group : Nat
  members : Nat
  here : Nat
  deriving DecidableEq, Repr

/-- A copy that garbage collection has made and that the map does not name yet (R295, R298): channel die, region and unit, the page read
and the page written. -/
structure GcCopy where
  n : Nat
  region : Nat
  unit : Nat
  src : Nat
  dst : Nat
  deriving DecidableEq, Repr

/-- The flush area of R302 as a flush has written it: of each channel die the bytes of its journal buffer, and of each open quire, by its
key, the pages of partial parity and the write pointers. -/
structure FlushArea where
  journals : KV Nat
  parity : KV Nat
  wps : KV (KV Nat)
  deriving DecidableEq, Repr

/-- The flash translation layers beside their registers. Channel die n, die d (channel times 17 plus position), block b, page p:
the map entry of unit u of region h stands at key h 2^40 + u (R279); a page at key n 2^32 plus its physical page address;
quire q of group n at key n 2^16 + q, an unlisted one FREE; `subst` the block of a quire on a die when it is not block q, and
`dead` the pairs of quire and die with no block; `ec` the erase count of a block in tenths of a QLC erase (R289); `jbytes` the
journal since the last checkpoint; `active` the read holds that stand, by number times 4 plus channel die (R293); `suspended` the die's suspended
operations, 1 a program and 2 an erase (R291); `retryAt` the read numbers of recent retries (R300); `retired` the blocks out of service;
`records` the group records; `roots` for each channel die the number of its newest checkpoint and the journal record that follows it, as
the root pointers in NOR name them; `dirty` the map segments changed since; `jbuf` the bytes of its journal still in T2 (R282); `copies` what garbage collection has copied
into quires that are not VERIFIED yet (R298); `wearStep` how many of the steps of R300 have been reported, 1 for 100% of life and one more
for each whole 5% beyond; `area` is what a flush has written into the flush area, which stands erased otherwise (R302). -/
structure FtlState where
  map : KV Nat
  pages : KV PageRec
  quires : KV Quire
  subst : KV Nat
  dead : KV Bool
  ec : KV Nat
  dies : KV Die
  writes : KV StagedWrite
  groups : KV StagedGroup
  flushes : List (Cid × Nat × Nat)
  nextWrite : Nat
  nextGroup : Nat
  writeSeq : Nat
  order : Nat
  quireSeq : KV Nat
  jbytes : KV Nat
  holds : Nat
  active : List Nat
  suspended : KV Nat
  reads : KV Nat
  retryAt : KV (List Nat)
  warnedAt : KV Nat
  fgc : List Nat
  readOnly : Bool
  marker : Option Bool
  wearStep : Nat
  mounted : Bool
  retired : List Nat
  records : List GroupRec
  roots : KV (Nat × Nat)
  dirty : List (Nat × Nat)
  jbuf : KV Nat
  copies : List GcCopy
  area : Option FlushArea
  deriving DecidableEq, Repr

/-- An NVM namespace (R418). -/
structure Namespace where
  client : Nat
  region : Nat
  blocks : Nat
  deriving DecidableEq, Repr

/-- An entry of a folio (R318): item index, insert epoch, code. -/
structure FolioEntry where
  item : Nat
  epoch : Nat
  code : List Byte
  deriving DecidableEq, Repr

/-- A folio of a list's chain (R318, R320): the unit of its channel's folio region, its BASE and VERSION, and what it holds. -/
structure Folio where
  unit : Nat
  base : Nat
  version : Nat
  entries : List FolioEntry
  deriving DecidableEq, Repr

/-- The state and the chain of a list from an epoch on (R322, R323): 0 LIVE, 1 MERGED with its target, 2 DROPPED. -/
structure ListVersion where
  epoch : Nat
  state : Nat
  target : Nat
  chain : List Folio
  deriving DecidableEq, Repr

/-- A list of an index: its versions, newest first, its pending deletes (item, epoch), those a later chain has discarded and an
older snapshot may still need, its edges (target, hits) (R321 to R336). -/
structure IdxList where
  versions : List ListVersion
  deletes : List (Nat × Nat)
  old : List (Nat × Nat)
  edges : List (Nat × Nat)
  deriving DecidableEq, Repr

/-- A vector index (R316): `table` is its T2 region, `folios` its T3 regions by channel and `nextUnit` the units used in each.
An unlisted list is LIVE and empty. -/
structure Index where
  client : Nat
  lists : Nat
  ctype : Nat
  metric : Nat
  l : Nat
  delSpace : Nat
  epoch : Nat
  table : Nat
  folios : KV Nat
  nextUnit : KV Nat
  entries : KV IdxList
  deriving DecidableEq, Repr

/-- A result entry of a channel engine: key, index, AUX. -/
structure ListEntry where
  key : Nat
  index : Nat
  aux : Nat
  deriving DecidableEq, Repr

/-- A job of a channel engine (R310): its run, client and class, the read of the wave and the context it serves, its read hold
(R293), the folios of a scan in list order (list, chain position) with the deletes that apply (list, item), or the units of a
filter; what is left to read, and what it has found. -/
structure Job where
  run : Nat
  read : Nat
  x : Nat
  client : Nat
  lc : Bool
  hold : Nat
  index : Nat
  snap : Nat
  filter : Option FilterJob
  klocal : Nat
  table : List Byte
  folios : List (Nat × Nat)
  deletes : List (Nat × Nat)
  units : List Nat
  top : List ListEntry
  passed : List (List Byte)
  overflow : Bool
  poison : Bool
  omitted : Nat
  nread : Nat
  unmapped : Nat
  poisoned : Nat
  nan : Nat
  compared : Nat
  hidden : Nat
  deleted : Nat
  skipped : Nat
  failed : Nat
  deriving DecidableEq, Repr

/-- A channel engine: its four slots, the jobs waiting in the channel die's queue, and the slot whose BE job had the last page
(R310). -/
structure ChanUnit where
  slots : KV Job
  queue : List Job
  turn : Nat
  deriving DecidableEq, Repr

/-- A query of a run's context (R326 to R332): the snapshot, VSX_PF_CTL and the edges (target, hits) at its admission, the
counts of R331, the edges taken (list, position, target), whether a channel was down, a table or a list poisoned, a list cut
at 256; where the lists lie and how many entries they hold; and the duplicates, the poison and the AUX values of its MERGE. -/
structure Query where
  index : Nat
  snap : Nat
  pf : Nat
  edges : KV (List (Nat × Nat))
  out : Nat
  klocal : Nat
  k : Nat
  probes : Nat
  prefetch : Nat
  edgeSkip : Nat
  probeSkip : Nat
  taken : List (Nat × Nat × Nat)
  nread : Nat
  compared : Nat
  hidden : Nat
  deleted : Nat
  skipped : Nat
  failed : Nat
  trunc : Bool
  poison : Bool
  down : Bool
  dup : Nat
  deriving DecidableEq, Repr

/-- The search units beside their registers: queries at key run times 2^16 plus context index, jobs that have ended at key
run 2^20 + read 32 + channel, and for VSX_PF_CTL and VSX_COMPACT_AT the value before the last write with the measure count
of that write (R344). -/
structure SearchState where
  indexes : KV Index
  engines : KV ChanUnit
  queries : KV Query
  finished : KV Job
  before : KV (Nat × Nat)
  deriving DecidableEq, Repr

/-- A T1 buffer posted for peer messages on a link (R376): the run that posted it, the region, offset and length. -/
structure Posting where
  run : Nat
  region : Nat
  off : Nat
  len : Nat
  deriving DecidableEq, Repr

/-- A peer message (R376): its run and client, its bytes, whether it is timed and whether its SEND has struck. -/
structure PeerMsg where
  run : Nat
  client : Nat
  timed : Bool
  go : Bool
  poison : Bool
  bytes : List Byte
  deriving DecidableEq, Repr

/-- An Edlux link beside its registers (R348 to R355, R376). `next` is the next SEQ to send, `acked` the last acknowledged,
`expect` the next to accept; `retry` the flits sent and not acknowledged, oldest first; `replays` the instants and lengths of
recent replays; `outbox` the messages that wait for a posting at the peer, `credits` the postings the peer has free; `inbox`
the pieces of the message arriving, `whole` the messages that have arrived whole and wait for their posting, each with its bytes, its
poison and the stamp of its last flit, oldest first; `sentAt` the stamp of the last timed message's departure (R381); `nakked` says that the peer's NAK is unanswered, `ackAt` when
ACK last advanced or a flit became outstanding, `lastAt` when the last intact flit came or the link came up. -/
structure LinkUnit where
  next : Nat
  acked : Nat
  expect : Nat
  naking : Bool
  retry : List (Nat × FlitBody)
  replays : List (Nat × Nat)
  warnedAt : Option Nat
  postings : List Posting
  outbox : List PeerMsg
  credits : Nat
  inbox : List (Nat × List Byte × Bool)
  whole : List (List Byte × Bool × Nat)
  sentAt : Option Nat
  outq : List FlitBody
  nakked : Bool
  ackAt : Nat
  lastAt : Nat
  deriving DecidableEq, Repr

/-- A gradient bucket in flight (R360 to R364): its release, the own blocks as encoded, the blocks of each child (left at keys
2 b, right at 2 b + 1 for block b), the blocks from the root, when it was released here, if it was, and whether the landing is
to be discarded. -/
structure Bucket where
  size : Nat
  run : Nat
  client : Nat
  region : Nat
  off : Nat
  source : Nat
  mask : Nat
  gen : Nat
  restarts : Nat
  own : List Block
  children : KV Block
  landed : KV Block
  sent : List Nat
  at_ : Nat
  released : Bool
  discard : Bool
  deriving DecidableEq, Repr

/-- RED beside its registers: the buckets in flight by sequence number, the trees whose children have reported ready (left and
right at keys 2 t and 2 t + 1) and the trees this rank reported, the trees of TREE_GO that join at the next release with their
generation, with the number of the bucket each joined at once it did, the TREE_DOWN messages forwarded, and for each child of each tree, at
key 2 t for the left and 2 t + 1 for the right, the sequence number its next start flit should carry (R359, R361, R372). -/
structure RedState where
  buckets : KV Bucket
  childReady : KV Bool
  reported : List Nat
  joining : List (Nat × Nat)
  downSeen : List Nat
  heard : KV Nat
  joined : KV Nat
  deriving DecidableEq, Repr

/-- A submission queue (R410, R411): size, priority, its completion queue, head and tail, the identifiers between them with
whether each is a Gonum command, and the delete that waits for its fetched work. -/
structure SubQ where
  size : Nat
  prio : Nat
  cq : Nat
  head : Nat
  tail : Nat
  ids : List (Nat × Bool)
  deleting : Option Nat
  deriving DecidableEq, Repr

/-- A completion as it is placed in a queue (R427); `arrival` is when the command of an LC run arrived, in DTIME, whose latency DW1
gives when it is posted (R224). -/
structure Cqe where
  sq : Nat
  id : Nat
  sct : Nat
  sc : Nat
  dnr : Bool
  dw0 : BitVec 32
  dw1 : BitVec 32
  arrival : Option Nat
  deriving DecidableEq, Repr

/-- A completion queue (R412, R413): size, vector, whether it interrupts, head and tail, the phase of the next entry, and the
completions held while it is full. -/
structure CplQ where
  size : Nat
  vector : Nat
  ien : Bool
  head : Nat
  tail : Nat
  phase : Bool
  held : List Cqe
  deriving DecidableEq, Repr

/-- The NVMe controller of a logical device (R410 to R417): CC.EN, its queues, the identifiers of the Asynchronous Event
Requests that wait, the events that wait for one (type, information, log page), the event types reported and not yet read,
the feature values set, and the last 64 command errors. `fetched` are the commands fetched and not completed. `arb` is the weighted round
robin (R411): what each class 1 to 3 has fetched in the round at key of the class, and the queue it served last at key 4 more. -/
structure Ctrl where
  en : Bool
  sqs : KV SubQ
  cqs : KV CplQ
  aers : List Nat
  events : List (Nat × Nat × Nat)
  reported : List Nat
  features : KV Nat
  errors : List (List Byte)
  errCount : Nat
  fetched : List (Nat × Nat)
  warnings : Nat
  seen : Nat
  arb : KV Nat
  deriving DecidableEq, Repr

/-- The function that a logical device presents, beside its NVMe controller (R402, R405): whether it is in D3hot and not in D0; its MSI-X
table, of which an unlisted entry is 0, with the mask in bit 96; the status registers of Advanced Error Reporting and of the CXL RAS
capability, uncorrectable and correctable; the other words of its CXL component and device registers by their offset in BAR4. No row of
the table accesses them, so each stays as at reset (log entry 8). -/
structure HostFn where
  d3hot : Bool
  msix : KV (BitVec 128)
  aerUncor : BitVec 32
  aerCor : BitVec 32
  rasUncor : BitVec 32
  rasCor : BitVec 32
  cxlRegs : KV (BitVec 32)
  deriving DecidableEq, Repr

/-- Is an attention pattern due on RB# (R408, R409)? `ready` is one for an attention that arose with RB# released, `busy` one that the end
of a busy interval lets out: its attention arose while RB# was low, or its pattern was cut. -/
inductive AttnDue where
  | no
  | ready
  | busy
  deriving DecidableEq, Repr

/-- A merge buffer entry of a memory device (R440): its block's bytes and byte enables, when it opened, and the region and
offset whose bytes it holds. -/
structure MergeEntry where
  region : Nat
  off : Nat
  bytes : List Byte
  enables : List Bool
  lc : Bool
  openedAt : Nat
  deriving DecidableEq, Repr

/-- The memory devices beside their registers: the stored words that differ from the fill's, at key 2^40 d plus the data byte
address (R435, R446); the merge buffers by device and block; the counts of each bank; the regions whose frames retire when
they are freed, with the frames (R450). -/
structure DevState where
  words : KV (BitVec 80)
  merge : KV MergeEntry
  banks : KV Nat
  due : List (Nat × Nat)
  deriving DecidableEq, Repr

/-- An entry of the measurement log (R471). -/
structure MeasLog where
  slot : Nat
  kind : Nat
  digest : List Byte
  data : List Byte
  deriving DecidableEq, Repr

/-- The security unit (R465 to R478): the PUF seed, the public keys, whether the PUF is still to be read in this application of
power, the slots and counts, the log, the diagnostic nonce, the pages an unlock names and the
measure count at which it ends, the hold's start and limit in measures (R481), and whether 0x9003 was raised this measure. -/
structure SecState where
  seed : Option (List Byte)
  dik : List Byte
  pufDue : Bool
  ak : List Byte
  slots : KV (List Byte)
  counts : KV Nat
  log : List MeasLog
  nonce : Option (List Byte)
  pages : Nat
  endsAt : Nat
  holdFrom : Nat
  holdLimit : Nat
  attSaid : Bool
  deriving DecidableEq, Repr

/-- A firmware image as an endpaper holds it (R491), its header field by field: `magicOk` covers MAGIC, VERSION and LEN,
`digestOk` that BODY_DIGEST matches the body. -/
structure FwImage where
  magicOk : Bool
  raise : Bool
  len : Nat
  part : Nat
  svn : Nat
  fwver : Nat
  fr : List Byte
  seq : Nat
  bodyDigest : List Byte
  digestOk : Bool
  bytes : List Byte
  deriving DecidableEq, Repr

/-- A copy of the endpaper selector (R495). -/
structure Selector where
  active : Bool
  trial : Bool
  seq : Nat
  deriving DecidableEq, Repr

/-- An erase in a bank of NOR (R486, R489): its sector, the work left of it, the instant since when it runs, before which it stands
suspended, and how often it was suspended. -/
structure NorErase where
  sector : Nat
  left : Nat
  since : Nat
  suspends : Nat
  deriving DecidableEq, Repr

/-- A bank of NOR (R486, R489): its erases, the first in progress, and from when until when it programs. -/
structure NorBank where
  erases : List NorErase
  progFrom : Nat
  progEnd : Nat
  deriving DecidableEq, Repr

/-- What a value kept in NOR replaces (R487, R488): a setting that is a register, the selector and the ATTEMPT records after it, the learnt
frequency, the fence requests, the FTL root pointers with the read-only mode. -/
inductive NorOld where
  | setting (key : Nat) (old : Option Nat)
  | selector (sel : List Selector) (attempts : List Nat)
  | freq (old : Option (BitVec 32))
  | fences (old : List Nat)
  | roots (old : KV (Nat × Nat)) (readOnly : Bool)
  deriving DecidableEq, Repr

/-- A copy of a log (R488): which of its two sectors is the current one, the records in it, whether the other has been the current one
before, and what the records replace that wait for the other's erase. -/
structure NorCopy where
  half : Bool
  used : Nat
  turned : Bool
  waiting : List NorOld
  deriving DecidableEq, Repr

/-- The NOR die (R486 to R501): the endpapers, the selector copies and the ATTEMPT records after them, the rollback copies, the
PUF check value, certificates 0 to 2, factory data measured into slot 3, persistent settings by register address, the fence
requests, the rows marked spare at the factory (R514), the erase count of each sector, those of an endpaper under its first, the
banks, the copies of the logs, the sectors whose erase was abandoned, the energy coefficients (R237), and the MAC addresses of the cages (R400); and in T2 the staged pieces
of a download; the command that an activation answers, whether its firmware has started, and whether one runs. -/
structure NorState where
  front : FwImage
  back : FwImage
  selectors : List Selector
  attempts : List Nat
  rollback : List Nat
  pufCheck : List Byte
  certs : List (List Byte)
  factory : List Byte
  settings : KV Nat
  fences : List Nat
  spareRows : List Nat
  erases : KV Nat
  banks : KV NorBank
  copies : KV NorCopy
  undef : List Nat
  coefs : List Nat
  macs : List Nat
  staged : List (Nat × List Byte)
  activation : Option Cid
  drained : Bool
  running : Bool
  deriving DecidableEq, Repr

/-- The management domain (R504 to R525, R536 to R546): the supplies and PERST#, whether the level 3 trip stands, the bring-ups
begun, what follows a flush in progress (1 a power-on, 2 a module reset), the bring-up's start and the devices its fill found bad,
the watchdog's last kick and record (core, expiries in a row, bring-up of the last) and the core whose expiry awaits its event,
when READY was entered, the throttle level, for the power and the thermal cause since when the leaving condition holds while the
cause stands, the last readings, the SMART and throttle causes that stand (bit 0 a sensor's warning, bit 1 + n a threshold of
client n), since when P54 is out of range, and for RB#: when the last pattern ended,
whether SYS_ATTN has been read since, when RB# was last released, whether it is low and since when; withdrawals held (R516),
when each event limited to once a second was last raised, the cage signals, and whether a block reset of SYS has put SYS_STATE to its
reset value since the phase last changed (R40). -/
structure SysState where
  p54 : Bool
  aux : Bool
  perst : Bool
  tripped : Bool
  boots : Nat
  afterFlush : Nat
  bringupFrom : Nat
  deadDevs : List Nat
  kickAt : Nat
  wdRecord : Option (Nat × Nat × Nat)
  wdEvent : Option Nat
  readyAt : Nat
  level : Nat
  drawing : Option (Option Nat)
  hot : Option (Option Nat)
  temps : List Int
  p54mv : Nat
  w100 : Nat
  bankMj : Nat
  causes : Nat
  lowFrom : Option Nat
  patternEnd : Option Nat
  attnRead : Bool
  releasedAt : Nat
  low : Bool
  lowAt : Nat
  withdrawn : List Nat
  saidAt : KV Nat
  flushing : Bool
  cageSig : KV Nat
  phaseHidden : Bool
  deriving DecidableEq, Repr

/-- The state of the module. -/
structure State where
  /-- Commands that wait, first in first out. -/
  pending : List Instr
  /-- The registers of BAR0 by byte address; an unlisted one reads as its reset value (`regDefault`). -/
  regs : KV (BitVec 64)
  /-- For a rights register written and not yet in force, the value in force (R479). -/
  inForce : KV (BitVec 64)
  /-- What has left the module, newest last. -/
  out : List Output
  /-- The model's own counter of free values drawn. -/
  fresh : Nat
  /-- DTIME in units of 1/16 ns (R54, R55). -/
  dtime : Nat
  /-- Elapsed time since power-on in 1/16 ns, which no load or step of DTIME moves (R72). -/
  etime : Nat
  /-- RB# has been released since the last reset (R47, R407). -/
  released : Bool
  /-- Each client's read holding register, when valid (R34). -/
  rdHold : KV Hold
  /-- Each client's write holding register, when it holds a lower half (R35). -/
  wrHold : KV Hold
  /-- Each client's holding register of TMB_NOW: DTIME at its last read of TMB_NOW_FRAC (R92). -/
  nowHold : KV Nat
  /-- Each client's latch of the PPS_IN stamp (R91). -/
  ppsHold : KV Nat
  /-- Each client's latch of SEC_MEAS (R485). -/
  measHold : KV (List Nat)
  /-- Interrupt aggregation (R51 to R53). -/
  irq : Irq
  /-- The error log (R453 to R457). -/
  err : ErrLog
  /-- The timebase (R58 to R89). -/
  tmb : Timebase
  /-- The measure distributor (R70 to R80). -/
  msr : Measures
  /-- The lane rows; an unlisted row is empty (R95). -/
  rows : KV RowUnit
  /-- The Leaves: word a of row r at key 16384 r + a; an unlisted word is zero and clean (R99, R122). -/
  leaf : KV LeafWord
  /-- The gathering buffer, 524,288 words (R442). -/
  gather : KV LeafWord
  /-- The Collators; an unlisted one is empty (R164). -/
  cols : KV ColUnit
  /-- T1 and T2 data: byte o of region h at key h 2^44 + o; an unlisted byte is zero (R196). -/
  mem : KV Byte
  /-- The poison of T1 and T2 words: word o/8 of region h at key h 2^44 + o/8 (R435). -/
  memPoison : KV Bool
  /-- The Binder and the tier manager. -/
  tiers : TierState
  /-- The context table; an unlisted entry is FREE (R231). -/
  ctxs : KV Ctx
  /-- The scheduler. -/
  sched : SchedState
  /-- The remainder of each client's energy counter, in 1/256 pJ (R237). -/
  accRem : KV Nat
  /-- Each client's journal and replay. -/
  journals : KV Journal
  /-- The setpoint port. -/
  spt : SptState
  /-- Is an attention pattern due on RB# (R408, R409)? -/
  attnWanted : AttnDue
  /-- The flash translation layers (R274 to R303). -/
  ftl : FtlState
  /-- The NVM namespaces by NSID (R418). -/
  namespaces : KV Namespace
  /-- The channel engines and the vector index controller (R309 to R336). -/
  search : SearchState
  /-- The Edlux links; an unlisted one is idle (R348 to R355, R376). -/
  links : KV LinkUnit
  /-- The reduction engine (R356 to R376). -/
  red : RedState
  /-- The NVMe controllers of the logical devices; an unlisted one is disabled (R410). -/
  ctrls : KV Ctrl
  /-- The functions of the logical devices; an unlisted one is in D0, with every register 0 (R402, R405). -/
  fns : KV HostFn
  /-- The host link is in L1, and not in L0 (R402). -/
  linkL1 : Bool
  /-- The completion queues that raised 0x1007 in this measure (R413). -/
  heldSaid : List (Nat × Nat)
  /-- The memory devices (R435 to R452). -/
  devs : DevState
  /-- The security unit (R465 to R478). -/
  sec : SecState
  /-- The NOR die and the firmware commands (R486 to R501). -/
  nor : NorState
  /-- The management domain (R504 to R546). -/
  sys : SysState
  deriving DecidableEq, Repr

/-- The module right after the reset that starts a bring-up (R504, R505): every register at its reset value, every store
empty, DTIME 0 (R65), RB# low (R407), and nothing waiting. -/
def State.reset : State where
  pending := []
  regs := []
  inForce := []
  out := []
  fresh := 0
  dtime := 0
  etime := 0
  released := false
  rdHold := []
  wrHold := []
  nowHold := []
  ppsHold := []
  measHold := []
  irq := ⟨[], [], [], 0, []⟩
  err := ⟨[], [], 0, []⟩
  tmb := ⟨none, 0, 0, false, 0, none, 0, 0, none, 0, false, [], false, [], ⟨[], none, none, none, 0, none, 0, none⟩, [], none, false, (0, 15, 0)⟩
  msr := ⟨0, [], [], none, [], [], [], 0, 0, none⟩
  rows := []
  leaf := []
  gather := []
  cols := []
  mem := []
  memPoison := []
  tiers := ⟨[], [], [], [], 1, [], [], [], []⟩
  ctxs := []
  sched := ⟨[], [], [], 0, 0, [], none, [], []⟩
  accRem := []
  journals := []
  spt := ⟨[], [], [], [], [], [], []⟩
  attnWanted := .no
  ftl := ⟨[], [], [], [], [], [], [], [], [], [], 0, 0, 0, 0, [], [], 0, [], [], [], [], [], [], false, none, 0, false, [], [], [], [], [], [], none⟩
  namespaces := []
  search := ⟨[], [], [], [], []⟩
  links := []
  red := ⟨[], [], [], [], [], [], []⟩
  ctrls := []
  fns := []
  linkL1 := false
  heldSaid := []
  devs := ⟨[], [], [], []⟩
  sec := ⟨none, [], true, [], [], [], [], none, 0, 0, 0, 0, false⟩
  nor := ⟨⟨false, false, 0, 0, 0, 0, [], 0, [], false, []⟩, ⟨false, false, 0, 0, 0, 0, [], 0, [], false, []⟩, [⟨false, false, 0⟩, ⟨false, false, 0⟩, ⟨false, false, 0⟩], [], [0, 0, 0], [], [], [], [], [], [12, 25, 38, 51, 64, 77, 90, 103], [], [], [], [], [], [0, 0], [], none, false, false⟩
  sys := ⟨true, true, false, false, 0, 0, 0, [], 0, none, none, 0, 0, none, none, [], 54000, 0, 0, 0, none, none, false, 0, true, 0, [], [], false, [], false⟩

end Sys2Proof.Machine
end

