-- ==== Sys2Proof/Machine/Ops.lean ====
section
/-! DEFINITION. The named operations on the state that every meaning is written over: registers and their fields, counters,
pages, time, outputs, free values, and the rights in force. -/

namespace Sys2Proof.Machine

/-- Bits hi to lo of a number. -/
def bits (v hi lo : Nat) : Nat := (v / 2 ^ lo) % 2 ^ (hi + 1 - lo)

/-- The number with bits hi to lo replaced. -/
def putBits (v hi lo x : Nat) : Nat :=
  v / 2 ^ (hi + 1) * 2 ^ (hi + 1) + x % 2 ^ (hi + 1 - lo) * 2 ^ lo + v % 2 ^ lo

/-- The bytes of a number, little-endian, `n` of them. -/
def leBytes : Nat → Nat → List Byte
  | 0, _ => []
  | n + 1, v => BitVec.ofNat 8 v :: leBytes n (v / 256)

/-- The number that bytes spell, little-endian. -/
def ofLe : List Byte → Nat
  | [] => 0
  | b :: bs => b.toNat + 256 * ofLe bs

/-- The two's complement value of an `n`-bit number. -/
def signedOf (n v : Nat) : Int := if v % 2 ^ n < 2 ^ (n - 1) then (v % 2 ^ n : Nat) else (v % 2 ^ n : Nat) - (2 ^ n : Nat)

/-- The `n`-bit two's complement code of an integer, wrapped. -/
def toTwos (n : Nat) (i : Int) : Nat := (i % (2 ^ n : Nat)).toNat

/-- An integer held between two limits. -/
def clampInt (lo hi i : Int) : Int := if i < lo then lo else if hi < i then hi else i

/-- The value of the register at a key (R8: the last value written, or the reset value). -/
def State.rd (s : State) (key : Nat) : Nat := ((kvFind s.regs key).getD (regDefault key)).toNat

/-- The register at a key given a value; a value equal to the reset value leaves no entry. -/
def State.wr (s : State) (key v : Nat) : State :=
  { s with regs := if BitVec.ofNat 64 v = regDefault key then kvErase s.regs key
                   else kvPut s.regs key (BitVec.ofNat 64 v) }

/-- Bits hi to lo of a register. -/
def State.fld (s : State) (key hi lo : Nat) : Nat := bits (s.rd key) hi lo

/-- A register with bits hi to lo replaced. -/
def State.setFld (s : State) (key hi lo v : Nat) : State := s.wr key (putBits (s.rd key) hi lo v)

/-- Bit i of a register. -/
def State.bit (s : State) (key i : Nat) : Bool := (s.rd key).testBit i

/-- A register with bit i replaced. -/
def State.setBit (s : State) (key i : Nat) (b : Bool) : State := s.setFld key i i b.toNat

/-- A 64-bit counter grown by n (they do not wrap within the life of the module). -/
def State.count (s : State) (key n : Nat) : State := s.wr key (s.rd key + n)

/-- A 32-bit counter grown by n, saturating at 0xFFFF_FFFF. -/
def State.countSat (s : State) (key n : Nat) : State := s.wr key (min (s.rd key + n) 0xFFFFFFFF)

/-- A 32-bit counter grown by n, wrapping (DIR_GEN, R48). -/
def State.countWrap (s : State) (key n : Nat) : State := s.wr key ((s.rd key + n) % 0x100000000)

/-- A register raised to v when v is larger. -/
def State.raiseTo (s : State) (key v : Nat) : State := s.wr key (max (s.rd key) v)

/-- The bring-up enters a phase, which SYS_STATE reports (R510). -/
def State.toPhase (s : State) (n : Nat) : State :=
  { s.wr R.SYS_STATE n with sys := { s.sys with phaseHidden := false } }

/-- Something leaves the module. -/
def State.emit (s : State) (o : Output) : State := { s with out := s.out ++ [o] }

/-- Every register of the pages and offsets a test names goes back to its reset value. -/
def State.dropRegs (s : State) (p : Nat → Bool) : State := { s with regs := s.regs.filter fun e => !p e.1 }

/-! Pages (R30). -/

def pageDir : Nat := 0x00
def pageSys : Nat := 0x01
def pageRst : Nat := 0x02
def pageTmb : Nat := 0x03
def pageMsr : Nat := 0x04
def pageIrq : Nat := 0x05
def pageHif : Nat := 0x06
def pageSch : Nat := 0x07
def pageAcc : Nat := 0x08
def pageCtx : Nat := 0x09
def pageTier : Nat := 0x0A
def pageDet : Nat := 0x0B
def pageErr : Nat := 0x0C
def pageScr : Nat := 0x0D
def pageSec : Nat := 0x0E
def pageNor : Nat := 0x0F
def pageFtl : Nat := 0xBC
def pageVsx : Nat := 0xBD
def pageRed : Nat := 0xE0
def pageSpt : Nat := 0xE1
def pageQnt : Nat := 0xE2

/-- The page of a lane row, a Collator, a channel engine, a channel die, a link. -/
def pageRow (r : Nat) : Nat := 0x28 + r
def pageCol (n : Nat) : Nat := 0x90 + n
def pageChn (n : Nat) : Nat := 0x98 + n
def pageQdi (n : Nat) : Nat := 0xB8 + n
def pageLnk (n : Nat) : Nat := 0xC0 + n

/-- The page of a memory device, HBM0 to HBM7 then LPD00 to LPD15. -/
def pageDev (d : Nat) : Nat := 0x10 + d

/-- PG_PRESENT of a page (R37). -/
def State.present (s : State) (p : Nat) : Nat := s.rd (R.PG_PRESENT p) % 16

/-- Is the page in service (R37)? -/
def State.inService (s : State) (p : Nat) : Bool := s.present p = 3

/-- Does PG_GUARD let client c reach the block registers (R41)? -/
def State.guardOpen (s : State) (p c : Nat) : Bool := c = 0 || s.bit (R.PG_GUARD p) c

/-- Is the page under a quiesce request or a disable (R38, R39)? -/
def State.quiescing (s : State) (p : Nat) : Bool := s.bit (R.PG_CTL p) 1 || !s.bit (R.PG_CTL p) 0

/-- Does a block that is there take no new command, as it quiesces or is disabled (R37 to R39)? -/
def State.paused (s : State) (p : Nat) : Bool := s.quiescing p && (s.present p = 3 || s.present p = 1)

/-! Time (R54, R55, R68, R72). -/

/-- Units of 1/16 ns in a core cycle, a nanosecond, a microsecond, a second. -/
def tickCycle : Nat := 8
def tickNs : Nat := 16
def tickUs : Nat := 16000
def tickSec : Nat := 16000000000

/-- SEC, NS and FRAC of a DTIME (R54, R55). -/
def dtSec (t : Nat) : Nat := t / tickSec
def dtNs (t : Nat) : Nat := t / tickNs % 1000000000
def dtFrac (t : Nat) : Nat := t % tickNs * 4096

/-- The DTIME with the given fields; FRAC[11:0] is ignored (R55). A nanosecond field of 1,000,000,000 or more, to which R92 gives no
meaning, carries into the seconds (log entry 48). -/
def dtOf (sec ns frac : Nat) : Nat := sec * tickSec + ns * tickNs + frac % 65536 / 4096

/-- The 12 bytes of a DTIME (R54). -/
def dtBytes (t : Nat) : List Byte := leBytes 2 (dtFrac t) ++ leBytes 4 (dtNs t) ++ leBytes 6 (dtSec t)

/-- The next free value (log entry 3). -/
def State.free (s : State) : Nat × State := (Config.freeNat s.fresh, { s with fresh := s.fresh + 1 })

/-- Bytes the spec does not state: free values. -/
def State.freeBytes (s : State) (n : Nat) : List Byte × State :=
  ((List.range n).map fun i => BitVec.ofNat 8 (Config.freeNat (s.fresh + i)), { s with fresh := s.fresh + n })

/-- Elapsed time grows by `d` while a correction of `a` units is slewed, in the sense of what is left to correct; of the allowance of
50 parts per million only the part below one unit is carried on (R68). -/
def State.slewOver (s : State) (d a : Nat) : State :=
  let t := s.tmb
  let step : Int := if t.slew < 0 then -(a : Int) else a
  { s with
    etime := s.etime + d
    dtime := ((s.dtime + d : Nat) + step).toNat
    tmb := { t with slew := t.slew - step, slewCredit := (t.slewCredit + d * 50 - a * 1000000) % 1000000 } }

/-- Time passes: DTIME advances with it, and a correction being slewed is applied by no more than 50 parts per million of
the time, by an amount the spec leaves open (R68). -/
def State.elapse (s : State) (d : Nat) : State :=
  if s.tmb.slew = 0 then { s with etime := s.etime + d, dtime := s.dtime + d }
  else
    let cap := min ((s.tmb.slewCredit + d * 50) / 1000000) s.tmb.slew.natAbs
    let (x, s1) := s.free
    s1.slewOver d (x % (cap + 1))

/-- Time passes until DTIME reads `t`; nothing when it already does. While a correction is slewed, the elapsed time is the gap less
the part of it that the slew covers, or more by what the slew takes back (R68). -/
def State.until (s : State) (t : Nat) : State :=
  if s.dtime < t then
    let gap := t - s.dtime
    if s.tmb.slew = 0 then { s with etime := s.etime + gap, dtime := t }
    else
      let room := s.tmb.slewCredit + gap * 50
      let (x, s1) := s.free
      if s.tmb.slew < 0 then
        let a := x % (min (room / 1000000) s.tmb.slew.natAbs + 1)
        s1.slewOver (gap + a) a
      else
        let a := x % (min (min (room / 1000050) s.tmb.slew.natAbs) gap + 1)
        s1.slewOver (gap - a) a
  else s

/-- Core cycles pass. -/
def State.cycles (s : State) (n : Nat) : State := s.elapse (n * tickCycle)

/-- Do throttle levels hold the BE work (R542)? -/
def State.throttled (s : State) : Bool := s.sys.level ≠ 0

/-! Rights in force (R479). -/

/-- The value in force of a register that holds rights. -/
def State.force (s : State) (key : Nat) : Nat :=
  match kvFind s.inForce key with
  | some v => v.toNat
  | none => s.rd key

/-- Bits hi to lo of the value in force. -/
def State.forceFld (s : State) (key hi lo : Nat) : Nat := bits (s.force key) hi lo

/-- Does a change of rights wait: for the end of a hold (R481), or for a strike that will come (R479)? -/
def State.rightsWait (s : State) : Bool :=
  s.bit R.SEC_RIGHTS_CTL 0 || s.bit R.MSR_CTL 0 || !s.msr.queue.isEmpty

/-- Is any change of rights waiting to take effect? -/
def State.rightsPending (s : State) : Bool := !s.inForce.isEmpty || s.sched.commit.isSome || !s.spt.staged.isEmpty

/-- A register that holds rights given a value, whose old value stays in force until the change takes effect (R479). -/
def State.wrRights (s : State) (key v : Nat) : State :=
  let old := s.rd key
  let s1 := s.wr key v
  if (kvFind s.inForce key).isNone && old != v then
    { s1 with inForce := kvPut s1.inForce key (BitVec.ofNat 64 old) }
  else s1

/-! The NVMe controllers (R410 to R417). -/

/-- A controller that is not enabled. -/
def noCtrl : Ctrl := ⟨false, [], [], [], [], [], [], [], 0, [], 0, 0, []⟩

/-- A function at reset (R402, R405). -/
def noFn : HostFn := ⟨false, [], 0, 0, 0, 0, []⟩

/-- The function of logical device c. -/
def State.fn (s : State) (c : Nat) : HostFn := kvGet noFn s.fns c

/-- Does a host reach logical device c: it is bound, and its function is in D0 (R402, R404)? While logical device 0 is unbound, no
supervisor exists. -/
def State.reached (s : State) (c : Nat) : Bool := s.bit R.HIF_LD_EN c && !(s.fn c).d3hot

/-- Does the MSI-X table of a client mask a vector (R405)? The mask is bit 0 of the entry's last dword, as PCI Express has it (PRESUMED; log
entry 8). -/
def State.masked (s : State) (c v : Nat) : Bool := (kvGet 0 (s.fn c).msix v).toNat.testBit 96

/-- A message on a vector of a client leaves, or waits in the pending-bit array while the table masks the vector (R405). -/
def State.sendMsix (s : State) (c v : Nat) : State :=
  if s.masked c v then
    { s with irq := { s.irq with pba := kvPut s.irq.pba c (kvGet 0 s.irq.pba c ||| 2 ^ v) } }
  else s.emit (.msix c v)

/-- The controller of logical device c. -/
def State.ctrl (s : State) (c : Nat) : Ctrl := kvGet noCtrl s.ctrls c

/-- The controller of logical device c changed. -/
def State.setCtrl (s : State) (c : Nat) (x : Ctrl) : State := { s with ctrls := kvPut s.ctrls c x }

/-- An asynchronous event of a type waits for a request, unless its type was reported and its log page not yet read (R417). -/
def State.aerEvent (s : State) (c type info lid : Nat) : State :=
  let x := s.ctrl c
  if !x.en || x.reported.contains type || x.events.any (fun e => e.1 = type) then s
  else s.setCtrl c { x with events := x.events ++ [(type, info, lid)] }

/-- May an event limited to one in `t` (in 1/16 ns of elapsed time) be raised again, and the state that remembers it. -/
def State.once (s : State) (key t : Nat) : Bool × State :=
  match kvFind s.sys.saidAt key with
  | some at_ =>
    if s.etime < at_ + t then (false, s)
    else (true, { s with sys := { s.sys with saidAt := kvPut s.sys.saidAt key s.etime } })
  | none => (true, { s with sys := { s.sys with saidAt := kvPut s.sys.saidAt key s.etime } })

end Sys2Proof.Machine
end

