-- ==== Sys2Proof/Machine/Flags.lean ====
section
/-! DEFINITION. Every flag computation that blocks share: the status and interrupt bits of a page header (R36), their
categories and routing (R51 to R53), the events (R557), the attention causes (R524) and the reports to the error log
(R453 to R457). -/

namespace Sys2Proof.Machine

/-! Interrupt routing (R51, R52). -/

/-- The clients a page's interrupt bit is routed to: the owner, or on a shared page every client whose guard bit is 1; the
strike bit of MSR goes to the clients whose slots struck (R94). -/
def State.routes (s : State) (p b : Nat) : List Nat :=
  if p = pageMsr && b = 4 then (List.range 16).filter fun n => s.irq.strikeTo.testBit n
  else
    let o := s.rd (R.PG_OWNER p) % 256
    if o = 0xFF then (List.range 16).filter fun n => s.bit (R.PG_GUARD p) n
    else [o]

/-- Is bit b of page p pending: set in PG_IRQ_STAT and in PG_IRQ_EN? -/
def State.irqPending (s : State) (p b : Nat) : Bool := s.bit (R.PG_IRQ_STAT p) b && s.bit (R.PG_IRQ_EN p) b

/-- The mask of categories with a pending bit routed to client n. -/
def State.pendCats (s : State) (n : Nat) : Nat :=
  s.irq.cats.foldl (fun acc e =>
    if s.irqPending (e.1 / 32) (e.1 % 32) && (s.routes (e.1 / 32) (e.1 % 32)).contains n then acc ||| e.2 else acc) 0

/-- Does page p have a pending bit routed to client n (IRQ_PEND of R52)? -/
def State.pagePending (s : State) (p n : Nat) : Bool :=
  s.irq.cats.any fun e => e.1 / 32 = p && s.irqPending p (e.1 % 32) && (s.routes p (e.1 % 32)).contains n

/-- A message on vector 48 + c of client n, and the measure count it went at. -/
def State.sendCat (s : State) (n c : Nat) : State :=
  let s1 := s.sendMsix n (48 + c)
  { s1 with irq := { s1.irq with last := kvPut s1.irq.last (16 * n + c) (s.msr.count + 1) } }

/-- Has the IRQ_MOD interval of vector 48 + c of client n passed since its last message? -/
def State.modPassed (s : State) (n c : Nat) : Bool :=
  match kvFind s.irq.last (16 * n + c) with
  | none => true
  | some m => m - 1 + s.rd (R.IRQ_MOD n) % 65536 ≤ s.msr.count

/-- IRQ_CAT_STAT[c] of client n has risen: a message at once, or one deferred by IRQ_MOD, when the vector is enabled (R53). -/
def State.catRose (s : State) (n c : Nat) : State :=
  if s.bit (R.IRQ_CAT_EN n) c then
    if s.modPassed n c then s.sendCat n c
    else { s with irq := { s.irq with deferred := kvPut s.irq.deferred (16 * n + c) 1 } }
  else s

/-- IRQ_CAT_STAT of client n takes every category with a pending bit routed to it (R53). -/
def State.settleClient (s : State) (n : Nat) : State :=
  let old := s.rd (R.IRQ_CAT_STAT n)
  let new := old ||| s.pendCats n
  if new = old then s
  else
    ((List.range 13).filter fun c => new.testBit c && !old.testBit c).foldl (fun t c => t.catRose n c)
      (s.wr (R.IRQ_CAT_STAT n) new)

/-- Every client's IRQ_CAT_STAT follows the pending bits; before RB# is first released, interrupts wait (R559). -/
def State.settle (s : State) : State :=
  if s.released then (List.range 16).foldl State.settleClient s else s

/-- A command ends in a next state, in which every client's IRQ_CAT_STAT shows the pending bits routed to it (R53). -/
def settled (s : State) : Host.Outcome State Fault Refusal := .next s.settle

/-- Bit b of a page's PG_IRQ_STAT sets, or stays set, and takes category c (R51). -/
def State.irqBit (s : State) (p b c : Nat) : State :=
  let k := 32 * p + b
  let s1 := s.setBit (R.PG_IRQ_STAT p) b true
  { s1 with irq := { s1.irq with cats := kvPut s1.irq.cats k (kvGet 0 s1.irq.cats k ||| 2 ^ c) } }

/-- While the poison-seen bit of a page stays set, it also takes the category of every further event of the block (R51). -/
def State.joinPoison (s : State) (p c : Nat) : State := if s.bit (R.PG_IRQ_STAT p) 1 then s.irqBit p 1 c else s

/-- A block-specific interrupt condition arises on a page. -/
def State.setIrq (s : State) (p b c : Nat) : State := (s.irqBit p b c).settle

/-- PG_STAT[0] of a page follows the work of its block; idle, when it arises, is an interrupt of category 0 (R36, R51). -/
def State.setIdle (s : State) (p : Nat) (idle : Bool) : State :=
  if s.bit (R.PG_STAT p) 0 = idle then s
  else
    let s1 := s.setBit (R.PG_STAT p) 0 idle
    if idle then s1.setIrq p 2 0 else s1

/-- Bits of PG_IRQ_STAT written 1 clear, and hold no category until they set again (R51). -/
def State.clearIrq (s : State) (p mask : Nat) : State :=
  let old := s.rd (R.PG_IRQ_STAT p)
  let s1 := s.wr (R.PG_IRQ_STAT p) (old &&& (0xFFFFFFFF ^^^ mask))
  let cats := s1.irq.cats.filter fun e => !(decide (e.1 / 32 = p) && mask.testBit (e.1 % 32))
  let s2 := { s1 with irq := { s1.irq with cats := cats } }
  (if p = pageMsr && mask.testBit 4 then { s2 with irq := { s2.irq with strikeTo := 0 } } else s2).settle

/-! Attention (R524). -/

/-- Cause b of SYS_ATTN arises: the bit sets, SYS raises its interrupt, and a bit that rises while enabled starts the
pattern of R408. -/
def State.attend (s : State) (b : Nat) : State :=
  let was := s.bit R.SYS_ATTN b
  let s1 := (s.setBit R.SYS_ATTN b true).setIrq pageSys 4 0xC
  if !was && s.bit R.SYS_ATTN_EN b then { s1 with attnWanted := if s.sys.low || s.attnWanted = .busy then .busy else .ready } else s1

/-- The attention cause that an event code is, when it is one (R524). -/
def attnOf (code : Nat) : Option Nat :=
  if code = 0x400D || code = 0x4008 then some 1
  else if code = 0x500B || code = 0x5006 then some 2
  else if code = 0xC00B then some 3
  else if code = 0x0101 || code = 0x0102 then some 4
  else if code = 0xA006 || code = 0xA008 then some 5
  else if code = 0x9001 || code = 0x9002 then some 6
  else if code = 0x400C then some 7
  else if code = 0x1006 then some 8
  else if code = 0x8004 then some 10
  else none

/-- The codes that the table of R560 marks as setting poison. -/
def setsPoison (code : Nat) : Bool :=
  [0x3003, 0x4002, 0x4003, 0x4006, 0x400A, 0x400D, 0x5003, 0x5006, 0x6002, 0x6006].contains code

/-! The error log (R453 to R457). -/

/-- The category of an event code (R10). -/
def catOf (code : Nat) : Nat := code / 4096 % 16

/-- Do two reports have the same CODE, PAGE and key (R454)? Nothing matches a 0x400C entry. -/
def Report.matches (a b : Report) : Bool :=
  a.code = b.code && a.page = b.page && !a.isDropNote && !b.isDropNote &&
    (if 0x4001 ≤ a.code && a.code ≤ 0x4003 then a.addr / 4096 = b.addr / 4096
     else a.addr = b.addr && a.aux = b.aux)

/-- A COUNT grown by n, saturating (R453). -/
def Report.grow (r : Report) (n : Nat) : Report := { r with count := min (r.count + n) 0xFFFFFFFF }

/-- Enter a report in a client's log, newest first, coalescing with one of its last 16 entries (R457). -/
def logClient (l : List Report) (r : Report) : List Report :=
  match (l.take 16).findIdx? fun e => e.matches r with
  | some i => l.modify i fun e => e.grow r.count
  | none => (r :: l).take 256

/-- A report enters the log of every client its event is routed to; an entry added is an asynchronous event of type 7 with log
page C0h (R417, R457). -/
def State.logClients (s : State) (r : Report) : State :=
  r.routes.foldl (fun t n =>
    let old := kvGet [] t.err.clients n
    let new := logClient old r
    let t1 := { t with err := { t.err with clients := kvPut t.err.clients n new } }
    if new.map (fun e => e.seq) = old.map (fun e => e.seq) && new.length = old.length then t1
    else t1.aerEvent n 7 0 0xC0) s

/-- The sequence numbers of the last 16 entries written, newest first. -/
def State.recentSeqs (s : State) : List Nat :=
  let h := s.rd R.ERR_HEAD
  (List.range (min 16 h)).map fun i => h - 1 - i

/-- The slot of a recent entry that a report matches. -/
def State.recentMatch (s : State) (r : Report) : Option Nat :=
  (s.recentSeqs.map fun q => q % 4096).find? fun k =>
    match kvFind s.err.ring k with
    | some e => e.matches r
    | none => false

/-- Is the report one that a written entry takes up? Then the entry's COUNT and ERR_COAL grow (R454). -/
def State.coalesce (s : State) (r : Report) : Option State :=
  match s.recentMatch r with
  | none => none
  | some k =>
    match kvFind s.err.ring k with
    | none => none
    | some e =>
      let s1 := { s with err := { s.err with ring := kvPut s.err.ring k (e.grow r.count) } }
      some ((s1.countSat R.ERR_COAL r.count).logClients { r with seq := e.seq })

/-- Reports left without an entry: ERR_OVF of the category, the drop count, ERR's interrupt, the client logs (R454, R455). -/
def State.dropReport (s : State) (r : Report) : State :=
  let s1 := (s.countSat (R.ERR_OVF (catOf r.code)) r.count).setBit R.ERR_STAT 1 true
  let s2 := { s1 with err := { s1.err with dropped := s1.err.dropped + r.count } }
  (s2.logClients { r with seq := 0xFFFFFFFF }).setIrq pageErr 5 4

/-- A report arrives: ERR_CNT counts it, and it coalesces, waits in the queue of 256, or is dropped (R454). -/
def State.report (s : State) (r : Report) : State :=
  let s0 := s.count (R.ERR_CNT (catOf r.code)) 1
  match s0.coalesce r with
  | some t => t
  | none =>
    match s0.err.queue.findIdx? fun e => e.matches r with
    | some i => { s0 with err := { s0.err with queue := s0.err.queue.modify i fun e => e.grow 1 } }
    | none =>
      if s0.err.queue.length < 256 then { s0 with err := { s0.err with queue := s0.err.queue ++ [r] } }
      else s0.dropReport r

/-- What every event does to its page and to the attention causes, beside its report (R557). -/
def State.flagEvent (s : State) (p code : Nat) : State :=
  let s1 := ((((s.setFld (R.PG_ERR p) 15 0 code).setBit (R.PG_STAT p) 2 true).irqBit p 0 (catOf code)).joinPoison p (catOf code)).settle
  match attnOf code with
  | some b => s1.attend b
  | none => s1

/-- Page p raises event `code` with the client, ADDR and AUX its chapter names (R44, R557). -/
def State.raise (s : State) (p code : Nat) (client : Option Nat) (addr aux : Nat) : State :=
  let s1 := s.flagEvent p code
  s1.report ⟨code, p, client, addr, aux, dtNs s.dtime, dtSec s.dtime % 0x100000000, 1, 0xFFFFFFFF, s1.routes p 0, false⟩

/-- A block consumes or forwards a poisoned datum: PG_STAT[3], and PG_IRQ_STAT[1] with a category (R36, R51). -/
def State.poisonAs (s : State) (p c : Nat) : State := ((s.setBit (R.PG_STAT p) 3 true).irqBit p 1 c).settle

/-- A block consumes or forwards a poisoned datum with no event: PG_IRQ_STAT[1] takes category 4. Whether an error bit [0] that stands
takes it too is left open by R51's words "such a bit": here it does not (DESIGN CHOICE; log entry 57). -/
def State.poisonSeen (s : State) (p : Nat) : State := s.poisonAs p 4

/-- A block consumes or forwards a poisoned datum with an event of its own: the bit takes the event's category (R51). -/
def State.poisonEvent (s : State) (p code : Nat) : State := s.poisonAs p (catOf code)

/-- An entry written at ERR_HEAD: an overwritten slot counts in ERR_WRAP, a queued COUNT beyond 1 in ERR_COAL (R454, R455),
and ERR raises its new-entry and half-full interrupts (R460). -/
def State.writeEntry (s : State) (r : Report) : State :=
  let h := s.rd R.ERR_HEAD
  let s1 := if (kvFind s.err.ring (h % 4096)).isSome then s.count R.ERR_WRAP 1 else s
  let e := { r with seq := h % 0x100000000 }
  let s2 := { s1 with err := { s1.err with ring := kvPut s1.err.ring (h % 4096) e } }
  let s3 := (s2.wr R.ERR_HEAD (h + 1)).logClients e
  let s4 := if r.isDropNote then s3 else s3.countSat R.ERR_COAL (r.count - 1)
  let s5 := s4.setIrq pageErr 4 4
  if h + 1 - s.rd R.ERR_TAIL = 2048 then s5.setIrq pageErr 6 4 else s5

/-- Has the ring room: STOP_FULL is 0, or fewer than 4,096 entries stand between ERR_TAIL and ERR_HEAD (R455)? -/
def State.ringRoom (s : State) : Bool := !s.bit R.ERR_CTL 0 || s.rd R.ERR_HEAD - s.rd R.ERR_TAIL < 4096

/-- The 0x400C entry for reports dropped, when some are and the ring has room: written before any other entry, with its
event's flags and its place in ERR_CNT[4] (R455). -/
def State.writeDropNote (s : State) : State :=
  if s.err.dropped = 0 || !s.ringRoom then s
  else
    let s1 := (s.flagEvent pageErr 0x400C).count (R.ERR_CNT 4) 1
    let s2 := s1.writeEntry ⟨0x400C, pageErr, none, 0, 0, dtNs s.dtime, dtSec s.dtime % 0x100000000,
      min s.err.dropped 0xFFFFFFFF, 0, s1.routes pageErr 0, true⟩
    { s2 with err := { s2.err with dropped := 0 } }

/-- The writer takes the report at the head of the queue (R454, R455). -/
def State.writerTake (s : State) : State :=
  let s0 := s.writeDropNote
  match s0.err.queue with
  | [] => s0
  | r :: rest =>
    let s1 := { s0 with err := { s0.err with queue := rest } }
    match s1.coalesce r with
    | some t => t
    | none => if s1.ringRoom then s1.writeEntry r else s1.dropReport r

/-- The FLAGS byte of an entry (R453); a client's own log leaves [3:0] at 0 (R457). -/
def Report.flags (r : Report) (withClient : Bool) : Nat :=
  (match r.client with
    | some n => (if withClient then n % 16 else 0) + 16
    | none => 0) + (if setsPoison r.code then 32 else 0) + (if 1 < r.count then 64 else 0)

/-- The 32 bytes of an entry (R453). -/
def Report.bytes (r : Report) : List Byte :=
  leBytes 2 r.code ++ leBytes 1 r.page ++ leBytes 1 (r.flags true) ++ leBytes 4 r.seq ++ leBytes 4 r.ns ++
    leBytes 4 r.sec ++ leBytes 8 r.addr ++ leBytes 4 r.aux ++ leBytes 4 r.count

/-- The 16 bytes of a client log entry (R457). -/
def Report.clientBytes (r : Report) : List Byte :=
  leBytes 2 r.code ++ leBytes 1 r.page ++ leBytes 1 (r.flags false) ++ leBytes 4 r.seq ++ leBytes 4 r.ns ++
    leBytes 4 r.sec

end Sys2Proof.Machine
end

