-- ==== Sys2Proof/Machine/Operands.lean ====
section
/-! DEFINITION. The forms in which commands reach registers: which page answers, what a write may change, who may read, and
the shape that every command written to a register shares (R32 to R47, R52, R241, R561, R563). -/

namespace Sys2Proof.Machine

/-- Does page p answer accesses (R32, R47)? DIR, SYS, RST, TMB and ERR always do; no other page before the first release of
RB#, and after it every page whose unit is present. In AUX only ERR answers (R506, R522). -/
def State.answers (s : State) (p : Nat) : Bool :=
  typeCode p ≠ 0 && (s.rd R.SYS_STATE ≠ 0 || p = pageErr) &&
    (p = pageDir || p = pageSys || p = pageRst || p = pageTmb || p = pageErr || (s.released && s.present p ≠ 0))

/-- Does page p answer client c because a diagnostic unlock names it (R478)? What stands on such a page is not in the spec (log
entry 19). -/
def State.diagOpen (s : State) (c p : Nat) : Bool :=
  decide (c = 0) && decide (0xF0 ≤ p) && s.bit R.SEC_STAT 2 && s.sec.pages.testBit (p - 0xF0)

/-- A write by client c to page p: on an unlocked diagnostic page the spec gives it no effect, and it stops by name (log entry 19);
on every other page it does what the rest says. -/
def State.writePage (s : State) (c p : Nat) (o : Host.Outcome State Fault Refusal) : Host.Outcome State Fault Refusal :=
  if s.reached c && s.diagOpen c p then .refused .diagnosticPage else o

/-- The bits of PG_IRQ_EN and PG_IRQ_STAT that a block type has: the four of R36 and those its chapter names. -/
def irqBitsOf (code : Nat) : Nat :=
  match code with
  | 0x01 => 0x0F
  | 0x02 => 0x3F
  | 0x03 => 0x1F
  | 0x04 => 0xFF
  | 0x05 => 0x3F
  | 0x06 => 0x0F
  | 0x08 => 0xFF
  | 0x09 => 0x3F
  | 0x0A => 0x3F
  | 0x0C => 0x3F
  | 0x0E => 0x3F
  | 0x30 => 0xFF
  | 0x32 => 0x3F
  | _ => 0x7F

/-- The key that client c's access to the register at offset `base` of page p reaches. -/
def regKey (c p : Nat) (h : RegHit) : Nat := p * 0x10000 + h.base + (if h.rd.banked then c * bankStep else 0)

/-- The writable bits of a register of page p: the table's, and for the interrupt registers those the block has (R36). -/
def RegHit.rwMask (h : RegHit) (p : Nat) : Nat :=
  if h.base = 0x18 then irqBitsOf (typeCode p) else h.rd.rw

/-- The client whose block of registers an offset lies in, on the pages that hold one block for each client (R52, R203, R241,
R245, R271, R433); ACC's module block belongs to none. -/
def blockClient (p o : Nat) : Option Nat :=
  if p = pageIrq && 0x8000 ≤ o then some ((o - 0x8000) / 0x800)
  else if (p = pageSch || p = pageTier || p = pageDet) && 0x1000 ≤ o && o < 0x2000 then some ((o - 0x1000) / 0x100)
  else if p = pageAcc && 0x1000 ≤ o && o < 0x9000 then some ((o - 0x1000) / 0x800)
  else if (p = pageHif || p = pageCtx) && 0x1000 ≤ o && o < 0x1100 then some ((o - 0x1000) / 0x10)
  else none

/-- May client c reach the block register at offset o of page p (R41, R52, R241)? The privileged mailbox, at 0x2000 of HIF, is client 0's
alone (R430, R433). -/
def State.mayReach (s : State) (c p o : Nat) : Bool :=
  if c = 0 then true
  else if p = pageIrq && 0x8000 ≤ o then blockClient p o = some c
  else if p = pageHif && 0x2000 ≤ o then false
  else s.guardOpen p c &&
    (match blockClient p o with
      | some n => n = c || p = pageCtx
      | none => true)

/-- What becomes of a write: ignored, refused with an event, or taken, with the value the register would hold and the value
as written. -/
inductive Verdict where
  | ignore
  | refuse (code : Nat)
  | take (new raw : Nat)
  deriving DecidableEq, Repr

/-- The checks of a write of `v` by client c to a register of a page that answers: a fenced or spare page (R563), the guard
and the client blocks (R41, R52, R241), the supervisor lock (R42), the fields only client 0 writes (R561), in that order. -/
def State.verdict (s : State) (c p : Nat) (h : RegHit) (v : Nat) : Verdict :=
  let old := s.rd (regKey c p h)
  let shut := s.present p = 0x5 || s.present p = 0x9
  let rw := if shut && h.base = 0xC then 0x80000000 else h.rwMask p
  let w1c := if h.base = 0x1C then irqBitsOf (typeCode p) else h.rd.w1c
  if shut && 0x100 ≤ h.base then .ignore
  else if 0x100 ≤ h.base && !s.mayReach c p h.base then .refuse 0x1002
  else if s.bit (R.PG_CTL p) 31 && c ≠ 0 && h.base ≠ 0x1C then .refuse 0x1003
  else if h.rd.wo then
    if c ≠ 0 && (v &&& h.rd.sup) ≠ 0 then .refuse 0x1002 else .take 0 v
  else if w1c ≠ 0 then .take (old &&& (0xFFFFFFFFFFFFFFFF ^^^ (v &&& w1c))) (v &&& w1c)
  else
    let mine := if c = 0 then rw else rw &&& (0xFFFFFFFFFFFFFFFF ^^^ h.rd.sup)
    let new := (old &&& (0xFFFFFFFFFFFFFFFF ^^^ mine)) ||| (v &&& mine)
    let clash := c ≠ 0 && ((v ^^^ old) &&& (h.rd.sup &&& rw)) ≠ 0
    if mine = 0 then (if clash then .refuse 0x1002 else .ignore)
    else if clash then .take new (v + 2 ^ 64)
    else .take new (if shut && h.base = 0xC then v &&& 0x80000000 else v)

/-- HIF raises an access event with the client and the BAR0 offset, and HIF_ACC_LAST takes them (R44, R434). -/
def State.accessEvent (s : State) (code c addr : Nat) : State :=
  (s.wr R.HIF_ACC_LAST (addr % 0x1000000 + c * 0x1000000)).raise pageHif code (some c) addr 0

/-- What a write at a reserved offset of a page that answers meets: the guard's refusal, the supervisor lock's, or nothing (R41, R42,
R555, R563). -/
def State.reservedWrite (s : State) (c addr : Nat) : State :=
  let p := addr / 0x10000
  let block := decide (0x100 ≤ addr % 0x10000)
  if block && (s.present p = 0x5 || s.present p = 0x9) then s
  else if block && !s.mayReach c p (addr % 0x10000) then s.accessEvent 0x1002 c addr
  else if s.bit (R.PG_CTL p) 31 && c ≠ 0 then s.accessEvent 0x1003 c addr
  else s

/-- A write that no field of its register takes does nothing, but for MSR_PERIOD, which a module that follows keeps from the host with
event 0x800D (R84). -/
def State.ignoredWrite (s : State) (addr : Nat) : State :=
  if addr = R.MSR_PERIOD && s.fld R.TMB_STAT 2 0 = 4 then s.raise pageMsr 0x800D none 0 0 else s

/-- A checked write of `v` by client c to the register at byte address `addr`, 32 bits wide or whole: `eff` is what the
register does with a write that is taken, given its new value and the value as written. A write that also differs in a
field only client 0 writes raises 0x1002 beside what it stores (R561). -/
def State.writeBy (s : State) (c addr v : Nat) (eff : State → Nat → Nat → State) : State :=
  let p := addr / 0x10000
  if !s.answers p then s
  else
    match regHit p (addr % 0x10000) with
    | none => s.reservedWrite c addr
    | some h =>
      match s.verdict c p h v with
      | .ignore => s.ignoredWrite addr
      | .refuse code => s.accessEvent code c addr
      | .take new raw =>
        if raw < 2 ^ 64 then eff s new raw
        else (eff s new (raw - 2 ^ 64)).accessEvent 0x1002 c addr

/-- A held lower half is dropped when its client writes elsewhere in the page of its register (R35). -/
def State.dropHeld (s : State) (c p key : Nat) : State :=
  match kvFind s.wrHold c with
  | some h => if h.key / 0x10000 = p && h.key ≠ key then { s with wrHold := kvErase s.wrHold c } else s
  | none => s

/-- A command given by one whole write to a register, of a client that a host reaches: the held half is dropped, then the write is checked
and acts (R404). -/
def State.command (s : State) (c addr v : Nat) (eff : State → Nat → Nat → State) : State :=
  if s.reached c then (s.dropHeld c (addr / 0x10000) addr).writeBy c addr v eff else s

/-- What a read by client c meets: nothing answers, it is refused, or the register it reaches (R32, R41, R52, R563). -/
inductive ReadVerdict where
  | none
  | refused
  | reg (h : RegHit)
  deriving DecidableEq, Repr

/-- May client c read at offset o of a page that answers: the header always, a fenced or spare page's block registers only as
client 0 (R41, R52, R563)? -/
def State.mayRead (s : State) (c p o : Nat) : Bool :=
  if o < 0x100 then true
  else if s.present p = 0x5 || s.present p = 0x9 then decide (c = 0)
  else s.mayReach c p o

/-- The checks of a read by client c of the 32-bit word at offset o of page p; a reserved offset reads 0, subject to the guard
(R555). -/
def State.readVerdict (s : State) (c p o : Nat) : ReadVerdict :=
  if !s.answers p then .none
  else if !s.mayRead c p o then .refused
  else
    match regHit p o with
    | Option.none => .none
    | some h => .reg h

end Sys2Proof.Machine
end

