-- ==== Sys2Proof/Machine/Completions.lean ====
section
/-! DEFINITION. How commands are fetched and completed: submission queues, completion queues and completions held (R410 to
R413), asynchronous events (R417), the privileged mailbox (R430), and the statuses (R423, R427, R428). -/

namespace Sys2Proof.Machine

/-- The queue number that stands for the privileged mailbox in a command's identity (R430). -/
def pmbQ : Nat := 0x10000

/-- Statuses of the generic NVMe set, status code type 0 (R414, R419, R423, R425). -/
def scOk : Nat := 0x00
def scOpcode : Nat := 0x01
def scField : Nat := 0x02
def scData : Nat := 0x04
def scNamespace : Nat := 0x0B
def scWriteProtected : Nat := 0x20
def scLba : Nat := 0x80
def scCapacity : Nat := 0x81
def scNotReady : Nat := 0x82

/-- Does a Gonum status carry DNR 0 (R428)? -/
def gonumRetry (status : Nat) : Bool := [0x02, 0x43, 0x44, 0x49, 0x4A, 0x66, 0x67].contains status

/-- Is the module in bring-up or in an activation (R423)? -/
def State.notReady (s : State) : Bool := s.rd R.SYS_STATE ≠ 6

/-- Are commands of logical device c fetched? A host reaches it (R404), its controller is enabled, no activation has stopped fetching (R410,
R500), and HIF takes new commands (R38). -/
def State.fetches (s : State) (c : Nat) : Bool := s.reached c && (s.ctrl c).en && !s.nor.running && !s.quiescing pageHif

/-- The class in which a queue is arbitrated: 0 for the admin queue and an urgent one, served before all others, then high, medium and low
(R411). -/
def queueClass (q : Nat) (x : SubQ) : Nat := if q = 0 then 0 else x.prio

/-- The queues of a controller with a command that waits to be fetched, by class. -/
def Ctrl.waiting (x : Ctrl) (k : Nat) : List Nat :=
  (x.sqs.filter fun e => queueClass e.1 e.2 = k && !e.2.ids.isEmpty && e.2.deleting.isNone).map Prod.fst

/-- The commands that a class may have fetched in a round: the weights of the Arbitration feature, at the places and with the 0's-based
values of NVM Express (PRESUMED; log entry 8). -/
def Ctrl.weight (x : Ctrl) (k : Nat) : Nat := kvGet 0 x.features 0x01 / 2 ^ (32 - 8 * k) % 256 + 1

/-- Has a class commands left to fetch in the round? -/
def Ctrl.credit (x : Ctrl) (k : Nat) : Bool := decide (kvGet 0 x.arb k < x.weight k)

/-- The round is over: no class with a waiting command has commands left in it. -/
def Ctrl.roundOver (x : Ctrl) : Bool := [1, 2, 3].all fun k => (x.waiting k).isEmpty || !x.credit k

/-- The queue of a class whose turn it is: the next after the one served last. -/
def Ctrl.turn (x : Ctrl) (k : Nat) : Option Nat :=
  let l := x.waiting k
  match l.find? fun q => decide (kvGet 0 x.arb (4 + k) < q) with
  | some q => some q
  | none => l.head?

/-- Weighted round robin with an urgent class (R411): may the queue be served now? Queues of a class take turns (PRESUMED; log entry 8). -/
def Ctrl.served (x : Ctrl) (q : Nat) (sq : SubQ) : Bool :=
  let k := queueClass q sq
  k = 0 || ((x.waiting 0).isEmpty && (x.credit k || x.roundOver) && x.turn k = some q)

/-- A queue is served: its class has fetched one more of the round, which starts anew when it is over. -/
def Ctrl.serve (x : Ctrl) (q : Nat) (sq : SubQ) : Ctrl :=
  let k := queueClass q sq
  if k = 0 then x
  else
    let a := if x.roundOver then kvErase (kvErase (kvErase x.arb 1) 2) 3 else x.arb
    { x with arb := kvPut (kvPut a k (kvGet 0 a k + 1)) (4 + k) q }

/-- Is the command at the head of its queue, and its queue the one to serve (R411), so that it is fetched next? -/
def State.fetchable (s : State) (cid : Cid) : Bool :=
  if cid.q = pmbQ then s.bit R.HIF_PMB_STAT 0
  else
    match kvFind (s.ctrl cid.c).sqs cid.q with
    | some q => s.fetches cid.c && q.deleting.isNone && (s.ctrl cid.c).served cid.q q && (match q.ids with
        | (i, _) :: _ => i = cid.id
        | [] => false)
    | none => false

/-- The command is fetched: it leaves its queue, whose head moves on, and counts as in flight until it completes. -/
def State.fetch (s : State) (cid : Cid) : State :=
  if cid.q = pmbQ then s
  else
    let x := s.ctrl cid.c
    match kvFind x.sqs cid.q with
    | some q =>
      let q' := { q with ids := q.ids.drop 1, head := (q.head + 1) % (max q.size 1) }
      s.setCtrl cid.c { x.serve cid.q q with sqs := kvPut x.sqs cid.q q', fetched := x.fetched ++ [(cid.q, cid.id)] }
    | none => s

/-- Has the completion queue no free entry? -/
def CplQ.full (q : CplQ) : Bool := (q.tail + 1) % (max q.size 1) = q.head

/-- The time since an instant of DTIME, in ns, saturating: the latency L of a command that arrived then (R224, R427). -/
def State.latSince (s : State) (at_ : Nat) : Nat := min ((s.dtime - at_) / tickNs) 0xFFFFFFFF

/-- The largest LC latency seen by a client, as a completion of an LC run is posted (R224). -/
def State.latSeen (s : State) (c : Nat) (arrival : Option Nat) : State :=
  match arrival with
  | some a => s.raiseTo (R.SCH_C_LAT_MAX c) (s.latSince a)
  | none => s

/-- DW1 of a completion posted now: LAT of an LC run, else as it stands (R427). -/
def State.postedDw1 (s : State) (e : Cqe) : BitVec 32 :=
  match e.arrival with
  | some a => BitVec.ofNat 32 (s.latSince a)
  | none => e.dw1

/-- An entry is placed at the tail of a completion queue, its phase turns at the wrap, and its vector is signalled (R412). -/
def State.placeCqe (s : State) (c cq : Nat) (q : CplQ) (e : Cqe) : State :=
  let x := s.ctrl c
  let head := match kvFind x.sqs e.sq with
    | some sq => sq.head
    | none => 0
  let tail := (q.tail + 1) % (max q.size 1)
  let q' := { q with tail := tail, phase := if tail = 0 then !q.phase else q.phase }
  let s1 := s.emit (.cqe c cq e.id head q.phase e.sct e.sc e.dnr e.dw0 (s.postedDw1 e))
  let s2 := (s1.latSeen c e.arrival).setCtrl c { x with cqs := kvPut x.cqs cq q' }
  if q.ien then s2.sendMsix c q.vector else s2

/-- The Error Information log takes a failed command, newest first (R415, R416). -/
def Ctrl.logError (x : Ctrl) (sq id status lba nsid : Nat) : Ctrl :=
  let n := x.errCount + 1
  let e := leBytes 8 n ++ leBytes 2 sq ++ leBytes 2 id ++ leBytes 2 (status * 2) ++ leBytes 2 0 ++ leBytes 8 lba ++ leBytes 4 nsid
  { x with errors := (e :: x.errors).take 64, errCount := n }

/-- A completion is posted: counted, placed in its queue, or held while the queue is full, with event 0x1007 at most once per
queue per measure (R413, R434). -/
def State.post (s : State) (c cq : Nat) (e : Cqe) : State :=
  let s1 := s.count R.HIF_CMDS 1
  let s2 := if e.sct = 0 && e.sc = 0 then s1 else s1.count R.HIF_ERR_CPL 1
  match kvFind (s2.ctrl c).cqs cq with
  | none => s2
  | some q =>
    if q.full || !q.held.isEmpty then
      let x := s2.ctrl c
      let s3 := s2.setCtrl c { x with cqs := kvPut x.cqs cq { q with held := q.held ++ [e] } }
      let s4 := (s3.countSat (R.HIF_QHELD c) 1).setIrq pageHif 5 1
      if s4.heldSaid.contains (c, cq) then s4
      else ({ s4 with heldSaid := (c, cq) :: s4.heldSaid }).raise pageHif 0x1007 (some c) cq 0
    else s2.placeCqe c cq q e

/-- The completion queue of a command. -/
def State.cqOf (s : State) (cid : Cid) : Nat :=
  match kvFind (s.ctrl cid.c).sqs cid.q with
  | some q => q.cq
  | none => 0

/-- Would a completion of the command be held (R413)? -/
def State.wouldHold (s : State) (cid : Cid) : Bool :=
  cid.q ≠ pmbQ && (s.ctrl cid.c).fetched.contains (cid.q, cid.id) &&
  match kvFind (s.ctrl cid.c).cqs (s.cqOf cid) with
  | some q => q.full || !q.held.isEmpty
  | none => false

/-- A queue whose delete waits is deleted once none of its fetched work is left, and the delete completes (R431). -/
def State.finishDelete (s : State) (c q : Nat) : State :=
  let x := s.ctrl c
  match kvFind x.sqs q with
  | some sq =>
    match sq.deleting with
    | some id =>
      if x.fetched.any (fun f => f.1 = q) then s
      else
        let x1 := { x with sqs := kvErase x.sqs q, fetched := x.fetched.filter fun f => f ≠ (0, id) }
        (s.setCtrl c x1).post c 0 ⟨0, id, 0, 0, false, 0, 0, none⟩
    | none => s
  | none => s

/-- The mailbox's completion: HIF_PMB_CQE, DONE and HIF's mailbox interrupt (R430, R433). -/
def State.completeMailbox (s : State) (id sct sc : Nat) (dnr : Bool) (dw0 dw1 : Nat) : State :=
  let status := sc + sct * 256 + (if dnr then 0x4000 else 0)
  let s1 := (((s.wr (R.HIF_PMB_CQE 0) dw0).wr (R.HIF_PMB_CQE 1) dw1).wr (R.HIF_PMB_CQE 2) 0).wr
    (R.HIF_PMB_CQE 3) (id % 65536 + status * 0x20000)
  let s2 := s1.count R.HIF_CMDS 1
  let s3 := if sct = 0 && sc = 0 then s2 else s2.count R.HIF_ERR_CPL 1
  ((s3.wr R.HIF_PMB_STAT 2).setIrq pageHif 6 0).setIdle pageHif true

/-- A fetched command completes; one whose queue or logical device was reset meanwhile posts nothing (R406). DW1 of an LC run is
its latency when it is posted. -/
def State.completeRun (s : State) (cid : Cid) (sct sc : Nat) (dnr : Bool) (dw0 dw1 : Nat) (arrival : Option Nat) : State :=
  let e : Cqe := ⟨cid.q, cid.id, sct, sc, dnr, BitVec.ofNat 32 dw0, BitVec.ofNat 32 dw1, arrival⟩
  if cid.q = pmbQ then (s.latSeen cid.c arrival).completeMailbox cid.id sct sc dnr dw0 (s.postedDw1 e).toNat
  else
    let x := s.ctrl cid.c
    if x.fetched.contains (cid.q, cid.id) then
      let cq := s.cqOf cid
      let x1 := { x with fetched := x.fetched.erase (cid.q, cid.id) }
      let x2 := if sct = 0 && sc = 0 then x1 else x1.logError cid.q cid.id (sc + sct * 256) 0 0
      ((s.setCtrl cid.c x2).post cid.c cq e).finishDelete cid.c cid.q
    else s

/-- A fetched command other than an LC run completes. -/
def State.complete (s : State) (cid : Cid) (sct sc : Nat) (dnr : Bool) (dw0 dw1 : Nat) : State :=
  s.completeRun cid sct sc dnr dw0 dw1 none

/-- Success, with results in DW0 and DW1 (R427). -/
def State.succeed (s : State) (cid : Cid) (dw0 dw1 : Nat) : State := s.complete cid 0 0 false dw0 dw1

/-- A Gonum status: DW0 carries the event code that caused it, and DNR follows R428. -/
def State.failGonum (s : State) (cid : Cid) (status event : Nat) : State :=
  if status = 0 then s.succeed cid 0 0
  else s.complete cid 7 status (!gonumRetry status) event 0

/-- An NVMe status, with a tier status in DW0[7:0] where one is the cause (R423). -/
def State.failNvme (s : State) (cid : Cid) (sct sc : Nat) (dnr : Bool) (tier : Nat) : State := s.complete cid sct sc dnr tier 0

/-- Each waiting asynchronous event of a logical device completes a waiting request, and its type is then reported (R417). -/
def State.deliverAer (s : State) (c : Nat) : State :=
  let x := s.ctrl c
  match x.aers, x.events with
  | id :: ids, (t, info, lid) :: es =>
    let x1 := { x with aers := ids, events := es, reported := t :: x.reported }
    (s.setCtrl c x1).complete ⟨Fin.ofNat 16 c, 0, id⟩ 0 0 false (t + info * 256 + lid * 65536) 0
  | _, _ => s

/-- Every logical device's waiting events are delivered. -/
def State.deliverAers (s : State) : State := (List.range 16).foldl State.deliverAer s

/-- An asynchronous event arises now. -/
def State.aerNow (s : State) (c type info lid : Nat) : State := (s.aerEvent c type info lid).deliverAer c

/-- The checks every Gonum command passes (R424, R425): it is on an I/O queue with NSID 1, the I/O Command Set Profile of its
controller enables the set, and the fields of `used` masks alone are set. Answers the status of NVMe that it fails with. -/
def State.gonumCheck (s : State) (cid : Cid) (e : Sqe) (m10 m11 m12 m13 m14 m15 : Nat) : Option Nat :=
  let enabled := cid.q = pmbQ || kvGet 0 (s.ctrl cid.c).features 0x19 ≠ 0
  if cid.q = 0 then some scOpcode
  else if e.nsid.toNat ≠ 1 && cid.q ≠ pmbQ then some scNamespace
  else if !enabled then some scOpcode
  else
    let bad (w : BitVec 32) (m : Nat) : Bool := (w.toNat &&& (0xFFFFFFFF ^^^ m)) ≠ 0
    if e.cdw2 ≠ 0 || e.cdw3 ≠ 0 || e.mptr ≠ 0 || bad e.cdw10 m10 || bad e.cdw11 m11 || bad e.cdw12 m12 || bad e.cdw13 m13 ||
        bad e.cdw14 m14 || bad e.cdw15 m15 then some scField
    else none

/-- The shape of a Gonum command: it is fetched, passes its checks, and then has its effect; a command that is not at the head
of its queue has not been submitted, and nothing happens. -/
def State.gonum (s : State) (cid : Cid) (e : Sqe) (m : Nat × Nat × Nat × Nat × Nat × Nat) (eff : State → State) : State :=
  if s.fetchable cid then
    let s1 := s.fetch cid
    match s1.gonumCheck cid e m.1 m.2.1 m.2.2.1 m.2.2.2.1 m.2.2.2.2.1 m.2.2.2.2.2 with
    | some sc => s1.failNvme cid 0 sc true 0
    | none => eff s1
  else s

/-- The shape of a Gonum command that the block of a page carries out: while the block takes no new command, it waits in its queue (R38,
R39). -/
def State.gonumOf (s : State) (p : Nat) (cid : Cid) (e : Sqe) (m : Nat × Nat × Nat × Nat × Nat × Nat) (eff : State → State) : State :=
  if s.paused p then s else s.gonum cid e m eff

/-- The shape of an admin command: on the admin queue (R414), fetched and then acting. -/
def State.admin (s : State) (cid : Cid) (eff : State → State) : State :=
  if s.fetchable cid then
    let s1 := s.fetch cid
    if cid.q = 0 then eff s1 else s1.failNvme cid 0 scOpcode true 0
  else s

/-- The 64-bit value of two dwords. -/
def dword2 (lo hi : BitVec 32) : Nat := lo.toNat + hi.toNat * 2 ^ 32

end Sys2Proof.Machine
end

