-- ==== Sys2Proof/Machine/Memory.lean ====
section
/-! DEFINITION. The tier manager's allocations, frees and quotas (R190 to R196), and reads and writes of the bytes of T1 and T2
regions with their poison (R435, R448). -/

namespace Sys2Proof.Machine

/-- The span of keys a region's bytes have. -/
def regionSpan : Nat := 2 ^ 44

/-- The quota and use registers of client c in tier t (R204). -/
def tqMin (c t : Nat) : Nat := 0xA1000 + 0x100 * c + 0x18 * (t - 1)
def tqMax (c t : Nat) : Nat := 0xA1008 + 0x100 * c + 0x18 * (t - 1)
def tqUse (c t : Nat) : Nat := 0xA1010 + 0x100 * c + 0x18 * (t - 1)

/-- The register of a tier's allocatable capacity. -/
def tierCap (t : Nat) : Nat := 0xA0110 + 8 * (t - 1)

/-- 2 MiB, the allocation unit of T1 and T2. -/
def twoMiB : Nat := 2097152

/-- A size rounded up to whole units. -/
def roundUp (n u : Nat) : Nat := (n + u - 1) / u * u

/-- The sum over the clients. -/
def sumClients (f : Nat → Nat) : Nat := (List.range 16).foldl (fun a d => a + f d) 0

/-- Is T3 in read-only mode (R301)? -/
def State.readOnly (s : State) : Bool := s.ftl.readOnly

/-- Does T3 refuse writes for want of the hold-up bank (R517)? -/
def State.noWrite (s : State) : Bool := s.bit R.SYS_FLAGS 3

/-- Is T3 not mounted (R519)? -/
def State.noT3 (s : State) : Bool := s.bit R.SYS_FLAGS 2

/-- The status of an allocation that charges `n` to client c in tier t, after `freed` that it gives back (R191, R192). A degraded tier
refuses what would exceed QMAX or enlarge the use of the tier (R195). -/
def State.allocTest (s : State) (c t n : Nat) (freed : Nat := 0) : Nat :=
  if (s.tiers.degraded.contains t && (freed < n || s.force (tqMax c t) < s.rd (tqUse c t) + n)) || (t = 3 && s.readOnly) then 0x07
  else if s.force (tqMax c t) < s.rd (tqUse c t) + n then 0x01
  else
    let others := sumClients fun d => if d = c then 0 else max (s.rd (tqUse d t)) (s.force (tqMin d t))
    if s.rd (tierCap t) < s.rd (tqUse c t) + n + others then 0x02 else 0x00

/-- A refused tier operation is counted (R192). -/
def State.tierRefuse (s : State) (c : Nat) : State := s.countSat (R.TQ_REFUSE c) 1

/-- The use of a client changes. -/
def State.addUse (s : State) (c t n : Nat) : State := s.wr (tqUse c t) (s.rd (tqUse c t) + n)
def State.subUse (s : State) (c t n : Nat) : State := s.wr (tqUse c t) (s.rd (tqUse c t) - n)

/-- Regions a client holds in a tier, those that the module made for it among them (DESIGN CHOICE; log entry 30). -/
def State.regionCount (s : State) (c t : Nat) : Nat := (s.tiers.regions.filter fun e => e.2.client = c && e.2.tier = t).length

/-- The charge of `bytes` in a tier: whole 2 MiB in T1 and T2; a T3 region is charged as its units are mapped (R190). -/
def chargeOf (t bytes : Nat) : Nat := if t = 3 then 0 else roundUp bytes twoMiB

/-- The bytes a tier can allocate. -/
def State.capBytes (s : State) (t : Nat) : Nat := if t = 3 then s.rd (tierCap 3) * 16384 else s.rd (tierCap t)

/-- The tests of an allocation: its size and tier, the number of regions, the tier's capacity against the guarantees, the client's quota, and
the tier's room, in this order (DESIGN CHOICE; log entry 30). -/
def State.allocStatus (s : State) (c t bytes : Nat) (freed : Nat := 0) : Nat :=
  if t = 0 || 3 < t || bytes = 0 || s.capBytes t < bytes then 0x06
  else if 65536 ≤ s.regionCount c t then 0x03
  else s.allocTest c t (chargeOf t bytes) freed

/-- A region is made, filled with zeros (R196). -/
def State.newRegion (s : State) (c t bytes use : Nat) (striped : Bool) (channel : Nat) (filled : Bool) : Nat × State :=
  let h := s.tiers.nextHandle
  let r : Region := ⟨c, t, bytes, use, striped, channel, filled, 0, 0⟩
  let s1 := { s with tiers := { s.tiers with regions := kvPut s.tiers.regions h r, nextHandle := h + 1 } }
  (h, s1.addUse c t (chargeOf t bytes))

/-- The region at a handle. -/
def State.region (s : State) (h : Nat) : Option Region := kvFind s.tiers.regions h

/-- A region's record is replaced. -/
def State.setRegion (s : State) (h : Nat) (r : Region) : State :=
  { s with tiers := { s.tiers with regions := kvPut s.tiers.regions h r } }

/-- A region is in use by one more, or one fewer: a loaded figure, a queued transfer, a window (R192). -/
def State.pin (s : State) (h : Nat) : State :=
  match s.region h with
  | some r => s.setRegion h { r with pins := r.pins + 1 }
  | none => s
def State.unpin (s : State) (h : Nat) : State :=
  match s.region h with
  | some r => s.setRegion h { r with pins := r.pins - 1 }
  | none => s

/-- A tier's capacity is tested against the sum of the guarantees, and an excess is event 0x3006 (R195). -/
def State.capCheck (s : State) (t : Nat) : State :=
  let short := decide (s.rd (tierCap t) < sumClients fun d => s.rd (tqMin d t))
  let was := s.tiers.degraded.contains t
  if short && !was then
    (({ s with tiers := { s.tiers with degraded := t :: s.tiers.degraded } }).setIrq pageTier 6 3).raise pageTier 0x3006
      none t 0
  else if !short && was then { s with tiers := { s.tiers with degraded := s.tiers.degraded.filter fun x => x ≠ t } }
  else s

/-- A tier's capacity falls. -/
def State.loseCapacity (s : State) (t n : Nat) : State := (s.wr (tierCap t) (s.rd (tierCap t) - n)).capCheck t

/-- The tier of a memory device. -/
def devTier (d : Nat) : Nat := if d < 8 then 1 else 2

/-- A frame whose retirement waited leaves the allocator: its table entry is no longer pending, MEM_STAT counts it, and the
tier loses 2 MiB (R450). -/
def State.frameRetired (s : State) (d frame : Nat) : State :=
  let p := pageDev d
  let s1 := (List.range 256).foldl (fun t i =>
    let k := R.MEM_RET_FRAME p i
    if t.bit k 31 && t.fld k 19 0 = frame then t.setBit k 30 false else t) s
  let s2 := s1.setFld (R.MEM_STAT p) 31 16 (s1.fld (R.MEM_STAT p) 31 16 + 1)
  s2.loseCapacity (devTier d) twoMiB

/-- Frames due with a region retire as it is freed. -/
def State.retireDue (s : State) (h : Nat) : State :=
  let mine := s.devs.due.filter fun e => e.2 = h
  let s1 := { s with devs := { s.devs with due := s.devs.due.filter fun e => e.2 ≠ h } }
  mine.foldl (fun t e => t.frameRetired (e.1 / 2 ^ 20) (e.1 % 2 ^ 20)) s1

/-- A region of client c that a handle names. -/
def State.ownRegion (s : State) (c h : Nat) : Option Region :=
  match s.region h with
  | some r => if r.client = c then some r else none
  | none => none

/-! Bytes of T1 and T2 regions. -/

/-- A byte of a region; an unlisted byte is zero (R196). -/
def State.memByte (s : State) (h o : Nat) : Byte := kvGet 0 s.mem (h * regionSpan + o)

/-- Is the word of a byte poisoned? -/
def State.memPoisoned (s : State) (h o : Nat) : Bool := kvGet false s.memPoison (h * regionSpan + o / 8)

/-- `n` bytes of a region. -/
def State.memRead (s : State) (h o n : Nat) : List Byte := (List.range n).map fun i => s.memByte h (o + i)

/-- Is any word of a range poisoned? -/
def State.memReadPoison (s : State) (h o n : Nat) : Bool := (List.range n).any fun i => s.memPoisoned h (o + i)

/-- One byte is written. -/
def State.memSet (s : State) (h o : Nat) (b : Byte) : State := { s with mem := kvSet 0 s.mem (h * regionSpan + o) b }

/-- The poison of one word is written. -/
def State.poisonSet (s : State) (h w : Nat) (p : Bool) : State :=
  { s with memPoison := kvSet false s.memPoison (h * regionSpan + w) p }

/-- Bytes are written from offset o on. -/
def State.memBytes (s : State) (h : Nat) : Nat → List Byte → State
  | _, [] => s
  | o, b :: bs => (s.memSet h o b).memBytes h (o + 1) bs

/-- Bytes are written with one poison: poison marks every word written, and a write without poison clears each word it covers
whole; a word it covers in part keeps its poison (R448). -/
def State.memWrite (s : State) (h o : Nat) (bs : List Byte) (poison : Bool) : State :=
  let s1 := s.memBytes h o bs
  if bs.isEmpty then s1
  else
    let w0 := o / 8
    let w1 := (o + bs.length - 1) / 8
    (List.range (w1 + 1 - w0)).foldl (fun t i =>
      let w := w0 + i
      if poison then t.poisonSet h w true
      else if o ≤ 8 * w && 8 * w + 8 ≤ o + bs.length then t.poisonSet h w false
      else t) s1

/-- A range of one region is copied over a range of another, poison with its word (R448). -/
def State.memCopy (s : State) (h o h' o' n : Nat) : State :=
  let bs := s.memRead h o n
  let ps := (List.range n).map fun i => s.memPoisoned h (o + i)
  let s1 := s.memWrite h' o' bs false
  ((List.range n).zip ps).foldl (fun t e => if e.2 then t.poisonSet h' ((o' + e.1) / 8) true else t) s1

/-- A whole region is zero and clean again. -/
def State.memZero (s : State) (h : Nat) : State :=
  { s with
    mem := kvDropRange s.mem (h * regionSpan) ((h + 1) * regionSpan)
    memPoison := kvDropRange s.memPoison (h * regionSpan) ((h + 1) * regionSpan) }

end Sys2Proof.Machine
end

