-- ==== Sys2Proof/Machine/Queue.lean ====
section
/-! DEFINITION. The queues of the Binder (R177, R178, R204), and RUN commands that wait: taking them back before their run is admitted
(R215, R406, R429, R431). -/

namespace Sys2Proof.Machine

/-- The queue number of a command whose logical device was reset: nothing is posted for it (R406). -/
def deadQ : Nat := 0x20000

/-- The context at an index (R231); an unlisted entry is FREE. -/
def freeCtx : Ctx := ⟨0, 0, false, false, false, false, 0, 0, 0, 0, 0, 0, 0, [], 0, none, []⟩

/-- A context table entry. -/
def State.ctx (s : State) (x : Nat) : Ctx := kvGet freeCtx s.ctxs x

/-- A context table entry replaced; a FREE entry is not listed. -/
def State.setCtx (s : State) (x : Nat) (e : Ctx) : State :=
  { s with ctxs := if e.state = 0 then kvErase s.ctxs x else kvPut s.ctxs x e }

/-- A run by its number. -/
def State.run (s : State) (r : Nat) : Option Run := kvFind s.sched.runs r

/-- A run replaced, and removed. -/
def State.setRun (s : State) (r : Nat) (x : Run) : State := { s with sched := { s.sched with runs := kvPut s.sched.runs r x } }
def State.dropRun (s : State) (r : Nat) : State := { s with sched := { s.sched with runs := kvErase s.sched.runs r } }

/-- A context leaves its run. -/
def State.leaveRun (s : State) (x : Nat) : State :=
  if (s.ctx x).state = 0 then s else s.setCtx x { s.ctx x with inRun := false }

/-! The queues of the Binder (R177, R178, R204). -/

/-- Kinds of transfer: STREAM, FILL, those that a job of their own ends, and STAGE. -/
def trStream : Nat := 0
def trFill : Nat := 1
def trJob : Nat := 2
def trStage : Nat := 3

/-- Does TIER take new transfers: it is enabled and under no quiesce request (R37 to R39)? -/
def State.tierGoes (s : State) : Bool := !s.quiescing pageTier

/-- Has a transfer a chunk left for an engine to take? -/
def Transfer.unfinished (t : Transfer) : Bool := !t.begun || decide (0 < t.chunks)

/-- May a BE transfer go on: throttle levels 1 and 2 hold one without a deadline (R542)? -/
def State.beGoes (s : State) (t : Transfer) : Bool := t.deadline.isSome || !s.throttled

/-- Does a MOVE wait for the FTL: it reads or writes T3, and the FTL takes no new transfer (R38)? -/
def State.moveHeld (s : State) (d : MoveDesc) : Bool :=
  let t3 (h : Nat) : Bool := match s.region h with
    | some r => r.tier = 3
    | none => false
  s.quiescing pageFtl && (t3 d.src.toNat || t3 d.dst.toNat)

/-- Does the Binder, and the FTL where it reads or writes T3, take up a transfer now (R38)? -/
def State.takesUp (s : State) (t : Transfer) : Bool :=
  s.tierGoes && (match t.job with
    | some (.move _ d _ _ _) => !s.moveHeld d
    | some (.figure _ _ _) => !s.quiescing pageFtl
    | some (.copy _ _ _ _) | some (.spill _ _ _) | none => true)

/-- May an engine take a chunk of a transfer? One that has begun is completed under a quiesce request, another waits (R38). -/
def State.goes (s : State) (t : Transfer) : Bool := (t.begun || s.takesUp t) && (t.lc || s.beGoes t)

/-- Does transfer a go before transfer b of its queue: by deadline, context and layer; those without a deadline follow (R177). -/
def Transfer.before (a b : Transfer) : Bool :=
  match a.deadline, b.deadline with
  | some x, some y => x < y || (x = y && (a.ctx < b.ctx || (a.ctx = b.ctx && a.layer < b.layer)))
  | some _, none => true
  | _, _ => false

/-- A transfer put in its place. -/
def enqueue (t : Transfer) : List Transfer → List Transfer
  | [] => [t]
  | x :: xs => if t.before x then t :: x :: xs else x :: enqueue t xs

/-- The decoders and the encoders at work on a transfer that has begun: a single transfer may use every free one (R178), no more than it
has chunks left (DEDUCED; log entry 51). -/
def State.codecs (s : State) (t : Transfer) : Nat × Nat :=
  let pressed (d : MoveDesc) : Bool := d.flags = 1
  let down (d : MoveDesc) : Bool := match s.region d.dst.toNat with
    | some r => r.tier = 2
    | none => false
  if !t.begun then (0, 0)
  else if t.kind = trStream then (t.chunks, 0)
  else match t.job with
    | some (.move _ d _ _ _) => if pressed d then (if down d then (0, t.chunks) else (t.chunks, 0)) else (0, 0)
    | some (.copy _ d _ _) => if pressed d then (0, t.chunks) else (0, 0)
    | some (.spill _ _ _) | some (.figure _ _ _) | none => (0, 0)

/-- TIER_STAT shows the queues and the codecs at work (R204). -/
def State.tierShow (s : State) : State :=
  let all := s.tiers.lc ++ s.tiers.be
  let busy := !all.isEmpty
  let work := all.map s.codecs
  let dec := min 8 (work.foldl (fun a w => a + w.1) 0)
  let enc := min 4 (work.foldl (fun a w => a + w.2) 0)
  ((((s.setBit R.TIER_STAT 0 busy).setBit R.TIER_STAT 1 (!s.tiers.lc.isEmpty)).setFld R.TIER_STAT 5 2 dec).setFld
    R.TIER_STAT 8 6 enc).setIdle pageTier (!busy || s.bit (R.PG_STAT pageTier) 1)

/-- A transfer enters its queue. -/
def State.transfer (s : State) (t : Transfer) : State :=
  (if t.lc then { s with tiers := { s.tiers with lc := enqueue t s.tiers.lc } }
   else { s with tiers := { s.tiers with be := enqueue t s.tiers.be } }).tierShow

/-- The 128-byte words that a staged operand takes into a Leaf. -/
def stageWords : StageOp → Nat
  | .state _ _ _ _ count | .layer _ _ _ _ count | .input _ _ _ _ count | .wave _ _ _ count => count
  | .draws _ _ _ _ _ count _ => count

/-- The STAGE of a step enters the queue of the step's class (R175, R177). -/
def State.queueStage (s : State) (rn : Nat) (x : Run) (d : StepDef) : State :=
  if d.stage.isEmpty then s
  else
    let n := d.stage.foldl (fun a o => a + 128 * stageWords o) 0
    s.transfer ⟨trStage, x.lc, none, (x.cmds.head?.map RunCmd.ctx).getD 0, 0, rn, (n + 65535) / 65536, false, none⟩

/-- Transfers that a test names leave the queues. -/
def State.dropTransfers (s : State) (p : Transfer → Bool) : State :=
  let keep (l : List Transfer) : List Transfer := l.filter fun t => !p t
  ({ s with tiers := { s.tiers with lc := keep s.tiers.lc, be := keep s.tiers.be, again := keep s.tiers.again } }).tierShow

/-- The window of a run goes back to its figure (R215, R229). -/
def State.windowBack (s : State) (x : Run) : State :=
  match x.window, kvFind s.sched.figures x.handle with
  | some w, some l =>
    { s with sched := { s.sched with figures := kvPut s.sched.figures x.handle { l with freeWindows := l.freeWindows ++ [w] } } }
  | _, _ => s

/-- The transfers of a run leave the queues. -/
def State.dropOfRun (s : State) (rn : Nat) : State := s.dropTransfers fun t => t.kind ≠ trJob && t.run = rn

/-- A FORMED run loses the commands that a test names, with the fills of their contexts; an emptied one is gone, with its transfers and
its window (R215). -/
def State.shrinkRun (s : State) (rn : Nat) (x : Run) (p : RunCmd → Bool) : State :=
  let out := x.cmds.filter p
  let keep := x.cmds.filter fun m => !p m
  let s1 := out.foldl (fun u m => u.leaveRun m.ctx) s
  if keep.isEmpty then ((s1.dropOfRun rn).windowBack x).dropRun rn
  else (s1.dropTransfers fun t => t.kind = trFill && t.run = rn && out.any fun m => m.ctx = t.ctx).setRun rn { x with cmds := keep }

/-- Commands still queued, or of a run that is only FORMED, that a test names are taken back; `done` is done for each. -/
def State.takeBack (s : State) (p : RunCmd → Bool) (done : State → RunCmd → State) : State :=
  let mine := s.sched.queue.filter p
  let s1 := { s with sched := { s.sched with queue := s.sched.queue.filter fun m => !p m } }
  let s2 := s1.sched.runs.foldl (fun t e =>
    if e.2.phase = .formed && e.2.cmds.any p then t.shrinkRun e.1 e.2 p else t) s1
  let formed := (s1.sched.runs.map fun e => if e.2.phase = .formed then e.2.cmds.filter p else []).flatten
  (mine ++ formed).foldl done s2

/-- Is a RUN command queued or of a FORMED run (R429)? -/
def State.unadmitted (s : State) (p : RunCmd → Bool) : Bool :=
  s.sched.queue.any p || s.sched.runs.any fun e => e.2.phase = .formed && e.2.cmds.any p

/-- The figure core a run executes: the main figure's, or its reserve's (R186). -/
def State.runCore (s : State) (x : Run) : Option FigureCore :=
  match kvFind s.sched.figures x.handle with
  | some l => if x.inReserve then l.fig.reserve.map Prod.fst else some l.fig.main
  | none => none

/-- A run's figure and path: the warm or cold steps of the core that it executes (R232). -/
def State.path (s : State) (x : Run) : List StepDef :=
  match s.runCore x with
  | some f => if x.cold then f.cold else f.warm
  | none => []

/-- An index of a context in a step as a replay of one of the run's contexts takes it: 0 for that context, and for any other one that the
replayed run does not hold (R250, R266). -/
def replayIndex (k i : Nat) : Nat := if i = k then 0 else 4096

/-- A step as the replay of the context at index k executes it: its sites keep their numbers, and what is another context's is skipped. -/
def placeStep (d : StepDef) (k : Nat) : StepDef :=
  { d with
    wave := d.wave.map fun w => match w with
      | .filter f => .filter { f with x := replayIndex k f.x }
      | .query x probe table out => .query (replayIndex k x) probe table out
      | .plain h u n => .plain h u n
    stage := d.stage.map fun o => match o with
      | .state x off r word count => .state (replayIndex k x) off r word count
      | .input x off r word count => .input (replayIndex k x) off r word count
      | .draws site x lr r word count format => .draws site (replayIndex k x) lr r word count format
      | o => o
    ops := d.ops.map fun o => { of := o.of.map (replayIndex k), op := match o.op with
      | .commit r word count x off => .commit r word count (replayIndex k x) off
      | .result r word bytes x search => .result r word bytes (replayIndex k x) search
      | .setpoint r word x => .setpoint r word (replayIndex k x)
      | .peer x off bytes link timed => .peer (replayIndex k x) off bytes link timed
      | .post link x off len => .post link (replayIndex k x) off len
      | op => op } }

/-- The step a run is at, and as its replay executes it. -/
def State.stepDef (s : State) (x : Run) : StepDef :=
  let d := (s.path x)[x.step]?.getD ⟨0, 0, [], [], [], []⟩
  if x.replayOf.isSome then placeStep d x.place else d

end Sys2Proof.Machine
end

