-- ==== Sys2Proof/Machine/Charge.lean ====
section
/-! DEFINITION. Accounting: the counters of each client and of the module block, numbered 16 (R235 to R237, R246). -/

namespace Sys2Proof.Machine

/-- Energy of `n` events of coefficient `k`, with the remainder kept (R237). -/
def State.energy (s : State) (i k n : Nat) : State :=
  if s.bit R.ACC_STAT 0 then
    let e := kvGet 0 s.accRem i + n * s.rd (R.ACC_COEF k)
    ({ s with accRem := kvPut s.accRem i (e % 256000000) }).count (R.ACC_ENERGY_UJ i) (e / 256000000)
  else s

/-- A counter of block i grows, with its energy. -/
def State.charge (s : State) (i key k n : Nat) : State := (s.count key n).energy i k n

/-- Bytes of T1, T2 and T3 read and written, bytes over the host link, and bytes over a link. -/
def State.chargeT1 (s : State) (i rd wr : Nat) : State := (s.charge i (R.ACC_T1_RD i) 5 rd).charge i (R.ACC_T1_WR i) 5 wr
def State.chargeT2 (s : State) (i rd wr : Nat) : State := (s.charge i (R.ACC_T2_RD i) 6 rd).charge i (R.ACC_T2_WR i) 6 wr
def State.chargeT3 (s : State) (i rd wr : Nat) : State := (s.charge i (R.ACC_T3_RD i) 7 rd).charge i (R.ACC_T3_WR i) 8 wr
def State.chargeHost (s : State) (i out inn : Nat) : State :=
  (s.charge i (R.ACC_HOST_RD i) 10 out).charge i (R.ACC_HOST_WR i) 10 inn
def State.chargeLink (s : State) (i link tx rx : Nat) : State :=
  (s.charge i (R.ACC_LINK_TX i link) 9 tx).charge i (R.ACC_LINK_RX i link) 9 rx

/-- The block that other work of a page is charged to: its owner in force, or the module block (R236, R479). -/
def State.ownerBlock (s : State) (p : Nat) : Nat :=
  let o := s.force (R.PG_OWNER p) % 256
  if o < 16 then o else 16

end Sys2Proof.Machine
end

