-- ==== Sys2Proof/Machine/Crypto.lean ====
section
/-! DEFINITION. The codes and hashes the module computes: SHAKE256 (R258, R466 to R471), CRC-32C (R180, R318, R346, R488),
CRC-16 (R442), and the BCH code of the memory word (R435 to R437). -/

namespace Sys2Proof.Machine

/-! SHAKE256. The state is 25 lanes of 64 bits, lane (x, y) at x + 5 y. -/

/-- The rotation of each lane. -/
def keccakRot : List Nat :=
  [0, 1, 62, 28, 27, 36, 44, 6, 55, 20, 3, 10, 43, 25, 39, 41, 45, 15, 21, 8, 18, 2, 61, 56, 14]

/-- The round constants. -/
def keccakRc : List Nat :=
  [0x0000000000000001, 0x0000000000008082, 0x800000000000808A, 0x8000000080008000, 0x000000000000808B, 0x0000000080000001,
   0x8000000080008081, 0x8000000000008009, 0x000000000000008A, 0x0000000000000088, 0x0000000080008009, 0x000000008000000A] ++
  [0x000000008000808B, 0x800000000000008B, 0x8000000000008089, 0x8000000000008003, 0x8000000000008002, 0x8000000000000080,
   0x000000000000800A, 0x800000008000000A, 0x8000000080008081, 0x8000000000008080, 0x0000000080000001, 0x8000000080008008]

/-- A 64-bit lane rotated left. -/
def rotl64 (v r : Nat) : Nat := (v * 2 ^ (r % 64)) % 2 ^ 64 + v / 2 ^ (64 - r % 64)

/-- Lane (x, y). -/
def lane (a : List Nat) (x y : Nat) : Nat := a.getD (x % 5 + 5 * (y % 5)) 0

/-- One round of the permutation. -/
def keccakRound (a : List Nat) (rc : Nat) : List Nat :=
  let c := (List.range 5).map fun x => lane a x 0 ^^^ lane a x 1 ^^^ lane a x 2 ^^^ lane a x 3 ^^^ lane a x 4
  let d := (List.range 5).map fun x => c.getD ((x + 4) % 5) 0 ^^^ rotl64 (c.getD ((x + 1) % 5) 0) 1
  let t := (List.range 25).map fun i => a.getD i 0 ^^^ d.getD (i % 5) 0
  let b := (List.range 25).map fun i =>
    -- lane (X, Y) takes the lane (x, y) with X = y and Y = 2 x + 3 y
    let x := (i % 5 + 3 * (i / 5)) % 5
    let y := i % 5
    rotl64 (lane t x y) (keccakRot.getD (x + 5 * y) 0)
  (List.range 25).map fun i =>
    let x := i % 5
    let y := i / 5
    let v := lane b x y ^^^ ((0xFFFFFFFFFFFFFFFF ^^^ lane b (x + 1) y) &&& lane b (x + 2) y)
    if i = 0 then v ^^^ rc else v

/-- The permutation. -/
def keccakF (a : List Nat) : List Nat := keccakRc.foldl keccakRound a

/-- A block of 136 bytes is taken into the state. -/
def keccakAbsorb (a : List Nat) (block : List Byte) : List Nat :=
  keccakF ((List.range 25).map fun i => if i < 17 then a.getD i 0 ^^^ ofLe ((block.drop (8 * i)).take 8) else a.getD i 0)

/-- The message with its padding. -/
def shakePad (m : List Byte) : List Byte :=
  let r := m.length % 136
  if r = 135 then m ++ [0x9F] else m ++ [0x1F] ++ List.replicate (134 - r) 0 ++ [0x80]

/-- Whole blocks are taken in, `n` of them. -/
def shakeBlocks (a : List Nat) : Nat → List Byte → List Nat
  | 0, _ => a
  | n + 1, m => shakeBlocks (keccakAbsorb a (m.take 136)) n (m.drop 136)

/-- `n` output blocks. -/
def shakeSqueeze (a : List Nat) : Nat → List Byte
  | 0 => []
  | n + 1 => ((a.take 17).map fun w => leBytes 8 w).flatten ++ shakeSqueeze (keccakF a) n

/-- The first `n` bytes of SHAKE256 over a message. -/
def shake256 (m : List Byte) (n : Nat) : List Byte :=
  let p := shakePad m
  (shakeSqueeze (shakeBlocks (List.replicate 25 0) (p.length / 136) p) ((n + 135) / 136)).take n

/-- The ASCII bytes of a context string. -/
def ascii (x : String) : List Byte := x.toList.map fun c => BitVec.ofNat 8 c.toNat

/-! Cyclic redundancy checks. -/

/-- Eight steps of CRC-32C, least significant bit first. -/
def crc32cStep : Nat → Nat → Nat
  | 0, c => c
  | n + 1, c => crc32cStep n (if c % 2 = 1 then (c / 2) ^^^ 0x82F63B78 else c / 2)

/-- CRC-32C of bytes. -/
def crc32c (bs : List Byte) : Nat := (bs.foldl (fun c b => crc32cStep 8 (c ^^^ b.toNat)) 0xFFFFFFFF) ^^^ 0xFFFFFFFF

/-- Eight steps of CRC-32, least significant bit first. -/
def crc32Step : Nat → Nat → Nat
  | 0, c => c
  | n + 1, c => crc32Step n (if c % 2 = 1 then (c / 2) ^^^ 0xEDB88320 else c / 2)

/-- CRC-32 of bytes, the frame check sequence of Ethernet (R392). -/
def crc32 (bs : List Byte) : Nat := (bs.foldl (fun c b => crc32Step 8 (c ^^^ b.toNat)) 0xFFFFFFFF) ^^^ 0xFFFFFFFF

/-- Steps of CRC-16 with polynomial 0x1021, most significant bit first. -/
def crc16Step : Nat → Nat → Nat
  | 0, c => c
  | n + 1, c => crc16Step n (if 0x8000 ≤ c then ((c * 2) % 65536) ^^^ 0x1021 else c * 2)

/-- CRC-16 of bytes with initial value 0xFFFF (R442). -/
def crc16 (bs : List Byte) : Nat := bs.foldl (fun c b => crc16Step 8 (c ^^^ (b.toNat * 256))) 0xFFFF

/-- The CRC of a 128-byte line and its poison flag (R442). -/
def lineCrc (w : LeafWord) : Nat := crc16 (leBytes 128 w.bits.toNat ++ [if w.poison then 1 else 0])

/-! The memory code word (R435 to R437). -/

/-- g(x) = m1(x) m3(x) of R436: x^7 + x^3 + 1 times the minimal polynomial of the cube of its root, x^7 + x^3 + x^2 + x + 1. -/
def bchPoly : Nat := 0x4377

/-- The remainder of a polynomial, its bits taken from position n - 1 down. -/
def bchRem : Nat → Nat → Nat → Nat
  | 0, _, r => r
  | n + 1, v, r =>
    let r2 := r * 2 + (if v.testBit n then 1 else 0)
    bchRem n v (if r2.testBit 14 then r2 ^^^ bchPoly else r2)

/-- Is the number of ones among the lowest n bits odd? -/
def oddBits : Nat → Nat → Bool
  | 0, _ => false
  | n + 1, v => (v.testBit n) ^^ oddBits n v

/-- The message vector u of a data word, its poison bit and its byte address (R436). -/
def bchMessage (data : Nat) (poison : Bool) (addr : Nat) : Nat :=
  data % 2 ^ 64 + (if poison then 2 ^ 64 else 0) + addr / 8 % 2 ^ 37 * 2 ^ 65

/-- The stored code word: data, c[13:0], the overall parity, and the poison bit (R435, R436). -/
def bchEncode (data : Nat) (poison : Bool) (addr : Nat) : BitVec 80 :=
  let u := bchMessage data poison addr
  let c := bchRem 116 (u * 2 ^ 14) 0
  let par := (oddBits 102 u) ^^ (oddBits 14 c)
  BitVec.ofNat 80 (data % 2 ^ 64 + c * 2 ^ 64 + (if par then 2 ^ 78 else 0) + (if poison then 2 ^ 79 else 0))

/-- The data and the poison bit of a stored word. -/
def codeData (w : BitVec 80) : Nat := w.toNat % 2 ^ 64
def codePoison (w : BitVec 80) : Bool := w.toNat.testBit 79

/-- The syndrome of a stored word read at an address: the remainder, and the overall parity. -/
def bchSyndrome (w : BitVec 80) (addr : Nat) : Nat × Bool :=
  let u := bchMessage (codeData w) (codePoison w) addr
  let c := w.toNat / 2 ^ 64 % 2 ^ 14
  let r := bchRem 116 (u * 2 ^ 14) 0 ^^^ c
  (r, ((oddBits 102 u) ^^ (oddBits 14 c)) ^^ (w.toNat.testBit 78))

/-- The syndrome of an error in position i: u positions 0 to 101, then c positions 102 to 115, then the overall parity. -/
def bchPosition (i : Nat) : Nat :=
  if i < 102 then bchRem 116 (2 ^ (i + 14)) 0 else if i < 116 then 2 ^ (i - 102) else 0

/-- Is a position one of the 80 stored bits? -/
def bchStored (i : Nat) : Bool := i < 65 || 102 ≤ i

/-- The stored bit of a position (R435). -/
def bchBit (i : Nat) : Nat := if i < 64 then i else if i = 64 then 79 else if i < 116 then i - 102 + 64 else 78

/-- The classes of R437 with the positions located. -/
inductive EccClass where
  | clean
  | single (i : Nat)
  | double (i j : Nat)
  | uncorrectable
  | address
  deriving DecidableEq, Repr

/-- The class of a word from its syndrome (R437). -/
def bchClassify (syn : Nat × Bool) : EccClass :=
  if syn.1 = 0 && !syn.2 then .clean
  else if syn.2 then
    match (List.range 117).find? fun i => bchPosition i = syn.1 with
    | some i => if bchStored i then .single i else .address
    | none => .uncorrectable
  else
    match (List.range 117).findSome? fun i =>
        ((List.range 117).find? fun j => decide (i < j) && (bchPosition i ^^^ bchPosition j) = syn.1).map fun j => (i, j) with
    | some (i, j) => if bchStored i && bchStored j then .double i j else .address
    | none => .uncorrectable

/-- A stored word with a bit turned. -/
def flipBit (w : BitVec 80) (i : Nat) : BitVec 80 := w ^^^ BitVec.ofNat 80 (2 ^ i)

/-- The word that a class leaves: corrected, or as read. -/
def bchCorrect (w : BitVec 80) : EccClass → BitVec 80
  | .single i => flipBit w (bchBit i)
  | .double i j => flipBit (flipBit w (bchBit i)) (bchBit j)
  | _ => w

/-- The number of a class in MEM_LAST_ADDR (R437, R464). -/
def EccClass.number : EccClass → Nat
  | .clean => 0
  | .single _ => 1
  | .double _ _ => 2
  | .uncorrectable => 3
  | .address => 4

end Sys2Proof.Machine
end

