-- ==== Sys2Proof/Machine/Pages.lean ====
section
/-! DEFINITION. What every page shares: PG_PRESENT and the directory (R37, R48, R49), enable and quiesce (R38, R39), deferred
interrupt messages (R53), and the writer and tail of the error log (R454, R455). -/

namespace Sys2Proof.Machine

/-- A lane row leaves service or comes back: a reserved row that leaves degrades its client's reservation, with event 0x2005, and one
that comes back before it is replaced makes it whole (R227). -/
def State.rowService (s : State) (r : Nat) (on : Bool) : State :=
  match kvFind s.sched.reserved r with
  | none => s
  | some c =>
    let rest := s.sched.degraded.filter fun d => d.2.1 ≠ r
    if on then { s with sched := { s.sched with degraded := rest } }
    else ({ s with sched := { s.sched with degraded := rest ++ [(c, r, false)] } }).raise pageSch 0x2005 (some c) 0 0

/-- PG_PRESENT of a page changes; DIR_ENTRY and DIR_GEN follow together, once RB# has been released (R47 to R49). -/
def State.setPresent (s : State) (p v : Nat) : State :=
  if s.present p = v then s
  else
    let s1 := s.setFld (R.PG_PRESENT p) 3 0 v
    if s1.released then
      let s2 := (s1.wr (R.DIR_ENTRY p) (typeCode p * 65536 + instanceNo p * 256 + v * 16)).countWrap R.DIR_GEN 1
      if 0x28 ≤ p && p < 0x90 && (s.present p = 3 || v = 3) then s2.rowService (p - 0x28) (v = 3) else s2
    else s1

/-- Does a phase of a run keep its rows at work: the step stages or computes (R21, R38)? -/
def RunPhase.working : RunPhase → Bool
  | .staging | .computing => true
  | _ => false

/-- Does a step run on lane row r? -/
def State.rowBusy (s : State) (r : Nat) : Bool :=
  s.sched.runs.any fun e => e.2.phase.working && e.2.rows.contains r

/-- Does an operation of a pass hold QNT: a bell4 block under a custom grid, or a REQ8 that names a monitor (R148)? -/
def holdsQnt : RowOp → Bool
  | .block _ fmt grid _ => fmt = .bell4 && grid ≠ .standard
  | .drain _ _ ops _ | .trim _ _ ops _ => ops.any fun o => match o with
    | .req8 _ _ m => m.isSome
    | _ => false
  | _ => false

/-- Does a running step hold QNT (R148)? -/
def State.qntHeld (s : State) : Bool := s.sched.runs.any fun e => e.2.phase.working && (s.stepDef e.2).ops.any fun o => holdsQnt o.op

/-- Does a wave search an index (R326)? -/
def wavesQuery (ws : List WaveRead) : Bool := ws.any fun w => match w with
  | .query _ _ _ _ => true
  | .plain _ _ _ | .filter _ => false

/-- TIER accepts work: the transfers that a block reset took out of the queues are asked for again (R38, R562; log entry 51). -/
def State.askAgain (s : State) : State :=
  let (lc, be) := s.tiers.again.partition fun t => t.lc
  { s with tiers := { s.tiers with lc := lc.foldr enqueue s.tiers.lc, be := be.foldr enqueue s.tiers.be, again := [] } }

/-- Has the block of a page work in progress (R38)? Commands of this model are whole, so only a lane row's step, a divided
descriptor of a Collator (R172), a step that holds QNT (R148), a transfer of which the Binder has taken a chunk (R177), a query of VSX
(R326), a bucket that RED reduces (R364), a staged group that the FTL programs (R281) and a mailbox command (R430) last from one to
another. -/
def State.busyPage (s : State) (p : Nat) : Bool :=
  if 0x28 ≤ p && p < 0x90 then s.rowBusy (p - 0x28)
  else if 0x90 ≤ p && p < 0x98 then (match kvFind s.cols (p - 0x90) with
    | some u => u.begun.isSome
    | none => false)
  else if p = pageQnt then s.qntHeld
  else if p = pageTier then (s.tiers.lc ++ s.tiers.be).any fun t => t.begun
  else if p = pageVsx then s.sched.runs.any fun e =>
    (e.2.phase.working && wavesQuery (s.stepDef e.2).wave) || (e.2.phase = .waitFlash && wavesQuery e.2.wavePlan)
  else if p = pageFtl then !s.ftl.groups.isEmpty
  else if p = pageHif then s.bit R.HIF_PMB_STAT 0
  else if p = pageRed then s.red.buckets.any fun e => e.2.released
  else false

/-- PG_STAT[0] of QNT and VSX, which have their work through the steps and the waves of runs, follows these (R36). -/
def State.showWork (s : State) : State := [pageQnt, pageVsx].foldl (fun t p => t.setIdle p (!t.busyPage p)) s

/-- A quiesced setpoint port holds the frames that a strike had released, for the first strike after RESUME (R395). -/
def State.sptHold (s : State) : State :=
  { s with spt := { s.spt with
      pending := s.spt.launched.foldl (fun l e => kvPut l e.1 e.2) s.spt.pending
      launched := [] } }

/-- A quiesce request ends: PG_STAT[1] and PG_STAT[0] set, and a disable completes, with DIR updated first (R38, R39, R49). -/
def State.quiesced (s : State) (p : Nat) : State :=
  let idle := s.bit (R.PG_STAT p) 0
  let s1 := (if p = pageSpt then s.sptHold else s).setFld (R.PG_STAT p) 1 0 3
  let s2 := if !s1.bit (R.PG_CTL p) 0 && s1.present p = 3 then s1.setPresent p 1 else s1
  let s3 := s2.setIrq p 3 0
  if idle then s3 else s3.setIrq p 2 0

/-- A quiesce request or a disable completes when the block has no work in progress; when neither stands, PG_STAT[1] clears
and the block accepts work (R38, R39). -/
def State.quiesceSettle (s : State) (p : Nat) : State :=
  if s.present p ≠ 3 && s.present p ≠ 1 then s
  else if s.quiescing p then
    if s.bit (R.PG_STAT p) 1 then
      (if !s.bit (R.PG_CTL p) 0 && s.present p = 3 then s.setPresent p 1 else s)
    else if s.busyPage p then s
    else s.quiesced p
  else
    let s1 := s.setBit (R.PG_STAT p) 1 false
    if p = pageTier then s1.askAgain else s1

/-- PG_CTL takes a checked value: the supervisor lock on every page, and on a page in service or disabled the enable, which
acts at once, and the quiesce request (R37 to R39, R42, R563). -/
def State.pageCtl (s : State) (p new : Nat) : State :=
  if s.present p ≠ 3 && s.present p ≠ 1 then s.setFld (R.PG_CTL p) 31 31 (bits new 31 31)
  else
    let s1 := s.wr (R.PG_CTL p) (new % 0x100000000)
    (if new.testBit 0 then s1.setPresent p 3 else s1).quiesceSettle p

/-- PG_CTL[1] set or cleared by an arm action (R128, R171). -/
def State.setQuiesce (s : State) (p : Nat) (b : Bool) : State := (s.setBit (R.PG_CTL p) 1 b).quiesceSettle p

/-- QUIESCE_COMPLETE (R38): the work in progress of the block has ended. -/
def execQuiesceComplete (p : Page) (s : State) : Host.Outcome State Fault Refusal :=
  settled (if s.answers p && s.quiescing p then s.quiesceSettle p else s)

/-- IRQ_MOD_INTERVAL_END (R53). -/
def execIrqModIntervalEnd (n : Client) (cat : Fin 13) (s : State) : Host.Outcome State Fault Refusal :=
  settled <|
    let k := 16 * n.val + cat.val
    if (kvFind s.irq.deferred k).isSome && s.modPassed n cat then
      let s1 := { s with irq := { s.irq with deferred := kvErase s.irq.deferred k } }
      if s1.bit (R.IRQ_CAT_STAT n) cat && s1.bit (R.IRQ_CAT_EN n) cat then s1.sendCat n cat else s1
    else s

/-- ERR_WRITER_TAKE (R454, R455), and the asynchronous events that entries of the client logs raise (R417, R457). -/
def execErrWriterTake (s : State) : Host.Outcome State Fault Refusal := settled s.writerTake.deliverAers

/-- ERR_TAIL takes a value from ERR_HEAD − 4,096 to ERR_HEAD; a pending 0x400C entry is then written (R455, R461). -/
def State.setTail (s : State) (v : Nat) : State :=
  let h := s.rd R.ERR_HEAD
  if h < v || v + 4096 < h then s else ((s.wr R.ERR_TAIL v).writeDropNote).deliverAers

/-- ERR_TAIL_WRITE (R455). -/
def execErrTailWrite (c : Client) (v : BitVec 64) (s : State) : Host.Outcome State Fault Refusal :=
  settled (s.command c R.ERR_TAIL v.toNat fun t new _ => t.setTail new)

end Sys2Proof.Machine
end

