-- ==== Sys2Proof/Machine/Flits.lean ====
section
/-! DEFINITION. The link layer of the Edlux links: state and roles (R348, R354, R358), and flits as they are sent, held for retry and
replayed (R346, R352). -/

namespace Sys2Proof.Machine

/-- A link with no traffic behind it: the first sequenced flit has SEQ 0. -/
def emptyLink : LinkUnit := ⟨0, 4095, 0, false, [], [], none, [], [], 0, [], [], none, [], false, 0, 0⟩

/-- A link, and a link replaced. -/
def State.linkUnit (s : State) (l : Nat) : LinkUnit := kvGet emptyLink s.links l
def State.setLink (s : State) (l : Nat) (u : LinkUnit) : State := { s with links := kvPut s.links l u }

/-- LNK_STAT.STATE values (R348). -/
def lkDown : Nat := 0
def lkTrain : Nat := 1
def lkAuth : Nat := 2
def lkWait : Nat := 3
def lkUp : Nat := 4
def lkStandby : Nat := 5
def lkRetrain : Nat := 6
def lkRefused : Nat := 7

/-- The state of a link. -/
def State.linkState (s : State) (l : Nat) : Nat := s.fld (R.LNK_STAT l) 2 0

/-- Does a link carry all traffic: state UP (R348)? -/
def State.linkUp (s : State) (l : Nat) : Bool := s.linkState l = lkUp

/-- Is the role of a link spare, and which link does it back (R354)? -/
def State.isSpare (s : State) (l : Nat) : Bool := s.fld (R.LNK_ROLE l) 3 0 = 0xE
def State.backs (s : State) (l : Nat) : Option Nat :=
  if s.isSpare l && s.bit (R.LNK_ROLE l) 13 then some (s.fld (R.LNK_ROLE l) 12 8) else none

/-- The spare that backs a link. -/
def State.spareOf (s : State) (l : Nat) : Option Nat := (List.range 32).find? fun k => s.backs k = some l

/-- Does a link carry its role's traffic (LNK_STAT.CARRIES)? -/
def State.carries (s : State) (l : Nat) : Bool := s.bit (R.LNK_STAT l) 3

/-- The link that carries the traffic of a role: the link itself, or after a switch its spare (R355). -/
def State.carrier (s : State) (l : Nat) : Nat :=
  match s.spareOf l with
  | some k => if s.carries k && !s.carries l then k else l
  | none => l

/-- The link that stands by for a link's traffic: its spare, or for a spare the link it backs (R354, R355). -/
def State.partner (s : State) (l : Nat) : Option Nat := (s.spareOf l).or (s.backs l)

/-- The role link whose traffic a link carries: its own, or that of the link it backs. -/
def State.roleLink (s : State) (l : Nat) : Nat := (s.backs l).getD l

/-- The tree and direction of the traffic a link carries. -/
def State.linkTree (s : State) (l : Nat) : Nat := s.fld (R.LNK_ROLE (s.roleLink l)) 3 0
def State.linkDir (s : State) (l : Nat) : Nat := s.fld (R.LNK_ROLE (s.roleLink l)) 5 4

/-- The link that carries tree t in direction d: 0 parent, 1 left child, 2 right child (R358). -/
def State.treeLink (s : State) (t d : Nat) : Option Nat :=
  ((List.range 32).find? fun l => s.fld (R.LNK_ROLE l) 3 0 = t && s.fld (R.LNK_ROLE l) 5 4 = d).map s.carrier

/-! The bytes of a flit (R346, R347). -/

/-- TYPE of a flit; the start flit of a tree's share goes up as RED_UP (R347, R361; log entry 35). -/
def flitType : FlitBody → Nat
  | .idle => 0
  | .ctrl _ => 1
  | .time _ => 2
  | .cal _ => 3
  | .mgmt _ => 4
  | .start _ _ _ _ => 5
  | .red down _ _ _ _ => if down then 6 else 5
  | .peer _ _ _ _ => 7
  | .reserved type => type % 16

/-- TAG: of a RED flit BSEQ, FIDX, MASK and DOWN; a start flit goes before the share's first flit, and its FIDX is 0 (log entry 35). -/
def flitTag : FlitBody → Nat
  | .start seq _ mask _ => seq % 2 ^ 16 + mask % 2 ^ 10 * 2 ^ 48
  | .red down bseq fidx mask _ => bseq % 2 ^ 16 + fidx % 2 ^ 32 * 2 ^ 16 + (mask % 2 ^ 10 + down.toNat * 2 ^ 10) * 2 ^ 48
  | b => Config.flitTag b

/-- PAYLOAD: zeros of IDLE, the credits of CTRL, seven blocks of 34 bytes, a piece of a peer message; of the other types the spec names
what the payload holds and not where (log entry 35). -/
def flitPayload : FlitBody → List Byte
  | .idle => []
  | .ctrl credits => (credits.take 8).flatMap fun c => leBytes 2 c.toNat
  | .red _ _ _ _ blocks => (blocks.take 7).flatMap fun b => leBytes 34 b.toNat
  | .peer _ _ bytes _ => bytes
  | b => Config.flitPayload b

/-- The 256 bytes of a flit: TYPE and SEQ, ACK and NAK, TAG, 240 bytes of payload, and the CRC-32C of what precedes it. -/
def flitBytes (seq ack : Nat) (nak : Bool) (b : FlitBody) : List Byte :=
  let head := leBytes 2 (flitType b + seq % 4096 * 16) ++ leBytes 2 (ack % 4096 + nak.toNat * 4096) ++ leBytes 8 (flitTag b)
  let body := head ++ (flitPayload b ++ List.replicate 240 0).take 240
  body ++ leBytes 4 (crc32c body)

/-- A flit on a link as it leaves the module. -/
def flitOf (link seq ack : Nat) (nak : Bool) (b : FlitBody) : Output := .flit link (flitBytes seq ack nak b)

/-- Is a flit sequenced (R346)? -/
def sequenced : FlitBody → Bool
  | .idle => false
  | .ctrl _ => false
  | _ => true

/-- May a link in a state and quiesced or not send a flit (R348, R381)? -/
def maySend (state : Nat) (quiet : Bool) (b : FlitBody) : Bool :=
  match b with
  | .idle | .ctrl _ => state = lkUp || state = lkStandby
  | .cal _ => state = lkUp || state = lkStandby
  | .time _ => state = lkUp
  | .mgmt _ => (state = lkTrain || state = lkAuth || state = lkWait || state = lkUp || state = lkStandby) && !quiet
  | _ => state = lkUp && !quiet

/-- The block of ACC that a sent or received flit is charged to (R236, R376). -/
def State.flitBlock (s : State) : FlitBody → Option Nat
  | .time _ | .cal _ | .mgmt _ => some 16
  | .red _ _ _ _ _ | .start _ _ _ _ => some (s.ownerBlock pageRed)
  | _ => none

/-- A flit leaves on a link. -/
def State.flitOut (s : State) (l seq : Nat) (b : FlitBody) : State :=
  let u := s.linkUnit l
  let s1 := s.emit (flitOf l seq ((u.expect + 4095) % 4096) u.naking b)
  if sequenced b then s1.count (R.LNK_FLITS_TX l) 1 else s1

/-- May a sequenced flit leave now: the link may send it, quiescing or not, and its retry buffer of 1,024 has room (R38, R39, R352)? -/
def State.maySendNow (s : State) (l : Nat) (b : FlitBody) : Bool :=
  maySend (s.linkState l) (s.quiescing (pageLnk l)) b && decide ((s.linkUnit l).retry.length < 1024)

/-- A sequenced flit leaves with the next SEQ, and is held for retry (R352). -/
def State.launch (s : State) (l : Nat) (b : FlitBody) : State :=
  let u := s.linkUnit l
  let v : LinkUnit := { u with
    next := (u.next + 1) % 4096, retry := u.retry ++ [(u.next, b)], ackAt := if u.retry.isEmpty then s.etime else u.ackAt }
  let s1 := (s.setLink l v).flitOut l u.next b
  match s1.flitBlock b with
  | some i => s1.chargeLink i l 240 0
  | none => s1

/-- A stamped message, of TIME or CAL, leaves at once, ahead of what waits, or not at all: a stamp holds for one departure, and the next
message serves (R57, R83, R375; log entry 35). -/
def State.sendStamped (s : State) (l : Nat) (b : FlitBody) (o : Output) : State :=
  if s.maySendNow l b then (s.emit o).launch l b else s

/-- Waiting flits go out while the link may send them and its retry buffer has room (R352). -/
def State.drainLink (s : State) (l : Nat) : List FlitBody → State
  | [] => s.setLink l { s.linkUnit l with outq := [] }
  | b :: bs =>
    if !s.maySendNow l b then s.setLink l { s.linkUnit l with outq := b :: bs } else (s.launch l b).drainLink l bs

/-- A flit is sent: at once when it is not sequenced, else behind those that wait. -/
def State.sendFlit (s : State) (l : Nat) (b : FlitBody) : State :=
  if sequenced b then
    let q := (s.linkUnit l).outq ++ [b]
    s.drainLink l q
  else if maySend (s.linkState l) false b then s.flitOut l 0 b
  else s

end Sys2Proof.Machine
end

