-- ==== Sys2Proof/Machine/Nor.lean ====
section
/-! DEFINITION. The NOR controller (R486 to R490): blank words, operations in the banks and their suspension, the logs that keep the
triplicated words and the settings, and what a power loss leaves. How long an operation takes, within the limits of R486, is a free value
(log entry 54). -/

namespace Sys2Proof.Machine

/-- A duration of at most `n` units of 1/16 ns. -/
def State.upTo (s : State) (n : Nat) : Nat × State := (s.free.1 % (n + 1), s.free.2)

/-- The longest word program, sector erase and suspension (R486). -/
def norWord : Nat := 20 * tickUs
def norSector : Nat := 60000 * tickUs
def norPause : Nat := 20 * tickUs

/-- A bank with no operation in it, and the bank of a sector (R486). -/
def idleBank : NorBank := ⟨[], 0, 0⟩
def State.norBank (s : State) (sector : Nat) : NorBank := kvGet idleBank s.nor.banks (sector % 16)
def State.setNorBank (s : State) (sector : Nat) (b : NorBank) : State :=
  { s with nor := { s.nor with banks := kvPut s.nor.banks (sector % 16) b } }

/-! Logs (R487, R488). -/

/-- The logs, by number: the selector, then those of the settings in the order in which R487 names them. -/
def logSelector : Nat := 0
def logFreq : Nat := 1
def logQuotas : Nat := 2
def logRoots : Nat := 3
def logFtl : Nat := 4
def logDigests : Nat := 5
def logRetired : Nat := 6
def logFences : Nat := 7

/-- A sector of copy j of log k: the selector's from 0x1000 on (R487), those of the settings from 0x1040 on, six a log (log entry 54). -/
def logSector (k j : Nat) (half : Bool) : Nat := (if k = 0 then 0x1000 else 0x1040 + 6 * (k - 1)) + 2 * j + half.toNat

/-- Records that fit a sector (R488). -/
def logCap : Nat := 256

/-- Copy c of the logs, copy j of log k being 3 k + j; a log starts in its first sector with nothing in it. -/
def emptyCopy : NorCopy := ⟨false, 0, false, []⟩
def State.norCopy (s : State) (c : Nat) : NorCopy := kvGet emptyCopy s.nor.copies c
def State.setNorCopy (s : State) (c : Nat) (y : NorCopy) : State := { s with nor := { s.nor with copies := kvPut s.nor.copies c y } }

/-- The current sector of copy c, and the other. -/
def State.logNow (s : State) (c : Nat) : Nat := logSector (c / 3) (c % 3) (s.norCopy c).half
def State.logOther (s : State) (c : Nat) : Nat := logSector (c / 3) (c % 3) (!(s.norCopy c).half)

/-! Words (R486, R493). -/

/-- Does a word of an image read 0xFFFF_FFFF; beyond the image its endpaper is erased? -/
def blankIn (bs : List Byte) (at_ : Nat) : Bool := ((bs.drop at_).take 4).all fun b => b = 0xFF

/-- Does word i of a sector read 0xFFFF_FFFF (R486)? That of a sector whose erase was abandoned is a free value (R490). -/
def State.norBlank (s : State) (sector i : Nat) : Bool × State :=
  if s.nor.undef.contains sector then (s.free.1 % 2 = 0, s.free.2)
  else if sector < 0x1000 then
    (blankIn (if sector < 0x800 then s.nor.front.bytes else s.nor.back.bytes) (sector % 0x800 * 4096 + 4 * i), s)
  else if 0x1006 ≤ sector && sector < 0x1009 then (decide (s.nor.rollback.getD (sector - 0x1006) 0 ≤ i), s)
  else
    match (List.range 24).find? fun c => s.logNow c = sector || s.logOther c = sector with
    | some c =>
      let y := s.norCopy c
      (if s.logNow c = sector then decide (y.used ≤ i / 4) else !y.turned, s)
    | none => (!(decide (0x1010 ≤ sector) && decide (sector < 0x1030)), s)

/-! Operations (R486, R489). -/

/-- One erase of a sector more; the count that passes NOR_WEAR_WARN raises 0xA00A (R502, R503). -/
def State.norWear (s : State) (sector : Nat) : State :=
  let n := kvGet 0 s.nor.erases sector + 1
  let s1 := { s with nor := { s.nor with erases := kvPut s.nor.erases sector n } }
  if n = s.rd R.NOR_WEAR_WARN + 1 then (s1.setIrq pageNor 6 0xA).raise pageNor 0xA00A none sector 0 else s1

/-- The erases of a bank that have ended by an instant, one after another, and those left. -/
def endedErases (t from_ : Nat) : List NorErase → List (Nat × Nat) × List NorErase
  | [] => ([], [])
  | e :: es =>
    let since := max e.since from_
    if since + e.left ≤ t then
      let (ds, rest) := endedErases t (since + e.left) es
      ((e.sector, since + e.left) :: ds, rest)
    else ([], { e with since := since } :: es)

/-- A bank is at work on a program of `n` words from an instant on, behind the program before it, and an erase in progress stands
suspended until its end. -/
def State.norBusy (s : State) (sector from_ n : Nat) : State :=
  let (d, s1) := s.upTo (n * norWord)
  let b := s1.norBank sector
  let start := max from_ b.progEnd
  s1.setNorBank sector { b with
    progFrom := if b.progEnd ≤ from_ then from_ else b.progFrom
    progEnd := start + d
    erases := match b.erases with
      | e :: es => { e with since := max e.since (start + d) } :: es
      | [] => [] }

/-- A sector's erase has ended: a log that waited for it goes on in that sector, whose first record repeats the latest value (R488). -/
def State.norErased (s : State) (sector at_ : Nat) : State :=
  let s1 : State := { s with nor := { s.nor with undef := s.nor.undef.filter fun x => x ≠ sector } }
  match (List.range 24).find? fun c => s1.logOther c = sector && (s1.norCopy c).used = logCap with
  | some c =>
    let y := s1.norCopy c
    let n := 1 + y.waiting.length
    (s1.setNorCopy c ⟨!y.half, n, true, []⟩).norBusy sector at_ (4 * n)
  | none => s1

/-- The erases that have ended by now have had their effect. -/
def State.norSettle (s : State) : State :=
  (List.range 16).foldl (fun t i =>
    let b := t.norBank i
    let (done, left) := endedErases t.etime 0 b.erases
    if done.isEmpty then t
    else done.foldl (fun u e => u.norErased e.1 e.2) (t.setNorBank i { b with erases := left })) s

/-- An operation in progress is suspended, and counted; answers how long that takes (R489). -/
def State.norSuspend (s : State) : Nat × State :=
  let (d, s1) := s.upTo norPause
  (d, s1.countSat R.NOR_SUSP 1)

/-- An erase of a sector is started, behind those of its bank (R486). -/
def State.norErase (s : State) (sector : Nat) : State :=
  let s1 := s.norSettle.norWear sector
  let (d, s2) := s1.upTo norSector
  let b := s2.norBank sector
  s2.setNorBank sector { b with erases := b.erases ++ [⟨sector, d, max s2.etime b.progEnd, 0⟩] }

/-- A program of words i to i + n - 1 of a sector: refused into a sector being erased, or over a word that is not blank, with nothing done
and the sector in NOR_LAST_SECT; else it suspends an erase that runs, unless that was suspended 64 times (R486, R489). Answers whether
it goes on. -/
def State.norProgram (s : State) (sector i n : Nat) : Bool × State :=
  let s1 := s.norSettle
  let t := s1.etime
  let (blank, s2) := (List.range n).foldl (fun (a : Bool × State) j =>
    let (b, u) := a.2.norBlank sector (i + j)
    (a.1 && b, u)) (true, s1)
  match (s2.norBank sector).erases with
  | [] => if blank then (true, s2.norBusy sector t n) else (false, s2.wr R.NOR_LAST_SECT sector)
  | e :: es =>
    if e.sector = sector || !blank then (false, s2.wr R.NOR_LAST_SECT sector)
    else if t < e.since then (true, s2.norBusy sector t n)
    else if 64 ≤ e.suspends then (true, s2.norBusy sector (e.since + e.left) n)
    else
      let (d, s3) := s2.norSuspend
      let b := s3.norBank sector
      let e' : NorErase := { e with left := e.since + e.left - t, since := t + d, suspends := e.suspends + 1 }
      (true, (s3.setNorBank sector { b with erases := e' :: es }).norBusy sector (t + d) n)

/-- A read of a sector suspends the program that runs in its bank, or else the erase (R489). -/
def State.norRead (s : State) (sector : Nat) : State :=
  let s1 := s.norSettle
  let t := s1.etime
  let b := s1.norBank sector
  let later (d : Nat) (l : List NorErase) : List NorErase := match l with
    | e :: es => { e with since := if t < e.since then e.since + d else e.since } :: es
    | [] => []
  if b.progFrom ≤ t && t < b.progEnd then
    let (d, s2) := s1.norSuspend
    s2.setNorBank sector { b with progEnd := b.progEnd + d, erases := later d b.erases }
  else
    match b.erases with
    | e :: es =>
      if t < e.since then s1
      else
        let (d, s2) := s1.norSuspend
        let e' : NorErase := { e with left := e.since + e.left - t, since := t + d, suspends := e.suspends + 1 }
        s2.setNorBank sector { b with
          progFrom := if t < b.progFrom then b.progFrom + d else b.progFrom
          progEnd := if t < b.progFrom then b.progEnd + d else b.progEnd
          erases := e' :: es }
    | [] => s1

/-- A read of all of the die, as the boot ROM makes it: one in each bank. -/
def State.norReadAll (s : State) : State := (List.range 16).foldl State.norRead s

/-! Writing a log (R488). -/

/-- A record is appended to a copy: programmed where the current sector has room, the other sector being erased once it is full; else it
waits for that erase. -/
def State.norAppend (s : State) (old : NorOld) (c : Nat) : State :=
  let s1 := s.norSettle
  let y := s1.norCopy c
  let erase (t : State) : State :=
    if (t.norBank (t.logOther c)).erases.any fun e => e.sector = t.logOther c then t else t.norErase (t.logOther c)
  if logCap ≤ y.used then erase (s1.setNorCopy c { y with waiting := y.waiting ++ [old] })
  else
    let s2 := (s1.norProgram (s1.logNow c) (4 * y.used) 4).2.setNorCopy c { y with used := y.used + 1 }
    if y.used + 1 = logCap then erase s2 else s2

/-- A value goes to the three copies of log k, one after another; `old` is what it replaces (R444, R488). -/
def State.norLog (s : State) (k : Nat) (old : NorOld) : State := (List.range 3).foldl (fun t j => t.norAppend old (3 * k + j)) s

/-- A setting that is a register is kept in NOR under log k (R487, R488). -/
def State.norSet (s : State) (k key v : Nat) : State :=
  ({ s with nor := { s.nor with settings := kvPut s.nor.settings key v } }).norLog k (.setting key (kvFind s.nor.settings key))

/-! Power loss (R490). -/

/-- A value that no two copies took goes back to the one before (R444, R488). -/
def State.norRevert (s : State) : NorOld → State
  | .setting key old => { s with nor := { s.nor with settings := match old with
      | some v => kvPut s.nor.settings key v
      | none => kvErase s.nor.settings key } }
  | .selector sel att => { s with nor := { s.nor with selectors := sel, attempts := att } }
  | .freq old => { s with tmb := { s.tmb with norLearnt := old } }
  | .fences old => { s with nor := { s.nor with fences := old } }
  | .roots old ro => { s with ftl := { s.ftl with roots := old, readOnly := ro } }

/-- The 54 V input is lost: word programs are completed, every erase in progress is abandoned and its sector left undefined (R490); what
waited for such a sector is lost. -/
def State.norLoss (s : State) : State :=
  let s1 := s.norSettle
  let gone := s1.nor.banks.flatMap fun b => (b.2.erases.take 1).map NorErase.sector
  let s2 := (List.range 8).foldl (fun t k =>
    let ws := ((List.range 3).map fun j => (t.norCopy (3 * k + j)).waiting).filter fun w => !w.isEmpty
    if ws.length < 2 then t else (ws.headD []).reverse.foldl State.norRevert t) s1
  { s2 with nor := { s2.nor with
    banks := [], undef := (s2.nor.undef ++ gone).eraseDups, copies := s2.nor.copies.map fun c => (c.1, { c.2 with waiting := [] }) } }

end Sys2Proof.Machine
end

