-- ==== Sys2Proof/Machine/Timebase.lean ====
section
/-! DEFINITION. The timebase: its states and sources (R58 to R66), the caller and its election (R81, R82), steering, slewing and
stepping (R68, R69), holdover (R63, R64), the PTP clock (R62, R397) and PPS_OUT (R67). -/

namespace Sys2Proof.Machine

/-! TMB_STAT (R59, R91). -/

def stFree : Nat := 0
def stAcquiring : Nat := 1
def stLocked : Nat := 2
def stHoldover : Nat := 3
def stFollowing : Nat := 4

/-- TMB_STAT.STATE. -/
def State.tmbState (s : State) : Nat := s.fld R.TMB_STAT 2 0

/-- TMB_CTL.SRC. -/
def State.tmbSrc (s : State) : Nat := s.fld R.TMB_CTL 2 0

/-- Do measures run? -/
def State.running (s : State) : Bool := s.bit R.MSR_CTL 0

/-- The register code of a signed value of 32 bits, saturating. -/
def sat32 (x : Int) : Nat := toTwos 32 (clampInt (-(2 ^ 31 : Nat)) ((2 ^ 31 : Nat) - 1) x)

/-- `n / d`, rounded one way or the other where the spec gives no rounding (log entry 12). -/
def State.quot (s : State) (n : Int) (d : Nat) : Int × State :=
  if n % d = 0 then (n / d, s)
  else
    let (x, s1) := s.free
    (n / d + (x % 2 : Nat), s1)

/-- Does a source use TREF_10M, PPS_IN, IEEE 1588 (R58)? -/
def srcTref (src : Nat) : Bool := src = 1 || src = 3 || src = 5
def srcPps (src : Nat) : Bool := src = 2 || src = 3
def srcPtp (src : Nat) : Bool := src = 4 || src = 5

/-- Are the signals that SRC selects all valid (R59)? -/
def State.srcValid (s : State) : Bool :=
  let src := s.tmbSrc
  src ≠ 0 && (!srcTref src || s.bit R.TMB_STAT 7) && (!srcPps src || s.bit R.TMB_STAT 8) && (!srcPtp src || s.bit R.TMB_STAT 9)

/-- The learnt frequency goes to its triplicated NOR word (R65). -/
def State.saveFreq (s : State) : State :=
  ({ s with tmb := { s.tmb with norLearnt := some s.tmb.learnt } }).norLog logFreq (.freq s.tmb.norLearnt)

/-- The stretch of lock that the average of HOLDOVER looks back over: 1,000 s, in 1/16 ns (R59). -/
def lockSpan : Nat := 1000 * tickSec

/-- Of a list of what began when, newest first, the part that still held at or after an elapsed time. -/
def stillAt (t : Nat) : List (Nat × Nat) → List (Nat × Nat)
  | [] => []
  | e :: es => if e.1 ≤ t then [e] else e :: stillAt t es

/-- The frequencies used up to an elapsed time and not before another, each weighed with how long it was used, and the time itself. -/
def weighFreq (lo : Nat) : Nat → List (Nat × Nat) → Int × Nat
  | _, [] => (0, 0)
  | hi, (from_, f) :: es =>
    let d := hi - max lo from_
    let (sum, n) := weighFreq lo (max lo from_) es
    (sum + signedOf 32 f * d, n + d)

/-- Is a frequency used in lock: in LOCKED or FOLLOWING (R59)? -/
def State.inLock (s : State) : Bool := s.tmbState = stLocked || s.tmbState = stFollowing

/-- The frequency correction takes a value that the spec leaves open: what steering toward a source or the upstream gives. -/
def State.steerFreq (s : State) : State :=
  let (x, s1) := s.free
  let v := BitVec.ofNat 32 x
  let log := if s.inLock then (s.etime, v.toNat) :: stillAt (s.etime - lockSpan) s.tmb.lockLog else s.tmb.lockLog
  { s1.wr R.TMB_FREQ_ADJ v.toNat with tmb := { s1.tmb with learnt := v, lockLog := log } }

/-- The frequency of FREE: the learnt one of NOR, or the factory value, which is a correction of 0 (R59; log entry 48). -/
def State.freeFreq (s : State) : State := s.wr R.TMB_FREQ_ADJ (s.tmb.norLearnt.getD 0).toNat

/-- The frequency of HOLDOVER: the average over the last 1,000 s of the lock that has ended (R59). -/
def State.averageFreq (s : State) : State :=
  let (sum, n) := weighFreq (s.etime - lockSpan) s.etime s.tmb.lockLog
  if n = 0 then s
  else
    let (f, s1) := s.quot sum n
    s1.wr R.TMB_FREQ_ADJ (toTwos 32 f)

/-- TREF_10M steers the frequency when SRC takes it from there and the timebase acquires or holds its lock (R58, R59). -/
def State.trefSteers (s : State) : State :=
  if srcTref s.tmbSrc && (s.tmbState = stAcquiring || s.tmbState = stLocked) then s.steerFreq else s

/-- What TMB holds of the state it leaves, on entry to another: the log of the lock starts with the frequency of its entry, and a
follower's report of its alignment ends with following. -/
def State.enterState (s : State) (v : Nat) : State :=
  { s with tmb := { s.tmb with
    lockLog := if v = stLocked || v = stFollowing then [(s.etime, s.rd R.TMB_FREQ_ADJ)] else s.tmb.lockLog
    misaligned := s.tmb.misaligned && decide (v = stFollowing)
    okFrom := none } }

/-- A source begins to be acquired: TREF_10M steers at once when it is valid and selected (R58, R59); the 16 s of R61 start when a phase
is measured, or for SRC 1, which has none, with its valid cycles (log entry 48). -/
def State.beginAcquire (s : State) : State :=
  let tref := srcTref s.tmbSrc && s.bit R.TMB_STAT 7
  let s1 : State := { s with tmb := { s.tmb with okFrom := if tref && s.tmbSrc = 1 then some s.etime else none } }
  if tref then s1.steerFreq else s1

/-- A new STATE: the state-change interrupt, the frequency that the state uses, the learnt frequency saved at each entry to HOLDOVER,
the count of holdover error started with the loss of what the lock was to, or ended, and 0x8003 at each entry to LOCKED or FOLLOWING (R59, R64, R65, R90, R91). -/
def State.setTmbState (s : State) (v : Nat) : State :=
  let old := s.tmbState
  if old = v then s
  else
    let s1 := (s.setFld R.TMB_STAT 2 0 v).setIrq pageTmb 4 8
    let s2 := if v = stAcquiring then (s1.enterState v).beginAcquire
      else (if v = stHoldover then s1.saveFreq.averageFreq else if v = stFree then s1.freeFreq else s1).enterState v
    let s3 :=
      if v ≠ stLocked && v ≠ stFollowing && (old = stLocked || old = stFollowing) then
        { s2 with tmb := { s2.tmb with lossAt := some s2.etime, hoAcc := 0, hoSaid := false } }
      else if v = stLocked || v = stFollowing then
        { s2.wr R.TMB_HO_EST 0 with tmb := { s2.tmb with lossAt := none, hoAcc := 0, hoSaid := false } }
      else s2
    if v = stLocked || v = stFollowing then s3.raise pageTmb 0x8003 none 0 0 else s3

/-- The source was lost: from LOCKED or FOLLOWING the timebase enters HOLDOVER with event 0x8001 (R59, R90). In ACQUIRING it stays
ACQUIRING, and the 16 s of R61 start anew: the table of R59 names no other state for it (log entry 48). -/
def State.sourceLost (s : State) : State :=
  if s.inLock then (s.setTmbState stHoldover).raise pageTmb 0x8001 none 0 0
  else { s with tmb := { s.tmb with okFrom := none } }

/-- A source selected and valid is acquired, unless the module follows a caller or is already acquiring or locked (R58, R59). -/
def State.tryAcquire (s : State) : State :=
  if (s.tmbState = stFree || s.tmbState = stHoldover) && s.srcValid then s.setTmbState stAcquiring else s

/-- A reference signal is rejected (R60, R90). -/
def State.rejectRef (s : State) : State := (s.countSat R.TMB_REJECT 1).raise pageTmb 0x8002 none 0 0

/-! Holdover error (R64). -/

/-- The accumulated error in units of 10^-9 of 1/16 ns: 5 parts per billion, or 100 while OVEN_READY is clear. -/
def State.hoError (s : State) : Option Nat :=
  match s.tmb.lossAt with
  | some t => some (s.tmb.hoAcc + (s.etime - t) * (if s.bit R.TMB_STAT 4 then 5 else 100))
  | none => none

/-- The error in whole nanoseconds, never less than the true worst case. -/
def hoNs (e : Nat) : Nat := (e + 15999999999) / 16000000000

/-- TMB_HO_EST as it reads now. -/
def State.hoEst (s : State) : Nat :=
  match s.hoError with
  | some e => min (hoNs e) 0xFFFFFFFF
  | none => s.rd R.TMB_HO_EST

/-! The caller (R81, R82). -/

/-- This module's caller key, 0 when it advertises none. -/
def State.ownKey (s : State) : Nat :=
  let pri := s.fld R.TMB_CTL 15 8
  if !s.bit R.TMB_CTL 4 || pri = 0 then 0
  else (if s.tmbState = stLocked then 2 ^ 31 else 0) + pri * 2 ^ 23 + (4095 - s.fld R.RED_FAB 11 0) * 2 ^ 11

/-- TMB_CALLER for a caller key (R91). -/
def callerReg (key : Nat) : Nat :=
  if key = 0 then 0
  else (4095 - bits key 22 11) + bits key 30 23 * 2 ^ 12 + bits key 31 31 * 2 ^ 20 + 2 ^ 31

/-- The neighbours that are reachable: over a trained link, UP or retraining, that carries its role's traffic (R81, R348, R355). -/
def State.reachable (s : State) : KV Neighbour :=
  s.tmb.neighbours.filter fun e =>
    s.bit (R.LNK_STAT e.1) 3 && (s.fld (R.LNK_STAT e.1) 2 0 = 4 || s.fld (R.LNK_STAT e.1) 2 0 = 6)

/-- The highest key that a neighbour is or knows of: its own, or that of the caller whose time it sends (R81, R83). -/
def Neighbour.best (n : Neighbour) : Nat := max n.key n.caller

/-- The neighbour toward the caller with the fewest hops, the lowest link among equals, over a calibrated link (R82). -/
def State.upstreamOf (s : State) (key : Nat) : Option (Nat × Nat) :=
  (s.reachable.filter fun e => (e.2.key = key || e.2.caller = key) && s.bit (R.TMB_LDLY e.1) 31).foldl (fun acc e =>
    match acc with
    | some (l, h) => if e.2.hops < h then some (e.1, e.2.hops) else some (l, h)
    | none => some (e.1, e.2.hops)) none

/-- A module that was aligned is no longer: ALIGNED clears with event 0x800C and the alignment interrupt (R89, R91). -/
def State.loseAlign (s : State) : State :=
  if s.bit R.TMB_STAT 5 then ((s.setBit R.TMB_STAT 5 false).setIrq pageTmb 7 8).raise pageTmb 0x800C none 0 0 else s

/-- A follower lies out of the bounds of R89: ALIGNED clears, with event 0x800C when this is new, whether it had been aligned or not;
it is reported once until it is aligned again or follows anew (log entry 48). -/
def State.misalign (s : State) : State :=
  if s.tmb.misaligned then s.loseAlign
  else
    let s1 := ((s.setBit R.TMB_STAT 5 false).setIrq pageTmb 7 8).raise pageTmb 0x800C none 0 0
    { s1 with tmb := { s1.tmb with misaligned := true } }

/-- What this module tells the neighbour on a link: its caller key, and toward the links that are not its upstream its hop count (R81,
R82). A module that takes no part tells nothing; a follower with CALLER_PRI 0, which advertises no key, still sends its hop count, with
key 0 (DESIGN CHOICE; log entry 48). -/
def State.advertiseOn (s : State) (l : Nat) : State :=
  if s.bit R.TMB_CTL 4 && (s.ownKey ≠ 0 || s.fld R.TMB_STAT 15 12 < 15) then
    s.emit (.callerKey l s.ownKey (if s.rd R.TMB_UP_LINK = l + 0x80 then none else some (s.fld R.TMB_STAT 15 12)))
  else s

/-- The neighbours on every trained link hear of a change of the key, the hop count or the upstream (R81, R82). -/
def State.advertise (s : State) : State :=
  let now := (s.ownKey, s.fld R.TMB_STAT 15 12, s.rd R.TMB_UP_LINK)
  if now = s.tmb.advert then s
  else ((List.range 32).filter fun l => s.fld (R.LNK_STAT l) 2 0 = 4).foldl (fun t l => t.advertiseOn l)
    { s with tmb := { s.tmb with advert := now } }

/-- The roles of R82 for a caller key: the caller itself, a follower with its upstream, or neither. -/
def State.takeRole (s : State) (key : Nat) : State :=
  let was := s.rd R.TMB_CALLER
  let mine := key ≠ 0 && key = s.ownKey
  let up := if mine then none else s.upstreamOf key
  let hops := if mine then 0 else match up with
    | some (_, h) => min (h + 1) 15
    | none => 15
  let s1 := (s.wr R.TMB_CALLER (callerReg key)).setBit R.TMB_STAT 6 mine
  let s2 := (s1.setFld R.TMB_STAT 15 12 hops).wr R.TMB_UP_LINK (match up with
    | some (l, _) => l + 0x80
    | none => 0)
  if was = callerReg key then s2 else s2.setIrq pageTmb 5 8

/-- The election of R81: the highest key among this module's and its neighbours' is the caller's. A module left without an
upstream no longer follows; one that follows at more than 8 hops is not aligned (R89); the neighbours hear what changed. -/
def State.elect (s : State) : State :=
  let key := if s.bit R.TMB_CTL 4 then s.reachable.foldl (fun a e => max a e.2.best) s.ownKey else 0
  let s1 := s.takeRole key
  let s2 := if s1.tmbState = stFollowing && !s1.bit R.TMB_UP_LINK 7 then s1.loseAlign.sourceLost.tryAcquire else s1
  (if s2.tmbState = stFollowing && 8 < s2.fld R.TMB_STAT 15 12 then s2.misalign else s2).advertise

/-! Steering (R68, R69). -/

/-- DTIME steps by an amount at once. -/
def State.stepTime (s : State) (d : Int) : State :=
  { s with dtime := ((s.dtime : Int) + d).toNat, tmb := { s.tmb with slew := 0, slewCredit := 0 } }

/-- A correction is slewed. -/
def State.slewTime (s : State) (d : Int) : State := { s with tmb := { s.tmb with slew := d, slewCredit := 0 } }

/-- A phase error is corrected: by a step when `may` allows one, RUN is 0, STEP_EN is 1 and the error exceeds 1 µs, else by a
slew; answers whether DTIME stepped (R69). Following, or with a source whose frequency is its phase's, it steers the frequency too
(R58); and it tells since when the error lies within the lock bound, 10 ns with PPS_IN and 50 ns with IEEE 1588 (R61). -/
def State.correct (s : State) (err : Int) (may : Bool) : Bool × State :=
  let s0 := s.wr R.TMB_PHASE_ERR (sat32 err)
  let ok := err.natAbs ≤ (if srcPps s0.tmbSrc then 10 else 50) * tickNs
  let s00 : State := { s0 with tmb := { s0.tmb with okFrom := if ok then some (s0.tmb.okFrom.getD s0.etime) else none } }
  let s1 := if s00.tmbState ≠ stFollowing && srcTref s00.tmbSrc then s00 else s00.steerFreq
  if may && !s.running && s.bit R.TMB_CTL 3 && tickUs < err.natAbs then (true, s1.stepTime (-err))
  else (false, s1.slewTime (-err))

/-! TMB_CTL and TMB_CMD. -/

/-- A value of TMB_CTL: a reserved SRC is dropped with 0x8009 (R58); SRC 0 enters FREE; another SRC is acquired when valid, and
lost when the timebase was LOCKED to the old one; while one is being acquired, it is acquired anew; FABRIC and CALLER_PRI decide the caller anew (R59, R81). A module that follows a
caller uses no source of its own (R58), and so stays FOLLOWING when SRC is written 0, which R59 leaves open (log entry 48). -/
def State.setTmbCtl (s : State) (v : Nat) : State :=
  if 6 ≤ v % 8 then s.raise pageTmb 0x8009 none 0 0
  else
    let old := s.tmbSrc
    let s1 := s.wr R.TMB_CTL v
    let s2 :=
      if s1.tmbState = stFollowing then s1
      else if v % 8 = 0 then s1.setTmbState stFree
      else if v % 8 = old then s1.tryAcquire
      else if s1.tmbState = stLocked then (if s1.srcValid then s1.setTmbState stAcquiring else s1.sourceLost)
      else if s1.tmbState = stAcquiring then s1.beginAcquire
      else s1.tryAcquire
    s2.elect

/-- TMB_CTL_WRITE (R59). -/
def execTmbCtlWrite (c : Client) (v : BitVec 32) (s : State) : Host.Outcome State Fault Refusal :=
  settled (s.command c R.TMB_CTL v.toNat fun t new _ => t.setTmbCtl new)

/-- The DTIME the set registers hold, with FRAC 0 (R92). -/
def State.setValue (s : State) : Nat :=
  dtOf (s.rd R.TMB_SET_SEC_LO + s.rd R.TMB_SET_SEC_HI * 2 ^ 32) (s.rd R.TMB_SET_NS) 0

/-- DTIME is loaded by host software (R65, R68). -/
def State.loadTime (s : State) (t : Nat) : State :=
  ({ s with dtime := t, tmb := { s.tmb with slew := 0, slewCredit := 0 } }).setBit R.TMB_STAT 3 true

/-- A value written to TMB_CMD: a load is refused while measures run (R68, R91). -/
def State.tmbCmd (s : State) (v : Nat) : State :=
  let s1 := if v.testBit 2 then s.saveFreq else s
  if (v.testBit 0 || v.testBit 1) && s1.running then s1.raise pageTmb 0x800E none 0 0
  else
    let s2 := if v.testBit 0 then s1.loadTime s1.setValue else s1
    if v.testBit 1 then { s2 with tmb := { s2.tmb with loadPending := true } } else s2

/-- LOAD_NOW (R92). -/
def execLoadNow (c : Client) (s : State) : Host.Outcome State Fault Refusal :=
  settled (s.command c R.TMB_CMD 1 fun t _ raw => t.tmbCmd raw)

/-- LOAD_AT_PPS (R91). -/
def execLoadAtPps (c : Client) (s : State) : Host.Outcome State Fault Refusal :=
  settled (s.command c R.TMB_CMD 2 fun t _ raw => t.tmbCmd raw)

/-- SAVE_FREQ (R65). -/
def execSaveFreq (c : Client) (s : State) : Host.Outcome State Fault Refusal :=
  settled (s.command c R.TMB_CMD 4 fun t _ raw => t.tmbCmd raw)

/-! PPS_IN and TREF_10M (R57, R60). -/

/-- One more rejected or missing edge in a row: the third declares the source lost (R60). -/
def State.ppsBadEdge (s : State) : State :=
  let n := s.tmb.ppsBad + 1
  let s1 := { s with tmb := { s.tmb with ppsBad := n } }
  if n < 3 then s1
  else
    let s2 := { s1.setBit R.TMB_STAT 8 false with tmb := { s1.tmb with ppsBad := 0, ppsLast := none } }
    if srcPps s2.tmbSrc && s2.tmbState ≠ stFollowing then s2.sourceLost.elect else s2

/-- The error of an edge that marks a whole second: the stamp less the nearest second. -/
def secondError (stamp : Nat) : Int :=
  let r := stamp % tickSec
  if 2 * r ≤ tickSec then r else (r : Int) - tickSec

/-- Is an edge accepted (R60): within ±1 µs of its second when LOCKED to PPS_IN, else 0.9 s to 1.1 s after the last one; the
first edge has no last one and is taken (log entry 13). -/
def State.ppsAccepts (s : State) (stamp : Nat) : Bool :=
  if s.tmbState = stLocked && srcPps s.tmbSrc then (secondError stamp).natAbs ≤ tickUs
  else match s.tmb.ppsLast with
    | some t => t + 14400000000 ≤ s.etime && s.etime ≤ t + 17600000000
    | none => true

/-- The stamp of an accepted edge is kept (R91). -/
def State.stampPps (s : State) (stamp : Nat) : State :=
  let s1 := ((s.wr R.TMB_PPSIN_FRAC (dtFrac stamp)).wr R.TMB_PPSIN_NS (dtNs stamp)).wr R.TMB_PPSIN_SEC_LO (dtSec stamp % 2 ^ 32)
  let s2 := (s1.wr R.TMB_PPSIN_SEC_HI (dtSec stamp / 2 ^ 32)).setBit R.TMB_STAT 8 true
  { s2 with tmb := { s2.tmb with ppsLast := some s2.etime, ppsBad := 0 } }

/-- PPS_IN_EDGE (R57, R60, R69, R91). -/
def execPpsInEdge (stamp : Nat) (s : State) : Host.Outcome State Fault Refusal :=
  settled <|
    let s0 := s.until stamp
    if s0.ppsAccepts stamp then
      let s1 := s0.stampPps stamp
      if s1.tmb.loadPending then
        let s2 := { s1 with tmb := { s1.tmb with loadPending := false } }
        if s2.running then s2.raise pageTmb 0x800E none 0 0
        else (s2.loadTime (s2.setValue + (s0.dtime - stamp))).tryAcquire
      else
        let s2 := s1.tryAcquire
        if srcPps s2.tmbSrc && (s2.tmbState = stAcquiring || s2.tmbState = stLocked) then
          (s2.correct (secondError stamp) (s2.tmbState = stAcquiring)).2
        else s2
    else s0.rejectRef.ppsBadEdge

/-- PPS_IN_EDGE_MISSING (R60). -/
def execPpsInEdgeMissing (s : State) : Host.Outcome State Fault Refusal := settled s.ppsBadEdge

/-- TREF_10M_VALID (R60): cycles appear at an offset of `ppm` parts per million from 10 MHz; they steer the frequency when selected, and an
offset of whole parts per million is beyond the bound of R61 for SRC 1, whose 16 s then start anew, as they do with cycles after a loss. -/
def execTref10mValid (ppm : Int) (s : State) : Host.Outcome State Fault Refusal :=
  settled <|
    if ppm.natAbs ≤ 10 then
      let s1 := (s.setBit R.TMB_STAT 7 true).tryAcquire
      let anew := s1.tmbSrc = 1 && s1.tmbState = stAcquiring && (ppm ≠ 0 || s1.tmb.okFrom.isNone)
      (if anew then { s1 with tmb := { s1.tmb with okFrom := some s1.etime } } else s1).trefSteers
    else s.rejectRef

/-- TREF_10M_LOSS (R60). -/
def execTref10mLoss (s : State) : Host.Outcome State Fault Refusal :=
  settled <|
    let s1 := s.setBit R.TMB_STAT 7 false
    if srcTref s1.tmbSrc && s1.tmbState ≠ stFollowing then s1.sourceLost.elect else s1

/-! IEEE 1588 (R60, R62, R397). -/

/-- The PTP clock replaced. -/
def State.setPtp (s : State) (p : PtpState) : State := { s with tmb := { s.tmb with ptp := p } }

/-- The master of the best rank, the lowest identity among equals (R60). -/
def PtpState.best (p : PtpState) : Option Nat :=
  (p.masters.foldl (fun acc e =>
    match acc with
    | some (m, r) => if e.2 < r then some (e.1, e.2) else some (m, r)
    | none => some (e.1, e.2)) none).map Prod.fst

/-- An offset from the master is measured: one beyond 1 ms is rejected when LOCKED to it, where R60 leaves open whether its offset step
is the offset or its change since the last one (DESIGN CHOICE: the offset, which lock keeps near 0; log entry 48); else it steers when
selected, and gives the seconds once DTIME agrees with it (R58, R60, R65, R69). -/
def State.ptpOffset (s : State) (off : Int) : State :=
  let sel := srcPtp s.tmbSrc && s.tmbState ≠ stFollowing
  if sel && s.tmbState = stLocked && 1000 * tickUs < off.natAbs then s.rejectRef
  else
    let s1 := ((s.wr R.TMB_PTP_OFFS (sat32 off)).setBit R.TMB_STAT 9 true).tryAcquire
    if sel && (s1.tmbState = stAcquiring || s1.tmbState = stLocked) then
      let (stepped, s2) := s1.correct off (s1.tmbState = stAcquiring)
      if stepped || off.natAbs ≤ tickUs then s2.setBit R.TMB_STAT 3 true else s2
    else s1

/-- A Sync whose origin is known gives the offset: arrival less origin less the mean path delay (R62). -/
def State.ptpSync (s : State) (origin arrival : Nat) : State :=
  let p := s.tmb.ptp
  (s.setPtp { p with t1 := some origin, t2 := some arrival }).ptpOffset ((arrival : Int) - origin - p.delay)

/-- Does a PTP message come from the chosen master in the configured domain? -/
def State.fromMaster (s : State) (domain master : Nat) : Bool :=
  domain = s.fld R.TMB_PTP_CTL 7 0 && s.tmb.ptp.best = some master

/-- A PTP message that the port takes counts in SPT_PTP_RX (R400). -/
def State.ptpTaken (s : State) : State := s.count R.SPT_PTP_RX 1

/-- A PTP message on the PTP cage. -/
def State.ptpMessage (s : State) (msg : PtpMessage) : State :=
  let p := s.tmb.ptp
  match msg with
  | .announce domain master rank =>
    if domain = s.fld R.TMB_PTP_CTL 7 0 then
      s.ptpTaken.setPtp { p with masters := kvPut p.masters master rank }
    else s
  | .sync domain master seq twoStep origin arrival =>
    if s.fromMaster domain master then
      let s0 := s.ptpTaken
      let s1 := { s0 with tmb := { s0.tmb with syncBad := 0 } }
      if twoStep then s1.setPtp { p with sync := some (seq, arrival) } else s1.ptpSync origin arrival
    else s.rejectRef
  | .followUp domain master seq origin =>
    if s.fromMaster domain master then
      match p.sync with
      | some (q, arrival) => if q = seq then (s.ptpTaken.setPtp { p with sync := none }).ptpSync origin arrival else s
      | none => s
    else s
  | .delayResp domain master received interval =>
    if s.fromMaster domain master then
      match p.t1, p.t2, p.t3 with
      | some t1, some t2, some t3 =>
        let (d, s1) := s.ptpTaken.quot (((t2 : Int) - t1) + ((received : Int) - t3)) 2
        s1.setPtp { s1.tmb.ptp with delay := d, t3 := none, interval := interval }
      | _, _, _ => s.ptpTaken.setPtp { p with interval := interval }
    else s
  | .other => s.countSat R.SPT_PTP_IGN 1

/-- PTP_MESSAGE_RECEIVE (R397): frames on the other cage or of the transport that TMB_PTP_CTL does not select, and frames that are not of
the four kinds, are counted. -/
def execPtpMessageReceive (cage : CageNo) (frame : PtpFrame) (s : State) : Host.Outcome State Fault Refusal :=
  settled (if cage.val = s.fld R.TMB_PTP_CTL 9 9 && frame.udp = s.bit R.TMB_PTP_CTL 8 then s.ptpMessage frame.msg
    else s.countSat R.SPT_PTP_IGN 1)

/-- Is a Delay_Req ready: a Sync has been taken, and the interval of the last Delay_Resp has passed since the last request (R397)? -/
def State.delayReqReady (s : State) : Bool :=
  let p := s.tmb.ptp
  p.t2.isSome && (match p.sentAt with
    | some t => decide (t + p.interval ≤ s.etime)
    | none => true)

/-- A Delay_Req leaves on the PTP cage now: over UDP/IPv4 from the cage's address to the group's event port, or over IEEE 802.3 (R397). -/
def State.sendDelayReq (s : State) : State :=
  let cage := s.fld R.TMB_PTP_CTL 9 9
  let by_ : PtpCarrier := if s.bit R.TMB_PTP_CTL 8 then .udp (s.rd (if cage = 0 then R.SPT_IP0 else R.SPT_IP1)) 0xE0000181 319
    else .ethernet 0x88F7 0x011B19000000
  (s.setPtp { s.tmb.ptp with t3 := some s.dtime, sentAt := some s.etime }).emit (.delayReq cage s.dtime by_)

/-- DELAY_REQ_SEND (R397): a request that is ready leaves with its departure stamp. -/
def execDelayReqSend (stamp : Nat) (s : State) : Host.Outcome State Fault Refusal :=
  settled <|
    let s1 := s.until stamp
    if s1.delayReqReady then s1.sendDelayReq else s1

/-- PTP_SYNC_TIMEOUT (R60). -/
def execPtpSyncTimeout (s : State) : Host.Outcome State Fault Refusal :=
  settled <|
    let s1 := (s.setBit R.TMB_STAT 9 false).setPtp { s.tmb.ptp with masters := [], sync := none, t1 := none, t2 := none }
    if srcPtp s1.tmbSrc && s1.tmbState ≠ stFollowing then s1.sourceLost.elect else s1

/-! Lock, oven, saving, holdover, PPS_OUT. -/

/-- LOCK_ACHIEVED (R61): the error has stayed within its bound, and time passes to the end of the 16 s; a source that is no longer valid
is lost at once (R59). -/
def execLockAchieved (s : State) : Host.Outcome State Fault Refusal :=
  settled <|
    match s.tmb.okFrom with
    | some t =>
      if s.tmbState = stAcquiring then
        let s1 := ((if s.etime < t + 16 * tickSec then s.elapse (t + 16 * tickSec - s.etime) else s)).setTmbState stLocked
        (if s1.srcValid then s1 else s1.sourceLost).elect
      else s
    | none => s

/-- OVEN_READY (R63): from now on the error grows at 5 parts per billion (R64). -/
def execOvenReady (s : State) : Host.Outcome State Fault Refusal :=
  settled <|
    match s.hoError with
    | some e => { s with tmb := { s.tmb with hoAcc := e, lossAt := some s.etime } }.setBit R.TMB_STAT 4 true
    | none => s.setBit R.TMB_STAT 4 true

/-- LEARNT_FREQUENCY_SAVE (R65). -/
def execLearntFrequencySave (s : State) : Host.Outcome State Fault Refusal :=
  settled (if s.tmbState = stLocked || s.tmbState = stFollowing then s.saveFreq else s)

/-- HOLDOVER_LIMIT_EXCEEDED (R64): time passes to the instant at which the estimate first exceeds the limit. -/
def execHoldoverLimitExceeded (s : State) : Host.Outcome State Fault Refusal :=
  settled <|
    match s.hoError with
    | some e =>
      if s.tmb.hoSaid || (s.tmbState ≠ stFree && s.tmbState ≠ stHoldover) then s
      else
        let need := s.rd R.TMB_HO_LIMIT * 16000000000 + 1
        let rate := if s.bit R.TMB_STAT 4 then 5 else 100
        let s1 := s.elapse ((need - e + rate - 1) / rate)
        (({ s1 with tmb := { s1.tmb with hoSaid := true } }).setIrq pageTmb 6 8).raise pageTmb 0x8004 none 0 0
    | none => s

/-- PPS_OUT_EDGE (R67): the next whole second of DTIME. -/
def execPpsOutEdge (s : State) : Host.Outcome State Fault Refusal :=
  settled <|
    let t := (s.dtime / tickSec + 1) * tickSec
    let s1 := s.until t
    if s1.bit R.TMB_PPS_CTL 31 then s1.emit (.pps t (s1.fld R.TMB_PPS_CTL 18 0)) else s1

end Sys2Proof.Machine
end

