-- ==== Sys2Proof/Machine/Grid.lean ====
section
/-! DEFINITION. The measure grid: instants (R70), period changes (R73), and the time messages and calibrations that carry the
caller's grid over links (R83 to R89). -/

namespace Sys2Proof.Machine

/-- The grid registers: MSR_ORIGIN as DTIME, MSR_ORIGIN_M and MSR_PERIOD in 1/16 ns (R70). -/
def State.origin (s : State) : Nat :=
  dtOf (s.rd R.MSR_ORIGIN_SEC_LO + s.rd R.MSR_ORIGIN_SEC_HI * 2 ^ 32) (s.rd R.MSR_ORIGIN_NS) (s.rd R.MSR_ORIGIN_FRAC)
def State.originM (s : State) : Nat := s.rd R.MSR_ORIGIN_M
def State.period (s : State) : Nat := s.rd R.MSR_PERIOD * tickNs

/-- MSR_LEAD in 1/16 ns (R74). -/
def State.lead (s : State) : Nat := s.rd R.MSR_LEAD * tickCycle

/-- The instant of measure m by the grid registers alone. -/
def State.plainInstant (s : State) (m : Nat) : Nat := s.origin + (m - s.originM) * s.period

/-- The instant of measure m, with a pending change of period (R70, R73). -/
def State.instant (s : State) (m : Nat) : Nat :=
  match s.msr.change with
  | some (c, p) => if c < m then s.plainInstant c + (m - c) * (p * tickNs) else s.plainInstant m
  | none => s.plainInstant m

/-- The smallest measure at or after `lo`, not before MSR_ORIGIN_M, whose instant lies at or after `x`. -/
def State.firstAt (s : State) (lo x : Nat) : Nat :=
  let up (base m p : Nat) : Nat := m + (x - base + p - 1) / max p 1
  let m0 := up s.origin s.originM s.period
  let m1 := match s.msr.change with
    | some (c, p) => if c < m0 then max (c + 1) (up (s.plainInstant c) c (p * tickNs)) else m0
    | none => m0
  max lo (max s.originM m1)

/-- The grid registers are written. -/
def State.setGrid (s : State) (origin m period : Nat) : State :=
  let s1 := ((s.wr R.MSR_ORIGIN_FRAC (dtFrac origin)).wr R.MSR_ORIGIN_NS (dtNs origin)).wr R.MSR_ORIGIN_SEC_LO
    (dtSec origin % 2 ^ 32)
  ((s1.wr R.MSR_ORIGIN_SEC_HI (dtSec origin / 2 ^ 32 % 65536)).wr R.MSR_ORIGIN_M m).wr R.MSR_PERIOD period

/-- The pending change takes effect at its measure: the three registers take it in one cycle (R73). -/
def State.applyChange (s : State) : State :=
  match s.msr.change with
  | some (c, p) => { s.setGrid (s.plainInstant c) c p with msr := { s.msr with change := none } }
  | none => s

/-- Has the announce of measure m been issued? -/
def State.announcedM (s : State) (m : Nat) : Bool := s.msr.announced.any fun r => decide (r.1 ≤ m) && decide (m ≤ r.2)

/-- The ranges of the announced measures with one more. -/
def announceMore (m : Nat) : List (Nat × Nat) → List (Nat × Nat)
  | (a, b) :: rs => if b + 1 = m then (a, m) :: rs else (m, m) :: (a, b) :: rs
  | [] => [(m, m)]

/-- Has measure m been announced, or do measures run and have they started beyond it? -/
def State.pastAnnounce (s : State) (m : Nat) : Bool := s.announcedM m || (s.running && decide (m < s.msr.nextM))

/-- A period change is submitted or refused; I(MSR_CHANGE_AT) is computed with the period in force, since the change replaces one that
is pending (R73, R84). -/
def State.submitChange (s : State) (at_ : Nat) : State :=
  if s.tmbState = stFollowing then s.raise pageMsr 0x800D none 0 0
  else
    let p := s.rd R.MSR_NEXT_PERIOD
    let late := match s.msr.change with
      | some (c, _) => s.announcedM (c + 1)
      | none => false
    if p < 250 || 1000000000 < p || at_ < s.rd R.MSR_NOW + 2 || s.announcedM (at_ + 1) || late ||
        (s.bit R.TMB_STAT 6 && s.plainInstant at_ < s.dtime + 10000 * tickUs) then
      s.raise pageMsr 0x8009 none 0 0
    else { s.wr R.MSR_CHANGE_AT at_ with msr := { s.msr with change := some (at_, p) } }

/-- PERIOD_CHANGE_SUBMIT (R73). -/
def execPeriodChangeSubmit (c : Client) (at_ : BitVec 64) (s : State) : Host.Outcome State Fault Refusal :=
  settled (s.command c R.MSR_CHANGE_AT at_.toNat fun t new _ => t.submitChange new)

/-! Time messages (R83 to R86, R88, R89). -/

/-- The time message this module sends, departing now (R83). -/
def State.timeMessage (s : State) : TimeMessage :=
  ⟨s.dtime, s.origin, s.originM, s.rd R.MSR_PERIOD, s.msr.change,
    BitVec.ofNat 32 (if s.bit R.TMB_STAT 6 then s.ownKey
      else s.reachable.foldl (fun a e => max a e.2.best) 0),
    s.fld R.TMB_STAT 15 12⟩

/-- A time message leaves on a link, stamped as it does. -/
def State.sendTime (s : State) (link : Nat) (m : TimeMessage) : State := s.sendStamped link (.time m) (.timeMessage link m)

/-- TIME_MESSAGE_SEND (R83): the caller sends on a link that is UP. -/
def execTimeMessageSend (link : LinkNo) (s : State) : Host.Outcome State Fault Refusal :=
  settled (if s.bit R.TMB_STAT 6 then s.sendTime link s.timeMessage else s)

/-- What is known of the neighbour on a link, and what it said last; one that has no key and follows no caller is none (R81, R82). -/
def State.knownOf (s : State) (link : Nat) : Neighbour := kvGet ⟨0, 0, 15⟩ s.tmb.neighbours link
def State.heard (s : State) (link : Nat) (n : Neighbour) : State :=
  let ns := if n.best = 0 then kvErase s.tmb.neighbours link else kvPut s.tmb.neighbours link n
  ({ s with tmb := { s.tmb with neighbours := ns } }).elect

/-- Do this module's running grid and a message's differ: in period, or in origin by more than one period (R86)? A change
already pending here at the message's origin is the same grid. -/
def State.gridDiffers (s : State) (m : TimeMessage) : Bool :=
  let same := match s.msr.change with
    | some (c, p) => c = m.originM && p = m.period
    | none => false
  !same && (m.period ≠ s.rd R.MSR_PERIOD ||
    s.period < ((m.origin : Int) - ((s.origin : Int) + ((m.originM : Int) - s.originM) * s.period)).natAbs)

/-- The caller's grid is copied, with any pending change (R84); a running grid that differs is kept, with event 0x800C, until
the measures are stopped (R86). On a grid of other numbers only the measures that still wait for their strike are announced. -/
def State.copyGrid (s : State) (m : TimeMessage) : State :=
  if s.tmb.ownGrid then s
  else if s.running && s.gridDiffers m then
    (({ s with tmb := { s.tmb with ownGrid := true, misaligned := true } }).setBit R.TMB_STAT 5 false).setIrq pageTmb 7 8 |>.raise pageTmb 0x800C
      none 0 0
  else
    let pending := match s.msr.change with
      | some (c, p) => s.running && c = m.originM && p = m.period
      | none => false
    if pending then s
    else
      let known := if s.gridDiffers m then s.msr.queue.map fun a => (a.m, a.m) else s.msr.announced
      { s.setGrid m.origin m.originM m.period with msr := { s.msr with change := m.change, announced := known } }

/-- ALIGNED follows the measured offset: 250 ps, which is 4 units, and 8 hops (R89). -/
def State.alignBy (s : State) (off : Int) : State :=
  if off.natAbs ≤ 4 && s.fld R.TMB_STAT 15 12 ≤ 8 && !s.tmb.ownGrid then
    { s with tmb := { s.tmb with misaligned := false } }.setBit R.TMB_STAT 5 true
  else s.misalign

/-- The offset to the upstream: arrival less departure and inbound delay, which is the mean delay less half the asymmetry
(R88). -/
def State.upOffset (s : State) (link departure arrival : Nat) : Int × State :=
  let d := s.fld (R.TMB_LDLY link) 23 0
  s.quot (2 * ((arrival : Int) - departure - d) + signedOf 16 (s.rd (R.TMB_LASYM link))) 2

/-- Each follower forwards the message downstream with its own departure stamp and hop count (R83). -/
def State.forwardTime (s : State) (link : Nat) (m : TimeMessage) : State :=
  ((List.range 32).filter fun l => l ≠ link).foldl (fun t l =>
    t.sendTime l { m with departure := t.dtime, hops := t.fld R.TMB_STAT 15 12 }) s

/-- A time message from the upstream: the module follows, sets its phase, copies the grid and forwards. A follower reaches its caller by
slewing; the step of R69 belongs to ACQUIRING, which it leaves (R84 to R86, R88; log entry 48). -/
def State.follow (s : State) (link : Nat) (m : TimeMessage) (arrival : Nat) : State :=
  let (off, s1) := s.upOffset link m.departure arrival
  let (_, s2) := (s1.setTmbState stFollowing).correct off false
  ((s2.copyGrid m).alignBy off).forwardTime link m

/-- TIME_MESSAGE_RECEIVE (R83, R84, R88): a retried message is discarded; one on another link than the upstream only says what
the neighbour knows of the caller. -/
def execTimeMessageReceive (link : LinkNo) (msg : TimeMessage) (arrival : Nat) (retried : Bool) (s : State) :
    Host.Outcome State Fault Refusal :=
  settled <|
    let s0 := s.until arrival
    if retried then s0.countSat R.TMB_DISCARD 1
    else if !s0.bit R.TMB_CTL 4 then s0
    else
      let s1 := s0.heard link { s0.knownOf link with caller := msg.key.toNat, hops := msg.hops }
      if s1.rd R.TMB_UP_LINK = link.val + 0x80 then s1.follow link msg arrival else s1

/-- CALLER_KEY_ADVERTISE (R81, R82). -/
def execCallerKeyAdvertise (link : LinkNo) (key : BitVec 32) (hops : Nat) (s : State) : Host.Outcome State Fault Refusal :=
  settled (s.heard link { s.knownOf link with key := key.toNat, hops := hops })

/-- UPSTREAM_LOSS (R85): HOLDOVER, 0x8001 and 0x800B, and a new choice of upstream or caller; a module that is left without an upstream
takes its own source, when it has a valid one (R58, R59). -/
def execUpstreamLoss (s : State) : Host.Outcome State Fault Refusal :=
  settled <|
    if s.tmbState = stFollowing && s.bit R.TMB_UP_LINK 7 then
      let l := s.fld R.TMB_UP_LINK 4 0
      let s1 := s.sourceLost.raise pageTmb 0x800B none 0 0
      let s2 := { s1 with tmb := { s1.tmb with neighbours := kvErase s1.tmb.neighbours l } }
      let s3 := s2.elect.loseAlign
      if s3.bit R.TMB_UP_LINK 7 then s3 else s3.tryAcquire
    else s

/-! Calibration (R87). -/

/-- Twice the one-way delay of a sample. -/
def CalSample.twice (x : CalSample) : Int := ((x.t4 : Int) - x.t1) - ((x.t3 : Int) - x.t2)

/-- A list of integers put in order. -/
def insertInt (x : Int) : List Int → List Int
  | [] => [x]
  | y :: ys => if x ≤ y then x :: y :: ys else y :: insertInt x ys
def sortInts : List Int → List Int
  | [] => []
  | x :: xs => insertInt x (sortInts xs)

/-- Four times the median of the delays whose doubles, in order, are given. -/
def medianTwice (xs : List Int) : Int :=
  let n := xs.length
  xs.getD (n / 2) 0 + xs.getD ((n - 1) / 2) 0

/-- The exchanges of a calibration give the delay of a link, or fail it (R87). -/
def State.calibrate (s : State) (link exch : Nat) (samples : List CalSample) : State :=
  let good := sortInts (((samples.take exch).filter fun x => !x.retried).map CalSample.twice)
  let span := good.getD (good.length - 1) 0 - good.getD 0 0
  if 2 * good.length < exch || 8 < span then
    ((s.setBit (R.TMB_LDLY link) 31 false).raise pageTmb 0x800A none link 0).elect
  else
    let (d, s1) := s.quot (medianTwice good) 4
    (s1.wr (R.TMB_LDLY link) (d.toNat % 2 ^ 24 + 2 ^ 31)).elect

/-- A request leaves on a link, stamped as it does, when the link lets it. -/
def State.sendCal (s : State) (link : Nat) (leg : CalLeg) (o : Output) : State := s.sendStamped link (.cal leg) o

/-- The exchanges that a follower makes on a link: each request departs when DTIME reads t1, or at once when it is past that, and time
passes to the arrival of its reply at t4; one whose request the link does not let go is none (R57, R87). -/
def State.exchanges (s : State) (link : Nat) : List CalSample → List CalSample × State
  | [] => ([], s)
  | x :: xs =>
    let s1 := s.until x.t1
    if !s1.maySendNow link (.cal (.request s1.dtime)) then s1.exchanges link xs
    else
      let s2 := (s1.sendCal link (.request s1.dtime) (.calRequest link s1.dtime)).until x.t4
      let (ys, s3) := s2.exchanges link xs
      ({ x with t1 := s1.dtime, t4 := s2.dtime } :: ys, s3)

/-- LINK_CALIBRATION (R87): the exchanges whose replies have arrived as messages of their own count first, and for the rest the
follower sends a request at each t1, `samples` saying how it fared. A module that takes no part, and a link that is neither UP nor in
STANDBY, calibrate nothing (R81, R348). -/
def execLinkCalibration (link : LinkNo) (samples : List CalSample) (s : State) : Host.Outcome State Fault Refusal :=
  settled <|
    if !s.bit R.TMB_CTL 4 || (s.linkState link ≠ lkUp && s.linkState link ≠ lkStandby) then s
    else
      let exch := s.fld R.TMB_CAL_CTL 23 16
      let had := kvGet [] s.tmb.calReplies link
      let (own, s1) := s.exchanges link (samples.take (exch - had.length))
      { s1 with tmb := { s1.tmb with calReplies := kvErase s1.tmb.calReplies link } }.calibrate link exch (had ++ own)

/-- CAL_MESSAGE_RECEIVE (R87): a request is answered with its arrival and the reply's departure; a reply completes an exchange with its
arrival as t4. -/
def execCalMessageReceive (link : LinkNo) (leg : CalLeg) (arrival : Nat) (retried : Bool) (s : State) :
    Host.Outcome State Fault Refusal :=
  settled <|
    let s0 := s.until arrival
    let keep (x : CalSample) : State :=
      { s0 with tmb := { s0.tmb with calReplies := kvPut s0.tmb.calReplies link (kvGet [] s0.tmb.calReplies link ++ [x]) } }
    if retried then
      (match leg with
        | .request _ => s0
        | .reply t1 t2 t3 => keep ⟨t1, t2, t3, arrival, true⟩).countSat R.TMB_DISCARD 1
    else match leg with
      | .request t1 => s0.sendCal link (.reply t1 arrival s0.dtime) (.calReply link t1 arrival s0.dtime)
      | .reply t1 t2 t3 => keep ⟨t1, t2, t3, arrival, false⟩

end Sys2Proof.Machine
end

