-- ==== Sys2Proof/Machine/Arith.lean ====
section
/-! DEFINITION. Exact arithmetic of lanes, Trim units, Collators and RED: numbers as sign, magnitude and power of two, one
rounding to nearest with ties away from zero, and the special values (R109 to R115, R129, R565). -/

namespace Sys2Proof.Machine

/-- A number as R110 reads it: a NaN, an infinity, or a signed magnitude m × 2^e, whose zeros keep their sign. -/
inductive Num where
  | nan
  | inf (neg : Bool)
  | fin (neg : Bool) (m : Nat) (e : Int)
  deriving DecidableEq, Repr

/-- The canonical NaN of fp32 (R110). -/
def nan32 : BitVec 32 := 0x7FC00000

/-- fp32 one. -/
def one32 : BitVec 32 := 0x3F800000

/-- An fp32 operand: an exponent field of zero reads as zero of its sign (R110). -/
def num32 (w : BitVec 32) : Num :=
  let v := w.toNat
  let neg := v.testBit 31
  let ex : Nat := v / 2 ^ 23 % 256
  let f : Nat := v % 2 ^ 23
  if ex = 255 then (if f = 0 then .inf neg else .nan)
  else if ex = 0 then .fin neg 0 0
  else .fin neg (2 ^ 23 + f) (ex - 150 : Int)

/-- A bf16 operand. -/
def num16 (v : Nat) : Num := num32 (BitVec.ofNat 32 (v % 65536 * 65536))

/-- An integer; 0 converts to +0 (R110). -/
def numInt (i : Int) : Num := .fin (decide (i < 0)) i.natAbs 0

/-- The magnitude m × 2^e rounded to `prec` significant bits, ties away from zero, with an unbounded exponent: the significand
and its power of two. -/
def roundSig (prec m : Nat) (e : Int) : Nat × Int :=
  let l := Nat.log2 m
  if l < prec then (m * 2 ^ (prec - 1 - l), e - (prec - 1 - l : Nat))
  else
    let k := l + 1 - prec
    let q := (m + 2 ^ (k - 1)) / 2 ^ k
    if q = 2 ^ prec then (2 ^ (prec - 1), e + k + 1) else (q, e + k)

/-- The fp32 code without its sign of a magnitude, with the range rules of R110; `prec` is 24, or 8 for bf16 precision. -/
def packMag (prec m : Nat) (e : Int) : Nat :=
  if m = 0 then 0
  else
    let (q, k) := roundSig prec m e
    let top := k + (prec - 1 : Nat)
    if top < -126 then 0
    else if 128 ≤ top then 0x7F800000
    else (top + 127).toNat * 2 ^ 23 + (q - 2 ^ (prec - 1)) * 2 ^ (24 - prec)

/-- A number rounded to fp32, or to bf16 in the upper half of an fp32 word. -/
def Num.pack (x : Num) (prec : Nat) : BitVec 32 :=
  match x with
  | .nan => nan32
  | .inf neg => BitVec.ofNat 32 (0x7F800000 + (if neg then 2 ^ 31 else 0))
  | .fin neg m e => BitVec.ofNat 32 (packMag prec m e + (if neg then 2 ^ 31 else 0))

/-- A number rounded once to fp32 (R110). -/
def Num.to32 (x : Num) : BitVec 32 := x.pack 24

/-- Is a number a NaN or an infinity? -/
def Num.special : Num → Bool
  | .fin _ _ _ => false
  | _ => true

/-- The exact product of two numbers (R110). -/
def Num.mul : Num → Num → Num
  | .nan, _ => .nan
  | _, .nan => .nan
  | .inf a, .inf b => .inf (a != b)
  | .inf a, .fin b m _ => if m = 0 then .nan else .inf (a != b)
  | .fin a m _, .inf b => if m = 0 then .nan else .inf (a != b)
  | .fin a m e, .fin b n k => .fin (a != b) (m * n) (e + k)

/-- Negation. -/
def Num.neg : Num → Num
  | .nan => .nan
  | .inf a => .inf (!a)
  | .fin a m e => .fin (!a) m e

/-- A finite number in units of 2^k, when k is not above its power of two. -/
def Num.units (k : Int) : Num → Int
  | .fin a m e => let v : Int := (m * 2 ^ (e - k).toNat : Nat); if a then -v else v
  | _ => 0

/-- A signed sum in units of 2^k. -/
def ofUnits (i k : Int) : Num := .fin (decide (i < 0)) i.natAbs k

/-- The power of two of a finite number that is not zero. -/
def Num.low : Num → Option Int
  | .fin _ m e => if m = 0 then none else some e
  | _ => none

/-- floor(log2 of the magnitude) of a finite number that is not zero. -/
def Num.top : Num → Option Int
  | .fin _ m e => if m = 0 then none else some (e + Nat.log2 m)
  | _ => none

/-- Is it a negative zero, or a negative number? -/
def Num.isNeg : Num → Bool
  | .nan => false
  | .inf a => a
  | .fin a _ _ => a

/-- The special terms of a sum: NaN, or infinities of one sign (R110); none when every term is finite. -/
def sumSpecial (xs : List Num) : Option Num :=
  if xs.any (fun x => x = .nan) then some .nan
  else if xs.any (fun x => x = .inf false) && xs.any (fun x => x = .inf true) then some .nan
  else if xs.any (fun x => x = .inf false) then some (.inf false)
  else if xs.any (fun x => x = .inf true) then some (.inf true)
  else none

/-- A zero sum is +0, unless every term is −0 (R110). -/
def zeroSum (xs : List Num) : Num := .fin (xs.all Num.isNeg) 0 0

/-- The exact sum of numbers (R110). -/
def sumNum (xs : List Num) : Num :=
  match sumSpecial xs with
  | some x => x
  | none =>
    let lows := xs.filterMap Num.low
    let k := lows.foldl min (lows.headD 0)
    let t := xs.foldl (fun a x => a + x.units k) 0
    if t = 0 then zeroSum xs else ofUnits t k

/-- A magnitude m × 2^e in units of 2^k, rounded ties away from zero. -/
def roundUnits (k : Int) (m : Nat) (e : Int) : Nat :=
  if k ≤ e then m * 2 ^ (e - k).toNat
  else
    let d := (k - e).toNat
    (m + 2 ^ (d - 1)) / 2 ^ d

/-- A number rounded to an integer, ties away from zero (R113). -/
def Num.toInt : Num → Int
  | .fin a m e => let v : Int := (roundUnits 0 m e : Nat); if a then -v else v
  | _ => 0

/-- The sum of the bf16 terms of a lane and cycle: each in a fixed-point word whose least bit weighs 2^(E − 48), E the largest
exponent, added exactly and rounded once (R109). -/
def dotSum (xs : List Num) : Num :=
  match sumSpecial xs with
  | some x => x
  | none =>
    match xs.filterMap Num.top with
    | [] => zeroSum xs
    | t :: ts =>
      let k := ts.foldl max t - 48
      let sum := xs.foldl (fun a x => match x with
        | .fin n m e => let v : Int := (roundUnits k m e : Nat); a + (if n then -v else v)
        | _ => a) 0
      if sum = 0 then zeroSum xs else ofUnits sum k

/-- The numbers' order, for finite numbers and infinities; −0 and +0 are equal. -/
def Num.lt (a b : Num) : Bool :=
  match a, b with
  | .nan, _ => false
  | _, .nan => false
  | .inf n, .inf n' => n && !n'
  | .inf n, _ => n
  | _, .inf n => !n
  | .fin _ _ e, .fin _ _ k => let u := min e k; decide (a.units u < b.units u)

/-! Functions of R114, correctly rounded: bounds of the exact value as fractions, narrowed until both round alike. -/

/-- The quotient n / d × 2^e rounded to fp32 without its sign. -/
def packQuot (n d : Nat) (e : Int) : Nat :=
  if n = 0 then 0
  else
    let k := Nat.log2 d + 40
    let q := n * 2 ^ k / d
    let r := n * 2 ^ k % d
    packMag 24 (2 * q + (if r = 0 then 0 else 1)) (e - k - 1)

/-- floor(sqrt n) by bits from bit b down. -/
def sqrtBits (n : Nat) : Nat → Nat → Nat
  | 0, r => r
  | b + 1, r => let t := r + 2 ^ b; sqrtBits n b (if t * t ≤ n then t else r)

/-- floor(sqrt n). -/
def sqrtNat (n : Nat) : Nat := sqrtBits n (Nat.log2 n / 2 + 1) 0

/-- The sum of r^k / k! for k from `k`, in fixed point with P fraction bits: terms from `term` on. -/
def expTerms (P r : Nat) : Nat → Nat → Nat → Nat
  | 0, _, _ => 0
  | n + 1, k, term => term + expTerms P r n (k + 1) (term * r / (2 ^ P * k))

/-- exp r for r below 1, in fixed point. -/
def expFx (P r : Nat) : Nat := expTerms P r (P / 2) 1 (2 ^ P)

/-- The sum of t^(2k+1) / (2k + 1), in fixed point. -/
def atanhTerms (P sq : Nat) : Nat → Nat → Nat → Nat
  | 0, _, _ => 0
  | n + 1, k, pow => pow / k + atanhTerms P sq n (k + 2) (pow * sq / 2 ^ P)

/-- atanh (a / b) for a / b at most 1/3, in fixed point. -/
def atanhFx (P a b : Nat) : Nat :=
  let t := a * 2 ^ P / b
  atanhTerms P (t * t / 2 ^ P) (P / 2) 1 t

/-- ln 2 in fixed point. -/
def ln2Fx (P : Nat) : Nat := 2 * atanhFx P 1 3

/-- A bound on the error of these fixed-point sums, in units of the last place. -/
def fxSlack : Nat := 2 ^ 14

/-- exp y for y = m × 2^e: lower and upper bounds in fixed point, and a power of two. -/
def expBounds (P m : Nat) (e : Int) : Nat × Nat × Nat :=
  let y := if 0 ≤ e + P then m * 2 ^ (e + P).toNat else m / 2 ^ (-(e + P)).toNat
  let l := ln2Fx P
  let n := y / l
  let v := expFx P (y - n * l)
  (v - fxSlack, v + fxSlack, n)

/-- Try bounds of growing precision until both round alike. -/
def narrow (f : Nat → Nat × Nat) : List Nat → Nat
  | [] => 0
  | [p] => (f p).1
  | p :: ps => let b := f p; if b.1 = b.2 then b.1 else narrow f ps

/-- The precisions tried. -/
def precisions : List Nat := [160, 320, 640]

/-- 2^x for x finite and not zero (R114). -/
def exp2Mag (neg : Bool) (m : Nat) (e : Int) : Nat :=
  if 0 ≤ e then
    (if 256 ≤ m * 2 ^ e.toNat then (if neg then 0 else 0x7F800000)
     else packMag 24 1 (if neg then -(m * 2 ^ e.toNat : Nat) else (m * 2 ^ e.toNat : Nat)))
  else
    let d := (-e).toNat
    let whole := m / 2 ^ d
    if 256 ≤ whole then (if neg then 0 else 0x7F800000)
    else
      let frac := m % 2 ^ d
      let n : Int := if neg then (if frac = 0 then -(whole : Int) else -(whole : Int) - 1) else whole
      let f := if frac = 0 then 0 else if neg then 2 ^ d - frac else frac
      if f = 0 then packMag 24 1 n
      else narrow (fun P =>
        let r := f * 2 ^ P / 2 ^ d * ln2Fx P / 2 ^ P
        let v := expFx P r
        (packMag 24 (v - fxSlack) (n - P), packMag 24 (v + fxSlack) (n - P))) precisions

/-- log2 of m × 2^e, as sign and magnitude code. -/
def log2Num (m : Nat) (e : Int) : BitVec 32 :=
  let l := Nat.log2 m
  let k := e + l
  if m = 2 ^ l then (numInt k).to32
  else
    -- log2 = k + ln (m / 2^l) / ln 2
    let bound (P : Nat) (up : Bool) : Num :=
      let a := 2 * atanhFx P (m - 2 ^ l) (m + 2 ^ l)
      let d := ln2Fx P
      let q := if up then (a + fxSlack) * 2 ^ P / (d - fxSlack) + 1 else (a - fxSlack) * 2 ^ P / (d + fxSlack)
      ofUnits (k * (2 ^ P : Nat) + q) (-(P : Int))
    BitVec.ofNat 32 (narrow (fun P => ((bound P false).to32.toNat, (bound P true).to32.toNat)) precisions)

/-- 1 / (1 + exp y) or exp y / (1 + exp y) for y = m × 2^e at least 0, times c × 2^x, without sign. -/
def logistic (m : Nat) (e : Int) (up : Bool) (c : Nat) (x : Int) : Nat :=
  narrow (fun P =>
    let (lo, hi, n) := expBounds P m e
    let one := 2 ^ P
    let el := lo * 2 ^ n
    let eh := hi * 2 ^ n
    if up then (packQuot (c * el) (one + el) x, packQuot (c * eh) (one + eh) x)
    else (packQuot (c * one) (one + eh) x, packQuot (c * one) (one + el) x)) precisions

/-- tanh of m × 2^e, without sign. -/
def tanhMag (m : Nat) (e : Int) : Nat :=
  narrow (fun P =>
    let (lo, hi, n) := expBounds P (2 * m) e
    let one := 2 ^ P
    let el := lo * 2 ^ n
    let eh := hi * 2 ^ n
    (packQuot (el - one) (el + one) 0, packQuot (eh - one) (eh + one) 0)) precisions

/-- A signed code. -/
def signed32 (neg : Bool) (v : Nat) : BitVec 32 := BitVec.ofNat 32 (v + (if neg then 2 ^ 31 else 0))

/-- Is the magnitude m × 2^e below 2^k? -/
def below (m : Nat) (e k : Int) : Bool := decide (e + Nat.log2 m < k)

/-- RCP (R114, R565). -/
def rcp32 (w : BitVec 32) : BitVec 32 :=
  match num32 w with
  | .nan => nan32
  | .inf n => signed32 n 0
  | .fin n m e => if m = 0 then signed32 n 0x7F800000 else signed32 n (packQuot 1 m (-e))

/-- RSQRT (R114, R565). -/
def rsqrt32 (w : BitVec 32) : BitVec 32 :=
  match num32 w with
  | .nan => nan32
  | .inf n => if n then nan32 else 0
  | .fin n m e =>
    if m = 0 then signed32 n 0x7F800000
    else if n then nan32
    else
      let (m', e') := if e % 2 = 0 then (m, e) else (2 * m, e - 1)
      -- 1 / sqrt m' = sqrt (2^(2k) / m') / 2^k
      let k := Nat.log2 m' / 2 + 45
      let q := sqrtNat (2 ^ (2 * k) / m')
      let exact := q * q * m' = 2 ^ (2 * k)
      BitVec.ofNat 32 (packMag 24 (2 * q + (if exact then 0 else 1)) (-(e' / 2) - k - 1))

/-- EXP2 (R114, R565). -/
def exp232 (w : BitVec 32) : BitVec 32 :=
  match num32 w with
  | .nan => nan32
  | .inf n => if n then 0 else 0x7F800000
  | .fin n m e => if m = 0 then one32 else BitVec.ofNat 32 (exp2Mag n m e)

/-- LOG2 (R114, R565). -/
def log232 (w : BitVec 32) : BitVec 32 :=
  match num32 w with
  | .nan => nan32
  | .inf n => if n then nan32 else 0x7F800000
  | .fin n m e => if m = 0 then 0xFF800000 else if n then nan32 else log2Num m e

/-- TANH (R114, R565): below 2^-13 the value rounds to its operand, from 16 on to 1. -/
def tanh32 (w : BitVec 32) : BitVec 32 :=
  match num32 w with
  | .nan => nan32
  | .inf n => signed32 n 0x3F800000
  | .fin n m e =>
    if m = 0 then signed32 n 0
    else if below m e (-13) then w
    else if below m e 4 then signed32 n (tanhMag m e)
    else signed32 n 0x3F800000

/-- SIGMOID (R114, R565): below 2^-26 the value rounds to 0.5, from 32 on to 1, and below −128 to 0. -/
def sigmoid32 (w : BitVec 32) : BitVec 32 :=
  match num32 w with
  | .nan => nan32
  | .inf n => if n then 0 else one32
  | .fin n m e =>
    if m = 0 || below m e (-26) then 0x3F000000
    else if !n && !below m e 5 then one32
    else if n && !below m e 7 then 0
    else BitVec.ofNat 32 (logistic m e (!n) 1 0)

/-- SILU (R114, R565): below 2^-30 the value rounds to half its operand, from 32 on to its operand, and below −256 to −0. -/
def silu32 (w : BitVec 32) : BitVec 32 :=
  match num32 w with
  | .nan => nan32
  | .inf n => if n then 0x80000000 else 0x7F800000
  | .fin n m e =>
    if m = 0 then signed32 n 0
    else if below m e (-30) then signed32 n (packMag 24 m (e - 1))
    else if !n && !below m e 5 then w
    else if n && !below m e 8 then signed32 true 0
    else signed32 n (logistic m e (!n) m e)

/-! Exact operations of R114. -/

/-- ADD, MUL, FMA: one rounding. -/
def add32 (a b : BitVec 32) : BitVec 32 := (sumNum [num32 a, num32 b]).to32
def sub32 (a b : BitVec 32) : BitVec 32 := (sumNum [num32 a, (num32 b).neg]).to32
def mul32 (a b : BitVec 32) : BitVec 32 := ((num32 a).mul (num32 b)).to32
def fma32 (a b c : BitVec 32) : BitVec 32 := (sumNum [(num32 a).mul (num32 b), num32 c]).to32

/-- MAX and MIN (R565). -/
def max32 (a b : BitVec 32) : BitVec 32 :=
  let x := num32 a
  let y := num32 b
  if x = .nan || y = .nan then nan32
  else if x.lt y then y.to32
  else if y.lt x then x.to32
  else if x.isNeg then y.to32 else x.to32
def min32 (a b : BitVec 32) : BitVec 32 :=
  let x := num32 a
  let y := num32 b
  if x = .nan || y = .nan then nan32
  else if x.lt y then x.to32
  else if y.lt x then y.to32
  else if x.isNeg then x.to32 else y.to32

/-- Does a value satisfy a relation with 0 (R565)? A NaN satisfies none. -/
def relZero (rel : CmpRel) (c : Num) : Bool :=
  let z : Num := .fin false 0 0
  if c = .nan then false
  else match rel with
    | .gt => z.lt c
    | .ge => !c.lt z
    | .lt => c.lt z
    | .le => !z.lt c
    | .eq => !c.lt z && !z.lt c
    | .ne => c.lt z || z.lt c

/-- CMPSEL (R565). -/
def cmpsel32 (rel : CmpRel) (c a b : BitVec 32) : BitVec 32 := if relZero rel (num32 c) then (num32 a).to32 else (num32 b).to32

/-- SCALE: the exact product of a sum and two scales, rounded once (R112). -/
def scale32 (sum : Int) (sl at_ : BitVec 32) : BitVec 32 := (((numInt sum).mul (num32 sl)).mul (num32 at_)).to32

/-- REQ8 (R113): the int8 result. -/
def req8 (x r : BitVec 32) : Int :=
  match (num32 x).mul (num32 r) with
  | .nan => 0
  | .inf n => if n then -127 else 127
  | y => clampInt (-127) 127 y.toInt

/-- REQ32 (R113). -/
def req32 (x : BitVec 32) : Int :=
  match num32 x with
  | .nan => 0
  | .inf n => if n then -2147483648 else 2147483647
  | y => clampInt (-2147483648) 2147483647 y.toInt

/-- TOBF16 (R113): the bf16 code. -/
def tobf16 (x : BitVec 32) : Nat := ((num32 x).pack 8).toNat / 65536

/-- TOFP32 (R113). -/
def fromInt8 (v : Nat) : BitVec 32 := (numInt (signedOf 8 v)).to32
def fromBf16 (v : Nat) : BitVec 32 := (num16 v).to32

/-- One level of the pairwise tree of SUM64; an element without a partner passes up (R115). -/
def sumPairs : List (BitVec 32) → List (BitVec 32)
  | a :: b :: xs => add32 a b :: sumPairs xs
  | xs => xs

/-- SUM64 of up to 64 elements; the missing ones hold −0 (R115). -/
def sum64 (xs : List (BitVec 32)) : BitVec 32 :=
  let full := xs ++ List.replicate (64 - xs.length) 0x80000000
  (sumPairs (sumPairs (sumPairs (sumPairs (sumPairs (sumPairs full)))))).headD 0x80000000

/-- An int48 addition with its saturation (R111). -/
def addSat48 (a b : Int) : Int × Bool :=
  let t := a + b
  let u := clampInt (-(2 ^ 47 : Nat)) ((2 ^ 47 : Nat) - 1) t
  (u, u != t)

/-- The squared conversion error of a REQ8 in units of 2^-32, rounded (R142, R143). -/
def sqError (x r : BitVec 32) : Nat :=
  match (num32 x).mul (num32 r) with
  | .fin n m e =>
    let y : Num := .fin n m e
    match sumNum [y, numInt (-y.toInt)] with
    | .fin _ d k => roundUnits (-32) (d * d) (2 * k)
    | _ => 0
  | _ => 0

/-- What a REQ8 input is to its monitor: an infinity by its own sign, a finite input by the rounded product (R142). A finite input whose
product with a reciprocal that is a NaN or an infinity is a NaN has no row in R142's table, and counts nothing; one whose product is an
infinity counts the clip of its sign (DESIGN CHOICE; log entry 52). -/
inductive ReqCase where
  | inside
  | low
  | high
  | none
  deriving DecidableEq, Repr
def reqCase (x r : BitVec 32) : ReqCase :=
  match num32 x with
  | .nan => .none
  | .inf n => if n then .low else .high
  | v =>
    match v.mul (num32 r) with
    | .nan => .none
    | .inf n => if n then .low else .high
    | y => if y.toInt < -127 then .low else if 127 < y.toInt then .high else .inside

end Sys2Proof.Machine
end

