-- ==== Sys2Proof/Machine/Measurements.lean ====
section
/-! DEFINITION. Measurement slots and their log (R470, R471), the identity digest and the certificate chain (R468, R469), and the
form of messages (R472). -/

namespace Sys2Proof.Machine

/-- The value of a slot: 64 zero bytes until it is extended (R470). -/
def State.slotValue (s : State) (i : Nat) : List Byte := kvGet (List.replicate 64 0) s.sec.slots i
def State.slotCount (s : State) (i : Nat) : Nat := kvGet 0 s.sec.counts i

/-- A slot is extended with event data, and the log takes an entry while it has room (R470, R471). -/
def State.extend (s : State) (slot : Nat) (data : List Byte) : State :=
  let d := shake256 data 64
  let v := shake256 (s.slotValue slot ++ d) 64
  let sec : SecState := { s.sec with
    slots := kvPut s.sec.slots slot v
    counts := kvPut s.sec.counts slot (s.slotCount slot + 1) }
  if sec.log.length < 4096 then
    { s with sec := { sec with log := sec.log ++ [⟨slot, slot, d, data.take 64⟩] } }
  else ({ s with sec := sec }).setBit R.SEC_STAT 3 true

/-- The identity digest of a DIK public key (R468). -/
def digestOf (dik : List Byte) : List Byte := shake256 dik 32

/-- The identity digest that the module reports; zero while its identity is unavailable (R485). -/
def State.identity (s : State) : List Byte :=
  if s.bit R.SEC_STAT 0 then digestOf s.sec.dik else List.replicate 32 0

/-- Slots 0 to 2, which the AK and its certificate hold (R466, R469). -/
def State.bootSlots (s : State) : List Byte := s.slotValue 0 ++ s.slotValue 1 ++ s.slotValue 2

/-- The certificate chain (R469). -/
def State.certChain (s : State) : List Byte :=
  s.nor.certs.flatten ++ Config.certify s.sec.dik s.sec.ak s.bootSlots

/-- The AK is derived from the seed and slots 0 to 2 (R466). -/
def State.deriveAk (s : State) : State :=
  match s.sec.seed with
  | some seed =>
    let xi := shake256 (ascii "Lanrin-AK" ++ seed ++ s.bootSlots) 32
    ({ s with sec := { s.sec with ak := Config.publicKey xi } }).setBit R.SEC_STAT 1 (s.bit R.SEC_STAT 0)
  | none => s.setBit R.SEC_STAT 1 false

/-! Messages (R472). -/

/-- Bytes padded with zeros to a multiple of 4. -/
def pad4 (bs : List Byte) : List Byte := bs ++ List.replicate ((4 - bs.length % 4) % 4) 0

/-- A response: the header with bit [7] of CODE set, the payload, the padding. -/
def responseBytes (magic code tag status : Nat) (payload : List Byte) : List Byte :=
  pad4 (leBytes 2 magic ++ [1] ++ leBytes 1 (code % 128 + 128) ++ leBytes 2 tag ++ leBytes 2 status ++ leBytes 4 payload.length ++
    payload)

/-- A response leaves on the path of its request; any status but OK and BUSY counts, with event 0x9003 at most once per measure,
for an attestation request (R474). -/
def State.respond (s : State) (path : AttPath) (magic : Nat) (h : MsgHead) (status : Nat) (payload : List Byte) : State :=
  let s1 := s.emit (.message path (responseBytes magic h.code h.tag status payload))
  if status = 0 || status = 3 || magic ≠ 0x7A90 then s1
  else
    let s2 := s1.countSat R.SEC_ATT_ERR 1
    if s2.sec.attSaid then s2
    else
      let c := match path with
        | .doe n => some n.val
        | .sideband => none
      ({ s2 with sec := { s2.sec with attSaid := true } }).raise pageSec 0x9003 c 0 0

end Sys2Proof.Machine
end

