-- ==== Sys2Proof/Machine/Quant.lean ====
section
/-! DEFINITION. The QNT page: the standard grid (R130), the custom grid slots (R131 to R135) and the monitors (R142 to R145). -/

namespace Sys2Proof

/-- The standard grid, code 0 first (R130). -/
def standardGrid : List Int := [-127, -97, -75, -57, -42, -29, -18, -8, 0, 9, 20, 32, 46, 63, 86, 127]

/-- The levels a grid reference names (R132). -/
def GridRef.levels : GridRef → List Int
  | .standard => standardGrid
  | .custom _ ls => ls

/-- Is a custom slot named? -/
def GridRef.slot : GridRef → Option Nat
  | .standard => none
  | .custom g _ => some g

end Sys2Proof

namespace Sys2Proof.Machine

/-- The four registers that hold 16 levels, as a list of levels (R133, R147). -/
def State.levelsAt (s : State) (key : Nat → Nat) : List Int :=
  (List.range 16).map fun c => signedOf 8 (bits (s.rd (key (c / 4))) (8 * (c % 4) + 7) (8 * (c % 4)))

/-- Do levels increase strictly from code 0 to code 15? -/
def increasing : List Int → Bool
  | a :: b :: xs => decide (a < b) && increasing (b :: xs)
  | _ => true

/-- Is a slot valid, and how many loaded figures name it (R134, R147)? -/
def State.gridValid (s : State) (g : Nat) : Bool := s.bit (R.QNT_GSTAT g) 0
def State.gridRefs (s : State) (g : Nat) : Nat := s.fld (R.QNT_GSTAT g) 31 16

/-- The result of a grid command: 0 accepted, 1 not increasing, 2 referenced; a refused one raises its event and interrupt. -/
def State.gridResult (s : State) (g r : Nat) : State :=
  let s1 := s.wr R.QNT_GRESULT (g + 0x100 + r * 0x200)
  if r = 0 then s1
  else (s1.setIrq pageQnt 5 2).raise pageQnt (if r = 1 then 0x2201 else 0x2202) none g 0

/-- LOAD of a slot (R133); an accepted one extends measurement slot 5 (R470). -/
def State.gridLoad (s : State) (g : Nat) : State :=
  if s.gridRefs g ≠ 0 then s.gridResult g 2
  else if !increasing (s.levelsAt R.QNT_GSTAGE) then s.gridResult g 1
  else
    let s1 := (List.range 4).foldl (fun t i => t.wr (R.QNT_GRID g i) (t.rd (R.QNT_GSTAGE i))) s
    ((s1.setBit (R.QNT_GSTAT g) 0 true).extend 5 ((s.levelsAt R.QNT_GSTAGE).flatMap (fun l => leBytes 1 (toTwos 8 l)) ++ leBytes 1 g)).gridResult
      g 0

/-- CLEAR of a slot (R133). -/
def State.gridClear (s : State) (g : Nat) : State :=
  if s.gridRefs g ≠ 0 then s.gridResult g 2
  else
    let s1 := (List.range 4).foldl (fun t i => t.wr (R.QNT_GRID g i) 0) s
    (s1.setBit (R.QNT_GSTAT g) 0 false).gridResult g 0

/-- A value written to QNT_GCMD; one with both or neither of LOAD and CLEAR is ignored (R147). -/
def State.gridCmd (s : State) (v : Nat) : State :=
  if v.testBit 8 = v.testBit 9 then s
  else if v.testBit 8 then s.gridLoad (v % 256)
  else s.gridClear (v % 256)

/-- QNT_GCMD_LOAD (R133). -/
def execQntGcmdLoad (c : Client) (slot : Fin 256) (s : State) : Host.Outcome State Fault Refusal :=
  settled (s.command c R.QNT_GCMD (slot.val + 0x100) fun t _ raw => t.gridCmd raw)

/-- QNT_GCMD_CLEAR (R133). -/
def execQntGcmdClear (c : Client) (slot : Fin 256) (s : State) : Host.Outcome State Fault Refusal :=
  settled (s.command c R.QNT_GCMD (slot.val + 0x200) fun t _ raw => t.gridCmd raw)

/-- A monitor's live counter grows, saturating at 2^64 − 1; answers whether it saturated (R143). -/
def State.monAdd (s : State) (key n : Nat) : Bool × State :=
  let v := s.rd key + n
  (decide (2 ^ 64 ≤ v), s.wr key (min v (2 ^ 64 - 1)))

/-- The first saturation of a counter of a monitor sets SAT and raises 0x2203 (R143). -/
def State.monSat (s : State) (m : Nat) : State :=
  if s.bit (R.MON_CTL m) 16 then s
  else ((s.setBit (R.MON_CTL m) 16 true).setIrq pageQnt 4 2).raise pageQnt 0x2203 none m 0

/-- One conversion by a REQ8 that names monitor m, by a step of client c admitted while MON_CTL of m was `ctl` (R142, R479, R480). -/
def State.convert (s : State) (c m ctl : Nat) (x r : BitVec 32) : State :=
  if !ctl.testBit 0 || bits ctl 11 8 ≠ c then s.countSat R.QNT_MON_MISS 1
  else
    match reqCase x r with
    | .none => s
    | k =>
      let (f1, s1) := s.monAdd (R.MON_N m) 1
      let (f2, s2) := match k with
        | .low => s1.monAdd (R.MON_CLIP_LO m) 1
        | .high => s1.monAdd (R.MON_CLIP_HI m) 1
        | _ => s1.monAdd (R.MON_SQERR m) (sqError x r)
      if f1 || f2 then s2.monSat m else s2

/-- The live counters of a monitor cleared. -/
def State.monZero (s : State) (m : Nat) : State :=
  (((s.wr (R.MON_N m) 0).wr (R.MON_CLIP_LO m) 0).wr (R.MON_CLIP_HI m) 0).wr (R.MON_SQERR m) 0

/-- LATCH of a monitor (R145). -/
def State.monLatch (s : State) (m : Nat) : State :=
  let s1 := ((s.wr (R.MON_LN m) (s.rd (R.MON_N m))).wr (R.MON_LCLIP_LO m) (s.rd (R.MON_CLIP_LO m))).wr (R.MON_LCLIP_HI m)
    (s.rd (R.MON_CLIP_HI m))
  let s2 := (s1.wr (R.MON_LSQERR m) (s.rd (R.MON_SQERR m))).wr (R.MON_LATCH_M m) (s.rd R.MSR_NOW)
  if s.bit (R.MON_CTL m) 1 then s2.monZero m else s2

/-- CLEAR of a monitor (R145). -/
def State.monClear (s : State) (m : Nat) : State := (s.monZero m).setBit (R.MON_CTL m) 16 false

/-- A value written to QNT_MON_CMD by client c: a monitor of another client is refused with 0x1002 (R145); a value with both
or neither command is ignored. -/
def State.monCmd (s : State) (c v : Nat) : State :=
  let m := v % 64
  if v.testBit 8 = v.testBit 9 then s
  else if c ≠ 0 && s.fld (R.MON_CTL m) 11 8 ≠ c then s.accessEvent 0x1002 c R.QNT_MON_CMD
  else if v.testBit 8 then s.monLatch m
  else s.monClear m

/-- QNT_MON_LATCH (R145). -/
def execQntMonLatch (c : Client) (m : Fin 64) (s : State) : Host.Outcome State Fault Refusal :=
  settled (s.command c R.QNT_MON_CMD (m.val + 0x100) fun t _ raw => t.monCmd c raw)

/-- QNT_MON_CLEAR (R145). -/
def execQntMonClear (c : Client) (m : Fin 64) (s : State) : Host.Outcome State Fault Refusal :=
  settled (s.command c R.QNT_MON_CMD (m.val + 0x200) fun t _ raw => t.monCmd c raw)

end Sys2Proof.Machine
end

