-- ==== Sys2Proof/Machine/Rows.lean ====
section
/-! DEFINITION. A lane row: its Leaf and the gathering buffer, weight blocks, the feed and accumulation, the drain and the Trim
unit, the Leaf port, and poison (R95 to R120, R138 to R144). -/

namespace Sys2Proof

open Machine

/-- Words of a Leaf and of the gathering buffer (R99, R442). -/
def leafWords : Nat := 16384
def gatherWords : Nat := 524288

/-- A field of a word: `n` bits at index i of consecutive `n`-bit fields, little-endian (R100). -/
def LeafWord.field (w : LeafWord) (n i : Nat) : Nat := w.bits.toNat / 2 ^ (n * i) % 2 ^ n

/-- The 128 bytes of a word. -/
def LeafWord.bytes (w : LeafWord) : List Byte := leBytes 128 w.bits.toNat

/-- A word with the bytes from byte i on replaced: one that is not wholly written keeps its poison (R99, R448). -/
def LeafWord.patch (w : LeafWord) (i : Nat) (bs : List Byte) (poison : Bool) : LeafWord :=
  let n := min bs.length (128 - i)
  let v := w.bits.toNat
  let lo := v % 2 ^ (8 * i)
  let hi := v / 2 ^ (8 * (i + n)) * 2 ^ (8 * (i + n))
  ⟨BitVec.ofNat 1024 (hi + ofLe (bs.take n) * 2 ^ (8 * i) + lo), poison || (w.poison && !(i = 0 && n = 128))⟩

/-- The code of a format in ROW_STAT (R127), and its energy coefficient (R246). -/
def Fmt.code : Fmt → Nat
  | .int8 => 1
  | .bell4 => 2
  | .bf16 => 3

/-- Slices in an activation word (R101). -/
def Fmt.slices : Fmt → Nat
  | .bell4 => 2
  | _ => 4

/-- Elements in a word of a destination. -/
def TrimDst.per : TrimDst → Nat
  | .int8 _ => 128
  | .bf16 _ => 64
  | _ => 32

/-- The first word of a destination in the Leaf. -/
def TrimDst.word : TrimDst → Option Nat
  | .int8 w | .bf16 w | .fp32 w | .int32 w => some w
  | .reg _ => none

/-- Do words a to a + n − 1 lie in a Leaf (R99)? -/
def inLeaf (a n : Nat) : Bool := decide (a + n ≤ leafWords)

/-- Do the Leaf operands of a chain over `n` elements lie in the Leaf (R99)? -/
def TrimSrc.fits (n per : Nat) : TrimSrc → Bool
  | .leaf w => inLeaf w ((n + per - 1) / per)
  | _ => true
def TrimOp.fits (n : Nat) : TrimOp → Bool
  | .scale => true
  | .add a b | .sub a b | .mul a b | .max a b | .min a b => a.fits n 32 && b.fits n 32
  | .fma a b c | .cmpsel _ a b c => a.fits n 32 && b.fits n 32 && c.fits n 32
  | .rcp a | .rsqrt a | .exp2 a | .log2 a | .tanh a | .sigmoid a | .silu a | .sum64 a | .req32 a | .tobf16 a => a.fits n 32
  | .req8 a r _ => a.fits n 32 && r.fits n 32
  | .tofp32int8 a => a.fits n 128
  | .tofp32bf16 a => a.fits n 64

/-- The same of a whole chain: behind a SUM64 only one element is left (R99, R115). -/
def chainFits (n : Nat) : List TrimOp → Bool
  | [] => true
  | .sum64 a :: ops => a.fits n 32 && chainFits 1 ops
  | op :: ops => op.fits n && chainFits n ops

/-- The cycles in which the Trim unit takes the 256 elements of a token: 64 a cycle, or 32 for fp32 and int32 outputs (R108, R116). -/
def TrimDst.cycles : TrimDst → Nat
  | .fp32 _ | .int32 _ => 8
  | .int8 _ | .bf16 _ | .reg _ => 4

/-- Partials in a word of each form; an int48 partial takes an 8-byte slot (log entry 16). -/
def PartFmt.per : PartFmt → Nat
  | .fp32 => 32
  | .bf16 => 64
  | .int48 => 16

end Sys2Proof

namespace Sys2Proof.Machine

/-! On-die words (R99, R442). -/

/-- A word of zeros, clean: what a cleared line reads as (R122). -/
def zeroWord : LeafWord := ⟨0, false⟩

/-- A word of a row's Leaf, and of the gathering buffer. -/
def State.leafWord (s : State) (r a : Nat) : LeafWord := kvGet zeroWord s.leaf (leafWords * r + a)
def State.gatherWord (s : State) (g : Nat) : LeafWord := kvGet zeroWord s.gather g

/-- A word of bytes, at most 128, the rest zero. -/
def wordOf (bs : List Byte) (poison : Bool) : LeafWord := ⟨BitVec.ofNat 1024 (ofLe (bs.take 128)), poison⟩

/-- The power state of a row (R121): 0 ON, 1 GATED, 2 OFF, 3 CLEARING. -/
def State.pwr (s : State) (r : Nat) : Nat := s.fld (R.ROW_STAT r) 5 4
def State.setPwr (s : State) (r v : Nat) : State := s.setFld (R.ROW_STAT r) 5 4 v

/-- A row with nothing in it (R122). -/
def emptyRow : RowUnit := ⟨none, [], [], [], [], [], [], [], [], [], 0, 0, false, false, false, [], none, none, [], []⟩

/-- The row at a number. -/
def State.rowUnit (s : State) (r : Nat) : RowUnit := kvGet emptyRow s.rows r
def State.setRow (s : State) (r : Nat) (x : RowUnit) : State := { s with rows := kvPut s.rows r x }

/-- A whole word written to a Leaf; a poisoned write sets PG_STAT[3] and counts in ROW_POISON (R120). -/
def State.leafPut (s : State) (r a : Nat) (w : LeafWord) : State :=
  let s1 := { s with leaf := kvSet zeroWord s.leaf (leafWords * r + a) w }
  if w.poison then (s1.countSat (R.ROW_POISON r) 1).poisonSeen (pageRow r) else s1

/-- A whole word written to the gathering buffer. -/
def State.gatherPut (s : State) (g : Nat) (w : LeafWord) : State :=
  if g < gatherWords then { s with gather := kvSet zeroWord s.gather g w } else s

/-- Every word of a Leaf goes to zero, and the accumulator file, the stage, the latches, the feed and the Trim registers empty
(R122); what the row keeps for its step's end and its idle time stays, and the requests at its port that are held (R118). -/
def State.emptyLeaf (s : State) (r : Nat) : State :=
  let x := s.rowUnit r
  let s1 := { s with leaf := kvDropRange s.leaf (leafWords * r) (leafWords * (r + 1)) }
  ((s1.setRow r { emptyRow with
    idleFrom := x.idleFrom, busyUntil := x.busyUntil, clearDue := x.clearDue, waiting := x.waiting }).setFld
    (R.ROW_STAT r) 1 0 0).setBit (R.ROW_STAT r) 6 false

/-! The charges of a step (R235 to R237). -/

/-- One of a run's charges grows: 0 ENG_ROW, 1 to 3 bytes of T1 to T3, 4 link bytes, 5 energy in 1/256 pJ (R235, R236). -/
def State.runCharge (s : State) (rn i n : Nat) : State :=
  match s.run rn with
  | some x => s.setRun rn { x with charges := x.charges.modify i fun v => v + n }
  | none => s

/-- Energy of `n` events of coefficient `k` for a run and its client. -/
def State.runEnergy (s : State) (rn c k n : Nat) : State :=
  (s.energy c k n).runCharge rn 5 (if s.bit R.ACC_STAT 0 then n * s.rd (R.ACC_COEF k) else 0)

/-- T1, T2 and T3 bytes that a run moves. -/
def State.runT1 (s : State) (rn c rd wr : Nat) : State :=
  ((s.chargeT1 c rd wr).runCharge rn 1 (rd + wr)).runCharge rn 5
    (if s.bit R.ACC_STAT 0 then (rd + wr) * s.rd (R.ACC_COEF 5) else 0)
def State.runT2 (s : State) (rn c rd wr : Nat) : State :=
  ((s.chargeT2 c rd wr).runCharge rn 2 (rd + wr)).runCharge rn 5
    (if s.bit R.ACC_STAT 0 then (rd + wr) * s.rd (R.ACC_COEF 6) else 0)
def State.runT3 (s : State) (rn c rd wr : Nat) : State :=
  ((s.chargeT3 c rd wr).runCharge rn 3 (rd + wr)).runCharge rn 5
    (if s.bit R.ACC_STAT 0 then rd * s.rd (R.ACC_COEF 7) + wr * s.rd (R.ACC_COEF 8) else 0)
def State.runLink (s : State) (rn c link tx rx : Nat) : State :=
  ((s.chargeLink c link tx rx).runCharge rn 4 (tx + rx)).runCharge rn 5
    (if s.bit R.ACC_STAT 0 then (tx + rx) * s.rd (R.ACC_COEF 9) else 0)

/-! What a run's colophons say (R253, R254). -/

/-- A flag of kind R of a run's CTL is set. -/
def State.flagR (s : State) (rn b : Nat) : State :=
  match s.run rn with
  | some x => s.setRun rn { x with flags := x.flags ||| 2 ^ b }
  | none => s

/-- A flag of kind V is set for the context at index i. -/
def Run.flagV (x : Run) (i b : Nat) : Run := { x with vflags := kvPut x.vflags i (kvGet 0 x.vflags i ||| 2 ^ b) }

/-- The contexts, by index, whose data unit `i` of the `n` units of an operation is: that of its share, or every one when the operation
names none (R250, R254). -/
def Run.owners (x : Run) (of : List Nat) (n i : Nat) : List Nat :=
  if of.isEmpty then List.range x.cmds.length else ((of[i * of.length / n]?).toList).filter fun k => decide (k < x.cmds.length)

/-- A flag of kind V that an operation found on some of its units: the flag of the contexts whose data they are, and of no other (R248,
R254). -/
def State.flagUnits (s : State) (rn b : Nat) (of : List Nat) (n : Nat) (units : List Nat) : State :=
  match s.run rn with
  | none => s
  | some x => s.setRun rn ((units.flatMap (x.owners of n)).eraseDups.foldl (fun y k => y.flagV k b) x)

/-- The context of an event of a whole run: its first (R226, R228). -/
def Run.ctx0 (x : Run) : Nat := ((x.cmds.map RunCmd.ctx).head?).getD 0

/-- The first context that the operation in hand works on, or the first of the run (R125, R168). -/
def Run.opCtx (x : Run) : Nat := (((x.forCtx.head?).bind fun i => x.cmds[i]?).map RunCmd.ctx).getD x.ctx0

/-- An event of a unit that works for a run: its client, and its context in AUX (R125, R168, R240; log entry 15). -/
def State.runEvent (s : State) (x : Run) (p code : Nat) : State := s.raise p code (some x.client) 0 x.opCtx

/-! Weight blocks (R100, R104). -/

/-- Why a row stops a step (R127). -/
def causeAddress : Nat := 1
def causeBlock : Nat := 2
def causePairing : Nat := 3
def causeTile : Nat := 4
def causeChain : Nat := 5

/-- What an operation of a step ends in: the state, and whether a step fault stopped it. -/
abbrev Went := State × Bool

/-- A step fault of a row: ROW_FAULT, the row's interrupt and event 0x2103 (R125). -/
def State.rowFault (s : State) (x : Run) (r cause : Nat) : Went :=
  ((((s.wr (R.ROW_FAULT r) cause).setIrq (pageRow r) 6 2).runEvent x (pageRow r) 0x2103), true)

/-- 8 words of lane scales (R100). -/
def State.loadLaneScales (s : State) (x : Run) (r word : Nat) : Went :=
  if !inLeaf word 8 then s.rowFault x r causeAddress
  else
    let e := (List.range 256).map fun l =>
      let w := s.leafWord r (word + l / 32)
      (l, (⟨BitVec.ofNat 32 (w.field 32 (l % 32)), w.poison⟩ : Elem))
    (s.setRow r { s.rowUnit r with laneScale := e }, false)

/-- The levels of a grid: those of a custom slot are the copies that the row grid file took at admission, and no others (R132). -/
def RowUnit.levels (u : RowUnit) (g : GridRef) : List Int :=
  match g.slot with
  | none => g.levels
  | some _ => ((u.grids.find? fun e => e.1.slot = g.slot).map Prod.snd).getD []

/-- The weight loader has filled the stage with the 64 words of a block (R103, R127). -/
def State.fillStage (s : State) (r word : Nat) : State :=
  (s.setRow r { s.rowUnit r with stage := (List.range 64).map fun i => s.leafWord r (word + i) }).setBit (R.ROW_STAT r) 6 true

/-- The stage is shifted into the latches, and is empty (R104). -/
def State.shiftStage (s : State) (r : Nat) (fmt : Fmt) (grid : GridRef) : State :=
  let u := s.rowUnit r
  ((s.setRow r { u with fmt := some fmt, grid := u.levels grid, latch := u.stage, stage := [] }).setFld (R.ROW_STAT r) 1 0
    fmt.code).setBit (R.ROW_STAT r) 6 false

/-- The cycles by which the stage is late for a load right behind the feed of `n` tokens to a block of format `fmt`: until the cycle
after the last slice the loader has had K + n − 1 cycles since the first slot became free, less one for each word that the feed took,
and it needs 64 (R103, R104, R106; DEDUCED, log entry 52). -/
def stageLate (fmt : Fmt) (n : Nat) : Nat := 65 + (n + fmt.slices - 1) / fmt.slices - (fmt.k + n)

/-- A weight block through the stage into the latches (R100, R104). A block that is not aligned and lies beyond the Leaf reports the
alignment: the rules do not order the causes (log entry 52). The words are those in the Leaf as the load begins. -/
def State.loadBlock (s : State) (x : Run) (r : Nat) (fmt : Fmt) (grid : GridRef) (word : Nat) : Went :=
  if word % 64 ≠ 0 then s.rowFault x r causeBlock
  else if !inLeaf word 64 then s.rowFault x r causeAddress
  else
    let u := s.rowUnit r
    let late := (u.fed.map fun f => stageLate f.1 f.2).getD 0
    let s1 := (s.fillStage r word).shiftStage r fmt grid
    let s2 := s1.setRow r { s1.rowUnit r with fed := none, drained := u.drained.map fun d => { d with due := fmt.k + 1 + late } }
    (((s2.count (R.ROW_CYC_LOAD r) fmt.k).count (R.ROW_CYC_STARVE r) late).count (R.ROW_BLOCKS r) 1, false)

/-- The weight of lane l at block row p (R100), as a number; bell4 codes give their level (R96). -/
def RowUnit.weight (u : RowUnit) (fmt : Fmt) (p l : Nat) : Nat :=
  match fmt with
  | .int8 => (u.latch.getD (2 * p + l / 128) zeroWord).field 8 (l % 128)
  | .bell4 => (u.latch.getD p zeroWord).field 4 l
  | .bf16 => (u.latch.getD (4 * p + l / 64) zeroWord).field 16 (l % 64)

/-- Is the latch of lane l poisoned: any weight word that covers it (R120)? -/
def RowUnit.latchPoison (u : RowUnit) (fmt : Fmt) (l : Nat) : Bool :=
  (List.range fmt.k).any fun p =>
    (match fmt with
      | .int8 => u.latch.getD (2 * p + l / 128) zeroWord
      | .bell4 => u.latch.getD p zeroWord
      | .bf16 => u.latch.getD (4 * p + l / 64) zeroWord).poison

/-- While a block meets its slices the loader fetches the next block of the row that the step names, and the stage is full (R103, R127). -/
def State.fetchAhead (s : State) (x : Run) (r : Nat) (ops : List StepOp) : State :=
  match ops.findSome? fun o => match o.op with
    | .block q _ _ word => if q = r then some word else none
    | _ => none, x.rows[r]? with
  | some word, some p => if word % 64 = 0 && inLeaf word 64 then s.fillStage p word else s
  | _, _ => s

/-! Feed and accumulation (R101, R105 to R111). -/

/-- Element p of the slice of token t, from the words of the tile. -/
def activation (fmt : Fmt) (ws : List LeafWord) (t p : Nat) : Nat :=
  let w := ws.getD (t / fmt.slices) zeroWord
  match fmt with
  | .bf16 => w.field 16 (16 * (t % 4) + p)
  | .int8 => w.field 8 (32 * (t % 4) + p)
  | .bell4 => w.field 8 (64 * (t % 2) + p)

/-- The exact integer sum of products of a lane (R109). -/
def intDot (u : RowUnit) (fmt : Fmt) (ws : List LeafWord) (t l : Nat) : Int :=
  (List.range fmt.k).foldl (fun a p =>
    let w := u.weight fmt p l
    let v : Int := match fmt with
      | .bell4 => u.grid.getD w 0
      | _ => signedOf 8 w
    a + v * signedOf 8 (activation fmt ws t p)) 0

/-- The products of a lane in bf16 mode (R109). -/
def floatDot (u : RowUnit) (ws : List LeafWord) (t l : Nat) : List Num :=
  (List.range 16).map fun p => (num16 (u.weight .bf16 p l)).mul (num16 (activation .bf16 ws t p))

/-- An accumulator entry with nothing in it. -/
def noEntry : AccEntry := ⟨0, false, false⟩

/-- The entry that token t of lane l has after the block's partial sum, and whether the addition saturated (R107, R109, R111). -/
def accumulate (u : RowUnit) (fmt : Fmt) (ws : List LeafWord) (first : Bool) (t l : Nat) : AccEntry × Bool :=
  let old := if first then noEntry else kvGet noEntry u.acc (512 * l + t)
  let poison := old.poison || u.latchPoison fmt l || (ws.getD (t / fmt.slices) zeroWord).poison
  match fmt with
  | .bf16 =>
    let terms := floatDot u ws t l
    let all := if first then terms else terms ++ [num32 (BitVec.ofInt 32 old.value)]
    (⟨(dotSum all).to32.toNat, false, poison⟩, false)
  | _ =>
    let (v, sat) := addSat48 old.value (intDot u fmt ws t l)
    (⟨v, old.sat || sat, poison⟩, sat)

/-- The cycles that the feed of the first block of a pass waits for entries that a drain has not freed: entry t is free `cyc` cycles after
those before it, and token t would be presented one cycle after those before it (R108; DEDUCED, log entry 52). -/
def Drained.wait (d : Drained) (n : Nat) : Nat :=
  let m := min d.tokens n
  if m = 0 then 0 else d.pipe + d.cyc * m - (d.due + m - 1)

/-- A tile of `tokens` slices streams past the block (R101, R104 to R111). No block in the latches is cause 3, a tile of no token cause 4,
and of several causes the pairing comes first and the address last: the rules do not say (log entry 52). -/
def State.feedTile (s : State) (rn : Nat) (x : Run) (r : Nat) (fmt : Fmt) (word tokens : Nat) (first : Bool) : Went :=
  let u := s.rowUnit r
  let n := (tokens + fmt.slices - 1) / fmt.slices
  if u.fmt ≠ some fmt then s.rowFault x r causePairing
  else if tokens = 0 || 512 < tokens then s.rowFault x r causeTile
  else if !inLeaf word n then s.rowFault x r causeAddress
  else
    let ws := (List.range n).map fun i => s.leafWord r (word + i)
    let (acc, sats) := (List.range tokens).foldl (fun (a : KV AccEntry × List Nat) t =>
      (List.range 256).foldl (fun (b : KV AccEntry × List Nat) l =>
        let (e, sat) := accumulate u fmt ws first t l
        (kvPut b.1 (512 * l + t) e, if sat then t :: b.2 else b.2)) a) (u.acc, [])
    let late := if first then (u.drained.map fun d => d.wait tokens).getD 0 else 0
    let s1 := s.setRow r { u with
      acc := acc, satSaid := u.satSaid || !sats.isEmpty, feed := ws.drop (ws.length - 2), fed := some (fmt, tokens), drained := none }
    let s2 := ((s1.count (R.ROW_CYC_FEED r) tokens).count (R.ROW_CYC_STARVE r) late).runEnergy rn x.client (fmt.code - 1) tokens
    let s3 := s2.countSat (R.ROW_SAT r) sats.length
    let s4 := s3.flagUnits rn 18 x.forCtx tokens sats
    (if !sats.isEmpty && !u.satSaid then (s4.setIrq (pageRow r) 4 2).runEvent x (pageRow r) 0x2101 else s4, false)

/-- The activation scales of a tile (R108). -/
def State.loadTokenScales (s : State) (x : Run) (r word tokens : Nat) : Went :=
  if 512 < tokens then s.rowFault x r causeTile
  else if !inLeaf word ((tokens + 31) / 32) then s.rowFault x r causeAddress
  else
    let u := s.rowUnit r
    let e := (List.range tokens).foldl (fun (a : KV Elem) t =>
      let w := s.leafWord r (word + t / 32)
      kvPut a t ⟨BitVec.ofNat 32 (w.field 32 (t % 32)), w.poison⟩) u.tokenScale
    (s.setRow r { u with tokenScale := e }, false)

/-! The Trim unit (R112 to R116, R565). -/

/-- An element on its way through a chain: its bits, the int48 sum it still is before SCALE, its poison, and whether an operation
met or produced a NaN or an infinity for it (R113). -/
structure TrimElt where
  bits : BitVec 32
  sum : Option Int
  poison : Bool
  special : Bool
  deriving DecidableEq, Repr

/-- Is an fp32 word a NaN or an infinity? -/
def isSpecial (w : BitVec 32) : Bool := (num32 w).special

/-- The fp32 word an element is; a sum that SCALE has not met converts exactly and rounds once (R110; log entry 16). -/
def TrimElt.word (e : TrimElt) : BitVec 32 :=
  match e.sum with
  | some v => (numInt v).to32
  | none => e.bits

/-- What a chain reads beside its running value: the row, and how a Leaf word from an operand holds its elements. -/
def State.trimRead (s : State) (u : RowUnit) (r per i : Nat) (e : TrimElt) : TrimSrc → Elem
  | .prev => ⟨e.word, e.poison⟩
  | .reg k => kvGet ⟨0, false⟩ u.vregs (64 * k.val + i % 64)
  | .leaf word =>
    let w := s.leafWord r (word + i / per)
    ⟨BitVec.ofNat 32 (w.field (1024 / per) (i % per)), w.poison⟩
  | .const w => ⟨w, false⟩

/-- An element that an operation gives of its operands. -/
def TrimElt.give (e : TrimElt) (args : List Elem) (w : BitVec 32) (floats : Bool) : TrimElt :=
  ⟨w, none, args.any Elem.poison, e.special || args.any (fun a => isSpecial a.bits) || (floats && isSpecial w)⟩

/-- Two operands through a function. -/
def State.trim2 (s : State) (u : RowUnit) (r i : Nat) (e : TrimElt) (a b : TrimSrc) (f : BitVec 32 → BitVec 32 → BitVec 32) : TrimElt :=
  let x := s.trimRead u r 32 i e a
  let y := s.trimRead u r 32 i e b
  e.give [x, y] (f x.bits y.bits) true

/-- One operand through a function. -/
def State.trim1 (s : State) (u : RowUnit) (r i : Nat) (e : TrimElt) (a : TrimSrc) (f : BitVec 32 → BitVec 32) : TrimElt :=
  let x := s.trimRead u r 32 i e a
  e.give [x] (f x.bits) true

/-- SCALE of element i of a pass, of lane i mod 256 and token i div 256: the exact product of the sum, or of the value in bf16
mode, and both scales, rounded once (R112, R138). -/
def RowUnit.scale (u : RowUnit) (i : Nat) (e : TrimElt) : TrimElt :=
  let sl := kvGet ⟨0, false⟩ u.laneScale (i % 256)
  let st := kvGet ⟨0, false⟩ u.tokenScale (i / 256)
  let w := match e.sum with
    | some v => scale32 v sl.bits st.bits
    | none => (((num32 e.bits).mul (num32 sl.bits)).mul (num32 st.bits)).to32
  ⟨w, none, e.poison || sl.poison || st.poison,
    e.special || isSpecial sl.bits || isSpecial st.bits || isSpecial w || (e.sum.isNone && isSpecial e.bits)⟩

/-- One operation of a chain on element i; SUM64 gathers and is no such operation (R114). -/
def State.trimOp (s : State) (u : RowUnit) (r i : Nat) (e : TrimElt) : TrimOp → TrimElt
  | .scale => u.scale i e
  | .add a b => s.trim2 u r i e a b add32
  | .sub a b => s.trim2 u r i e a b sub32
  | .mul a b => s.trim2 u r i e a b mul32
  | .fma a b c =>
    let x := s.trimRead u r 32 i e a
    let y := s.trimRead u r 32 i e b
    let z := s.trimRead u r 32 i e c
    e.give [x, y, z] (fma32 x.bits y.bits z.bits) true
  | .max a b => s.trim2 u r i e a b max32
  | .min a b => s.trim2 u r i e a b min32
  | .cmpsel rel c a b =>
    let x := s.trimRead u r 32 i e c
    let y := s.trimRead u r 32 i e a
    let z := s.trimRead u r 32 i e b
    e.give [x, y, z] (cmpsel32 rel x.bits y.bits z.bits) true
  | .rcp a => s.trim1 u r i e a rcp32
  | .rsqrt a => s.trim1 u r i e a rsqrt32
  | .exp2 a => s.trim1 u r i e a exp232
  | .log2 a => s.trim1 u r i e a log232
  | .tanh a => s.trim1 u r i e a tanh32
  | .sigmoid a => s.trim1 u r i e a sigmoid32
  | .silu a => s.trim1 u r i e a silu32
  | .sum64 a => s.trim1 u r i e a id
  | .req8 a rc _ =>
    let x := s.trimRead u r 32 i e a
    let y := s.trimRead u r 32 i e rc
    e.give [x, y] (BitVec.ofInt 32 (req8 x.bits y.bits)) false
  | .req32 a =>
    let x := s.trimRead u r 32 i e a
    e.give [x] (BitVec.ofInt 32 (req32 x.bits)) false
  | .tobf16 a =>
    let x := s.trimRead u r 32 i e a
    let h := tobf16 x.bits
    { e.give [x] (BitVec.ofNat 32 h) false with
      special := e.special || isSpecial x.bits || (num16 h).special }
  | .tofp32int8 a =>
    let x := s.trimRead u r 128 i e a
    ⟨fromInt8 (x.bits.toNat % 256), none, x.poison, e.special⟩
  | .tofp32bf16 a =>
    let x := s.trimRead u r 64 i e a
    let w := fromBf16 (x.bits.toNat % 65536)
    ⟨w, none, x.poison, e.special || isSpecial w⟩

/-- SUM64 over the elements of a reduction, 64 a cycle, the cycles added in order (R115). -/
def sumCycles : Nat → Option (BitVec 32) → List (BitVec 32) → BitVec 32
  | 0, a, _ => a.getD 0x80000000
  | n + 1, a, xs =>
    if xs.isEmpty then a.getD 0x80000000
    else
      let v := sum64 (xs.take 64)
      sumCycles n (some (match a with
        | some w => add32 w v
        | none => v)) (xs.drop 64)

/-- A reduction's one element: poisoned and special when any of its inputs or its result is. -/
def gatherSum (es : List TrimElt) : TrimElt :=
  let w := sumCycles (es.length / 64 + 1) none (es.map TrimElt.bits)
  ⟨w, none, es.any TrimElt.poison, es.any TrimElt.special || isSpecial w⟩

/-- The elements of a reduction or of a pass through a chain, from element number `base` on: the results, and the conversions
that name a monitor, in order (R114, R115, R142). -/
def State.chain (s : State) (u : RowUnit) (r : Nat) : Nat → List TrimElt → List TrimOp → List TrimElt × List (Nat × BitVec 32 × BitVec 32)
  | _, es, [] => (es, [])
  | base, es, op :: ops =>
    let out := es.mapIdx fun i e => s.trimOp u r (base + i) e op
    match op with
    | .sum64 _ => s.chain u r 0 [gatherSum out] ops
    | .req8 a rc (some m) =>
      let conv := es.mapIdx fun i e => (m.val, (s.trimRead u r 32 (base + i) e a).bits, (s.trimRead u r 32 (base + i) e rc).bits)
      let (fin, more) := s.chain u r base out ops
      (fin, conv ++ more)
    | _ => s.chain u r base out ops

/-- Results written to a Leaf as consecutive words (R102); a word with a poisoned element is poisoned (R120). -/
def State.trimWrite (s : State) (r : Nat) (dst : TrimDst) (word : Nat) (es : List TrimElt) : State :=
  let per := dst.per
  let size := 128 / per
  (List.range ((es.length + per - 1) / per)).foldl (fun t i =>
    let mine := (es.drop (per * i)).take per
    let bs := mine.flatMap fun e => leBytes size e.word.toNat
    t.leafPut r (word + i) ((t.leafWord r (word + i)).patch 0 bs (mine.any TrimElt.poison))) s

/-- Results kept in a vector register: element j of the pass at element j mod 64. -/
def trimKeep (u : RowUnit) (k : Nat) (es : List TrimElt) : RowUnit :=
  { u with vregs := (es.zipIdx).foldl (fun a e => kvPut a (64 * k + e.2 % 64) ⟨e.1.word, e.1.poison⟩) u.vregs }

/-- The results of a Trim pass take their place, ROW_NONFIN counts each element that met or gave a NaN or an infinity, and
monitors take the conversions that name them (R113, R125, R142); `specials` are the units, of `n`, whose elements these are. The unit is busy for `cyc` cycles and, when it writes words, those that it
waits at the port for them, which are free (log entry 42). Event 0x2102 comes with the first element that counts, met or given (log entry 52). -/
def State.trimDone (s : State) (rn : Nat) (x : Run) (r : Nat) (dst : TrimDst) (es : List TrimElt) (cyc n : Nat)
    (specials : List Nat) (conv : List (Nat × BitVec 32 × BitVec 32)) : Went :=
  let out := match dst.word with
    | some w => if inLeaf w ((es.length + dst.per - 1) / dst.per) then some (s.trimWrite r dst w es) else none
    | none => match dst with
      | .reg k => some (s.setRow r (trimKeep (s.rowUnit r) k es))
      | _ => some s
  match out with
  | none => s.rowFault x r causeAddress
  | some s1 =>
    let s2 := conv.foldl (fun t e => t.convert x.client e.1 (x.mons.getD e.1 0) e.2.1 e.2.2) s1
    let (w, s3) := if dst.word.isSome then s2.free else (0, s2)
    let s4 := (s3.count (R.ROW_CYC_TRIM r) (cyc + w)).runEnergy rn x.client 11 (cyc + w)
    let s5 := s4.countSat (R.ROW_NONFIN r) specials.length
    if specials.isEmpty then (s5, false)
    else
      let u := s5.rowUnit r
      let s6 := (s5.setRow r { u with nonfinSaid := true }).flagUnits rn 19 x.forCtx n specials
      (if u.nonfinSaid then s6 else (s6.setIrq (pageRow r) 5 2).runEvent x (pageRow r) 0x2102, false)

/-- The elements of a pass as its chain has met them before any are gathered: up to its end, or in the operand of its first SUM64, with
whether one gathers them (R113, R115). -/
def State.met (s : State) (u : RowUnit) (r base : Nat) : List TrimElt → List TrimOp → List TrimElt × Bool
  | es, [] => (es, false)
  | es, op :: ops =>
    let out := es.mapIdx fun i e => s.trimOp u r (base + i) e op
    match op with
    | .sum64 _ => (out, true)
    | _ => s.met u r base out ops

/-- The elements of a chain that count in ROW_NONFIN, by their number in the pass: those of the pass, and when a SUM64 gathered them, the one
it gave (log entry 16). -/
def specialsOf (s : State) (u : RowUnit) (r base : Nat) (es : List TrimElt) (ops : List TrimOp) : List Nat :=
  let (mid, gathered) := s.met u r base es ops
  let own := (mid.zipIdx.filter fun e => e.1.special).map Prod.snd
  if gathered && own.isEmpty then ((s.chain u r base es ops).1.filter TrimElt.special).map fun _ => 0 else own

/-- A Trim pass over `n` elements (R114); the running value of its first operation is +0. -/
def State.trimPass (s : State) (rn : Nat) (x : Run) (r n : Nat) (ops : List TrimOp) (dst : TrimDst) : Went :=
  if 8 < ops.length then s.rowFault x r causeChain
  else if !chainFits n ops then s.rowFault x r causeAddress
  else
    let u := s.rowUnit r
    let es := List.replicate n (⟨0, none, false, false⟩ : TrimElt)
    let (out, conv) := s.chain u r 0 es ops
    let per := 256 / dst.cycles
    (s.setRow r { u with fed := none, drained := none }).trimDone rn x r dst out ((n + per - 1) / per) n (specialsOf s u r 0 es ops) conv

/-- The element that the drain takes from an accumulator entry: an int48 sum, or an fp32 value in bf16 mode (R95). -/
def AccEntry.elt (e : AccEntry) (fmt : Option Fmt) : TrimElt :=
  if fmt = some .bf16 then ⟨BitVec.ofInt 32 e.value, none, e.poison, false⟩ else ⟨0, some e.value, e.poison, false⟩

/-- The drain of a pass, token by token through the chain; the drained entries become free (R108, R111). A chain too long is reported
before the tile, and the tile before an address (log entry 52). -/
def State.drainPass (s : State) (rn : Nat) (x : Run) (r tokens : Nat) (ops : List TrimOp) (dst : TrimDst) : Went :=
  if 8 < ops.length then s.rowFault x r causeChain
  else if tokens = 0 || 512 < tokens then s.rowFault x r causeTile
  else if !chainFits (256 * tokens) ops then s.rowFault x r causeAddress
  else
    let u := s.rowUnit r
    let per := (List.range tokens).map fun t =>
      let es := (List.range 256).map fun l => (kvGet noEntry u.acc (512 * l + t)).elt u.fmt
      (s.chain u r (256 * t) es ops, specialsOf s u r (256 * t) es ops)
    let s1 := s.setRow r { u with
      acc := u.acc.filter fun e => tokens ≤ e.1 % 512
      drained := some ⟨tokens, dst.cycles, if u.fmt = some .bf16 then 6 else 5, 0⟩ }
    s1.trimDone rn x r dst (per.flatMap fun p => p.1.1) (dst.cycles * tokens) tokens
      (per.zipIdx.flatMap fun p => p.1.2.map fun _ => p.2) (per.flatMap fun p => p.1.2)

/-! Merges of partials in the gathering buffer (R247, R249). -/

/-- The merged value of one element, from its partials in order of addition: each fp32 or bf16 addition rounded once, an int48
sum exact (R247). -/
def mergeElement (fmt : PartFmt) : List Nat → Nat
  | [] => 0
  | p :: ps =>
    match fmt with
    | .fp32 => (ps.foldl (fun a b => add32 a (BitVec.ofNat 32 b)) (num32 (BitVec.ofNat 32 p)).to32).toNat
    | .bf16 => (ps.foldl (fun a b => add32 a (fromBf16 b)) (fromBf16 p)).toNat
    | .int48 => toTwos 64 (ps.foldl (fun a b => a + signedOf 64 b) (signedOf 64 p))

/-- Is a list an order of the numbers below n? -/
def isOrder (n : Nat) (o : List Nat) : Bool := o.length = n && (List.range n).all fun i => o.contains i

/-- A cross-row merge into gathering buffer words, the partials added in the order given (R247). -/
def State.mergeParts (s : State) (x : Run) (parts : List (Nat × Nat)) (n : Nat) (fmt : PartFmt) (g : Nat) (order : List Nat) : Went :=
  let words := (n + fmt.per - 1) / fmt.per
  match parts.find? fun p => !inLeaf p.2 words with
  | some p => s.rowFault x p.1 causeAddress
  | none =>
    let byOrder := order.map fun i => parts.getD i (0, 0)
    let width := if fmt = .int48 then 64 else 32
    let els := (List.range n).map fun i =>
      mergeElement fmt (byOrder.map fun p => (s.leafWord p.1 (p.2 + i / fmt.per)).field (1024 / fmt.per) (i % fmt.per))
    let bad := (List.range n).map fun i => byOrder.any fun p => (s.leafWord p.1 (p.2 + i / fmt.per)).poison
    let per := 1024 / width
    ((List.range ((n + per - 1) / per)).foldl (fun t i =>
      let mine := (els.drop (per * i)).take per
      let poison := ((bad.drop (per * i)).take per).any id
      let bs := mine.flatMap fun v => leBytes (width / 8) v
      t.gatherPut (g + i) ((t.gatherWord (g + i)).patch 0 bs poison)) s, false)

/-! The Leaf port and the lines a step meets (R117, R118, R443). -/

/-- A word with the enabled bytes of a write: one that is not wholly written keeps its poison (R99, R117). -/
def mergeWord (w : LeafWord) (bs : List (Option Byte)) : LeafWord :=
  let new := (List.range 128).map fun i => ((bs[i]?).join).getD (w.bytes.getD i 0)
  ⟨BitVec.ofNat 1024 (ofLe new), w.poison && !(decide (bs.length = 128) && bs.all Option.isSome)⟩

/-- A granted request: a write is performed, a read gives its requester the word (R117). -/
def State.portServe (s : State) (r : Nat) (e : Nat × PortReq) : State :=
  match e.2.write with
  | some bs => s.leafPut r e.2.word (mergeWord (s.leafWord r e.2.word) bs)
  | none => s.setRow r { s.rowUnit r with got := kvPut (s.rowUnit r).got e.1 (s.leafWord r e.2.word) }

/-- Does an LC step run on row r: its Leaf then serves that step alone (R119)? -/
def State.lcOn (s : State) (r : Nat) : Bool := s.sched.runs.any fun e => e.2.lc && e.2.phase = .computing && e.2.rows.contains r

/-- The requests that wait at a port with the new ones of a cycle: a requester that waits makes its own again (R117). -/
def joinRequests (c : PortCycle) (waiting : KV PortReq) : KV PortReq :=
  c.reqs.zipIdx.foldl (fun m e => match e.1 with
    | some q => if e.2 < 5 && inLeaf q.word 1 && (kvFind m e.2).isNone then kvPut m e.2 q else m
    | none => m) waiting

/-- The requests that one cycle grants: the first that may have the port, and one of the opposite direction to its word (R117 to R119). -/
def granted (all : KV PortReq) (lc : Bool) : KV PortReq :=
  match all.filter fun e => !(lc && (e.1 = 4 || e.2.other)) with
  | [] => []
  | e :: rest => e :: (rest.find? fun d => d.2.word = e.2.word && d.2.write.isSome ≠ e.2.write.isSome).toList

/-- A cycle at a Leaf port: grants are served, the write of a pair first; every other requester loses and asks again, and while the Leaf
is cleared all are held (R117, R118). -/
def State.portCycle (s : State) (c : PortCycle) : State :=
  let r := c.row.val
  let all := joinRequests c (s.rowUnit r).waiting
  let wait (t : State) (m : KV PortReq) : State := t.setRow r { t.rowUnit r with waiting := m }
  if s.pwr r = 3 then wait s all
  else
    let won := granted all (s.lcOn r)
    let lost := all.filter fun e => !won.contains e
    let s1 := (won.filter fun e => e.2.write.isSome).foldl (fun t e => t.portServe r e) s
    let s2 := (won.filter fun e => e.2.write.isNone).foldl (fun t e => t.portServe r e) s1
    let s3 := if won.length = 2 then s2.count (R.ROW_FWD r) 1 else s2
    lost.foldl (fun t e => t.count (R.ROW_LOSS r e.1) 1) (wait s3 lost)

/-- A line of a Leaf, or of the gathering buffer, is delivered poisoned. -/
def State.poisonLine (s : State) (row : Option Nat) (word : Nat) : State :=
  match row with
  | some r => s.leafPut r (word % leafWords) { s.leafWord r (word % leafWords) with poison := true }
  | none => s.gatherPut (word % gatherWords) { s.gatherWord (word % gatherWords) with poison := true }

/-- A line mismatch that a running step meets: refetched, replayed, or delivered poisoned (R443). -/
def State.lineFault (s : State) (rn : Nat) (f : LineFault) : State :=
  match s.run rn with
  | none => s
  | some x =>
    let row := f.row.map Fin.val
    let p := match row with
      | some r => pageRow r
      | none => pageErr
    let clean := f.clean && row.isSome
    if !(match row with
        | some r => x.rows.contains r
        | none => true) then s
    else if clean && f.nth ≤ 2 then (s.flagR rn 15).runEvent x p 0x4004
    else if !clean && !x.stepReplayed then (s.setRun rn { x with replayDue := true }).runEvent x p 0x4005
    else (s.poisonLine row f.word).runEvent x p 0x4006

/-! Power and clearing (R121 to R123). -/

/-- The cycles of a wake from GATED, of power-up, and of a Leaf clear (R121). -/
def wakeCycles : Nat := 64
def powerUpCycles : Nat := 4000
def clearCycles : Nat := 16384

/-- Is a row in the LC reservation (R213, R223)? -/
def State.reservedFor (s : State) (r : Nat) : Option Nat := kvFind s.sched.reserved r

/-- Does a run that is not done hold data in the Leaf of row r, one it holds or one it has left (R123)? -/
def State.rowHeld (s : State) (r : Nat) : Bool :=
  s.sched.runs.any fun e => e.2.phase ≠ .done && (e.2.rows.contains r || e.2.used.contains r)

/-- Is a row idle: in service, and no step on it? -/
def State.rowIdle (s : State) (r : Nat) : Bool := s.inService (pageRow r) && !s.rowBusy r

/-- ROW_GATE (R121, R223): 1,000 idle cycles have passed on a row that is ON. -/
def execRowGate (r : RowNo) (s : State) : Host.Outcome State Fault Refusal :=
  settled <|
    let u := s.rowUnit r.val
    if s.rowIdle r.val && s.pwr r.val = 0 && !s.bit (R.ROW_PWR r.val) 0 && (s.reservedFor r.val).isNone && !u.clearDue &&
        u.idleFrom + 1000 * tickCycle ≤ s.etime then
      s.setPwr r.val 1
    else s

/-- ROW_OFF (R121, R123, R223): the Leaf's contents are lost. -/
def execRowOff (r : RowNo) (s : State) : Host.Outcome State Fault Refusal :=
  settled <|
    let u := s.rowUnit r.val
    let delay := s.fld (R.ROW_PWR r.val) 15 8
    if s.rowIdle r.val && s.pwr r.val ≤ 1 && delay ≠ 0 && (s.reservedFor r.val).isNone && !s.rowHeld r.val && !u.clearDue &&
        u.idleFrom + delay * 1000 * tickUs ≤ s.etime then
      (s.emptyLeaf r.val).setPwr r.val 2
    else s

/-- A row starts to wake: from GATED by 64 cycles, from OFF by its power-up and a clear; `busyUntil` is when it is ON (R121). -/
def State.wake (s : State) (r : Nat) : State :=
  let u := s.rowUnit r
  if u.busyUntil ≠ 0 then s
  else if s.pwr r = 1 then s.setRow r { u with busyUntil := s.etime + wakeCycles * tickCycle }
  else if s.pwr r = 2 then s.setRow r { u with busyUntil := s.etime + powerUpCycles * tickCycle }
  else s

/-- A Leaf clear starts (R122). -/
def State.clearLeaf (s : State) (r : Nat) : State :=
  let s1 := s.emptyLeaf r
  (s1.setRow r { s1.rowUnit r with busyUntil := s.etime + clearCycles * tickCycle, clearDue := true }).setPwr r 3

/-- Time passes until the elapsed time reads `t`. -/
def State.untilElapsed (s : State) (t : Nat) : State := if s.etime < t then s.elapse (t - s.etime) else s

/-- ROW_WAKE_COMPLETE (R121): a GATED row is ON; a row that was OFF starts its clear. -/
def execRowWakeComplete (r : RowNo) (s : State) : Host.Outcome State Fault Refusal :=
  settled <|
    let u := s.rowUnit r.val
    if u.busyUntil = 0 then s
    else if s.pwr r.val = 1 then
      let s1 := s.untilElapsed u.busyUntil
      (s1.setRow r.val { u with busyUntil := 0, idleFrom := s1.etime }).setPwr r.val 0
    else if s.pwr r.val = 2 then
      let s1 := s.untilElapsed u.busyUntil
      (s1.setRow r.val { u with busyUntil := 0 }).clearLeaf r.val
    else s

/-- The end of a Leaf clear: the row is ON and its Leaf clear (R122). -/
def State.cleared (s : State) (r : Nat) : State :=
  let s1 := (s.setPwr r 0).wr (R.ROW_LEAF_CLIENT r) 0xFF
  let s2 := s1.setRow r { s1.rowUnit r with busyUntil := 0, clearDue := false, idleFrom := s1.etime }
  (s2.count (R.ROW_CLR_CNT r) 1).setIrq (pageRow r) 7 0

/-- LEAF_CLEAR_COMPLETE (R122). -/
def execLeafClearComplete (r : RowNo) (s : State) : Host.Outcome State Fault Refusal :=
  settled <|
    if s.pwr r.val = 3 && (s.rowUnit r.val).clearDue then (s.untilElapsed (s.rowUnit r.val).busyUntil).cleared r.val else s

end Sys2Proof.Machine
end

