-- ==== Sys2Proof/Machine/Rights.lean ====
section
/-! DEFINITION. Changes of rights: what takes effect, when, and the hold that gathers changes (R479 to R482). -/

namespace Sys2Proof.Machine

/-- An entry never written (R385). -/
def emptyEndpoint : Endpoint := ⟨0, false, 0, false, false, false, 0, 0, 0, 0, 0, 0, 0, 0, 0, 0, [], false⟩

/-- The entry of an endpoint (R384). -/
def State.endpoint (s : State) (e : Nat) : Endpoint := kvGet emptyEndpoint s.spt.table e

/-- An entry replaced. -/
def State.setEndpoint (s : State) (e : Nat) (x : Endpoint) : State := { s with spt := { s.spt with table := kvSet emptyEndpoint s.spt.table e x } }

/-- A written entry takes effect now: where EN rises or STEP changes, HAS_LAST clears and R_E moves (R385). -/
def State.applyEndpoint (s : State) (e : Nat) (new : Endpoint) : State :=
  let old := s.endpoint e
  let kept : Endpoint := { new with
    hasLast := old.hasLast, lastFseq := old.lastFseq, lastStart := old.lastStart, rE := old.rE, lastSp := old.lastSp }
  if (new.en && !old.en) || new.step ≠ old.step then
    s.setEndpoint e { kept with hasLast := false, rE := s.dtime + (32 * max old.step new.step + new.dfltUs) * tickUs }
  else s.setEndpoint e kept

/-- A reservation map comes into force: ROW_STAT.LC follows it, rows asleep that it reserves wake (R223), degraded reservations
end, and SCH signals the change (R213, R227, R241). -/
def State.applyMap (s : State) (m : KV Nat) : State :=
  let s1 : State := { s with sched := { s.sched with reserved := m, commit := none, degraded := [] } }
  let s2 := (List.range 104).foldl (fun t r =>
    let lc := (kvFind m r).isSome
    let t1 := t.setBit (R.ROW_STAT r) 2 lc
    if lc then t1.wake r else t1) s1
  s2.setIrq pageSch 7 2

/-- Can a group of a client's LC figures lie in physical Collator group g: its Collator is in service, and where the figures have groups,
one of them is no larger than the rows in service there (R212, R227; log entry 53)? -/
def State.groupUsable (s : State) (c g : Nat) : Bool :=
  let rows := ((List.range 104).filter fun r => r / 13 = g && s.inService (pageRow r)).length
  let figs := s.sched.figures.filter fun e => e.2.client = c && e.2.fig.main.lc
  let fits (f : FigureCore) : Bool := f.groups.isEmpty || f.groups.any fun n => n ≤ rows
  s.inService (pageCol g) && (figs.isEmpty || figs.any fun e => (e.2.fig.main :: (e.2.fig.reserve.map Prod.fst).toList).any fits)

/-- Could row r repair the reservation of client c: of the BE pool, in service, open to the client, in a group that its figures can use
(R227, R230)? -/
def State.mayRepair (s : State) (c r : Nat) : Bool :=
  (kvFind s.sched.reserved r).isNone && s.inService (pageRow r) && (c = 0 || (s.force (R.PG_GUARD (pageRow r))).testBit c) &&
    s.groupUsable c (r / 13)

/-- Row `new` takes the place of a row that a client's reservation lost (R223, R227, R241). -/
def State.repairBy (s : State) (c old new : Nat) : State :=
  let s1 : State := { s with sched := { s.sched with
    reserved := kvPut (kvErase s.sched.reserved old) new c
    degraded := s.sched.degraded.filter fun d => d.2.1 ≠ old } }
  ((((s1.setBit (R.ROW_STAT old) 2 false).setBit (R.ROW_STAT new) 2 true).wake new)).setIrq pageSch 7 2

/-- At a strike each lost row is replaced by the lowest row that no run holds; one for which there is none waits for a step to end
(R227). -/
def State.repairAtStrike (s : State) : State :=
  s.sched.degraded.foldl (fun t d =>
    match (List.range 104).find? fun r => t.mayRepair d.1 r && !t.sched.runs.any fun e => e.2.rows.contains r with
    | some r => t.repairBy d.1 d.2.1 r
    | none => { t with sched := { t.sched with
        degraded := t.sched.degraded.map fun e => if e.2.1 = d.2.1 then (e.1, e.2.1, true) else e } }) s

/-- Rows that have ended a step repair the reservations that wait for one (R227). -/
def State.repairAtEnd (s : State) (rows : List Nat) : State :=
  (s.sched.degraded.filter fun d => d.2.2).foldl (fun t d =>
    match rows.find? (t.mayRepair d.1) with
    | some r => t.repairBy d.1 d.2.1 r
    | none => t) s

/-- The changes of rights that wait take effect together (R479, R481). -/
def State.takeEffect (s : State) : State :=
  if !s.rightsPending then s
  else
    let s1 : State := { s with inForce := [] }
    let s2 := match s1.sched.commit with
      | some m => s1.applyMap m
      | none => s1
    let s3 := s2.spt.staged.foldl (fun t e => t.applyEndpoint e.1 e.2) { s2 with spt := { s2.spt with staged := [] } }
    ((s3.count R.SEC_RIGHTS_GEN 1).wr R.SEC_RIGHTS_M (s3.rd R.MSR_NOW)).setIrq pageSec 6 0

/-- A change takes effect at once when no hold stands and no strike will come (R479, R481). -/
def State.settleRights (s : State) : State := if s.rightsWait then s else s.takeEffect

/-- HOLD written 1: a hold starts unless one stands; its limit is SEC_HOLD_MAX as it is now (R481). -/
def State.startHold (s : State) : State :=
  if s.bit R.SEC_RIGHTS_CTL 0 then s
  else
    let s1 := (s.wr R.SEC_RIGHTS_CTL 1).setBit R.SEC_STAT 4 true
    { s1 with sec := { s1.sec with holdFrom := s1.msr.count, holdLimit := s1.rd R.SEC_HOLD_MAX } }

/-- The hold ends; held changes then wait for the next strike, or take effect at once when none will come (R481). -/
def State.endHold (s : State) : State :=
  if s.bit R.SEC_RIGHTS_CTL 0 then ((s.wr R.SEC_RIGHTS_CTL 0).setBit R.SEC_STAT 4 false).settleRights else s

/-- HOLD_SET (R481). -/
def execHoldSet (c : Client) (s : State) : Host.Outcome State Fault Refusal :=
  settled (s.command c R.SEC_RIGHTS_CTL 1 fun t _ _ => t.startHold)

/-- HOLD_CLEAR (R481). -/
def execHoldClear (c : Client) (s : State) : Host.Outcome State Fault Refusal :=
  settled (s.command c R.SEC_RIGHTS_CTL 0 fun t _ _ => t.endHold)

/-- A hold that has reached its limit: HOLD clears with event 0x9007, and the changes take effect now (R481). -/
def State.expireHold (s : State) : State :=
  if s.bit R.SEC_RIGHTS_CTL 0 && s.sec.holdFrom + s.sec.holdLimit ≤ s.msr.count then
    (((s.wr R.SEC_RIGHTS_CTL 0).setBit R.SEC_STAT 4 false).raise pageSec 0x9007 none 0 0).takeEffect
  else s

/-- HOLD_MAX_EXPIRY (R481). -/
def execHoldMaxExpiry (s : State) : Host.Outcome State Fault Refusal := settled s.expireHold

end Sys2Proof.Machine
end

