-- ==== Sys2Proof/Machine/Setpoint.lean ====
section
/-! DEFINITION. The setpoint port (ch. 13): records submitted by steps, launches at strikes, departures with every check and limit
of R389 to R391, the frame of R392 and R393, the endpoint table, and the cages. -/

namespace Sys2Proof.Machine

/-- A code of R398 is raised at most once per measure, with the endpoint of its first occurrence. -/
def State.sptEvent (s : State) (code e : Nat) (client : Option Nat) : State :=
  if s.spt.said.contains code then s
  else ({ s with spt := { s.spt with said := code :: s.spt.said } }).raise pageSpt code client e 0

/-! Submitting (R386 to R388, R396). -/

/-- The launch measure of a late record until the next announce gives it one (R388). -/
def noMeasure : Nat := 2 ^ 64

/-- Does an earlier record of the endpoint keep a new one waiting: its announce has been issued (R396)? -/
def State.sptHeld (s : State) (e : Nat) : Bool :=
  (kvFind s.spt.launched e).isSome ||
    (match kvFind s.spt.pending e with
      | some r => s.pastAnnounce r.launchM
      | none => false)

/-- A record becomes pending, or replaces a pending or waiting one (R387, R396). -/
def State.sptEnter (s : State) (r : SetRecord) : State :=
  if s.sptHeld r.endpoint then
    let again := (kvFind s.spt.waiting r.endpoint).isSome
    let s1 : State := { s with spt := { s.spt with waiting := kvPut s.spt.waiting r.endpoint r } }
    if again then s1.countSat R.SPT_REPLACED 1 else s1
  else
    let again := (kvFind s.spt.pending r.endpoint).isSome
    let s1 : State := { s with spt := { s.spt with pending := kvPut s.spt.pending r.endpoint r } }
    if again then s1.countSat R.SPT_REPLACED 1 else s1

/-- A step submits a record: refused when the entry is disabled or of another client (R386), late when its announce has been
issued (R388). -/
def State.submitRecord (s : State) (r : SetRecord) : State :=
  let e := s.endpoint r.endpoint
  if !e.en || e.client ≠ r.client then
    ((s.countSat R.SPT_REFUSED 1).setIrq pageSpt 6 0xB).sptEvent 0xB003 r.endpoint (some r.client)
  else if s.pastAnnounce r.launchM then
    (((s.countSat R.SPT_LATE 1).setIrq pageSpt 6 0xB).sptEvent 0xB007 r.endpoint (some r.client)).sptEnter
      { r with late := true, launchM := noMeasure }
  else s.sptEnter r

/-- An announce of measure m is the launch measure of the late records that wait for one (R388). -/
def State.sptAnnounce (s : State) (m : Nat) : State :=
  let give (l : KV SetRecord) : KV SetRecord :=
    l.map fun e => (e.1, if e.2.launchM = noMeasure then { e.2 with launchM := m } else e.2)
  { s with spt := { s.spt with pending := give s.spt.pending, waiting := give s.spt.waiting } }

/-- The strike of measure m at instant `t` launches the pending records whose measure has come, unless the port is quiesced or out
of service (R387, R395); a record of which one cage has sent its frame keeps its measure and its strike for the other (R396). -/
def State.sptStrike (s : State) (m t : Nat) : State :=
  if !s.inService pageSpt || s.quiescing pageSpt then s
  else
    let go := s.spt.pending.filter fun e => e.2.launchM ≤ m
    let s1 : State := { s with spt := { s.spt with
        pending := s.spt.pending.filter fun e => !decide (e.2.launchM ≤ m)
        launched := go.foldl (fun l e =>
          kvPut l e.1 (if e.2.entry.isSome then e.2 else { e.2 with launchM := m, strikeAt := t })) s.spt.launched } }
    s1.setIdle pageSpt s1.spt.launched.isEmpty

/-! Departure (R389 to R391). -/

/-- Is the timebase usable (cause 0x04 of R389)? -/
def State.timeUsable (s : State) : Bool :=
  s.tmbState = stLocked || s.tmbState = stFollowing || (s.tmbState = stHoldover && s.hoEst ≤ s.rd R.TMB_HO_LIMIT)

/-- The cages of an entry. -/
def Endpoint.cages (e : Endpoint) : List Nat := if e.cage = 2 then [0, 1] else [e.cage]

/-- Bit i of a colophon's CTL (R253). -/
def coloBit (c : List Byte) (i : Nat) : Bool := (ofLe (c.take 4)).testBit i

/-- The setpoint that precedes a frame which continues, j steps after the last (R390). -/
def Endpoint.continues (e : Endpoint) (start : Nat) : Option Int :=
  if !e.hasLast then none
  else ((List.range 16).find? fun i => start = e.lastStart + (i + 1) * e.step * tickUs).map fun i => e.lastSp.getD i 0

/-- The cause for which a frame that starts at `td` is withheld, the lowest of R389 that holds. -/
def State.sptCause (s : State) (e : Endpoint) (r : SetRecord) (td : Nat) : Option Nat :=
  let lead : Int := (r.start : Int) - td
  if r.poison || coloBit r.colophon 16 || coloBit r.colophon 17 || e.poison then some 1
  else if e.reqCovered && r.colophon.getD 109 0 ≠ 0 then some 2
  else if !r.lc && !e.allowBe then some 3
  else if s.bit R.SPT_CTL 1 && !s.timeUsable then some 4
  else if lead < (s.rd R.SPT_MIN_LEAD * tickUs : Nat) then some 5
  else if lead > (16 * e.step * tickUs : Nat) then some 6
  else if (e.continues r.start).isNone && r.start < e.rE then some 7
  else if e.cages.all (fun c => !s.bit R.SPT_STAT c) then some 8
  else if !s.bit R.SPT_CTL 0 then some 9
  else none

/-- The event of a cause (R389). -/
def sptCode (cause : Nat) : Option Nat :=
  match cause with
  | 1 => some 0xB001
  | 2 | 3 => some 0xB004
  | 4 => some 0xB005
  | 5 | 6 | 7 => some 0xB008
  | 8 => some 0xB006
  | _ => none

/-- A frame is withheld (R389). -/
def State.sptWithhold (s : State) (e cause client : Nat) : State :=
  let s1 := (((s.wr R.SPT_LAST_WH (cause + e * 256)).count R.SPT_WITHHELD 1).setIrq pageSpt 4 0xB)
  match sptCode cause with
  | some code => s1.sptEvent code e (some client)
  | none => s1

/-- The second pass of R391: each value within the ramp of the one before it. -/
def rampLimit (ramp : Int) : Int → List Int → List Int
  | _, [] => []
  | p, x :: xs =>
    let y := clampInt (p - ramp) (p + ramp) x
    y :: rampLimit ramp y xs

/-- Both passes of R391. -/
def Endpoint.limit (e : Endpoint) (p : Int) (sp : List Int) : List Int :=
  rampLimit (e.ramp : Nat) p (sp.map (clampInt e.min e.max))

/-- How many values differ. -/
def changed (a b : List Int) : Nat := ((a.zip b).filter fun x => decide (x.1 ≠ x.2)).length

/-- FSEQ of a frame launched at a strike instant (R393). -/
def fseqOf (t : Nat) : Nat := dtSec t % 2 ^ 32 * 2 ^ 32 + dtNs t

/-- The payload of a frame (R393). -/
def framePayload (e : Endpoint) (r : SetRecord) (sp : List Int) (resume : Bool) : List Byte :=
  let flags := (changed r.sp sp ≠ 0 : Bool).toNat + resume.toNat * 2 + r.late.toNat * 4 + (coloBit r.colophon 11).toNat * 8 +
    (coloBit r.colophon 10).toNat * 16 + (coloBit r.colophon 24).toNat * 32
  let body := leBytes 2 0x7A70 ++ [1] ++ leBytes 1 flags ++ leBytes 2 r.endpoint ++ leBytes 2 0 ++
    leBytes 8 (fseqOf r.strikeAt) ++ dtBytes r.start ++ leBytes 4 e.step ++ sp.flatMap (fun x => leBytes 4 (toTwos 32 x)) ++
    leBytes 8 r.launchM ++ r.colophon.take 4 ++ (r.colophon.drop 8).take 8 ++ (r.colophon.drop 32).take 16 ++
    (r.colophon.drop 4).take 4
  body ++ leBytes 4 (crc32c body)

/-- A number's bytes in network order. -/
def beBytes (n v : Nat) : List Byte := (leBytes n v).reverse

/-- The bytes before a frame's payload on a cage, from the source address on (R392, R400). -/
def State.frameHead (s : State) (cage : Nat) : List Byte :=
  let mac := if cage = 0 then leBytes 4 (s.rd R.SPT_MAC0_LO) ++ leBytes 2 (s.rd R.SPT_MAC0_HI)
    else leBytes 4 (s.rd R.SPT_MAC1_LO) ++ leBytes 2 (s.rd R.SPT_MAC1_HI)
  let tag := s.fld R.SPT_VLAN (16 * cage + 15) (16 * cage)
  let vlan := if tag.testBit 15 then beBytes 2 0x8100 ++ beBytes 2 (bits tag 14 12 * 8192 + bits tag 11 0) else []
  mac ++ vlan ++ beBytes 2 (if s.bit R.SPT_CTL 2 then 0x88B6 else 0x88B5)

/-- The bytes of a frame from the source address on, the frame check sequence over it and the destination last (R392). -/
def State.frameBytes (s : State) (cage dst : Nat) (payload : List Byte) : List Byte :=
  let bs := s.frameHead cage ++ payload
  bs ++ leBytes 4 (crc32 (leBytes 6 dst ++ bs))

/-- The time of a frame on the wire, with preamble and gap, in 1/16 ns: 0.32 ns a byte (R387). -/
def wireTime (bs : List Byte) : Nat := ((bs.length + 26) * 512 + 99) / 100

/-- A frame starts on a cage, which is free again when the frame has passed (R387). -/
def State.sptSend (s : State) (cage dst : Nat) (payload : List Byte) : State :=
  let bs := s.frameBytes cage dst payload
  let s1 := (s.emit (.frame cage dst bs)).count R.SPT_FRAMES_TX 1
  { s1 with spt := { s1.spt with freeAt := kvPut s1.spt.freeAt cage (s1.etime + wireTime bs) } }

/-- An endpoint's record has gone: the one that waited becomes pending (R396). -/
def State.sptNext (s : State) (e : Nat) : State :=
  let s0 : State := { s with spt := { s.spt with launched := kvErase s.spt.launched e } }
  let s1 := s0.setIdle pageSpt s0.spt.launched.isEmpty
  match kvFind s1.spt.waiting e with
  | some w => { s1 with spt := { s1.spt with waiting := kvErase s1.spt.waiting e, pending := kvPut s1.spt.pending e w } }
  | none => s1

/-- The cages on which a launched record's frame has still to start. -/
def State.sptLeft (s : State) (r : SetRecord) : List Nat :=
  (r.entry.getD (s.endpoint r.endpoint)).cages.filter fun c => !r.gone.contains c

/-- Is it the endpoint's turn on a cage: no launched frame of a lower endpoint waits for it (R387)? -/
def State.cageTurn (s : State) (e c : Nat) : Bool :=
  !s.spt.launched.any fun l => l.1 < e && (s.sptLeft l.2).contains c

/-- Is it the endpoint's turn on one of its cages? -/
def State.sptTurn (s : State) (e : Nat) : Bool :=
  match kvFind s.spt.launched e with
  | some r => (s.sptLeft r).any fun c => s.cageTurn e c
  | none => false

/-- A frame that passed its checks on a cage that is up: its setpoints are limited and it is sent; the first of two cages to send it counts
what was limited and enters it in its entry (R390 to R393, R396). -/
def State.sptFrame (s : State) (ep : Endpoint) (r : SetRecord) (c : Nat) : State :=
  let e := r.endpoint
  let p := ep.continues r.start
  let sp := ep.limit (p.getD ep.dflt) r.sp
  let n := changed r.sp sp
  let s1 := if r.sent || n = 0 then s else (s.countSat R.SPT_CLAMPED n).sptEvent 0xB002 e (some r.client)
  let s2 := if r.sent then s1 else s1.setEndpoint e { s1.endpoint e with
    hasLast := true, lastFseq := fseqOf r.strikeAt, lastStart := r.start, lastSp := sp
    rE := r.start + (16 * ep.step + ep.dfltUs) * tickUs }
  s2.sptSend c ep.dst (framePayload ep r sp p.isNone)

/-- A launched record with one cage's check behind it, gone when it was the last (R396). -/
def State.sptGone (s : State) (r : SetRecord) : State :=
  if (s.sptLeft r).isEmpty then s.sptNext r.endpoint
  else { s with spt := { s.spt with launched := kvPut s.spt.launched r.endpoint r } }

/-- A launched frame has its departure on a cage, not before `start`, the strike, and the end of the frame before: withheld, or sent where the
cage is up. Each cage's departure is checked on its own, with the entry that the first one used; a frame withheld on both counts once (R387,
R389, R396; log entry 36). A PTP message that is ready goes first, and the frame waits (R396). `bad` says that a word of the entry is read
poisoned. -/
def State.sptDepart (s : State) (e c start : Nat) (bad : Bool) : State :=
  match kvFind s.spt.launched e with
  | none => s
  | some r =>
    if !(s.sptLeft r).contains c || !s.cageTurn e c then s
    else
      let s1 := (s.until start).untilElapsed (kvGet 0 s.spt.freeAt c)
      if s1.delayReqReady && s1.fld R.TMB_PTP_CTL 9 9 = c then s1.sendDelayReq
      else
        let s2 := if bad && r.entry.isNone then s1.setEndpoint e { s1.endpoint e with poison := true } else s1
        let ep := r.entry.getD (s2.endpoint e)
        let r1 : SetRecord := { r with entry := some ep, gone := c :: r.gone }
        match s2.sptCause ep r s2.dtime with
        | some cause => (if r.held then s2 else s2.sptWithhold e cause r.client).sptGone { r1 with held := true }
        | none => if s2.bit R.SPT_STAT c then (s2.sptFrame ep r c).sptGone { r1 with sent := true } else s2.sptGone r1

/-- SETPOINT_FRAME_DEPART (R387, R389): the frame's departures on the cages whose turn it is, on the second of two at `also`. -/
def execSetpointFrameDepart (endpoint start : Nat) (also : Option Nat) (bad : Bool) (s : State) :
    Host.Outcome State Fault Refusal :=
  settled <|
    match kvFind s.spt.launched endpoint with
    | none => s
    | some r =>
      if s.quiescing pageSpt then s
      else
        match (s.sptLeft r).filter fun c => s.cageTurn endpoint c with
        | [] => s
        | [a] => s.sptDepart endpoint a start bad
        | a :: b :: _ =>
          let then_ := also.getD start
          if then_ < start then (s.sptDepart endpoint b then_ bad).sptDepart endpoint a start bad
          else (s.sptDepart endpoint a start bad).sptDepart endpoint b then_ bad

/-! The endpoint table (R384, R385, R400). -/

/-- Bytes i to i + n − 1 of a record as a number. -/
def fieldOf (bs : List Byte) (i n : Nat) : Nat := ofLe ((bs.drop i).take n)

/-- The 32 bytes a supervisor writes, as an entry (R384). -/
def endpointOf (bs : List Byte) : Endpoint :=
  let ctl := fieldOf bs 6 1
  { dst := fieldOf bs 0 6, en := ctl.testBit 0, cage := bits ctl 2 1, reqCovered := ctl.testBit 3, allowBe := ctl.testBit 4
    hasLast := false, client := fieldOf bs 7 1 % 16, step := fieldOf bs 8 4, ramp := fieldOf bs 12 4 % 2 ^ 31
    min := signedOf 32 (fieldOf bs 16 4), max := signedOf 32 (fieldOf bs 20 4), dflt := signedOf 32 (fieldOf bs 24 4)
    dfltUs := fieldOf bs 28 4, lastFseq := 0, lastStart := 0, rE := 0, lastSp := [], poison := false }

/-- The 128 bytes of an entry (R384). -/
def Endpoint.bytes (e : Endpoint) : List Byte :=
  let ctl := e.en.toNat + e.cage * 2 + e.reqCovered.toNat * 8 + e.allowBe.toNat * 16 + e.hasLast.toNat * 128
  leBytes 6 e.dst ++ leBytes 1 ctl ++ leBytes 1 e.client ++ leBytes 4 e.step ++ leBytes 4 e.ramp ++ leBytes 4 (toTwos 32 e.min) ++
    leBytes 4 (toTwos 32 e.max) ++ leBytes 4 (toTwos 32 e.dflt) ++ leBytes 4 e.dfltUs ++ leBytes 8 e.lastFseq ++
    dtBytes e.lastStart ++ dtBytes e.rE ++ (List.range 16).flatMap fun i => leBytes 4 (toTwos 32 (e.lastSp.getD i 0))

/-- Does R385 refuse a written entry? -/
def Endpoint.refused (e : Endpoint) : Bool :=
  e.step = 0 || e.max < e.min || e.dflt < e.min || e.max < e.dflt || e.cage = 3

/-- The key of client c's own copy of a register (R399). -/
def banked (c key : Nat) : Nat := key + c * bankStep

/-- Bytes copied into 32 registers of a client, four to each. -/
def State.copyWords (s : State) (c : Nat) (reg : Nat → Nat) (bs : List Byte) : State :=
  (List.range 32).foldl (fun t i => t.wr (banked c (reg i)) (fieldOf bs (4 * i) 4)) s

/-- SPT_E[i] as one run of registers. -/
def sptE (i : Nat) : Nat := R.SPT_E 0 + 4 * i

/-- A value written to SPT_CMD by client c (R385, R399, R400). -/
def State.sptCmd (s : State) (c v : Nat) : State :=
  let n := s.fld (banked c R.SPT_SEL) 15 0
  if v.testBit 0 = v.testBit 1 then s
  else if v.testBit 0 then
    let e := s.endpoint n
    if c ≠ 0 && e.client ≠ c then (s.wr (banked c R.SPT_RESULT) 3).accessEvent 0x1002 c R.SPT_CMD
    else (s.copyWords c sptE e.bytes).wr (banked c R.SPT_RESULT) 1
  else
    let e := endpointOf ((List.range 8).flatMap fun i => leBytes 4 (s.rd (banked c (sptE i))))
    if e.refused then (s.wr (banked c R.SPT_RESULT) 5).sptEvent 0xB009 n none
    else
      (({ s with spt := { s.spt with staged := kvPut s.spt.staged n e } }).wr (banked c R.SPT_RESULT) 1).settleRights

/-- SPT_CMD_READ (R400). -/
def execSptCmdRead (c : Client) (s : State) : Host.Outcome State Fault Refusal :=
  settled (s.command c R.SPT_CMD 1 fun t _ raw => t.sptCmd c raw)

/-- SPT_CMD_WRITE (R385). -/
def execSptCmdWrite (c : Client) (s : State) : Host.Outcome State Fault Refusal :=
  settled (s.command c R.SPT_CMD 2 fun t _ raw => t.sptCmd c raw)

/-- SPT_CTL takes a value; with EN 0 every pending record is withheld with cause 0x09 (R389, R395). -/
def State.setSptCtl (s : State) (v : Nat) : State :=
  let s1 := s.wr R.SPT_CTL v
  if v.testBit 0 then s1
  else
    let drop (t : State) (l : KV SetRecord) : State := l.foldl (fun u e => u.sptWithhold e.1 9 e.2.client) t
    let spt := s1.spt
    let s2 := drop (drop (drop { s1 with spt := { spt with pending := [], waiting := [], launched := [] } } spt.launched) spt.pending)
      spt.waiting
    if spt.launched.isEmpty then s2 else s2.setIdle pageSpt true

/-- SPT_CTL_WRITE (R395, R400). -/
def execSptCtlWrite (c : Client) (v : BitVec 32) (s : State) : Host.Outcome State Fault Refusal :=
  settled (s.command c R.SPT_CTL v.toNat fun t new _ => t.setSptCtl new)

/-- CAGE_LINK_CHANGE (R534, R398 to R400): the cage is up with a module present, no fault or loss of signal, and block lock. -/
def execCageLinkChange (cage : CageNo) (modAbs txFault los lock : Bool) (s : State) : Host.Outcome State Fault Refusal :=
  settled <|
    let up := !modAbs && !txFault && !los && lock
    let sig := modAbs.toNat + txFault.toNat * 2 + los.toNat * 4 + lock.toNat * 8
    let was := s.bit R.SPT_STAT cage
    let s1 := ({ s with sys := { s.sys with cageSig := kvPut s.sys.cageSig cage sig } }).setBit R.SPT_STAT cage up
    if was && !up then (s1.setIrq pageSpt 5 0xB).sptEvent 0xB006 0 none else s1

end Sys2Proof.Machine
end

