-- ==== Sys2Proof/Machine/Integrity.lean ====
section
/-! DEFINITION. Memory integrity: demand reads and their classes (R437, R438, R458), the merge buffer (R440, R441), the
scrubber (R445), the triplicated words (R444), retirement (R450 to R452), RB# and the fatal state (R407, R518). -/

namespace Sys2Proof.Machine

/-! RB# (R407) and the fatal state (R518). -/

/-- What a busy condition makes of attention: it cuts a pattern that is leaving, whose attention stays pending, and puts off one that
was due (R409). -/
def State.attnCut (s : State) : State :=
  match s.sys.patternEnd with
  | none => { s with attnWanted := if s.attnWanted = .no then .no else .busy }
  | some t =>
    if s.etime < t then { s with attnWanted := .busy, sys := { s.sys with patternEnd := some s.etime } }
    else if s.attnWanted = .ready && s.sys.attnRead && t + 1000 * tickUs ≤ s.etime then { s with attnWanted := .busy }
    else s

/-- RB# goes low (R407). -/
def State.rbLow (s : State) : State :=
  if s.sys.low then s
  else
    let s1 := s.attnCut
    ({ s1 with sys := { s1.sys with low := true, lowAt := s.etime } }).emit (.rb false)

/-- RB# is released, after no less than 100 µs (R407, R409). -/
def State.rbRelease (s : State) : State :=
  if s.sys.low then
    let s1 := (s.elapse (s.sys.lowAt + 100 * tickUs - s.etime)).emit (.rb true)
    { s1 with sys := { s1.sys with low := false, releasedAt := s1.etime } }
  else s

/-- What the setpoint port loses with the T1 table: the entries and every record; a frame on the wire is cut short (R395). -/
def State.sptLost (s : State) : State :=
  let s1 : State := { s with spt := { s.spt with table := [], staged := [], pending := [], waiting := [], launched := [], freeAt := [] } }
  ((List.range 2).filter fun c => decide (s.etime < kvGet 0 s.spt.freeAt c)).foldl (fun t c => t.emit (.frameCut c)) s1

/-- The module enters FATAL with a cause and the page concerned: RB# stays low, and event 0xC008 (R395, R518, R527). -/
def State.enterFatal (s : State) (cause page : Nat) : State :=
  (((s.sptLost.toPhase 7).wr R.SYS_FATAL (cause + page * 256)).rbLow).raise pageSys 0xC008 none 0 0

/-! Reads of a memory device. -/

/-- The stored word at a data byte address of a device; a word never written is the fill's (R446). -/
def State.devWord (s : State) (d addr : Nat) : BitVec 80 :=
  let a := addr / 8 * 8
  kvGet (bchEncode 0 false a) s.devs.words (d * 2 ^ 40 + a)

/-- A stored word is written. -/
def State.setDevWord (s : State) (d addr : Nat) (w : BitVec 80) : State :=
  let a := addr / 8 * 8
  { s with devs := { s.devs with words := kvSet (bchEncode 0 false a) s.devs.words (d * 2 ^ 40 + a) w } }

/-- A bank's counts grow: corrected words in [15:0], words of class 3 and 4 in [31:16], each saturating (R464). -/
def State.bankCount (s : State) (d bank : Nat) (bad : Bool) : State :=
  let k := d * 65536 + bank
  let v := kvGet 0 s.devs.banks k
  let lo := v % 65536
  let hi := v / 65536
  let v' := if bad then lo + min (hi + 1) 65535 * 65536 else min (lo + 1) 65535 + hi * 65536
  { s with devs := { s.devs with banks := kvPut s.devs.banks k v' } }

/-- What a class does to the device's page: its counters, MEM_LAST_ADDR and MEM_LAST_SYN, and the event with the word address
and the syndrome (R437, R459, R464). -/
def State.eccEvent (s : State) (d addr bank : Nat) (k : EccClass) (syn : Nat × Bool) : State :=
  let p := pageDev d
  let synv := syn.1 + (if syn.2 then 0x4000 else 0)
  match k with
  | .clean => s
  | .single _ => (((s.count (R.MEM_CORR1 p) 1).bankCount d bank false).setIrq p 4 4).raise p 0x4001 none addr synv
  | .double _ _ => (((s.count (R.MEM_CORR2 p) 1).bankCount d bank false).setIrq p 4 4).raise p 0x4001 none addr synv
  | .uncorrectable =>
    let s1 := ((s.countSat (R.MEM_UNCORR p) 1).wr (R.MEM_LAST_ADDR p) (addr / 8 * 8 + 3)).wr (R.MEM_LAST_SYN p) synv
    (((s1.bankCount d bank true).setIrq p 5 4).poisonSeen p).raise p 0x4002 none addr synv
  | .address =>
    let s1 := ((s.countSat (R.MEM_ADDRERR p) 1).wr (R.MEM_LAST_ADDR p) (addr / 8 * 8 + 4)).wr (R.MEM_LAST_SYN p) synv
    (((s1.bankCount d bank true).setIrq p 5 4).poisonSeen p).raise p 0x4003 none addr synv

/-- A device that does not answer: UNRESPONSIVE and event 0x400D; every word read from it is poisoned (R447, R459). -/
def State.deviceDead (s : State) (d addr : Nat) : State :=
  let p := pageDev d
  (((s.setBit (R.MEM_STAT p) 2 true).setIrq p 6 4).poisonSeen p).raise p 0x400D none addr 0

/-- The word a device delivers: the stored bits, or those of another address, with the flips. -/
def State.delivered (s : State) (d addr : Nat) (f : WordFault) : BitVec 80 :=
  f.flips.foldl (fun w i => flipBit w i.val) (s.devWord d (f.wrong.getD addr))

/-- A read of a device word: its data, whether it is delivered poisoned, its class, clean where no word came, and the state with the
event and the write-back, which is left out when the word's block holds a merge entry (R437, R438, R458). -/
def State.demandRead (s : State) (d addr : Nat) (f : WordFault) : Nat × Bool × EccClass × State :=
  if f.dead then (0, true, .clean, s.deviceDead d addr)
  else
    let w := s.delivered d addr f
    let syn := bchSyndrome w addr
    let k := bchClassify syn
    let s1 := s.eccEvent d addr f.bank k syn
    let open_ := (kvFind s.devs.merge (d * 2 ^ 34 + addr / 64)).isSome
    match k with
    | .clean => (codeData w, codePoison w, k, s1)
    | .single _ | .double _ _ =>
      let w' := bchCorrect w k
      (codeData w', codePoison w', k, if open_ then s1 else s1.setDevWord d addr w')
    | _ => (codeData w, true, k, if open_ then s1 else s1.setDevWord d addr (bchEncode (codeData w) true addr))

/-- Which bytes of a region's word an open merge entry holds (R441). -/
def State.mergeHeld (s : State) (h off : Nat) : List Bool :=
  (List.range 8).map fun i => s.devs.merge.any fun e =>
    decide (e.2.region = h) && decide (e.2.off = off / 64 * 64) && e.2.enables.getD (off % 64 + i) false

/-- The words of a T1 or T2 read that do not arrive as stored: events, and for class 3 and 4 the word is poisoned and keeps the
data as read; a word from another address holds data the spec does not give (R437, R438). Bytes that a merge entry holds come from it,
and memory gives no word of which it holds all (R441). -/
def State.eccRead (s : State) (h o : Nat) (ecc : List EccFault) : State :=
  ecc.foldl (fun t f =>
    let off := (o / 8 + f.nth) * 8
    let held := t.mergeHeld h off
    let mixed (w : BitVec 80) : List Byte :=
      (((leBytes 8 (codeData w)).zip (t.memRead h off 8)).zip held).map fun b => if b.2 then b.1.2 else b.1.1
    if held.all id then t
    else if f.fault.dead then (t.deviceDead f.dev f.word).poisonSet h (off / 8) true
    else
      let data := ofLe (t.memRead h off 8)
      let (data0, t0) := if f.fault.wrong.isSome then t.free else (data, t)
      let w := f.fault.flips.foldl (fun w i => flipBit w i.val)
        (bchEncode data0 (t0.memPoisoned h off) (f.fault.wrong.getD f.word))
      let syn := bchSyndrome w f.word
      let k := bchClassify syn
      let t1 := t0.eccEvent f.dev f.word f.fault.bank k syn
      match k with
      | .clean => t1.memWrite h off (mixed w) (codePoison w)
      | .single _ | .double _ _ =>
        let w' := bchCorrect w k
        t1.memWrite h off (mixed w') (codePoison w')
      | _ => t1.memWrite h off (mixed w) true) s

/-! The merge buffer (R440). -/

/-- Open entries of a device. -/
def State.mergeCount (s : State) (d : Nat) : Nat := (s.devs.merge.filter fun e => e.1 / 2 ^ 34 = d).length

/-- MEM_MRG follows the entries open. -/
def State.mergeShow (s : State) (d : Nat) : State := s.wr (R.MEM_MRG (pageDev d)) (s.mergeCount d)

/-- One word of a flushed entry: fresh when all eight enables are set, merged into the word read when some are, untouched when
none is (R440). -/
def State.flushWord (s : State) (d block : Nat) (e : MergeEntry) (faults : List (Nat × WordFault)) (k : Nat) : State :=
  let en := (List.range 8).map fun i => e.enables.getD (8 * k + i) false
  let by_ := (List.range 8).map fun i => e.bytes.getD (8 * k + i) 0
  let addr := block * 64 + 8 * k
  if en.all id then s.setDevWord d addr (bchEncode (ofLe by_) false addr)
  else if en.any id then
    let f := ((faults.find? fun x => x.1 = k).map Prod.snd).getD ⟨[], none, 0, false⟩
    let (old, poison, _, s1) := s.demandRead d addr f
    let ob := leBytes 8 old
    let merged := (List.range 8).map fun i => if en.getD i false then by_.getD i 0 else ob.getD i 0
    let s2 := (s1.count (R.MEM_RMW (pageDev d)) 1).setDevWord d addr (bchEncode (ofLe merged) poison addr)
    if poison then s2.poisonSet e.region ((e.off + 8 * k) / 8) true else s2
  else s

/-- An entry is flushed. -/
def State.flushEntry (s : State) (d block : Nat) (faults : List (Nat × WordFault)) : State :=
  match kvFind s.devs.merge (d * 2 ^ 34 + block) with
  | none => s
  | some e =>
    let s1 := { s with devs := { s.devs with merge := kvErase s.devs.merge (d * 2 ^ 34 + block) } }
    ((List.range 8).foldl (fun t k => t.flushWord d block e faults k) s1).mergeShow d

/-- The block of the oldest entry of a device. -/
def State.oldestEntry (s : State) (d : Nat) : Option Nat :=
  let mine := s.devs.merge.filter fun e => e.1 / 2 ^ 34 = d
  (mine.foldl (fun (best : Option (Nat × Nat)) e =>
    match best with
    | none => some (e.1, e.2.openedAt)
    | some (k, t) => if e.2.openedAt < t then some (e.1, e.2.openedAt) else some (k, t)) none).map fun b => b.1 % 2 ^ 34

/-- Bytes of a block go into its merge entry, which opens when none stands; the oldest is flushed when 64 are in use (R440). A word that
the entry then holds whole is clean again (R440, R441, R448). -/
def State.mergeWrite (s : State) (d block : Nat) (h o : Nat) (at_ : Nat) (bs : List Byte) : State :=
  let key := d * 2 ^ 34 + block
  let s1 := if (kvFind s.devs.merge key).isNone && 64 ≤ s.mergeCount d then
      (match s.oldestEntry d with
        | some b => s.flushEntry d b []
        | none => s)
    else s
  let e := (kvFind s1.devs.merge key).getD ⟨h, o, List.replicate 64 0, List.replicate 64 false, false, s1.etime⟩
  let idx := List.range 64
  let e' := { e with
    bytes := idx.map fun i => if at_ ≤ i && i < at_ + bs.length then bs.getD (i - at_) 0 else e.bytes.getD i 0
    enables := idx.map fun i => (at_ ≤ i && i < at_ + bs.length) || e.enables.getD i false }
  let whole (k : Nat) : Bool := (List.range 8).all fun i => e'.enables.getD (8 * k + i) false
  let s2 : State := { s1 with devs := { s1.devs with merge := kvPut s1.devs.merge key e' } }
  let s3 := if e.region = h && e.off = o then
      ((List.range 8).filter whole).foldl (fun t k => t.poisonSet h ((o + 8 * k) / 8) false) s2
    else s2
  s3.mergeShow d

/-- MERGE_BUFFER_FLUSH (R440). -/
def execMergeBufferFlush (d : DevNo) (block : Nat) (faults : List (Nat × WordFault)) (s : State) :
    Host.Outcome State Fault Refusal :=
  match kvFind s.devs.merge (d.val * 2 ^ 34 + block) with
  | none => settled s
  | some e => settled ((s.elapse (e.openedAt + 256 * tickCycle - s.etime)).flushEntry d.val block faults)

/-! The scrubber (R445, R462). -/

/-- The data bytes of a device: 36 GiB of HBM, 38.4 GiB of LPDDR in whole blocks (R439). -/
def devBytes (d : Nat) : Nat := if d < 8 then 38654705664 else 41231686016

/-- Is a memory device in service? -/
def State.devInService (s : State) (d : Nat) : Bool := s.inService (pageDev d)

/-- The device the scrubber reads: the one SCR_STAT names, or the next in service, if one is left in the pass. -/
def State.scrubDevice (s : State) : Option Nat :=
  (List.range 24).find? fun d => decide (s.fld R.SCR_STAT 5 1 ≤ d) && s.devInService d

/-- A pass ends, and the next starts at the first device (R445, R462). -/
def State.scrubPass (s : State) : State :=
  (((s.setFld R.SCR_STAT 5 1 0).count R.SCR_PASSES 1).wr R.SCR_PASS_SEC (dtSec s.dtime % 2 ^ 48)).setIrq pageScr 4 0

/-- The scrubber moves on: to the next word, the next device in service, or a new pass (R445, R462). -/
def State.scrubNext (s : State) (d pos : Nat) : State :=
  if pos + 8 < devBytes d then s.wr R.SCR_POS (pos + 8)
  else
    let s1 := s.wr R.SCR_POS 0
    match (List.range 24).find? fun e => decide (d < e) && s.devInService e with
    | some e => s1.setFld R.SCR_STAT 5 1 e
    | none => s1.scrubPass

/-- SCRUB_READ: a demand read of the next word, in BE slots, charged to the module block, and held at throttle levels 1 and 2 (R445,
R542). With no device left in service for the pass, the pass ends. -/
def execScrubRead (fault : WordFault) (s : State) : Host.Outcome State Fault Refusal :=
  if s.bit R.SCR_CTL 0 && !s.throttled then
    match s.scrubDevice with
    | none => settled (if (List.range 24).any s.devInService then (s.wr R.SCR_POS 0).scrubPass else s)
    | some d =>
      let s0 := if s.fld R.SCR_STAT 5 1 = d then s else (s.setFld R.SCR_STAT 5 1 d).wr R.SCR_POS 0
      let pos := s0.rd R.SCR_POS
      let (_, _, k, s1) := (s0.setBit R.SCR_STAT 0 true).demandRead d pos fault
      let s2 := match k with
        | .single _ | .double _ _ => s1.count R.SCR_CORR 1
        | .uncorrectable | .address => (s1.countSat R.SCR_UNCORR 1).setIrq pageScr 5 4
        | .clean => s1
      let s3 := if d < 8 then s2.charge 16 (R.ACC_T1_RD 16) 5 8 else s2.charge 16 (R.ACC_T2_RD 16) 6 8
      settled (s3.scrubNext d pos)
  else settled (s.setBit R.SCR_STAT 0 false)

/-! Triplicated words (R444). The on-die words the walk covers: 0 the context table root; 1 + 16 (t - 1) + c the QMIN and QMAX
of client c in tier t, 1 or 2; 33 the DTIME base; 256 + p the rights of page p. -/

/-- What a failed vote does. -/
def State.voteFailed (s : State) (w : Nat) : State :=
  let s1 := s.raise pageErr 0x4008 none w 0
  if w = 0 then s1.enterFatal 0x01 pageCtx
  else if w ≤ 32 then
    let t := (w - 1) / 16 + 1
    let c := (w - 1) % 16
    let s2 := (s1.wr (tqMin c t) 0).wr (tqMax c t) 0
    { s2 with inForce := kvErase (kvErase s2.inForce (tqMin c t)) (tqMax c t) }
  else if w = 33 then (s1.setTmbState stFree).setBit R.TMB_STAT 3 false
  else if 256 ≤ w && w < 512 then
    let p := w - 256
    let s2 := ((s1.setFld (R.PG_OWNER p) 7 0 0xFF).wr (R.PG_GUARD p) 1).setBit (R.PG_CTL p) 31 true
    { s2 with inForce := kvErase (kvErase (kvErase s2.inForce (R.PG_OWNER p)) (R.PG_GUARD p)) (R.PG_CTL p) }
  else s1

/-- Is a number that of a word which the walk covers? -/
def walked (w : Nat) : Bool := decide (w ≤ 33) || (decide (256 ≤ w) && decide (w < 512))

/-- TRIPLICATE_WALK: each word with one minority copy is rewritten with event 0x4007, each with no majority fails its vote. -/
def execTriplicateWalk (minority lost : List Nat) (s : State) : Host.Outcome State Fault Refusal :=
  settled ((lost.filter walked).foldl State.voteFailed
    ((minority.filter walked).foldl (fun t w => t.raise pageErr 0x4007 none w 0) s))

/-! Retirement (R450 to R452). -/

/-- The frames and banks of a device. -/
def devFrames (d : Nat) : Nat := if d < 8 then 18432 else 19661
def devBanks (d : Nat) : Nat := if d < 8 then 2048 else 128

/-- A register that persists in NOR under log k is written there too (R487, R488). -/
def State.wrNor (s : State) (k key v : Nat) : State := (s.wr key v).norSet k key v

/-- MEM_RET_LEFT counts the entries free. -/
def State.retLeft (s : State) (d : Nat) : State :=
  let p := pageDev d
  let f := ((List.range 256).filter fun i => !s.bit (R.MEM_RET_FRAME p i) 31).length
  let b := ((List.range 8).filter fun i => !s.bit (R.MEM_RET_BANK p i) 31).length
  s.wr (R.MEM_RET_LEFT p) (f + b * 65536)

/-- The outcome of a retirement is reported (R452, R464). -/
def State.retResult (s : State) (d r : Nat) : State := s.wr (R.MEM_RET_RESULT (pageDev d)) (1 + 2 * r)

/-- RETIRE_FRAME's effect. -/
def State.retireFrame (s : State) (d : Nat) (region : Option Nat) (reserve : Bool) : State :=
  let p := pageDev d
  let f := s.fld (R.MEM_RET_ARG p) 19 0
  if devFrames d ≤ f then s.retResult d 4
  else if (List.range 256).any fun i => s.bit (R.MEM_RET_FRAME p i) 31 && s.fld (R.MEM_RET_FRAME p i) 19 0 = f then s.retResult d 5
  else
    match (List.range 256).find? fun i => !s.bit (R.MEM_RET_FRAME p i) 31 with
    | none => s.retResult d 3
    | some i =>
      let put (t : State) (pending : Bool) : State :=
        (t.wrNor logRetired (R.MEM_RET_FRAME p i) (f + (if pending then 2 ^ 30 else 0) + 2 ^ 31)).retLeft d
      if reserve || (8 ≤ d && f = 19660) then (put s true).retResult d 2
      else
        match region.bind fun h => (s.region h).map fun _ => h with
        | some h =>
          let s1 := put s true
          ({ s1 with devs := { s1.devs with due := s1.devs.due ++ [(d * 2 ^ 20 + f, h)] } }).retResult d 1
        | none => ((put s false).frameRetired d f).retResult d 0

/-- RETIRE_FRAME (R450, R452). -/
def execRetireFrame (c : Client) (d : DevNo) (region : Option Nat) (reserve : Bool) (s : State) :
    Host.Outcome State Fault Refusal :=
  settled (s.command c (R.MEM_RET_CMD (pageDev d)) 1 fun t _ _ => t.retireFrame d region reserve)

/-- RETIRE_BANK's effect. -/
def State.retireBank (s : State) (d : Nat) : State :=
  let p := pageDev d
  let b := s.fld (R.MEM_RET_ARG p) 19 0
  if devBanks d ≤ b then s.retResult d 4
  else if (List.range 8).any fun i => s.bit (R.MEM_RET_BANK p i) 31 && s.fld (R.MEM_RET_BANK p i) 10 0 = b then s.retResult d 5
  else
    match (List.range 8).find? fun i => !s.bit (R.MEM_RET_BANK p i) 31 with
    | none => s.retResult d 3
    | some i => ((s.wrNor logRetired (R.MEM_RET_BANK p i) (b + 2 ^ 30 + 2 ^ 31)).retLeft d).retResult d 2

/-- RETIRE_BANK (R451, R452). -/
def execRetireBank (c : Client) (d : DevNo) (s : State) : Host.Outcome State Fault Refusal :=
  settled (s.command c (R.MEM_RET_CMD (pageDev d)) 2 fun t _ _ => t.retireBank d)

end Sys2Proof.Machine
end

