-- ==== Sys2Proof/Machine/Flash.lean ====
section
/-! DEFINITION. Flash media management (R274 to R304): the map, quires, staging, garbage collection, wear, spares, and the NVM
commands (R418 to R423). Channel die n has 136 dies, numbered channel times 17 plus position; the physical page address of
page p of block b of die d is (d 10280 + b) 3072 + p (R279). -/

namespace Sys2Proof.Machine

/-! Dies, blocks and pages. -/

/-- A die at first use: positions 0 to 15 in service, position 16 the spare (R274; the numbers of its bad and reserve blocks are
log entry 9). -/
def freshDie (d : Nat) : Die := ⟨if d % 17 = 16 then 1 else 0, 104, 0, 0, [], false⟩

/-- Die d of channel die n. -/
def State.die (s : State) (n d : Nat) : Die := kvGet (freshDie d) s.ftl.dies (n * 136 + d)
def State.setDie (s : State) (n d : Nat) (x : Die) : State :=
  { s with ftl := { s.ftl with dies := kvPut s.ftl.dies (n * 136 + d) x } }

/-- Is the channel of die d of channel die n in service (R515)? -/
def State.channelUp (s : State) (n d : Nat) : Bool := s.inService (pageChn (8 * n + d / 17))

/-- The dies of a group in service, and those that still take programs: a worn one is only read (R276). -/
def State.groupDies (s : State) (n : Nat) : List Nat := (List.range 136).filter fun d => (s.die n d).status = 0
def State.takes (s : State) (n d : Nat) : Bool := (s.die n d).status = 0 && !(s.die n d).worn

/-- A quire; an unlisted one is FREE and never erased (R283, R284). -/
def freshQuire : Quire := ⟨.free, 0, 0, false, [], 0, [], false, 0⟩
def State.quire (s : State) (n q : Nat) : Quire := kvGet freshQuire s.ftl.quires (n * 65536 + q)
def State.setQuire (s : State) (n q : Nat) (x : Quire) : State :=
  { s with ftl := { s.ftl with quires := kvPut s.ftl.quires (n * 65536 + q) x } }

/-- Quires of a group in service at first use: one block of each die each (R274, R283). -/
def groupQuires : Nat := 10176

/-- The block of quire q on die d, when it has one: block q, or its replacement (log entry 9). -/
def State.blockOf (s : State) (n q d : Nat) : Option Nat :=
  let k := (n * 65536 + q) * 136 + d
  if kvGet false s.ftl.dead k then none else some (kvGet q s.ftl.subst k)

/-- The pages of a block: in SLC mode for host writes, in QLC mode otherwise (R274). -/
def blockPages (stream : Nat) : Nat := if stream = 0 then 768 else 3072

/-- A page's key, the die and the index in its block of a page, and the special map entries (R279). -/
def pageKey (n p : Nat) : Nat := n * 2 ^ 32 + p
def pageDie (p : Nat) : Nat := p / (10280 * 3072)
def pageIndex (p : Nat) : Nat := p % 3072
def mapPoisoned : Nat := 0xFFFFFFFD

/-- The map entry of a unit, when it is mapped. -/
def unitKey (h u : Nat) : Nat := h * 2 ^ 40 + u
def State.mapEntry (s : State) (h u : Nat) : Option Nat := kvFind s.ftl.map (unitKey h u)

/-- A page without a header; and the CRC-32C over the fields of a header, whose layout is internal to the firmware (R275; log
entry 56). -/
def newPage (h u group : Nat) (poison : List Nat) (data : List Byte) : PageRec := ⟨h, u, 0, group, 0, poison, data, 0, 0⟩
def PageRec.crc (r : PageRec) : Nat :=
  crc32c (leBytes 8 r.region ++ leBytes 8 r.unit ++ leBytes 8 r.seq ++ leBytes 8 r.group ++ leBytes 8 r.quireSeq ++
    leBytes 1 (r.poison.foldl (fun a k => a ||| 2 ^ k) 0))

/-- The channel die that manages a unit of a region (R278). -/
def unitQdi (r : Region) (u : Nat) : Nat := if r.striped then u % 4 else r.channel / 8

/-- May a unit of a region lie on die d (R278)? -/
def placeOk (r : Region) (d : Nat) : Bool := r.striped || d / 17 = r.channel % 8

/-- The event of a QDI page, with its detail. -/
def State.qdiEvent (s : State) (n code addr aux : Nat) : State := s.raise (pageQdi n) code none addr aux

/-! Life, fill, and read-only mode (R288, R289, R300, R301, R307, R308). -/

/-- Is a block of channel die n, numbered within it, in service: its die is, and it is not retired? -/
def State.blockServes (s : State) (n b : Nat) : Bool := (s.die n (b / 10280)).status = 0 && !s.ftl.retired.contains (n * 2 ^ 24 + b)

/-- Good blocks of a group in service, and over the module: one of each quire on each die in service, but for those that quires are short
of; reserve blocks are not in service (R274, R283). -/
def State.goodBlocks (s : State) (n : Nat) : Nat :=
  10176 * (s.groupDies n).length -
    (s.ftl.dead.filter fun e => e.2 && e.1 / 136 / 65536 = n && (s.die n (e.1 % 136)).status = 0).length
def State.blocksInService (s : State) : Nat := (List.range 4).foldl (fun a n => a + s.goodBlocks n) 0

/-- Life used in percent, as a fraction: tenths of QLC erases of the blocks in service over their rating (R289). -/
def State.lifeNum (s : State) : Nat :=
  ((s.ftl.ec.filter fun e => s.blockServes (e.1 / 2 ^ 24) (e.1 % 2 ^ 24)).foldl (fun a e => a + e.2) 0) * 100
def State.lifeDen (s : State) : Nat := max (15000 * s.blocksInService) 1
def State.life (s : State) : Nat := s.lifeNum / s.lifeDen

/-- User capacity in units (R277). -/
def userUnits : Nat := 14038085936

/-- The SLC buffer with `m` units mapped, between a row of the table at f0 percent and the next at f1, in bytes (R288). -/
def slcBetween (m f0 c0 f1 c1 : Nat) : Nat :=
  c0 * 1000000000 - (c0 - c1) * 1000000000 * (100 * m - f0 * userUnits) / ((f1 - f0) * userUnits)
def slcTable (m : Nat) : Nat :=
  let upTo (f : Nat) : Bool := 100 * m ≤ f * userUnits
  if upTo 40 then 4000000000000
  else if upTo 50 then slcBetween m 40 4000 50 3400
  else if upTo 60 then slcBetween m 50 3400 60 2800
  else if upTo 70 then slcBetween m 60 2800 70 2100
  else if upTo 80 then slcBetween m 70 2100 80 1400
  else if upTo 90 then slcBetween m 80 1400 90 700
  else if upTo 95 then slcBetween m 90 700 95 450
  else if upTo 100 then slcBetween m 95 450 100 256
  else 256000000000

/-- A capacity times the wear factor of R289. -/
def State.worn (s : State) (cap : Nat) : Nat :=
  let n := s.lifeNum
  let d := s.lifeDen
  if n ≤ 100 * d then cap
  else if n ≤ 115 * d then cap * (120 * d - n) / (20 * d)
  else cap / 4

/-- FTL_MAPPED and FTL_FILL follow the map. -/
def State.ftlShow (s : State) : State :=
  let m := s.ftl.map.length
  ((s.wr R.FTL_MAPPED m).wr R.FTL_FILL (min (m * 10000 / userUnits) 10000))

/-- The FTL is idle while no staged group waits for its program (R36). -/
def State.ftlIdle (s : State) : State := s.setIdle pageFtl s.ftl.groups.isEmpty

/-- Read-only mode is entered: open quires close, event 0x500B, and the mode is recorded (R301). -/
def State.enterReadOnly (s : State) : State :=
  if s.ftl.readOnly then s
  else
    let qs := s.ftl.quires.map fun e => (e.1, if e.2.phase = .opened then { e.2 with phase := .closed } else e.2)
    let s1 := ({ s with ftl := { s.ftl with readOnly := true, quires := qs } }).norLog logRoots (.roots s.ftl.roots false)
    let s2 := ((s1.setFld R.FTL_STAT 1 0 1).setIrq pageFtl 5 5).raise pageFtl 0x500B none 0 0
    (List.range 16).foldl (fun t c => t.aerNow c 1 3 2) s2

/-- Units a group has mapped. -/
def State.groupMapped (s : State) (n : Nat) : Nat :=
  (s.ftl.map.filter fun e =>
    match s.region (e.1 / 2 ^ 40) with
    | some r => unitQdi r (e.1 % 2 ^ 40) = n
    | none => false).length

/-- Does a group hold less than two QLC quires and 64 GB beside its mapped units (R297, step 6)? -/
def State.groupSpent (s : State) (n : Nat) : Bool :=
  decide ((s.goodBlocks n * 3072 - s.groupMapped n) * 16384 < 2 * 128 * 3072 * 16384 + 64000000000)

/-- FTL_STAT shows ENDURANCE from 100% of life, and the SLC buffer reduced by wear beyond (R300, R308). -/
def State.wearShow (s : State) : State :=
  (s.setBit R.FTL_STAT 2 (decide (100 * s.lifeDen < s.lifeNum))).setBit R.FTL_STAT 3 (decide (100 ≤ s.life))

/-- One more step of R300 is reported: event 0x5009 for 100% of life, 0x500A for a whole 5% beyond. -/
def State.wearReport (s : State) : State :=
  let k := s.ftl.wearStep
  (({ s with ftl := { s.ftl with wearStep := k + 1 } }).setIrq pageFtl 4 5).raise pageFtl (if k = 0 then 0x5009 else 0x500A) none
    (100 + 5 * k) 0

/-- The steps of R300 as life or blocks are used: ENDURANCE at 100%, an event at each whole 5% beyond, read-only mode at 115% or
at the condition of R297. -/
def State.lifeCheck (s : State) (n : Nat) : State :=
  let l := s.life
  let due := if 100 ≤ l then (l - 100) / 5 + 1 else 0
  let s1 := (List.range (due - s.ftl.wearStep)).foldl (fun t _ => t.wearReport) s.wearShow
  if 115 ≤ l || s1.groupSpent n then s1.enterReadOnly else s1

/-! Quires and placement. -/

/-- The pages written in quire q's block on die d. -/
def Quire.written (x : Quire) (d : Nat) : Nat := kvGet 0 x.wp d

/-- Can the open quire take a page on die d? -/
def State.hasRoom (s : State) (n q d : Nat) (x : Quire) : Bool :=
  s.takes n d && x.dies.contains d && (s.blockOf n q d).isSome && decide (x.written d < blockPages x.stream)

/-- Open quires of a group on which no die has room any more close. -/
def State.closeFull (s : State) (n : Nat) : State :=
  { s with ftl := { s.ftl with quires := s.ftl.quires.map fun e =>
    let room := (List.range 136).any fun d => s.hasRoom n (e.1 % 65536) d e.2
    (e.1, if e.1 / 65536 = n && e.2.phase = .opened && !room then { e.2 with phase := .closed } else e.2) } }

/-- The mapped units whose page lies in a quire, with their pages. -/
def State.validUnits (s : State) (n q : Nat) : List (Nat × PageRec) :=
  (s.ftl.pages.filter fun e => e.1 / 2 ^ 32 = n && e.2.quire = q &&
    s.mapEntry e.2.region e.2.unit = some (e.1 % 2 ^ 32) &&
    (match s.region e.2.region with
      | some r => unitQdi r e.2.unit = n
      | none => false)).map fun e => (e.1 % 2 ^ 32, e.2)

/-- SLC data that waits for a fold: the units of written SLC quires that are mapped (R287, R308). -/
def State.slcUsed (s : State) : Nat :=
  (s.ftl.quires.filter fun e => e.2.stream = 0 && e.2.phase ≠ .free && e.2.phase ≠ .erasing && e.2.phase ≠ .erased).foldl
    (fun a e => a + (s.validUnits (e.1 / 65536) (e.1 % 65536)).length * 16384) 0

/-- Is the SLC buffer fuller than its capacity in force, which is never below the floor that is held back for staged writes (R288,
R297)? -/
def State.slcFull (s : State) : Bool := decide (max (s.rd R.FTL_SLC_CAP) (s.worn 256000000000) < s.slcUsed)

/-- The first quire of a group that a stream has in a phase. -/
def State.quireIn (s : State) (n stream : Nat) (ph : QuirePhase) : Option (Nat × Quire) :=
  s.ftl.quires.find? fun e => e.1 / 65536 = n && e.2.phase = ph && e.2.stream = stream

/-- The open quire of a stream, or the ERASED one that opens next for it, which has passed its blank check; no further quire opens for
host writes while the SLC buffer waits for a fold (R284, R288). -/
def State.openQuire (s : State) (n stream : Nat) : Option Nat :=
  match s.quireIn n stream .opened with
  | some e => some (e.1 % 65536)
  | none =>
    match s.quireIn n stream .erased with
    | some e => if e.2.blank && !(stream = 0 && s.slcFull) then some (e.1 % 65536) else none
    | none => none

/-- The number of FREE, ERASING and ERASED quires of a group (R290, R306). -/
def State.freeQuires (s : State) (n : Nat) : Nat :=
  groupQuires - (s.ftl.quires.filter fun e => e.1 / 65536 = n &&
    (e.2.phase = .opened || e.2.phase = .closed || e.2.phase = .verified)).length

/-- QDI_STAT[8] and FTL_STAT[4] show the groups in foreground garbage collection (R306, R308). -/
def State.fgcShow (s : State) : State :=
  ((List.range 4).foldl (fun t n => t.setBit (R.QDI_STAT n) 8 (t.ftl.fgc.contains n)) s).setBit R.FTL_STAT 4 (!s.ftl.fgc.isEmpty)

/-- A group enters or leaves foreground garbage collection, with event 0x500C at each entry (R290, R295). -/
def State.fgcCheck (s : State) (n : Nat) : State :=
  let now := decide (s.freeQuires n < s.fld R.FTL_GC_CTL 7 0)
  let was := s.ftl.fgc.contains n
  if now && !was then
    ((({ s with ftl := { s.ftl with fgc := n :: s.ftl.fgc } }).setBit (R.QDI_STAT n) 8 true).setBit R.FTL_STAT 4 true).qdiEvent
      n 0x500C n 0
  else if !now && was then
    let l := s.ftl.fgc.filter fun m => m ≠ n
    (({ s with ftl := { s.ftl with fgc := l } }).setBit (R.QDI_STAT n) 8 false).setBit R.FTL_STAT 4 (!l.isEmpty)
  else s

/-- The erase counts of a quire's blocks rise by one erase, in the mode that its stream takes (R289). -/
def State.wearQuire (s : State) (n q stream : Nat) (dies : List Nat) : State :=
  let gain := if stream = 0 then 1 else 10
  let key (b : Nat) : Nat := n * 2 ^ 24 + b
  let blocks := dies.filterMap fun d => (s.blockOf n q d).map fun b => d * 10280 + b
  let ec := blocks.foldl (fun m b => kvPut m (key b) (kvGet 0 m (key b) + gain)) s.ftl.ec
  { s with ftl := { s.ftl with ec := ec } }

/-- An incomplete erase is recognised: the quire goes back to FREE with one more erase on its blocks for it, counted, with event 0x500D
(R299). -/
def State.eraseTorn (s : State) (n q : Nat) : State :=
  let x := s.quire n q
  let s1 := (s.wearQuire n q x.stream x.dies).setQuire n q { x with phase := .free }
  (s1.setFld R.FTL_BOOT 15 8 (min (s1.fld R.FTL_BOOT 15 8 + 1) 255)).raise pageFtl 0x500D none (n * 65536 + q) 0

/-- Before a stream's next program: an ERASED quire that would open but fails its blank check goes back to FREE (R284, R299). -/
def State.blankCheck (s : State) (n stream : Nat) : State :=
  match s.quireIn n stream .opened, s.quireIn n stream .erased with
  | none, some e => if e.2.blank then s else s.eraseTorn n (e.1 % 65536)
  | _, _ => s

/-- Quire q of a group is erased for a stream: its pages go, and its blocks have worn when the erase ends; one that is cut off is counted
when it is recognised (R284, R285, R289, R299). -/
def State.eraseQuire (s : State) (n q stream : Nat) (done : EraseEnd) : State :=
  let x := s.quire n q
  let dies := (s.groupDies n).filter fun d => s.takes n d && (s.blockOf n q d).isSome
  let blocks := dies.map fun d => d * 10280 + (s.blockOf n q d).getD 0
  let pages := s.ftl.pages.filter fun e => !(e.1 / 2 ^ 32 = n && blocks.contains (e.1 % 2 ^ 32 / 3072))
  let s0 := if done = .cut then s else s.wearQuire n q stream dies
  let s1 : State := { s0 with ftl := { s0.ftl with pages := pages } }
  (s1.setQuire n q ⟨if done = .cut then .erasing else .erased, x.seq, stream, false, [], x.freedAt, dies, done = .blank, 0⟩).count
    (R.QDI_ERASES n) blocks.length

/-- Does a read hold keep a quire from being erased (R293)? -/
def State.quireHeld (s : State) (n q : Nat) : Bool :=
  s.ftl.active.any fun h => h % 4 = n && decide (h / 4 < (s.quire n q).freedAt)

/-- A quire opens: its sequence number follows the group's last (R283, R284). -/
def State.opens (s : State) (n q : Nat) : State :=
  let x := s.quire n q
  if x.phase = .erased then
    let seq := kvGet 0 s.ftl.quireSeq n + 1
    let s1 := s.setQuire n q { x with phase := .opened, seq := seq, parity := true }
    ({ s1 with ftl := { s1.ftl with quireSeq := kvPut s1.ftl.quireSeq n seq } }).fgcCheck n
  else s

/-- The parity pages in a group's pool, which has 64 blocks in SLC mode (R286). -/
def State.poolUsed (s : State) (n : Nat) : Nat :=
  (s.ftl.quires.filter fun e => e.1 / 65536 = n && e.2.parity).foldl (fun a e => a + e.2.stripes) 0
def poolPages : Nat := 64 * 768

/-- One page is programmed with its header: into the open quire of a stream, on a die that has room (R275, R286). Answers its physical
page. A stripe that is complete on every die has its parity programmed into the pool; a quire with no room closes. -/
def State.program (s : State) (n stream d : Nat) (rec_ : PageRec) : Option (Nat × State) :=
  match s.openQuire n stream with
  | none => none
  | some q =>
    let s0 := s.opens n q
    let x := s0.quire n q
    match s0.blockOf n q d with
    | none => none
    | some b =>
      if s0.hasRoom n q d x then
        let pg := x.written d
        let p := (d * 10280 + b) * 3072 + pg
        let x1 := { x with wp := kvPut x.wp d (pg + 1) }
        let dies := x.dies.filter fun e => s0.takes n e && (s0.blockOf n q e).isSome
        let stripe := (dies.all fun e => decide (pg < x1.written e)) && decide (s0.poolUsed n < poolPages)
        let full := dies.all fun e => decide (blockPages stream ≤ x1.written e)
        let n' := if stripe then 2 else 1
        let x2 := { x1 with phase := if full then .closed else x1.phase, stripes := x.stripes + (n' - 1) }
        let s1 := s0.setQuire n q x2
        let r := { rec_ with quire := q, seq := s1.ftl.writeSeq, quireSeq := x.seq }
        let s2 := { s1 with ftl := { s1.ftl with
          pages := kvPut s1.ftl.pages (pageKey n p) { r with check := r.crc }, writeSeq := s1.ftl.writeSeq + 1 } }
        some (p, (s2.count (R.QDI_PROGS n) n').count R.FTL_MEDIA_WR (16384 * n'))
      else none

/-- A VERIFIED quire without a valid unit becomes FREE; its parity goes, and the read holds taken by then keep it from being
erased (R284, R286, R293). -/
def State.freeIfEmpty (s : State) (n q : Nat) : State :=
  let x := s.quire n q
  if x.phase = .verified && (s.validUnits n q).isEmpty then
    (s.setQuire n q { x with phase := .free, parity := false, stripes := 0, freedAt := s.ftl.holds }).fgcCheck n
  else s

/-- The map journal of a channel die takes k records, of which its buffer in T2 holds the last 64 MiB (R282, R308). -/
def State.journalRec (s : State) (n k : Nat) : State :=
  let s1 := s.wr R.FTL_JSEQ (s.rd R.FTL_JSEQ + k)
  let b := k * Config.mapRecordBytes
  { s1 with ftl := { s1.ftl with
    jbytes := kvPut s1.ftl.jbytes n (kvGet 0 s1.ftl.jbytes n + b)
    jbuf := kvPut s1.ftl.jbuf n (min (kvGet 0 s1.ftl.jbuf n + b) (2 ^ 26)) } }

/-- A change of a unit's map entry is journalled, and the map segment of 4 MiB that holds the entry becomes dirty (R282; log entry 56). -/
def State.journalUnit (s : State) (n h u : Nat) : State :=
  let s1 := s.journalRec n 1
  let k := (n, h * 2 ^ 40 + u / 2 ^ 20)
  if s1.ftl.dirty.contains k then s1 else { s1 with ftl := { s1.ftl with dirty := k :: s1.ftl.dirty } }

/-- The quire that a unit's page lies in. -/
def State.quireOf (s : State) (n h u : Nat) : Option Nat :=
  match s.mapEntry h u with
  | some p => (kvFind s.ftl.pages (pageKey n p)).map fun r => r.quire
  | none => none

/-- A unit's map entry changes, journalled; the client's use follows, and the quire it leaves may become FREE (R280, R284). -/
def State.setMap (s : State) (n h u : Nat) (e : Option Nat) : State :=
  let old := s.quireOf n h u
  let was := (s.mapEntry h u).isSome
  let k := unitKey h u
  let m := match e with
    | some p => kvPut s.ftl.map k p
    | none => kvErase s.ftl.map k
  let s1 := ({ s with ftl := { s.ftl with map := m } }).journalUnit n h u
  let s2 := match s.region h with
    | some r => if e.isSome && !was then s1.addUse r.client 3 1 else if e.isNone && was then s1.subUse r.client 3 1 else s1
    | none => s1
  (match old with
    | some q => s2.freeIfEmpty n q
    | none => s2).ftlShow

/-- Unmap every unit of a T3 region, each change journalled; the units no longer count for the client, and the quires they leave may
become FREE (R280, R282, R284). -/
def State.unmapRegion (s : State) (h : Nat) (r : Region) : State :=
  let lo := h * 2 ^ 40
  let hi := lo + 2 ^ 40
  let gone := (kvRange s.ftl.map lo hi).map fun e => (unitQdi r (e.1 - lo), e.1 - lo)
  let left := (gone.filterMap fun e => (s.quireOf e.1 h e.2).map fun q => (e.1, q)).eraseDups
  let s1 := { s with ftl := { s.ftl with map := kvDropRange s.ftl.map lo hi } }
  let s2 := gone.foldl (fun t e => t.journalUnit e.1 h e.2) (s1.subUse r.client 3 gone.length)
  (left.foldl (fun t e => t.freeIfEmpty e.1 e.2) s2).ftlShow

/-- A region is freed (R192, R450). -/
def State.freeRegion (s : State) (h : Nat) : State :=
  match s.region h with
  | none => s
  | some r =>
    let s1 := { s with
      tiers := { s.tiers with regions := kvErase s.tiers.regions h }
      mem := kvDropRange s.mem (h * regionSpan) ((h + 1) * regionSpan)
      memPoison := kvDropRange s.memPoison (h * regionSpan) ((h + 1) * regionSpan) }
    let s2 := if r.tier = 3 then s1.unmapRegion h r else s1.subUse r.client r.tier (chargeOf r.tier r.bytes)
    s2.retireDue h

/-! Reading units. -/

/-- The data of a unit as the map holds it: 16 KiB and the codewords that carry poison; all four when the unit is lost. -/
def State.unitData (s : State) (n h u : Nat) : List Byte × List Nat :=
  match s.mapEntry h u with
  | none => ([], [])
  | some p =>
    if p = mapPoisoned then ([], [0, 1, 2, 3])
    else
      match kvFind s.ftl.pages (pageKey n p) with
      | some r => (r.data, r.poison)
      | none => ([], [])

/-- `n` bytes of a unit's data from an offset; a missing tail is zeros. -/
def slice (d : List Byte) (o n : Nat) : List Byte := (List.range n).map fun i => d.getD (o + i) 0

/-- A read is counted, and its retry remembered for R300. -/
def State.countRead (s : State) (n : Nat) (retry : Bool) : State :=
  let k := kvGet 0 s.ftl.reads n + 1
  let l := kvGet [] s.ftl.retryAt n
  let s1 := { s with ftl := { s.ftl with
    reads := kvPut s.ftl.reads n k
    retryAt := if retry then kvPut s.ftl.retryAt n ((k :: l).filter fun j => k < j + 2 ^ 20) else s.ftl.retryAt } }
  let s2 := s1.count (R.QDI_READS n) 1
  if retry then s2.count (R.QDI_RETRY n) 1 else s2

/-- Can a page be rebuilt: its quire holds parity, and no other page of its stripe lies on a failed die (R286, R287)? -/
def State.rebuilds (s : State) (n p : Nat) (r : PageRec) : Bool :=
  (s.quire n r.quire).parity && !s.ftl.pages.any fun e =>
    e.1 / 2 ^ 32 = n && e.2.quire = r.quire && e.2.quireSeq = r.quireSeq && e.1 % 2 ^ 32 ≠ p &&
      pageIndex (e.1 % 2 ^ 32) = pageIndex p && (s.die n (pageDie (e.1 % 2 ^ 32))).status = 3

/-- Has the quire that takes a stream's next page room on die d? -/
def State.roomOn (s : State) (n stream d : Nat) : Bool :=
  match s.openQuire n stream with
  | some q => s.hasRoom n q d (s.quire n q)
  | none => false

/-- The die that a rebuilt unit of a region goes to: the one given, when its placement allows it and it has room, else the lowest such
(R278). -/
def State.rebuildDie (s : State) (n h : Nat) (d : Option GroupDie) : Option Nat :=
  match s.region h with
  | some r => ((d.map Fin.val).toList ++ s.groupDies n).find? fun k => placeOk r k && s.roomOn n 2 k
  | none => none

/-- Garbage collection's quire gives way to a FREE one, erased for it, when a unit to be rebuilt has no place in it (R276, R284; log entry
56). -/
def State.freshQuire (s : State) (n : Nat) : State :=
  let qs := s.ftl.quires.map fun e =>
    (e.1, if e.1 / 65536 = n && e.2.phase = .opened && e.2.stream = 2 then { e.2 with phase := .closed } else e.2)
  let s1 : State := { s with ftl := { s.ftl with quires := qs } }
  match (List.range groupQuires).find? fun q => (s1.quire n q).phase = .free && !s1.quireHeld n q with
  | some q => s1.eraseQuire n q 2 .blank
  | none => s1

/-- A place for a unit of region h to be rebuilt, and the state with the quire that has it. -/
def State.rebuildPlace (s : State) (n h : Nat) (d : Option GroupDie) : Option Nat × State :=
  let s0 := s.blankCheck n 2
  match s0.rebuildDie n h d with
  | some k => (some k, s0)
  | none =>
    let s1 := s0.freshQuire n
    (s1.rebuildDie n h d, s1)

/-- A die's operation is suspended for a read: 1 a program, 2 an erase, 3 both; a BE read suspends an erase alone (R291). -/
def State.suspend (s : State) (n d : Nat) (isProgram lc : Bool) : State :=
  if isProgram && !lc then s
  else
    let k := n * 136 + d
    let v := kvGet 0 s.ftl.suspended k ||| (if isProgram then 1 else 2)
    ({ s with ftl := { s.ftl with suspended := kvPut s.ftl.suspended k v } }).countSat (R.QDI_SUSP n) 1

/-- A read of one unit's page with what the medium does to it: a codeword that fails after all retries is rebuilt from parity,
its unit moved with event 0x5004, or else the unit is poisoned with event 0x5003 (R287). -/
def State.readUnit (s : State) (n h u : Nat) (f : Option ReadFault) : State :=
  match s.mapEntry h u with
  | none => s
  | some p =>
    if p = mapPoisoned then s
    else
      match f with
      | none => s.countRead n false
      | some f =>
        let s1 := s.countRead n f.retry
        if f.codewords.isEmpty then s1
        else
          match kvFind s1.ftl.pages (pageKey n p) with
          | none => s1
          | some r =>
            if s1.rebuilds n p r && !f.rebuildFails then
              let (d, s2) := (s1.qdiEvent n 0x5004 (unitKey h u) (pageDie p)).rebuildPlace n h (some f.die)
              match d.bind fun k => s2.program n 2 k r with
              | some (p', s3) => s3.setMap n h u (some p')
              | none => s2
            else
              let s2 := (s1.setMap n h u (some mapPoisoned)).countSat (R.QDI_UNCORR n) 1
              (s2.setIrq (pageQdi n) 5 4).qdiEvent n 0x5003 (unitKey h u) (pageDie p)

/-- A read of a unit by host software, a channel engine or the Binder, of class LC or BE; it suspends the operation that it meets at the
unit's die (R290, R291). -/
def State.readAs (s : State) (lc : Bool) (n h u : Nat) (f : Option ReadFault) : State :=
  let s1 := match f.bind ReadFault.meets, s.mapEntry h u with
    | some isProgram, some p => if p = mapPoisoned then s else s.suspend n (pageDie p) isProgram lc
    | _, _ => s
  s1.readUnit n h u f

/-! NVM commands (R418 to R423). -/

/-- Blocks per unit. -/
def unitBlocks : Nat := 4

/-- The state of the module that refuses an NVM command: SC 82h, DNR 0 in bring-up or activation (R423), DNR 1 without T3 or,
for a change, without the bank (R517, R519). -/
def State.nvmState (s : State) (writes : Bool) : Option Bool :=
  if s.noT3 then some true else if writes && s.noWrite then some true else if s.notReady then some false else none

/-- Would `bytes` more not fit the 8 GiB of write staging in T2 (R174, R297)? -/
def State.stagingFull (s : State) (bytes : Nat) : Bool :=
  decide (2 ^ 33 < (s.ftl.groups.foldl (fun a g => g.2.units.foldl (fun b u => b + u.2.2.1.length) a) 0) + bytes)

/-- The shape of an NVM command: on an I/O queue, with its namespace attached and its blocks within it. One that reaches a quiesced FTL
waits at the head of its queue (R38), and so does one that would write while write staging is full (R297). -/
def State.nvm (s : State) (cid : Cid) (nsid slba nlb limit : Nat) (writes : Bool) (eff : State → Namespace → Region → State) :
    State :=
  let waits := writes && s.nvmState true = none && !s.readOnly && s.stagingFull (4096 * min nlb 512)
  if s.fetchable cid && !s.quiescing pageFtl && !waits then
    let t := s.fetch cid
    if cid.q = 0 then t.failNvme cid 0 scOpcode true 0
    else
      match t.nvmState writes with
      | some dnr => t.failNvme cid 0 scNotReady dnr 0
      | none =>
        match kvFind t.namespaces nsid with
        | none => t.failNvme cid 0 scNamespace true 0
        | some ns =>
          if ns.client ≠ cid.c.val then t.failNvme cid 0 scNamespace true 0
          else if nlb = 0 || limit < nlb then t.failNvme cid 0 scField true 0
          else if ns.blocks < slba + nlb then t.failNvme cid 0 scLba true 0
          else if writes && t.readOnly then (t.tierRefuse cid.c).failNvme cid 0 scWriteProtected true 0x07
          else
            match t.region ns.region with
            | some r => eff t ns r
            | none => t.failNvme cid 0 scNamespace true 0
  else s

/-- Units that staged groups of a client will map and that are not mapped yet. -/
def State.stagedNew (s : State) (c : Nat) : Nat :=
  s.ftl.groups.foldl (fun a g =>
    match s.region g.2.region with
    | some r => if r.client = c then a + (g.2.units.filter fun u => (s.mapEntry g.2.region u.1).isNone).length else a
    | none => a) 0

/-- The pieces of a range of bytes of a region, unit by unit: the unit, the offset in it, the bytes. -/
def pieces (o : Nat) (data : List Byte) : Nat → List (Nat × Nat × List Byte)
  | 0 => []
  | n + 1 =>
    if data.isEmpty then []
    else
      let at_ := o % 16384
      let k := min data.length (16384 - at_)
      (o / 16384, at_, data.take k) :: pieces (o + k) (data.drop k) n

/-- The pieces that lie in one aligned 256 KiB range, which form one atomic group (R281); a second piece of a unit starts another, so that
it is merged with what the first has written (R280). -/
def grouped : List (Nat × Nat × List Byte) → List (List (Nat × Nat × List Byte))
  | [] => []
  | x :: xs =>
    match grouped xs with
    | (y :: ys) :: gs => if x.1 / 16 = y.1 / 16 && !(y :: ys).any (fun z => z.1 = x.1) then (x :: y :: ys) :: gs else [x] :: (y :: ys) :: gs
    | gs => [x] :: gs

/-- Groups enter write staging under a new write, which completes when all are programmed (R281, R297). -/
def State.stage (s : State) (cid : Option Cid) (nsid h : Nat) (marks : Nat → List Nat)
    (ps : List (Nat × Nat × List Byte)) : State :=
  let gs := grouped ps
  let w := s.ftl.nextWrite
  let new := (List.range gs.length).map fun i =>
    (s.ftl.nextGroup + i, (⟨w, h, (gs.getD i []).map fun u => (u.1, u.2.1, u.2.2, marks u.1)⟩ : StagedGroup))
  let bytes := ps.foldl (fun a u => a + u.2.2.length) 0
  let f := { s.ftl with
    writes := kvPut s.ftl.writes w ⟨cid, nsid, gs.length, s.ftl.order⟩
    groups := s.ftl.groups ++ new
    nextWrite := w + 1
    nextGroup := s.ftl.nextGroup + gs.length
    order := s.ftl.order + 1 }
  (({ s with ftl := f }).count R.FTL_HOST_WR bytes).ftlIdle

/-- The units that pieces would newly map. -/
def State.newUnits (s : State) (h : Nat) (ps : List (Nat × Nat × List Byte)) : Nat :=
  ((ps.filter fun u => (s.mapEntry h u.1).isNone).map fun u => u.1).eraseDups.length

/-- The NVMe status of a tier status (R423). -/
def State.tierNvme (s : State) (cid : Cid) (status : Nat) : State :=
  let s1 := s.tierRefuse cid.c
  if status = 0x07 then s1.failNvme cid 0 scWriteProtected true status
  else s1.failNvme cid 0 scCapacity (!gonumRetry status) status

/-- A region's modification count rises (R315). -/
def State.modified (s : State) (h : Nat) : State :=
  match s.region h with
  | some r => s.setRegion h { r with modCount := r.modCount + 1 }
  | none => s

/-- WRITE: data of a poisoned TLP writes nothing; a write to unmapped units is tested against the quotas; otherwise the data is
staged, and the Write completes when its groups are programmed (R281, R297, R419, R420, R423). -/
def execWrite (cid : Cid) (nsid slba : Nat) (data : List Byte) (poisoned : Bool) (s : State) :
    Host.Outcome State Fault Refusal :=
  let nlb := (data.length + 4095) / 4096
  settled (s.nvm cid nsid slba nlb 512 true fun t ns r =>
    if poisoned then (t.raise pageHif 0x1009 (some cid.c.val) cid.id 0).failNvme cid 0 scData true 0
    else
      let ps := pieces (slba * 4096) (slice data 0 (nlb * 4096)) (nlb + 1)
      let status := t.allocTest r.client 3 (t.newUnits ns.region ps + t.stagedNew r.client)
      if t.newUnits ns.region ps ≠ 0 && status ≠ 0 then t.tierNvme cid status
      else
        ((t.stage (some cid) nsid ns.region (fun _ => []) ps).chargeHost r.client 0 (nlb * 4096)).chargeT3 r.client 0 (nlb * 4096))

/-- Waiting flushes complete once every earlier Write and Write Zeroes of the device to their namespace has (R421). -/
def State.settleFlushes (s : State) : State :=
  s.ftl.flushes.foldl (fun t f =>
    let waits := t.ftl.writes.any fun w => w.2.nsid = f.2.1 && decide (w.2.order < f.2.2) &&
      (match w.2.cid with
        | some k => k.c = f.1.c
        | none => false)
    if waits then t
    else ({ t with ftl := { t.ftl with flushes := t.ftl.flushes.erase f } }).succeed f.1 0 0) s

/-- A write whose groups are all programmed completes (R281); one of an NVM command counts as a modification of its region (R315). -/
def State.writeDone (s : State) (w : Nat) (h : Nat) : State :=
  match kvFind s.ftl.writes w with
  | none => s
  | some x =>
    if x.left ≤ 1 then
      let s0 : State := { s with ftl := { s.ftl with writes := kvErase s.ftl.writes w } }
      let s1 := if x.nsid = 0 then s0 else s0.modified h
      (match x.cid with
        | some k => s1.succeed k 0 0
        | none => s1).settleFlushes
    else { s with ftl := { s.ftl with writes := kvPut s.ftl.writes w { x with left := x.left - 1 } } }

/-- A unit's old data with a piece laid over it, and its poison markers: a block written whole loses its marker, and a poisoned
piece sets those it names (R277, R448, R449). -/
def State.mergeUnit (s : State) (n h : Nat) (u : Nat × Nat × List Byte × List Nat) : List Byte × List Nat :=
  let (old, marks) := s.unitData n h u.1
  let (o, bs, poison) := u.2
  let data := (List.range 16384).map fun i => if o ≤ i && i < o + bs.length then bs.getD (i - o) 0 else old.getD i 0
  let keep := (List.range 4).filter fun k =>
    let whole := o ≤ 4096 * k && 4096 * k + 4096 ≤ o + bs.length
    (marks.contains k && !whole) || poison.contains k
  (data, keep)

/-- Units of a group are programmed one by one on the dies given; nothing is answered when one has no room. -/
def State.programAll (s : State) (g : Nat) (h : Nat) (r : Region) :
    List (Nat × Nat × List Byte × List Nat) → List GroupDie → Option (List (Nat × Nat × Nat) × State)
  | [], _ => some ([], s)
  | _ :: _, [] => none
  | u :: us, d :: ds =>
    let n := unitQdi r u.1
    if placeOk r d.val then
      let (data, marks) := s.mergeUnit n h u
      match s.program n 0 d.val (newPage h u.1 g marks data) with
      | none => none
      | some (p, s1) =>
        let s2 := if !u.2.2.2.isEmpty then s1.raise pageErr 0x400B none (unitKey h u.1) 0 else s1
        match s2.programAll g h r us ds with
        | none => none
        | some (l, s3) => some ((n, u.1, p) :: l, s3)
    else none

/-- What precedes the programs of a group: the blank check of a quire that would open, and the reads of the units that it covers in part,
with what the medium does to them (R277, R284, R287). -/
def State.groupReads (s : State) (h : Nat) (r : Region) (units : List (Nat × Nat × List Byte × List Nat)) (dies : List CopyTo) :
    State :=
  let s0 := ((List.range 4).filter fun n => units.any fun u => unitQdi r u.1 = n).foldl (fun t n => t.blankCheck n 0) s
  (units.zip dies).foldl (fun t u =>
    if u.1.2.2.1.length = 16384 then t else t.readUnit (unitQdi r u.1.1) h u.1.1 u.2.fault) s0

/-- PROGRAM_COMPLETE: every unit of a staged group is in SLC pages, each channel die involved has its group record, the map takes
the new pages together, and the Write completes with its last group (R281, R284, R297). -/
def execProgramComplete (group : Nat) (dies : List CopyTo) (s : State) : Host.Outcome State Fault Refusal :=
  match kvFind s.ftl.groups group with
  | none => settled s
  | some g =>
    match s.region g.region with
    | none =>
      settled (({ s with ftl := { s.ftl with groups := kvErase s.ftl.groups group } }).ftlIdle.writeDone g.write g.region)
    | some r =>
      let s0 := s.groupReads g.region r g.units dies
      match s0.programAll group g.region r g.units (dies.map CopyTo.die) with
      | none => settled s0
      | some (l, s1) =>
        let s2 := l.foldl (fun t e => t.setMap e.1 g.region e.2.1 (some e.2.2)) s1
        let qs := (List.range 4).filter fun n => l.any fun e => e.1 = n
        let recs := qs.map fun n => (⟨n, group, l.length, (l.filter fun e => e.1 = n).length⟩ : GroupRec)
        let s3 := { s2 with ftl := { s2.ftl with
          groups := kvErase s2.ftl.groups group, records := s2.ftl.records ++ recs } }
        let s4 := qs.foldl (fun t n => t.journalRec n 1) s3.ftlIdle
        settled (qs.foldl State.lifeCheck (s4.writeDone g.write g.region))

/-- READ: data, zeros for unmapped units, or Unrecovered Read Error when a block lies in a poisoned unit or codeword (R287, R422,
R423, R449). -/
def execRead (cid : Cid) (nsid slba nlb : Nat) (faults : List ReadFault) (s : State) : Host.Outcome State Fault Refusal :=
  settled (s.nvm cid nsid slba nlb 512 false fun t ns r =>
    let h := ns.region
    let u0 := slba / unitBlocks
    let units := (List.range ((slba + nlb - 1) / unitBlocks + 1 - u0)).map fun i => (i, u0 + i)
    let t1 := units.foldl (fun a e => a.readAs false (unitQdi r e.2) h e.2 (faults.find? fun f => f.nth = e.1)) t
    let blocks := (List.range nlb).map fun i => slba + i
    let bad := blocks.find? fun b => (t1.unitData (unitQdi r (b / unitBlocks)) h (b / unitBlocks)).2.contains (b % unitBlocks)
    match bad with
    | some b =>
      let t2 := (t1.poisonSeen pageHif).raise pageErr 0x4009 (some cid.c.val) b 0
      let x := t2.ctrl cid.c
      let t3 := t2.complete cid 2 0x81 true 0 0
      -- the Error Information entry names the first such block
      let e := (x.logError cid.q cid.id 0x281 b nsid).errors.take 1
      t3.setCtrl cid.c { t3.ctrl cid.c with errors := (e ++ (t3.ctrl cid.c).errors.drop 1).take 64 }
    | none =>
      let data := (blocks.map fun b =>
        slice (t1.unitData (unitQdi r (b / unitBlocks)) h (b / unitBlocks)).1 (b % unitBlocks * 4096) 4096).flatten
      (((t1.emit (.hostData cid.c cid.q cid.id data)).chargeHost r.client (nlb * 4096) 0).chargeT3 r.client
        (units.length * 16384) 0).succeed cid 0 0)

/-- A deallocation of blocks: whole units become unmapped at once; the pieces of units covered in part are answered, to be
written with zeros (R280). -/
def State.deallocate (s : State) (h : Nat) (r : Region) (slba nlb : Nat) : State × List (Nat × Nat × List Byte) :=
  let ps := pieces (slba * 4096) (List.replicate (nlb * 4096) 0) (nlb + 1)
  let whole := ps.filter fun p => p.2.2.length = 16384
  let part := ps.filter fun p => p.2.2.length ≠ 16384
  (whole.foldl (fun t p => if (t.mapEntry h p.1).isSome then t.setMap (unitQdi r p.1) h p.1 none else t) s, part)

/-- Deallocated ranges, the zeros of their partial units staged, and completion with the last of them. -/
def State.zeroBlocks (s : State) (cid : Cid) (ns : Namespace) (r : Region) (ranges : List (Nat × Nat)) : State :=
  let step (a : State × List (Nat × Nat × List Byte)) (e : Nat × Nat) : State × List (Nat × Nat × List Byte) :=
    let b := a.1.deallocate ns.region r e.1 e.2
    (b.1, a.2 ++ b.2)
  let (s1, part) := ranges.foldl step (s, [])
  if part.isEmpty then (s1.modified ns.region).succeed cid 0 0
  else
    let status := s1.allocTest r.client 3 (s1.newUnits ns.region part + s1.stagedNew r.client)
    if s1.newUnits ns.region part ≠ 0 && status ≠ 0 then s1.tierNvme cid status
    else s1.stage (some cid) ((kvKeys (s1.namespaces.filter fun e => e.2.region = ns.region)).headD 0) ns.region (fun _ => []) part

/-- WRITE_ZEROES (R280, R419). -/
def execWriteZeroes (cid : Cid) (nsid slba nlb : Nat) (s : State) : Host.Outcome State Fault Refusal :=
  settled (s.nvm cid nsid slba nlb 65536 true fun t ns r => t.zeroBlocks cid ns r [(slba, nlb)])

/-- DATASET_MANAGEMENT with up to 256 ranges; only the deallocate attribute has an effect (R280, R419). -/
def execDatasetManagement (cid : Cid) (nsid : Nat) (deallocate : Bool) (ranges : List (Nat × Nat)) (s : State) :
    Host.Outcome State Fault Refusal :=
  settled (s.nvm cid nsid 0 1 1 true fun t ns r =>
    if 256 < ranges.length then t.failNvme cid 0 scField true 0
    else if ranges.any fun e => ns.blocks < e.1 + e.2 then t.failNvme cid 0 scLba true 0
    else if deallocate then t.zeroBlocks cid ns r (ranges.filter fun e => 0 < e.2)
    else t.succeed cid 0 0)

/-- FLUSH (R421). -/
def execFlush (cid : Cid) (nsid : Nat) (s : State) : Host.Outcome State Fault Refusal :=
  settled (s.nvm cid nsid 0 1 1 false fun t _ _ =>
    ({ t with ftl := { t.ftl with flushes := t.ftl.flushes ++ [(cid, nsid, t.ftl.order)] } }).settleFlushes)

/-! Failures (R276, R298). -/

/-- A die's reserve blocks fall below FTL_RSV_WARN: event 0x5007 as the limit is crossed, and the SMART warning (R304, R416). -/
def State.reserveWarn (s : State) (n d before now : Nat) : State :=
  let lim := s.fld R.FTL_RSV_WARN 15 0
  if lim ≤ before && now < lim then (List.range 16).foldl (fun t c => t.aerNow c 1 0 2) (s.qdiEvent n 0x5007 d now) else s

/-- The block of quire q on die d is retired: a reserve block takes its place; with none left the quire is short there and the die is worn
(R276, R283, R298). -/
def State.retireBlock (s : State) (n q d : Nat) : State :=
  let x := s.die n d
  let k := (n * 65536 + q) * 136 + d
  let s1 := s.setDie n d { x with grown := x.grown + 1, reserve := x.reserve - 1, worn := x.worn || x.reserve = 0 }
  let f := { s1.ftl with retired := match s.blockOf n q d with
    | some b => (n * 2 ^ 24 + (d * 10280 + b)) :: s1.ftl.retired
    | none => s1.ftl.retired }
  let s2 := if x.reserve = 0 then
      ({ s1 with ftl := { f with dead := kvPut f.dead k true } }).setBit (R.QDI_FREE_Q n) 24 true
    else { s1 with ftl := { f with subst := kvPut f.subst k (10280 - x.reserve) } }
  ((((s2.setIrq (pageQdi n) 4 5).qdiEvent n 0x5001 (d * 65536 + q) d).reserveWarn n d x.reserve (x.reserve - 1)).closeFull n).lifeCheck n

/-- Where copies go, when nothing befalls the reads. -/
def clean (dies : List GroupDie) : List CopyTo := dies.map fun d => ⟨d, none⟩

/-- Units are read and copied into a stream, one to each die given, and their map entries follow while they hold the page read (R287,
R294); units without a die stay. -/
def State.copyUnits (s : State) (n stream : Nat) : List (Nat × PageRec) → List CopyTo → State
  | [], _ => s
  | _ :: _, [] => s
  | e :: es, d :: ds =>
    let (h, u) := (e.2.region, e.2.unit)
    let s0 := (s.blankCheck n stream).readUnit n h u d.fault
    let ok := match s0.region h with
      | some r => placeOk r d.die
      | none => false
    match (if ok && s0.mapEntry h u = some e.1 then s0.program n stream d.die e.2 else none) with
    | some (p, s1) => (s1.setMap n h u (some p)).copyUnits n stream es ds
    | none => s0.copyUnits n stream es ds

/-- Units are read and copied into the group's garbage-collection quire, one to each die given; the map keeps the pages read until that
quire is VERIFIED (R298). -/
def State.copyAside (s : State) (n : Nat) : List (Nat × PageRec) → List CopyTo → State
  | [], _ => s
  | _ :: _, [] => s
  | e :: es, d :: ds =>
    let (h, u) := (e.2.region, e.2.unit)
    let s0 := (s.blankCheck n 2).readUnit n h u d.fault
    let ok := match s0.region h with
      | some r => placeOk r d.die
      | none => false
    match (if ok && s0.mapEntry h u = some e.1 then s0.program n 2 d.die e.2 else none) with
    | some (p, s1) =>
      let s2 : State := { s1 with ftl := { s1.ftl with copies := s1.ftl.copies ++ [⟨n, h, u, e.1, p⟩] } }
      s2.copyAside n es ds
    | none => s0.copyAside n es ds

/-- Copies that are no good are forgotten; their units are copied again (R298). -/
def State.forgetCopies (s : State) (bad : GcCopy → Bool) : State :=
  { s with ftl := { s.ftl with copies := s.ftl.copies.filter fun c => !bad c } }

/-- The pages that copies were made of. -/
def State.sources (s : State) (l : List GcCopy) : List (Nat × PageRec) :=
  l.filterMap fun c => (kvFind s.ftl.pages (pageKey c.n c.src)).map fun r => (c.src, r)

/-- The copies that lie in quire q of group n. -/
def State.copiesIn (s : State) (n q : Nat) : List GcCopy :=
  s.ftl.copies.filter fun c => c.n = n && (kvFind s.ftl.pages (pageKey n c.dst)).any fun r => r.quire = q

/-- A VERIFIED quire's copies enter the map, each where the map still names the page read (R294, R298). -/
def State.commitCopies (s : State) (n q : Nat) : State :=
  let l := s.copiesIn n q
  l.foldl (fun t c => if t.mapEntry c.region c.unit = some c.src then t.setMap n c.region c.unit (some c.dst) else t)
    (s.forgetCopies fun c => l.contains c)

/-- Mapped units whose page lies on a die. -/
def State.unitsOn (s : State) (n d : Nat) : List (Nat × PageRec) :=
  (s.ftl.pages.filter fun e => e.1 / 2 ^ 32 = n && pageDie (e.1 % 2 ^ 32) = d &&
    s.mapEntry e.2.region e.2.unit = some (e.1 % 2 ^ 32) &&
    (match s.region e.2.region with
      | some r => unitQdi r e.2.unit = n
      | none => false)).map fun e => (e.1 % 2 ^ 32, e.2)

/-- PROGRAM_FAILURE: of the open quire, or of the ERASED one that the program opens; the block is retired and replaced, the units in it and
those that garbage collection copied to it are placed again, events 0x5001 and 0x5002 (R284, R298). -/
def execProgramFailure (n : QdiNo) (stream : Fin 4) (die : GroupDie) (moves : List GroupDie) (s : State) :
    Host.Outcome State Fault Refusal :=
  match s.openQuire n stream with
  | none => settled s
  | some q =>
    if (s.blockOf n q die).isSome then
      let lost := (s.validUnits n q).filter fun e => pageDie e.1 = die.val
      let aside := (s.copiesIn n q).filter fun c => pageDie c.dst = die.val
      let s1 := ((s.opens n q).countSat (R.QDI_PFAIL n) 1).retireBlock n q die
      let y := s1.quire n q
      let s2 := (s1.setQuire n q { y with wp := kvErase y.wp die.val }).forgetCopies fun c => aside.contains c
      let s3 := (s2.copyUnits n stream lost (clean moves)).copyAside n (s.sources aside) (clean (moves.drop lost.length))
      settled (s3.qdiEvent n 0x5002 (die.val * 65536 + q) die.val)
    else settled s

/-- The channel's spare die goes into service, when it has one (R276). -/
def State.useSpare (s : State) (n d : Nat) : State :=
  let sp := d / 17 * 17 + 16
  if (s.die n sp).status = 1 && sp ≠ d then
    ((s.setDie n sp { s.die n sp with status := 0 }).setIrq (pageQdi n) 6 5).qdiEvent n 0x5005 sp d
  else s

/-- A die has failed: it is retired at once, and the spare taken (R276). -/
def State.dieFailed (s : State) (n d : Nat) : State :=
  ((((s.setDie n d { s.die n d with status := 3 }).forgetCopies fun c => c.n = n && pageDie c.dst = d).useSpare n d).setIrq (pageQdi n) 6 5).closeFull n

/-- Units are rebuilt from parity elsewhere, each on the die given for it where it can lie there, else on another (R276, R278). -/
def State.rebuildUnits (s : State) (n : Nat) : List (Nat × PageRec) → List GroupDie → State
  | [], _ => s
  | e :: es, ds =>
    let (d, s1) := s.rebuildPlace n e.2.region ds.head?
    (match d.bind fun k => s1.program n 2 k e.2 with
      | some (p, s2) => s2.setMap n e.2.region e.2.unit (some p)
      | none => s1).rebuildUnits n es (ds.drop 1)

/-- Units that lay on failed dies: those that parity covers are rebuilt, on the dies given as far as these go, the others are lost with
event 0x5006 (R276, R286). -/
def State.unitsGone (s : State) (n d : Nat) (units : List (Nat × PageRec)) (dies : List GroupDie) : State :=
  let saved := units.filter fun e => s.rebuilds n e.1 e.2
  let lost := units.filter fun e => !s.rebuilds n e.1 e.2
  lost.foldl (fun t e =>
    (t.setMap n e.2.region e.2.unit (some mapPoisoned)).qdiEvent n 0x5006 (unitKey e.2.region e.2.unit) d)
    (s.rebuildUnits n saved dies)

/-- ERASE_FAILURE: the block is retired, and the quire takes a reserve block or becomes short (R298); with more than 16 failures in an hour
the die has failed (R276). -/
def execEraseFailure (n : QdiNo) (quire : Nat) (die : GroupDie) (s : State) : Host.Outcome State Fault Refusal :=
  if (s.blockOf n quire die).isNone then settled s
  else
    let s1 := (s.countSat (R.QDI_EFAIL n) 1).retireBlock n quire die
    let x := s1.die n die
    let fails := s1.etime :: x.efails.filter fun t => s1.etime < t + 3600 * tickSec
    let s2 := s1.setDie n die { x with efails := fails }
    if 16 < fails.length && x.status = 0 then
      let s3 := s2.dieFailed n die
      settled (s3.unitsGone n die (s3.unitsOn n die) [])
    else settled s2

/-- Does the throttle hold flash work of rank 5 (R542)? -/
def State.rank5Held (s : State) : Bool := s.throttled

/-- The erase counts of a quire's blocks in tenths of a QLC erase, summed, and their number: the mean is a fraction (R289, R296). -/
def State.quireWear (s : State) (n q : Nat) : Nat × Nat :=
  (s.groupDies n).foldl (fun a d =>
    match s.blockOf n q d with
    | some b => (a.1 + kvGet 0 s.ftl.ec (n * 2 ^ 24 + (d * 10280 + b)), a.2 + 1)
    | none => a) (0, 0)

/-- Is one mean below another? -/
def meanBelow (a b : Nat × Nat) : Bool := decide (a.1 * b.2 < b.1 * a.2)

/-- May a quire serve wear moves: no other free one has a higher mean erase count (R296)? -/
def State.mostWorn (s : State) (n q : Nat) : Bool :=
  s.ftl.quires.all fun e => e.1 / 65536 ≠ n || e.2.phase ≠ .free || !meanBelow (s.quireWear n q) (s.quireWear n (e.1 % 65536))

/-- QUIRE_ERASE: a FREE quire that is next to open, that no earlier read hold keeps, and with no other ERASED quire ahead for the
stream, is erased; its erase counts rise with the mode it is erased for (R284, R285, R289, R293). For wear moves it is the one of highest
erase count (R296). -/
def execQuireErase (n : QdiNo) (quire : Nat) (stream : Fin 4) (done : EraseEnd) (s : State) :
    Host.Outcome State Fault Refusal :=
  let ahead := s.ftl.quires.any fun e => e.1 / 65536 = n.val && e.2.phase = .erased && e.2.stream = stream.val
  if quire < groupQuires && (s.quire n quire).phase = .free && !ahead && !s.quireHeld n quire && !s.rank5Held &&
      (stream.val ≠ 3 || s.mostWorn n quire) then
    settled (((s.eraseQuire n quire stream done).journalRec n (if done = .cut then 1 else 2)).lifeCheck n)
  else settled s

/-! Background work (R286, R288, R295, R296). -/

/-- QUIRE_VERIFY: every page is read back, weak pages' units move to an open quire, rebuilt from parity where a codeword fails; once none
is left in it the quire is VERIFIED and releases its parity, unless it is in SLC mode (R286); the copies of garbage collection in it enter
the map (R298). -/
def execQuireVerify (n : QdiNo) (quire : Nat) (weak : List UnitMove) (s : State) : Host.Outcome State Fault Refusal :=
  let x := s.quire n quire
  if x.phase = .closed && !s.rank5Held then
    let pages := (s.ftl.pages.filter fun e => e.1 / 2 ^ 32 = n.val && e.2.quire = quire).length
    let s1 := s.count (R.QDI_READS n) pages
    let here (t : State) (m : UnitMove) := (t.validUnits n quire).filter fun e => e.2.region = m.region && e.2.unit = m.unit
    let aside (t : State) (m : UnitMove) := (t.copiesIn n quire).filter fun c => c.region = m.region && c.unit = m.unit
    let s2 := weak.foldl (fun t m =>
      let l := aside t m
      ((t.copyUnits n 2 (here t m) [⟨m.die, m.fault⟩]).forgetCopies fun c => l.contains c).copyAside n (t.sources l)
        [⟨m.die, m.fault⟩]) s1
    if weak.any fun m => !(here s2 m).isEmpty then settled s2
    else
      let y := s2.quire n quire
      let slc := y.stream = 0
      let s3 := s2.setQuire n quire { y with phase := .verified, parity := slc, stripes := if slc then y.stripes else 0 }
      settled ((s3.commitCopies n quire).freeIfEmpty n quire)
  else settled s

/-- FOLD: units of VERIFIED SLC quires go to the group's QLC quire (R286, R288, R294). -/
def execFold (n : QdiNo) (moves : List UnitMove) (s : State) : Host.Outcome State Fault Refusal :=
  if s.rank5Held then settled s
  else
    settled (moves.foldl (fun t m =>
      match t.quireOf n m.region m.unit with
      | none => t
      | some q =>
        if (t.quire n q).stream = 0 && (t.quire n q).phase = .verified then
          t.copyUnits n 1 ((t.validUnits n q).filter fun e => e.2.region = m.region && e.2.unit = m.unit) [⟨m.die, m.fault⟩]
        else t) s)

/-- The valid units of a quire that garbage collection has not copied yet. -/
def State.uncopied (s : State) (n q : Nat) : List (Nat × PageRec) :=
  (s.validUnits n q).filter fun e => !s.ftl.copies.any fun c => c.n = n && c.src = e.1

/-- The quire garbage collection takes: VERIFIED, fewest valid units, then the lower sequence number (R295); one whose units are all copied
already waits for its copies to be verified (R298). -/
def State.gcSource (s : State) (n : Nat) : Option Nat :=
  let vs := (s.ftl.quires.filter fun e => e.1 / 65536 = n && e.2.phase = .verified &&
    ((s.validUnits n (e.1 % 65536)).isEmpty || !(s.uncopied n (e.1 % 65536)).isEmpty)).map fun e =>
    (e.1 % 65536, (s.validUnits n (e.1 % 65536)).length, e.2.seq)
  (vs.foldl (fun (best : Option (Nat × Nat × Nat)) e =>
    match best with
    | none => some e
    | some b => if e.2.1 < b.2.1 || (e.2.1 = b.2.1 && e.2.2 < b.2.2) then some e else some b) none).map fun b => b.1

/-- GARBAGE_COLLECTION (R294, R295, R298): not in read-only mode (R301), and held by the throttle (R542). -/
def execGarbageCollection (n : QdiNo) (moves : List CopyTo) (s : State) : Host.Outcome State Fault Refusal :=
  if s.rank5Held || s.readOnly then settled s
  else
    match s.gcSource n with
    | none => settled s
    | some q => settled ((s.copyAside n (s.uncopied n q) moves).freeIfEmpty n q)

/-- The spread of a group: the largest less the smallest erase count among its blocks in service, of which an unlisted one counts 0
(R296). -/
def State.spread (s : State) (n : Nat) : Nat :=
  let l := (s.ftl.ec.filter fun e => e.1 / 2 ^ 24 = n && s.blockServes n (e.1 % 2 ^ 24)).map fun e => e.2 / 10
  let hi := l.foldl max 0
  let lo := if l.length < s.goodBlocks n then 0 else l.foldl min hi
  hi - lo

/-- The oldest write sequence of a quire's valid units. -/
def State.quireAge (s : State) (n q : Nat) : Nat := (s.validUnits n q).foldl (fun a e => min a e.2.seq) s.ftl.writeSeq

/-- The VERIFIED quire with the lowest mean erase count, then the oldest write sequence (R296). -/
def State.wearSource (s : State) (n : Nat) : Option Nat :=
  let vs := (s.ftl.quires.filter fun e => e.1 / 65536 = n && e.2.phase = .verified).map fun e =>
    (e.1 % 65536, s.quireWear n (e.1 % 65536), s.quireAge n (e.1 % 65536))
  (vs.foldl (fun (best : Option (Nat × (Nat × Nat) × Nat)) e =>
    match best with
    | none => some e
    | some b => if meanBelow e.2.1 b.2.1 || (!meanBelow b.2.1 e.2.1 && e.2.2 < b.2.2) then some e else some b) none).map fun b => b.1

/-- WEAR_LEVELLING_MOVE: from a spread above FTL_WL_SPREAD until it is at most that less 16 (R296). -/
def execWearLevellingMove (n : QdiNo) (moves : List CopyTo) (s : State) : Host.Outcome State Fault Refusal :=
  let lim := s.fld R.FTL_WL_SPREAD 15 0
  let go := lim < s.spread n || (s.bit (R.QDI_STAT n) 9 && lim - 16 < s.spread n)
  if s.rank5Held || s.readOnly then settled s
  else if !go then settled (s.setBit (R.QDI_STAT n) 9 false)
  else
    match s.wearSource n with
    | none => settled (s.setBit (R.QDI_STAT n) 9 true)
    | some q =>
      settled (((s.setBit (R.QDI_STAT n) 9 true).copyUnits n 3 (s.validUnits n q) moves).freeIfEmpty n q)

/-- The SLC capacity in force is recomputed (R288, R289). -/
def State.slcRecompute (s : State) : State := s.wr R.FTL_SLC_CAP (s.worn (slcTable s.ftl.map.length))

/-- MAP_CHECKPOINT: once a channel die's journal reaches 2 GiB, its dirty map segments of 4 MiB are programmed, the groups whose records the checkpoint covers need them no more, the SLC capacity and the steps of R300 follow, and the root pointers in NOR name the checkpoint (R282, R288, R300, R487). -/
def execMapCheckpoint (n : QdiNo) (s : State) : Host.Outcome State Fault Refusal :=
  if kvGet 0 s.ftl.jbytes n < 2 ^ 31 then settled s
  else
    let pages := 256 * (s.ftl.dirty.filter fun e => e.1 = n.val).length
    let f := { s.ftl with
      jbytes := kvPut s.ftl.jbytes n.val 0
      jbuf := kvPut s.ftl.jbuf n.val 0
      dirty := s.ftl.dirty.filter fun e => e.1 ≠ n.val
      records := s.ftl.records.filter fun r => !(s.ftl.records.any fun k => k.die = n.val && k.group = r.group)
      roots := kvPut s.ftl.roots n.val ((kvGet (0, 0) s.ftl.roots n).1 + 1, s.rd R.FTL_JSEQ) }
    let s1 := ((({ s with ftl := f }).count (R.QDI_PROGS n) pages).count R.FTL_MEDIA_WR (16384 * pages)).slcRecompute
    settled ((s1.lifeCheck n).norLog logRoots (.roots s.ftl.roots s.ftl.readOnly))

/-- DIE_FAILURE: the die is retired at once and the spare taken; units that parity covers are rebuilt elsewhere, and the others are lost
with event 0x5006 (R276, R286). -/
def execDieFailure (n : QdiNo) (die : GroupDie) (moves : List GroupDie) (s : State) : Host.Outcome State Fault Refusal :=
  if (s.die n die).status = 0 || (s.die n die).status = 1 then
    settled ((s.dieFailed n die).unitsGone n die (s.unitsOn n die) moves)
  else settled s

/-- SPARE_DIE_MIGRATION: a worn die, which has lost a block with no reserve block left, hands its valid units to others; it retires when
it holds none (R276, R278). -/
def execSpareDieMigration (n : QdiNo) (die : GroupDie) (moves : List CopyTo) (s : State) :
    Host.Outcome State Fault Refusal :=
  let x := s.die n die
  if x.status = 0 && x.worn && !s.rank5Held then
    let s1 := (s.useSpare n die).setBit (R.QDI_STAT n) 10 true
    let s2 := s1.copyUnits n 2 (s1.unitsOn n die) moves
    settled (if (s2.unitsOn n die).isEmpty then
      ((s2.setDie n die { s2.die n die with status := 2 }).forgetCopies fun c => c.n = n && pageDie c.dst = die).setBit
        (R.QDI_STAT n) 10 false else s2)
  else settled s

/-- RETRY_RATE_WARNING: retries over the last 2^20 reads against FTL_RETRY_WARN per million, once per hour (R300). -/
def execRetryRateWarning (n : QdiNo) (s : State) : Host.Outcome State Fault Refusal :=
  let k := kvGet 0 s.ftl.reads n.val
  let r := ((kvGet [] s.ftl.retryAt n.val).filter fun j => k < j + 2 ^ 20).length
  let w := min k (2 ^ 20)
  if s.fld R.FTL_RETRY_WARN 19 0 * w < r * 1000000 then
    let (ok, s1) := s.once (0x50080 + n.val) (3600 * tickSec)
    settled (if ok then s1.qdiEvent n 0x5008 n.val 0 else s)
  else settled s

/-! Power loss and mount (R299, R302, R303). -/

/-- The atomic groups of which records are in the journals, but not all (R281). -/
def tornGroups (rs : List GroupRec) : List Nat :=
  ((rs.map GroupRec.group).eraseDups).filter fun g =>
    let mine := rs.filter fun r => r.group = g
    mine.foldl (fun a r => a + r.here) 0 < mine.foldl (fun a r => max a r.members) 0

/-- Does a staged group lie on several channel dies, so that some of its records alone can have reached their journals (R281)? A group all
of whose records have is one that PROGRAM_COMPLETE has completed. -/
def State.spansDies (s : State) (g : StagedGroup) : Bool :=
  match s.region g.region with
  | some r => 1 < ((g.units.map fun u => unitQdi r u.1).eraseDups).length
  | none => false

/-- The one record that had reached a journal buffer of a group staged at the loss: that of its first unit's channel die. -/
def State.firstRecord (s : State) (e : Nat × StagedGroup) : Option GroupRec :=
  match s.region e.2.region, e.2.units with
  | some r, u :: _ =>
    let n := unitQdi r u.1
    some ⟨n, e.1, e.2.units.length, (e.2.units.filter fun v => unitQdi r v.1 = n).length⟩
  | _, _ => none

/-- The write pointers of a quire rebuilt from the headers of its pages; one that fails its CRC or is of an older life of the quire does
not count (R275, R299, R303). -/
def State.scanQuire (s : State) (k : Nat) (x : Quire) : Quire :=
  let mine := s.ftl.pages.filter fun e => e.1 / 2 ^ 32 = k / 65536 && e.2.quire = k % 65536 && e.2.quireSeq = x.seq && e.2.check = e.2.crc
  { x with wp := mine.foldl (fun m e =>
    let p := e.1 % 2 ^ 32
    kvPut m (pageDie p) (max (kvGet 0 m (pageDie p)) (pageIndex p + 1))) [] }

/-- The journal that a flush saved is replayed, with the write pointers of the quires open at the loss, and the flush area is erased on the
dies in service (R302, R303). The map as it stands is what the checkpoint and the journals give (log entry 56). -/
def State.areaBack (s : State) : State :=
  match s.ftl.area with
  | none => s
  | some a =>
    let qs := s.ftl.quires.map fun e => (e.1, if e.2.phase = .opened then { e.2 with wp := kvGet e.2.wp a.wps e.1 } else e.2)
    let s1 : State := { s with ftl := { s.ftl with quires := qs, area := none } }
    (List.range 4).foldl (fun t n => t.count (R.QDI_ERASES n) (t.groupDies n).length) s1

/-- The quires open at the loss are read back, up to their write pointers (R303). -/
def State.readOpen (s : State) : State :=
  (s.ftl.quires.filter fun e => e.2.phase = .opened).foldl (fun t e =>
    t.count (R.QDI_READS (e.1 / 65536)) (e.2.wp.foldl (fun a w => a + w.2) 0)) s

/-- The FTL mounts (R299, R303): a missing clean marker means a rebuild by scan; incomplete erases go back to FREE with one more erase,
quires open at the loss are read back and close, and groups in staging are discarded, with event 0x500F those of which some records were
written. -/
def State.mount (s0 : State) (torn : Nat) : State :=
  let clean := s0.ftl.marker = some true
  let scan := !clean && !s0.ftl.quires.isEmpty
  let scanned : State := { s0 with ftl := { s0.ftl with quires := s0.ftl.quires.map fun e =>
    (e.1, if e.2.phase = .opened && scan then s0.scanQuire e.1 e.2 else e.2) } }
  let s := (if clean then s0.areaBack else scanned.areaBack).readOpen
  let part := s.ftl.quires.filter fun e => e.2.phase = .erasing || (e.2.phase = .erased && !e.2.blank)
  let qs := s.ftl.quires.map fun e => (e.1, if e.2.phase = .opened then { e.2 with phase := .closed } else e.2)
  let recs := s.ftl.records ++ ((s.ftl.groups.filter fun e => s.spansDies e.2).take torn).filterMap s.firstRecord
  let gone := tornGroups recs
  let t := min gone.length 65535
  let s1 := { s with ftl := { s.ftl with
    quires := qs, groups := [], writes := [], flushes := [], active := [], suspended := [], marker := none, jbuf := [], copies := []
    records := recs.filter fun r => !gone.contains r.group
    mounted := true } }
  let v := (if clean then 1 else 0) + (if scan then 2 else 0) + t * 65536
  let s2 := ((s1.wr R.FTL_BOOT v).setFld R.FTL_STAT 1 0 (if s1.ftl.readOnly then 1 else 0)).ftlShow.ftlIdle.slcRecompute.wearShow
  let s3 := part.foldl (fun u e => u.eraseTorn (e.1 / 65536) (e.1 % 65536)) s2
  let s4 := if scan then s3.raise pageFtl 0x500E none 0 0 else s3
  let s5 := gone.foldl (fun u g => u.raise pageFtl 0x500F none g 0) s4
  let s6 := if part.isEmpty && !scan && t = 0 then s5 else s5.setIrq pageFtl 6 5
  let s7 := ((List.range 4).foldl (fun u n => u.setBit (R.QDI_STAT n) 11 true) s6).fgcShow
  (List.range 16).foldl (fun u c =>
    u.wr (tqUse c 3) ((u.ftl.map.filter fun e =>
      match u.region (e.1 / 2 ^ 40) with
      | some r => r.client = c
      | none => false).length)) s7

end Sys2Proof.Machine
end

