-- ==== Sys2Proof/Machine/Tiers.lean ====
section
/-! DEFINITION. The tiers (ch. 7): Press frames (R179 to R181), the Binder's queues (R177), streamed layers and their deadlines
(R183 to R187), spills and fills (R233), quotas (R190 to R197), regions, MOVE and COPY (R175, R191, R192). -/

namespace Sys2Proof.Machine

/-- What a region is for (R190): a client's own, a figure's image or window, a context's state, a CXL.mem window, a namespace, an
index. -/
def useClient : Nat := 0
def useFigure : Nat := 1
def useCtx : Nat := 2
def useCxlm : Nat := 3
def useNs : Nat := 4
def useIdx : Nat := 5

/-! Press (R179 to R181). -/

/-- A frame read from its stored bytes. -/
def parseFrame (bs : List Byte) : PressFrame :=
  let f := fieldOf8 bs
  ⟨f 0 2, f 2 1 % 16, (f 2 1).testBit 4, (f 2 1).testBit 5, f 4 4 % 2 ^ 17, f 8 2, BitVec.ofNat 32 (f 12 4),
    (bs.drop 16).take (f 8 2 * 128 - 16)⟩
where
  /-- A little-endian field of the bytes. -/
  fieldOf8 (bs : List Byte) (i n : Nat) : Nat := ofLe ((bs.drop i).take n)

/-- A payload filled up with zeros to the stored units of its frame (R179). -/
def padded (payload : List Byte) : List Byte :=
  payload ++ List.replicate ((16 + payload.length + 127) / 128 * 128 - 16 - payload.length) 0

/-- The SPARSE payload of a frame of `n` zeros, which fits one stored unit (R180). -/
def zeroCode (n : Nat) : List Byte := ((Config.pressZero n).take 112) ++ List.replicate (112 - (Config.pressZero n).length) 0

/-- The expanded bytes of a frame by its method, when its payload does not overrun (R181). -/
def expandFrame (f : PressFrame) : Option (List Byte) :=
  if f.payload.length + 16 > f.slen * 128 then none
  else if f.type = 5 && !f.raw && f.payload = zeroCode f.ulen then some (List.replicate f.ulen 0)
  else if f.raw || f.type = 0 then (if f.ulen ≤ f.payload.length then some (f.payload.take f.ulen) else none)
  else
    match Config.pressDecode f.type f.ulen f.payload with
    | some d => if d.length = f.ulen then some d else none
    | none => none

/-- Is a frame malformed (R181)? -/
def malformed (f : PressFrame) : Bool :=
  f.magic ≠ 0x7A51 || 6 ≤ f.type || f.slen = 0 || 513 < f.slen || (expandFrame f).isNone

/-- A decoder expands one frame, read with or without poison, into the `room` bytes that are left of its destination: its output, whether
it is poisoned, and the events and counters (R181, R204). A frame that does not decode gives its 64 KiB, or what there is room for, as
free values; a frame read with poison is not checked. -/
def State.decodeFrame (s : State) (c region : Nat) (f : PressFrame) (readPoison : Bool) (room : Nat) : (List Byte × Bool) × State :=
  let s1 := s.count R.TIER_PRESS_IN (f.slen * 128)
  let fail (t : State) (d : List Byte) : (List Byte × Bool) × State :=
    if readPoison then ((d, true), t.poisonSeen pageTier)
    else ((d, true), ((t.countSat R.TIER_PRESS_ERR 1).setIrq pageTier 5 3).raise pageTier 0x3003 (some c) region 0)
  match (if malformed f then none else expandFrame f) with
  | none =>
    let (d, t) := s1.freeBytes (min 65536 room)
    fail (t.count R.TIER_PRESS_OUT d.length) d
  | some d =>
    let s2 := s1.count R.TIER_PRESS_OUT d.length
    if readPoison then ((d, true), s2.poisonSeen pageTier)
    else if crc32c d ≠ f.check.toNat then fail s2 d
    else if f.poison then ((d, true), s2.poisonSeen pageTier)
    else ((d, false), s2)

/-- A codec that meets line mismatches does its frame again, each time with event 0x4005 (R443). -/
def State.redone (s : State) (p c redo : Nat) : State := (List.range redo).foldl (fun t _ => t.raise p 0x4005 (some c) 0 0) s

/-- The payload that the method of a TYPE makes of a frame's bytes (R180): a frame of zeros is SPARSE in one unit. -/
def codedPayload (type : Nat) (bs : List Byte) : List Byte :=
  if type = 5 && bs.all fun b => b = 0 then zeroCode bs.length else Config.pressEncode type bs

/-- Does a coded payload, as it is stored, give the frame's bytes back? -/
def codeHolds (type : Nat) (bs payload : List Byte) : Bool :=
  expandFrame ⟨0x7A51, type, false, false, bs.length, (16 + payload.length + 127) / 128, 0, padded payload⟩ = some bs

/-- The encoder stores a frame: coded by the method of a TYPE that the spec leaves to the encoder, RAW when that is no smaller or
the input is poisoned (R180, R181). A code that does not give the bytes back is no code of the method, and the frame is RAW. -/
def State.encodeFrame (s : State) (bs : List Byte) (poison : Bool) : List Byte × State :=
  let (x, s1) := s.free
  let type := x % 6
  let coded := codedPayload type bs
  let raw := poison || type = 0 || bs.length ≤ coded.length || !codeHolds type bs coded
  let payload := if raw then bs else coded
  let slen := (16 + payload.length + 127) / 128
  let head := leBytes 2 0x7A51 ++ leBytes 1 (type + (if raw then 16 else 0) + (if poison then 32 else 0)) ++ [0] ++
    leBytes 4 bs.length ++ leBytes 2 slen ++ [0, 0] ++ leBytes 4 (crc32c bs)
  ((head ++ payload) ++ List.replicate (slen * 128 - 16 - payload.length) 0, s1)

/-! The Binder's queues (R177, R204). -/

/-- The transfer whose chunk an engine takes next: the first of the LC queue that has one, and with none waiting the first of the BE
queue (R177). -/
def State.nextChunk (s : State) : Option Transfer :=
  match s.tiers.lc.find? fun t => t.unfinished && s.goes t with
  | some t => some t
  | none => s.tiers.be.find? fun t => t.unfinished && s.goes t

/-- The transfer that a test names and that may end now: its chunks are all taken, or it is the one whose chunks the engines take
next, one after another. -/
def State.headTransfer (s : State) (p : Transfer → Bool) : Option Transfer :=
  (s.tiers.lc ++ s.tiers.be).find? fun t => p t && (!t.unfinished || decide (s.nextChunk = some t))

/-- An engine takes a chunk of a transfer of a queue. -/
def State.chunkTaken (s : State) (t : Transfer) : State :=
  let u : Transfer := { t with chunks := t.chunks - 1, begun := true }
  (if t.lc then { s with tiers := { s.tiers with lc := s.tiers.lc.replace t u } }
   else { s with tiers := { s.tiers with be := s.tiers.be.replace t u } }).tierShow

/-- May a transfer without a deadline run at once: no other waits, TIER takes it, and no throttle level holds it (R38, R542)? -/
def State.binderFree (s : State) : Bool := s.tiers.lc.isEmpty && s.tiers.be.isEmpty && s.tierGoes && !s.throttled

/-- A transfer of `n` bytes waits in the BE queue with what ends it, without a deadline. -/
def State.waitJob (s : State) (x n : Nat) (j : BinderJob) : State :=
  s.transfer ⟨trJob, false, none, x, 0, 0, (n + 65535) / 65536, false, some j⟩

/-! Streamed layers (R182 to R187). -/

/-- The bytes of a window slot (R182), and of a window. -/
def slotSize (f : FigureCore) : Nat := roundUp (f.layers.foldl (fun a l => max a l.size) 0) twoMiB
def windowSize (f : FigureCore) : Nat := f.slots * slotSize f

/-- Where layer j of a figure lies: in the slot j mod W of the window of a streamed figure, or in the pinned image, whose layers
follow one another in whole units of 2 MiB. -/
def layerOffset (f : FigureCore) (j : Nat) : Nat :=
  if f.streamed then j % max f.slots 1 * slotSize f
  else (f.layers.take j).foldl (fun a l => a + roundUp l.size twoMiB) 0

/-- The bytes of a pinned image. -/
def pinnedSize (f : FigureCore) : Nat := layerOffset { f with streamed := false } f.layers.length

/-- The stored bytes of a layer's frames, and of all of them before layer j. -/
def storedSize (l : Layer) : Nat := l.frames.foldl (fun a f => a + f.slen * 128) 0
def imageOffset (f : FigureCore) (j : Nat) : Nat := (f.layers.take j).foldl (fun a l => a + storedSize l) 0

/-- Frames are decoded into the `room` bytes of a region from byte `at_` on. They are read from an image region from byte `o` of it, or,
when `held` is false, as they come with the load; an event names the region they are read from, or else the one they go to (R202). -/
def State.decodeInto (s : State) (c image : Nat) (held : Bool) (o dst at_ room : Nat) : List PressFrame → State
  | [] => s
  | f :: fs =>
    let bad := held && s.memReadPoison image o (f.slen * 128)
    let (d, s1) := s.decodeFrame c (if held then image else dst) f bad room
    (s1.memWrite dst at_ d.1 d.2).decodeInto c image held (o + f.slen * 128) dst (at_ + d.1.length) (room - d.1.length) fs

/-- A layer of a run replaced. -/
def State.setLayer (s : State) (rn : Nat) (x : Run) (j : Nat) (l : LayerState) : State :=
  s.setRun rn { x with layers := kvPut x.layers j l }

/-- A layer of a run misses its deadline: counted, shown, and held for the switch to the reserve at the next boundary; without a
reserve event 0x3002 once per run (R185 to R187, R189). -/
def State.missLayer (s : State) (rn j : Nat) : State :=
  match s.run rn with
  | none => s
  | some x =>
    match kvFind x.layers j with
    | none => s
    | some l =>
      let ctx := (x.cmds.head?.map fun m => m.ctx).getD 0
      let hasReserve := match kvFind s.sched.figures x.handle with
        | some f => f.fig.reserve.isSome
        | none => false
      let s1 := (s.countSat (R.TQ_MISS x.client) 1).setIrq pageTier 4 3
      let s2 := ((s1.wr R.TIER_MISS_M l.deadline).wr R.TIER_MISS_CTX (ctx + 2 ^ 31)).wr R.TIER_MISS_LAYER (j % 65536)
      let x1 : Run := { x with layers := kvPut x.layers j { l with missed := true } }
      if hasReserve then s2.setRun rn { x1 with missPending := some (x.missPending.getD (j, l.deadline)) }
      else if x.missSaid then s2.setRun rn x1
      else (s2.setRun rn { x1 with missSaid := true }).raise pageTier 0x3002 (some x.client) 0 ctx

/-- The STREAM of a layer is issued; one issued after its deadline has struck has missed (R183, R185). -/
def State.issueStream (s : State) (rn j : Nat) : State :=
  match s.run rn with
  | none => s
  | some x =>
    match s.runCore x, kvFind x.layers j with
    | some f, some l =>
      if l.issued || !f.streamed then s
      else
        let ctx := (x.cmds.head?.map fun m => m.ctx).getD 0
        let size := ((f.layers[j]?).map fun y => y.size).getD 0
        let s1 := (s.setLayer rn x j { l with issued := true }).transfer
          ⟨trStream, x.lc, if x.admitted then some l.deadline else none, ctx, j, rn, (size + 65535) / 65536, false, none⟩
        if x.admitted && l.deadline ≤ s.rd R.MSR_NOW && !l.missed then s1.missLayer rn j else s1
    | _, _ => s

/-- A layer of a run has landed; a miss stays a miss (R185). -/
def State.landed (s : State) (run layer : Nat) : State :=
  match s.run run with
  | none => s
  | some x =>
    match kvFind x.layers layer with
    | none => s
    | some l => s.setLayer run x layer { l with landed := true }

/-- The layer of a transfer that may end now is decoded frame by frame into its slot of the run's window, and has landed (R175, R177,
R178, R181, R183, R185). A layer whose last frame is written in the cycle of a strike lands before the strike tests the deadlines; one
that lands after it is a cycle later (R189). -/
def State.streamLayer (s : State) (run layer redo : Nat) (ecc : List EccFault) : State :=
  match s.headTransfer fun t => t.kind = trStream && t.run = run && t.layer = layer with
  | none => s
  | some _ =>
    let s0 := if s.msr.struckAt = some s.etime then s.elapse tickCycle else s
    let s1 := s0.dropTransfers fun t => t.kind = trStream && t.run = run && t.layer = layer
    match s1.run run with
    | none => s1
    | some x =>
      match s1.runCore x, kvFind s1.sched.figures x.handle, x.window with
      | some f, some l, some w =>
        match f.layers[layer]? with
        | none => s1
        | some y =>
          let s2 := (s1.eccRead l.image (imageOffset f layer) ecc).redone pageTier x.client redo
          let s3 := s2.decodeInto x.client l.image true (imageOffset f layer) w (layerOffset f layer) (slotSize f) y.frames
          ((s3.chargeT2 x.client (storedSize y) 0).chargeT1 x.client 0 y.size).landed run layer
      | _, _, _ => s1

/-- STREAM (R183). -/
def execStream (run layer redo : Nat) (ecc : List EccFault) (s : State) : Host.Outcome State Fault Refusal :=
  settled (s.streamLayer run layer redo ecc)

/-- LAYER_LANDED (R185): a layer issued and no longer queued has landed; a miss stays a miss, and a run that waits for the layer
goes on (R187). -/
def execLayerLanded (run layer : Nat) (s : State) : Host.Outcome State Fault Refusal :=
  settled <|
    match s.run run with
    | none => s
    | some x =>
      match kvFind x.layers layer with
      | none => s
      | some l =>
        let queued := (s.tiers.lc ++ s.tiers.be ++ s.tiers.again).any fun t => t.kind = trStream && t.run = run && t.layer = layer
        if l.issued && !queued then s.landed run layer else s

/-! Spills and fills of context state (R175, R176, R191, R233). -/

/-- A region moves between T1 and T2: its charge leaves one tier and enters the other. -/
def State.retier (s : State) (h : Nat) (r : Region) (t : Nat) : State :=
  let n := chargeOf r.tier r.bytes
  ((s.subUse r.client r.tier n).addUse r.client t n).setRegion h { r with tier := t }

/-- Is the state of a context to be spilled: a BE context that is in no run, SCH_HOT measures after its last commit (R233)? -/
def State.spillDue (s : State) (x : Nat) : Bool :=
  let e := s.ctx x
  e.state ≠ 0 && !e.inRun && !e.pinned && !e.spilled && e.resetBy.isEmpty && decide (0 < e.stepCtr) &&
    decide (e.touchedAt + s.rd R.SCH_HOT ≤ s.msr.count)

/-- A context's state is spilled; a spill that R191 does not allow leaves it where it is (R233). -/
def State.spillNow (s : State) (x redo : Nat) (ecc : List EccFault) : State :=
  let e := s.ctx x
  match s.region e.region with
  | none => s
  | some r =>
    if !s.spillDue x || s.allocTest e.client 2 (chargeOf 2 r.bytes) ≠ 0 then s
    else
      let s1 := ((s.eccRead e.region 0 ecc).redone pageTier e.client redo).retier e.region r 2
      ((s1.setCtx x { e with spilled := true }).chargeT1 e.client r.bytes 0).chargeT2 e.client 0 r.bytes

/-- CONTEXT_SPILL (R233): the spill of a context that is due, at once or behind the transfers that wait (R177). -/
def execContextSpill (x : Fin 262144) (redo : Nat) (ecc : List EccFault) (s : State) : Host.Outcome State Fault Refusal :=
  settled <|
    if s.binderFree then s.spillNow x redo ecc
    else
      match s.region (s.ctx x).region with
      | none => s
      | some r =>
        if !s.spillDue x || s.tiers.be.any (fun t => t.kind = trJob && t.ctx = x.val && t.job.isSome &&
            (match t.job with
              | some (.spill _ _ _) => true
              | _ => false)) then s
        else s.waitJob x r.bytes (.spill x redo ecc)

/-- A command of a FORMED run fails before its admission: it completes, its context leaves the run, and an empty run is gone. -/
def State.failFormed (s : State) (x : Nat) (done : State → RunCmd → State) : State :=
  s.takeBack (fun m => m.ctx = x && s.sched.runs.any fun e => e.2.phase = .formed && e.2.cmds.contains m) done

/-- FILL (R175, R233): the state of a context comes back to T1 for the run that was formed with it; when R191 does not allow it,
the command that needed it completes with the tier status. -/
def execFill (x : Fin 262144) (redo : Nat) (ecc : List EccFault) (s : State) : Host.Outcome State Fault Refusal :=
  settled <|
    match s.headTransfer fun t => t.kind = trFill && t.ctx = x.val with
    | none => s
    | some _ =>
      let s1 := s.dropTransfers fun t => t.kind = trFill && t.ctx = x.val
      let e := s1.ctx x
      match s1.region e.region with
      | none => s1
      | some r =>
        if !e.spilled then s1
        else
          let st := s1.allocTest e.client 1 (chargeOf 1 r.bytes)
          if st ≠ 0 then
            s1.failFormed x fun t m => (t.tierRefuse e.client).failGonum m.cid st 0
          else
            let s2 := ((s1.eccRead e.region 0 ecc).redone pageTier e.client redo).retier e.region r 1
            ((s2.setCtx x { e with spilled := false }).chargeT2 e.client r.bytes 0).chargeT1 e.client 0 r.bytes

/-! Quotas (R190 to R197, R204). -/

/-- A checked value of QMIN or QMAX is refused with event 0x3005, or takes effect as a change of rights; QMAX lowered below USE
is event 0x3004 (R194, R197). -/
def State.setQuota (s : State) (n t : Nat) (max : Bool) (v : Nat) : State :=
  let key := if max then tqMax n t else tqMin n t
  let sum := sumClients fun d => if d = n then v else s.rd (tqMin d t)
  let bad := (if max then v < s.rd (tqMin n t) else s.rd (tqMax n t) < v) || (t ≠ 3 && v % twoMiB ≠ 0) ||
    (!max && s.rd key < v && s.rd (tierCap t) < sum)
  if bad then (s.setIrq pageTier 6 3).raise pageTier 0x3005 (some n) t 0
  else
    let above := max && v < s.rd (tqUse n t) && s.rd (tqUse n t) ≤ s.rd key
    let s1 := (s.wrRights key v).capCheck t
    let s2 := if t = 3 then s1.norSet logQuotas key v else s1
    (if above then (s2.setIrq pageTier 6 3).raise pageTier 0x3004 (some n) t 0 else s2).settleRights

/-- QUOTA_WRITE (R194). -/
def execQuotaWrite (c n : Client) (tier : Fin 3) (max : Bool) (v : BitVec 64) (s : State) : Host.Outcome State Fault Refusal :=
  settled (s.command c (if max then tqMax n (tier + 1) else tqMin n (tier + 1)) v.toNat fun t new _ =>
    t.setQuota n (tier + 1) max new)

/-- TIER_CXLM_TOTAL is the sum of the windows (R204). -/
def State.cxlmTotal (s : State) : Nat := sumClients fun d => s.rd (R.TQ_CXLM d)

/-- The window of client n takes a size in units of 256 MiB: refused with event 0x3007, or allocated anew, to be filled before
TQ_CXLM_STAT[1] sets (R199). -/
def State.setCxlm (s : State) (n v : Nat) : State :=
  let old := s.rd (R.TQ_CXLM n)
  let refuse (t : State) : State := (t.setIrq pageTier 6 3).raise pageTier 0x3007 (some n) ((kvFind t.tiers.cxlm n).getD 0) 0
  let freed := chargeOf 2 (old * 2 ^ 28)
  if s.bit (R.TQ_CXLM_STAT n) 0 || 1024 < s.cxlmTotal - old + v then refuse s
  else if v = old then s
  else
    let gone := match kvFind s.tiers.cxlm n with
      | some h => s.freeRegion h
      | none => s
    if v ≠ 0 && gone.allocStatus n 2 (v * 2 ^ 28) freed ≠ 0 then refuse s
    else
      let s1 : State := { gone with tiers := { gone.tiers with cxlm := kvErase gone.tiers.cxlm n } }
      let s2 := ((s1.wr (R.TQ_CXLM n) v).setBit (R.TQ_CXLM_STAT n) 1 false)
      let s3 := s2.wr R.TIER_CXLM_TOTAL s2.cxlmTotal
      if v = 0 then s3
      else
        let (h, s4) := s3.newRegion n 2 (v * 2 ^ 28) useCxlm false 0 false
        { s4 with tiers := { s4.tiers with cxlm := kvPut s4.tiers.cxlm n h } }

/-- TQ_CXLM_WRITE (R199). -/
def execTqCxlmWrite (c n : Client) (v : BitVec 32) (s : State) : Host.Outcome State Fault Refusal :=
  settled (s.command c (R.TQ_CXLM n) v.toNat fun t new _ => t.setCxlm n new)

/-! Regions (R191, R192, R196, R278). -/

/-- A Gonum command on T3 that the module cannot serve: T3 is not mounted, or refuses writes (R517, R519). -/
def State.t3Absent (s : State) : Bool := s.noT3 || s.noWrite

/-- A tier status ends a command; every refusal but UNIT_ABSENT is counted (R192). -/
def State.tierFail (s : State) (cid : Cid) (status : Nat) : State :=
  (if status < 0x40 then s.tierRefuse cid.c else s).failGonum cid status 0

/-- REGION_ALLOC on a fetched command (R191, R196, R278, R425): a T3 region is made at once, one of T1 or T2 completes when its
zero fill ends. -/
def State.regionAlloc (s : State) (cid : Cid) (e : Sqe) : State :=
  let w := e.cdw10.toNat
  let t := w % 4
  let chan := w.testBit 2
  let size := dword2 e.cdw12 e.cdw13
  if t = 0 || size = 0 || s.capBytes t < size || (chan && t ≠ 3) then s.tierFail cid 0x06
  else if t = 3 && (s.t3Absent || (chan && !s.inService (pageChn (bits w 7 3)))) then s.tierFail cid 0x80
  else
    let st := s.allocStatus cid.c t size
    if st ≠ 0 then s.tierFail cid st
    else
      let (h, s1) := s.newRegion cid.c t size useClient (!chan) (bits w 7 3) (t = 3)
      if t = 3 then s1.succeed cid (h % 2 ^ 32) (h / 2 ^ 32)
      else { s1 with tiers := { s1.tiers with
        pendingFills := s1.tiers.pendingFills ++ [(h, cid, h % 2 ^ 32, h / 2 ^ 32)] } }

/-- The writable fields of REGION_ALLOC's dwords. -/
def allocMasks : Nat × Nat × Nat × Nat × Nat × Nat := (0xFF, 0, 0xFFFFFFFF, 0xFFFFFFFF, 0, 0)

/-- REGION_ALLOC (R191). -/
def execRegionAlloc (cid : Cid) (e : Sqe) (s : State) : Host.Outcome State Fault Refusal :=
  settled (s.gonumOf pageTier cid e allocMasks fun t => t.regionAlloc cid e)

/-- The commands that wait for the zero fill of a region complete, in the order they came. -/
def State.fillsDone (s : State) (region : Nat) : State :=
  let mine := s.tiers.pendingFills.filter fun e => e.1 = region
  mine.foldl (fun t e => t.succeed e.2.1 e.2.2.1 e.2.2.2)
    { s with tiers := { s.tiers with pendingFills := s.tiers.pendingFills.filter fun e => e.1 ≠ region } }

/-- ZERO_FILL_COMPLETE (R196, R199, R232, R244): the fill of a region has ended, and what waited for it goes on. -/
def execZeroFillComplete (region : Nat) (s : State) : Host.Outcome State Fault Refusal :=
  settled <|
    match s.region region with
    | none => s
    | some r =>
      if r.filled then s
      else
        let s1 := (s.memZero region).setRegion region { r with filled := true }
        let s2 := if r.use = useCxlm then s1.setBit (R.TQ_CXLM_STAT r.client) 1 true else s1
        let s3 := s2.ctxs.foldl (fun t e =>
          if e.2.region = region then
            e.2.resetBy.foldl (fun u c => u.wr (R.CTX_RESULT + c * bankStep) 1) (t.setCtx e.1 { e.2 with resetBy := [] })
          else t) s2
        s3.fillsDone region

/-- The regions that a step of a figure names: those its wave reads and those its buckets land in (R222, R312, R360). -/
def regionsNamed (d : StepDef) : List Nat :=
  (d.wave.filterMap fun w => match w with
    | .plain h _ _ => some h
    | .filter j => some j.region
    | .query _ _ _ _ => none) ++
  d.ops.filterMap fun o => match o.op with
    | .release _ _ _ h _ _ => some h
    | _ => none

/-- Does a loaded figure of client c use a region, by a handle compiled into it (R192)? -/
def State.figureUses (s : State) (c h : Nat) : Bool :=
  s.sched.figures.any fun e => e.2.client = c &&
    (e.2.fig.main :: (e.2.fig.reserve.map Prod.fst).toList).any fun f => (f.warm ++ f.cold).any fun d => (regionsNamed d).contains h

/-- REGION_FREE on a fetched command (R192); in read-only mode no unit of T3 is deallocated (R301). -/
def State.regionFree (s : State) (cid : Cid) (e : Sqe) : State :=
  let h := dword2 e.cdw12 e.cdw13
  match s.ownRegion cid.c h with
  | none => s.tierFail cid 0x05
  | some r =>
    if r.tier = 3 && s.t3Absent then s.tierFail cid 0x80
    else if r.tier = 3 && s.readOnly then s.tierFail cid 0x07
    else if 0 < r.pins || r.use ≠ useClient || s.figureUses cid.c h then s.tierFail cid 0x04
    else (s.freeRegion h).succeed cid 0 0

/-- The fields of REGION_FREE. -/
def freeMasks : Nat × Nat × Nat × Nat × Nat × Nat := (0, 0, 0xFFFFFFFF, 0xFFFFFFFF, 0, 0)

/-- REGION_FREE (R192). -/
def execRegionFree (cid : Cid) (e : Sqe) (s : State) : Host.Outcome State Fault Refusal :=
  settled (s.gonumOf pageTier cid e freeMasks fun t => t.regionFree cid e)

/-! MOVE and COPY (R175, R176, R425, R448, R449). -/

/-- The parts of 64 KiB that `n` bytes divide into: offset and length. -/
def parts64 (n : Nat) : List (Nat × Nat) :=
  (List.range ((n + 65535) / 65536)).map fun i => (65536 * i, min 65536 (n - 65536 * i))

/-- A range of a T1 or T2 region stored as Press frames in another (R180): answers none when they do not fit. -/
def State.encodeInto (s : State) (src o dst at_ room : Nat) : List (Nat × Nat) → Option State
  | [] => some s
  | p :: ps =>
    let (f, s1) := s.encodeFrame (s.memRead src (o + p.1) p.2) (s.memReadPoison src (o + p.1) p.2)
    if room < at_ + f.length then none
    else (s1.memWrite dst at_ f false).encodeInto src o dst (at_ + f.length) room ps

/-- Frames stored one after another in a range of `n` bytes are decoded into another region (R181); each frame takes its stored
units, at least one. -/
def State.decodeRange (s : State) (c src o dst at_ room : Nat) : Nat → Nat → Option State
  | 0, _ => some s
  | _, 0 => some s
  | fuel + 1, n =>
    let f := parseFrame (s.memRead src o (min n 65664))
    let size := max 1 (min f.slen 513) * 128
    let (d, s1) := s.decodeFrame c src f (s.memReadPoison src o (min n size)) (room - at_)
    if room < at_ + d.1.length then none
    else (s1.memWrite dst at_ d.1 d.2).decodeRange c src (o + size) dst (at_ + d.1.length) room fuel (n - min n size)

/-- The units a range of a T3 region touches, each with its place among the reads. -/
def unitsOf (o n : Nat) : List (Nat × Nat) :=
  if n = 0 then [] else (List.range ((o + n - 1) / 16384 + 1 - o / 16384)).map fun i => (i, o / 16384 + i)

/-- A range of a T3 region read into a T2 region, a poisoned codeword poisoning its words (R287, R448). -/
def State.t3Into (s : State) (src : Nat) (r : Region) (o dst at_ n : Nat) (reads : List ReadFault) : State :=
  let s1 := (unitsOf o n).foldl (fun t u => t.readAs false (unitQdi r u.2) src u.2 (reads.find? fun f => f.nth = u.1)) s
  (pieces o (List.replicate n 0) (n / 16384 + 2)).foldl (fun t p =>
    let (data, marks) := s1.unitData (unitQdi r p.1) src p.1
    (List.range 4).foldl (fun u k =>
      let lo := max p.2.1 (4096 * k)
      let hi := min (p.2.1 + p.2.2.length) (4096 * k + 4096)
      if lo < hi then u.memWrite dst (at_ + (p.1 * 16384 + lo - o)) (slice data lo (hi - lo)) (marks.contains k) else u) t) s1

/-- The codewords of unit u of a range that hold poisoned words of the T2 source (R449). -/
def State.poisonMarks (s : State) (src o o' n u : Nat) : List Nat :=
  (List.range 4).filter fun k =>
    let lo := max o' (u * 16384 + 4096 * k)
    let hi := min (o' + n) (u * 16384 + 4096 * k + 4096)
    lo < hi && s.memReadPoison src (o + (lo - o')) (hi - lo)

/-- The checks a MOVE and a COPY share; a handle may name any region of the client, one that the module made for it too (DESIGN CHOICE; log
entry 30): a reserved dword is Invalid Field, a handle that is unknown or another client's BAD_HANDLE,
no length, a reserved flag, a range outside its region, or tiers that `ok` does not allow INVALID (R192, R425). -/
def State.transferCheck (s : State) (cid : Cid) (d : MoveDesc) (ok : Nat → Nat → Bool → Bool)
    (eff : State → Region → Region → State) : State :=
  if d.rsv ≠ 0 then s.failNvme cid 0 scField true 0
  else
    match s.ownRegion cid.c d.src.toNat, s.ownRegion cid.c d.dst.toNat with
    | some a, some b =>
      let n := d.len.toNat
      if n = 0 || 1 < d.flags.toNat || a.bytes < d.srcOff.toNat + n || b.bytes < d.dstOff.toNat ||
          ((b.tier = 3 || d.flags = 0) && b.bytes < d.dstOff.toNat + n) || !ok a.tier b.tier (d.flags = 1) then s.tierFail cid 0x06
      else eff s a b
    | _, _ => s.tierFail cid 0x05

/-- A transfer between T1 and T2, or within one of them: plain, encoded, or decoded (R175). -/
def State.binderCopy (s : State) (cid : Cid) (d : MoveDesc) (a b : Region) (decode : Bool) (ecc : List EccFault) (redo : Nat) :
    State :=
  let n := d.len.toNat
  let (src, o, dst, at_) := (d.src.toNat, d.srcOff.toNat, d.dst.toNat, d.dstOff.toNat)
  let s1 := (s.eccRead src o ecc).redone pageTier cid.c redo
  let moved :=
    if d.flags = 0 then some (s1.memCopy src o dst at_ n)
    else if decode then s1.decodeRange cid.c src o dst at_ b.bytes (n / 128 + 1) n
    else s1.encodeInto src o dst at_ b.bytes (parts64 n)
  match moved with
  | none => s.tierFail cid 0x06
  | some s2 =>
    let rd (t : State) : State := if a.tier = 1 then t.chargeT1 cid.c n 0 else t.chargeT2 cid.c n 0
    let wr (t : State) : State := if b.tier = 1 then t.chargeT1 cid.c 0 n else t.chargeT2 cid.c 0 n
    (wr (rd s2)).succeed cid 0 0

/-- The tiers between which MOVE transfers (R175), the flag asking for Press. -/
def moveTiers (x y : Nat) (press : Bool) : Bool := (x = 1 && y = 2) || (x = 2 && y = 1) || (x + y = 5 && !press)

/-- The transfer of a MOVE: between T1 and T2 with Press as the flag says, or between T2 and T3; data for T3 is staged, and the
MOVE completes when it is programmed (R175, R281, R517). -/
def State.moveNow (s : State) (cid : Cid) (d : MoveDesc) (reads : List ReadFault) (ecc : List EccFault) (redo : Nat) : State :=
  s.transferCheck cid d moveTiers fun t a b =>
    let n := d.len.toNat
    let (src, o, dst, at_) := (d.src.toNat, d.srcOff.toNat, d.dst.toNat, d.dstOff.toNat)
    if a.tier = 3 then
      if t.noT3 then t.tierFail cid 0x80
      else (((t.t3Into src a o dst at_ n reads).chargeT3 cid.c ((unitsOf o n).length * 16384) 0).chargeT2 cid.c 0 n).succeed cid 0 0
    else if b.tier = 3 then
      if t.noT3 then t.tierFail cid 0x80
      else if t.noWrite then t.failNvme cid 0 scNotReady true 0
      else
        let t1 := t.eccRead src o ecc
        let ps := pieces at_ (t1.memRead src o n) (n / 16384 + 2)
        let st := t1.allocTest cid.c 3 (t1.newUnits dst ps + t1.stagedNew cid.c)
        if t1.readOnly then t1.tierFail cid 0x07
        else if t1.newUnits dst ps ≠ 0 && st ≠ 0 then t1.tierFail cid st
        else ((t1.stage (some cid) 0 dst (t1.poisonMarks src o at_ n) ps).chargeT2 cid.c n 0).chargeT3 cid.c 0 n
    else t.binderCopy cid d a b (b.tier = 1) ecc redo

/-- The bytes that the frames of a range of `n` bytes give when they are decoded (R177, R181). -/
def State.decodedLength (s : State) (src o : Nat) : Nat → Nat → Nat
  | 0, _ => 0
  | _, 0 => 0
  | fuel + 1, n =>
    let f := parseFrame (s.memRead src o (min n 65664))
    let size := max 1 (min f.slen 513) * 128
    f.ulen + s.decodedLength src (o + size) fuel (n - min n size)

/-- A MOVE or COPY waits behind other transfers, divided by its output, which is what a decoding one expands to and is taken as its input
where it encodes (log entry 51); both regions are in use until it is served (R177, R192). -/
def State.waitMove (s : State) (d : MoveDesc) (decode : Bool) (j : BinderJob) : State :=
  let n := d.len.toNat
  ((s.pin d.src.toNat).pin d.dst.toNat).waitJob 0
    (if decode && d.flags = 1 then s.decodedLength d.src.toNat d.srcOff.toNat (n / 128 + 1) n else n) j

/-- MOVE on a fetched command: checked, and served at once or behind the transfers that wait (R177). -/
def State.moveData (s : State) (cid : Cid) (d : MoveDesc) (reads : List ReadFault) (ecc : List EccFault) (redo : Nat) : State :=
  if s.binderFree && !s.moveHeld d then s.moveNow cid d reads ecc redo
  else
    s.transferCheck cid d moveTiers fun t a b =>
      if (a.tier = 3 || b.tier = 3) && (t.noT3 || (b.tier = 3 && (t.noWrite || t.readOnly))) then t.moveNow cid d reads ecc redo
      else t.waitMove d (b.tier = 1) (.move cid d reads ecc redo)

/-- MOVE (R175): its fields lie in the descriptor alone. -/
def execMove (cid : Cid) (e : Sqe) (d : MoveDesc) (reads : List ReadFault) (ecc : List EccFault) (redo : Nat) (s : State) :
    Host.Outcome State Fault Refusal :=
  settled (s.gonum cid e (0, 0, 0, 0, 0, 0) fun t => t.moveData cid d reads ecc redo)

/-- The tiers within which COPY transfers (R175). -/
def copyTiers (x y : Nat) (_ : Bool) : Bool := x = y && decide (x < 3)

/-- The transfer of a COPY: within T1 or within T2 (R175). -/
def State.copyNow (s : State) (cid : Cid) (d : MoveDesc) (ecc : List EccFault) (redo : Nat) : State :=
  s.transferCheck cid d copyTiers fun t a b => t.binderCopy cid d a b false ecc redo

/-- COPY on a fetched command: checked, and served at once or behind the transfers that wait (R177). -/
def State.copyData (s : State) (cid : Cid) (d : MoveDesc) (ecc : List EccFault) (redo : Nat) : State :=
  if s.binderFree then s.copyNow cid d ecc redo
  else s.transferCheck cid d copyTiers fun t _ _ => t.waitMove d false (.copy cid d ecc redo)

/-- COPY (R175). -/
def execCopy (cid : Cid) (e : Sqe) (d : MoveDesc) (ecc : List EccFault) (redo : Nat) (s : State) :
    Host.Outcome State Fault Refusal :=
  settled (s.gonum cid e (0, 0, 0, 0, 0, 0) fun t => t.copyData cid d ecc redo)

/-- The command that a queued transfer answers, and the regions in use until it is served (R192). -/
def Transfer.command (t : Transfer) : Option Cid :=
  match t.job with
  | some (.move cid _ _ _ _) | some (.copy cid _ _ _) | some (.figure cid _ _) => some cid
  | some (.spill _ _ _) | none => none
def Transfer.pins (t : Transfer) : List Nat :=
  match t.job with
  | some (.move _ d _ _ _) | some (.copy _ d _ _) => [d.src.toNat, d.dst.toNat]
  | some (.figure _ e _) => [dword2 e.cdw14 e.cdw15]
  | some (.spill _ _ _) | none => []

/-- The transfers that a reset logical device waits for leave the queues, and their regions are free of them (R406). -/
def State.dropMoves (s : State) (c : Nat) : State :=
  let mine (t : Transfer) : Bool := match t.command with
    | some cid => cid.c.val = c && cid.q ≠ pmbQ
    | none => false
  let gone := (s.tiers.lc ++ s.tiers.be ++ s.tiers.again).filter mine
  ((gone.flatMap Transfer.pins).foldl State.unpin s).dropTransfers mine

end Sys2Proof.Machine
end

