-- ==== Sys2Proof/Machine/Journal.lean ====
section
/-! DEFINITION. The record journal (R260 to R265), replay from it (R266 to R269), and the colophon record (R252, R272). -/

namespace Sys2Proof.Machine

/-! Record types (R262). -/

def jRunStart : Nat := 1
def jState : Nat := 2
def jHostIn : Nat := 3
def jTime : Nat := 4
def jLinkIn : Nat := 5
def jOrder : Nat := 6
def jFallback : Nat := 7
def jResult : Nat := 8
def jMark : Nat := 9
def jGap : Nat := 10
def jStateDigest : Nat := 11

/-- A journal with nothing in it. -/
def emptyJournal : Journal := ⟨[], [], 0, 0, 0, none, false, false, []⟩

/-- A client's journal, and the journal replaced. -/
def State.journal (s : State) (n : Nat) : Journal := kvGet emptyJournal s.journals n
def State.setJournal (s : State) (n : Nat) (j : Journal) : State := { s with journals := kvPut s.journals n j }

/-- The bytes of a record: header and padded payload (R261). -/
def JRecord.size (r : JRecord) : Nat := 32 + roundUp r.payload.length 16
def JRecord.bytes (r : JRecord) : List Byte :=
  let head := leBytes 2 r.type ++ [0, 0] ++ leBytes 4 r.payload.length ++ leBytes 8 r.seq ++ leBytes 8 r.stepCtr ++ leBytes 4 r.who
  let body := r.payload ++ List.replicate (roundUp r.payload.length 16 - r.payload.length) 0
  head ++ leBytes 4 (crc32c (head ++ body)) ++ body

/-- Bytes of records. -/
def sizeOf (l : List JRecord) : Nat := l.foldl (fun a r => a + r.size) 0

/-- Bytes in the buffer of the record unit, which all clients share (R263), and DET_J_FILL. -/
def State.jTotal (s : State) : Nat := s.journals.foldl (fun a e => a + sizeOf e.2.buffer) 0
def State.jShow (s : State) : State := s.wr R.DET_J_FILL (s.jTotal / 2 ^ 20)

/-- The buffer's size. -/
def jCap : Nat := 2 ^ 31

/-- A record takes the next SEQ and enters the buffer (R261). -/
def State.jPut (s : State) (n : Nat) (r : JRecord) : State :=
  let seq := s.rd (R.DJ_SEQ n)
  let j := s.journal n
  ((s.setJournal n { j with buffer := j.buffer ++ [{ r with seq := seq }] }).wr (R.DJ_SEQ n) (seq + 1)).jShow

/-- Once there is room again, the GAP record of what was lost is written, counted and reported, with the context of the first record
lost (R263, R270). -/
def State.jGapDue (s : State) (n : Nat) : State :=
  let j := s.journal n
  if j.lostRecords = 0 || jCap < s.jTotal + 48 then s
  else
    let s1 := (s.setJournal n { j with lostRecords := 0, lostBytes := 0 }).jPut n
      ⟨jGap, 0, 0, n * 2 ^ 18, leBytes 8 j.lostRecords ++ leBytes 8 j.lostBytes, false, s.bit (R.DJ_CTL n) 2, 0, 0⟩
    ((s1.countSat (R.DJ_GAP n) j.lostRecords).setIrq pageDet 4 2).raise pageDet 0x2401 (some n) 0 j.lostCtx

/-- Room has returned: every client that lost records has its GAP record written (R263). -/
def State.jGapsDue (s : State) : State := (List.range 16).foldl (fun t n => t.jGapDue n) s

/-- A record arrives: buffered while there is room or `must` says so, else lost; answers whether it was buffered (R263). -/
def State.jAppend (s : State) (n : Nat) (r : JRecord) (must : Bool) : Bool × State :=
  let s1 := s.jGapDue n
  let j := s1.journal n
  if must || (j.lostRecords = 0 && s1.jTotal + r.size ≤ jCap) then (true, s1.jPut n r)
  else
    (false, s1.setJournal n { j with
      lostRecords := j.lostRecords + 1, lostBytes := j.lostBytes + r.size
      lostCtx := if j.lostRecords = 0 then r.who % 2 ^ 18 else j.lostCtx })

/-- WHO of a record (R261). -/
def whoOf (ctx client handle : Nat) : Nat := ctx + client * 2 ^ 18 + handle * 2 ^ 22

/-- A run journals a record of one of its contexts; a record lost sets JOURNAL_GAP (R260, R263). -/
def State.jRun (s : State) (rn ctx type : Nat) (payload : List Byte) (poison : Bool) : State :=
  match s.run rn with
  | none => s
  | some x =>
    if !x.journalled then s
    else
      let (kept, s1) := s.jAppend x.client
        ⟨type, 0, (s.ctx ctx).stepCtr, whoOf ctx x.client x.handle, payload, poison, x.jctl.testBit 2, 0,
          (x.cmds.findIdx? fun m => m.ctx = ctx).getD 0⟩
        (!x.lc && x.jctl.testBit 1)
      if kept then s1
      else
        match s1.run rn with
        | some y => s1.setRun rn { y with flags := y.flags ||| 2 ^ 23 }
        | none => s1

/-! Writing the region (R263, R264). -/

/-- Journalling of a client stops at a record of a context: the region is full and WRAP is 0 (R264, R270). -/
def State.jStop (s : State) (n ctx : Nat) : State :=
  let runs := s.sched.runs.map fun e =>
    (e.1, if e.2.client = n && e.2.journalled then { e.2 with journalled := false, flags := e.2.flags ||| 2 ^ 23 } else e.2)
  let s1 := ({ s with sched := { s.sched with runs := runs } }).setJournal n { s.journal n with buffer := [] }
  ((((s1.setBit (R.DJ_CTL n) 0 false).setBit (R.DJ_STAT n) 1 true).jShow.setIrq pageDet 4 2).raise pageDet 0x2402 (some n) 0 ctx).jGapsDue

/-- The records kept once the oldest are overwritten until `room` bytes are free, from the RUN_START or STATE record that begins
the oldest whole run (R264). -/
def jKeep (cap room : Nat) : List JRecord → List JRecord
  | [] => []
  | r :: rs =>
    if sizeOf (r :: rs) + room ≤ cap && (r.type = jRunStart || r.type = jState) then r :: rs else jKeep cap room rs

/-- A region is named for the journal: it starts anew, at its first byte (R264, R272; log entry 55). -/
def State.jRegion (s : State) (n h : Nat) : State :=
  ((s.setJournal n { s.journal n with written := [] }).wr (R.DJ_REGION n) h).wr (R.DJ_BYTES n) 0

/-- One record goes to the region: staged for T3 at the journal's place, which wraps at the region's end (R261, R264, R449).
Nothing is written without T3 or room in the quota, nor in a region of CHANNEL placement (R278); in read-only mode the append is refused as
every T3 write is (R301). A record longer than the region finds it full, and where WRAP would make room that no overwriting can, it is
lost (log entry 55). -/
def State.jWrite (s : State) (n : Nat) : State :=
  let j := s.journal n
  let h := s.rd (R.DJ_REGION n)
  match j.buffer, s.ownRegion n h with
  | r :: rest, some g =>
    let cap := g.bytes / 16 * 16
    if g.tier ≠ 3 || !g.striped || s.t3Absent then s
    else if s.readOnly then s.tierRefuse n
    else if cap < r.size && r.wrap then
      (s.setJournal n { j with
        buffer := rest, lostRecords := j.lostRecords + 1, lostBytes := j.lostBytes + r.size
        lostCtx := if j.lostRecords = 0 then r.who % 2 ^ 18 else j.lostCtx }).jShow.jGapsDue
    else
      let full := cap < sizeOf j.written + r.size
      if full && !r.wrap then s.jStop n (r.who % 2 ^ 18)
      else
        let kept := if full then jKeep cap r.size j.written else j.written
        let pos := s.rd (R.DJ_BYTES n) % cap
        let bs := r.bytes
        let first := min bs.length (cap - pos)
        let ps := pieces pos (bs.take first) (first / 16384 + 2) ++ pieces 0 (bs.drop first) (bs.length / 16384 + 2)
        let new := s.newUnits h ps
        if new ≠ 0 && s.allocTest n 3 (new + s.stagedNew n) ≠ 0 then s
        else
          let s1 := s.stage none 0 h (fun _ => if r.poison then [0, 1, 2, 3] else []) ps
          let s2 := (s1.setJournal n { j with buffer := rest, written := kept ++ [{ r with pos := pos }] }).count (R.DJ_BYTES n) r.size
          let s3 := match (kept ++ [r]).head? with
            | some o => s2.wr (R.DJ_OLDEST n) o.seq
            | none => s2
          (s3.jShow.chargeT3 n 0 r.size).jGapsDue
  | _, _ => s

/-- JOURNAL_RECORD_WRITE (R263). -/
def execJournalRecordWrite (n : Client) (count : Nat) (s : State) : Host.Outcome State Fault Refusal :=
  settled ((List.range count).foldl (fun t _ => t.jWrite n) s)

/-- DJ_CTL takes a value; journalling that starts anew clears FULL, and writes each context's state again before its first run
(R262, R264, R265). -/
def State.setDjCtl (s : State) (n v : Nat) : State :=
  let rise := v.testBit 0 && !s.bit (R.DJ_CTL n) 0
  let s1 := s.wr (R.DJ_CTL n) v
  if rise then (s1.setBit (R.DJ_STAT n) 1 false).setJournal n { s1.journal n with hadState := [] } else s1

/-- DJ_CTL_WRITE (R265). -/
def execDjCtlWrite (c n : Client) (v : BitVec 32) (s : State) : Host.Outcome State Fault Refusal :=
  settled (s.command c (R.DJ_CTL n) v.toNat fun t new _ => t.setDjCtl n new)

/-- JSTART, JSTOP and MARK struck for a client (R273). -/
def State.jArm (s : State) (n code m : Nat) : State :=
  if code = 1 then s.setDjCtl n (s.rd (R.DJ_CTL n) ||| 1)
  else if code = 2 then s.setBit (R.DJ_CTL n) 0 false
  else (s.jAppend n ⟨jMark, 0, 0, n * 2 ^ 18, leBytes 8 m, false, s.bit (R.DJ_CTL n) 2, 0, 0⟩ false).2

/-! Replay (R266 to R269). -/

/-- DR_STAT codes (R272). -/
def drRunning : Nat := 1
def drStopped : Nat := 2
def drEnd : Nat := 3
def drDiverged : Nat := 4
def drUnavailable : Nat := 5
def drAborted : Nat := 6

/-- The 16 bytes of a digest (R262). -/
def digest16 (bs : List Byte) : List Byte := shake256 bs 16

/-- The committed state of a context. -/
def State.ctxState (s : State) (x : Nat) : List Byte := s.memRead (s.ctx x).region 0 (s.ctx x).stateLen

/-- A replay stops: DR_STAT, DR_STEPCTR and DR_SDIG say where, its run is gone, and the destination is free of it (R267, R268). -/
def State.drStop (s : State) (n code fld : Nat) : State :=
  let dst := s.rd (R.DR_DST_CTX n)
  let replayed := s.sched.runs.filter fun e => e.2.replayOf = some n
  let runs := s.sched.runs.map fun e =>
    (e.1, if e.2.replayOf = some n then
      { e.2 with phase := .done, rows := [], cols := [], window := none, heldFrom := none, replayOf := none } else e.2)
  let mine := replayed.map Prod.fst
  let s0 := replayed.foldl (fun t e => t.windowBack e.2) (s.dropTransfers fun t => t.kind ≠ trJob && mine.contains t.run)
  let s1 := ({ s0 with sched := { s0.sched with runs := runs } }).setJournal n
    { s.journal n with replay := none, aborting := false, replayed := false }
  let dig := digest16 (s1.ctxState dst)
  let s2 := (List.range 4).foldl (fun t i => t.wr (R.DR_SDIG n i) (fieldOf dig (4 * i) 4)) (s1.leaveRun dst)
  let s3 := ((s2.wr (R.DR_STAT n) (code + fld * 256)).wr (R.DR_STEPCTR n) (s2.ctx dst).stepCtr).setIrq pageDet 5 2
  if code = drDiverged then s3.raise pageDet 0x2403 (some n) 0 dst
  else if code = drUnavailable then s3.raise pageDet 0x2404 (some n) 0 dst
  else s3

/-- A command that a replayed run stands for: nothing is fetched from a host, and nothing is posted (R266). -/
def replayCmd (n dst handle : Nat) : RunCmd :=
  ⟨⟨Fin.ofNat 16 n, deadQ, 0⟩, dst, handle, [], 0, 2 ^ 40, 0, 0, 0, 0, 0, 0⟩

/-- A run as it is formed (R211). -/
def newRun (handle client : Nat) (lc cold : Bool) (cmds : List RunCmd) (formed admitM : Nat) : Run :=
  { handle, client, lc, cold, cmds, phase := .formed, step := 0, inReserve := false, fallback := none, formedCount := formed
    admitM, admitted := false, startAt := 0, rows := [], cols := [], gaveBack := [], used := [], waitRow := none, covered := false, bound := 0, gen := 0, admitAt := 0
    strikeAt := 0, endAt := 0, expireAt := 0, expiries := 0, stepReplayed := false, replayDue := false, pc := 0, recomp := 0
    lateCyc := 0, heldFrom := none, lentHeld := false, mons := [], redOwner := 0xFF, forCtx := [], flags := 0, vflags := [], window := none, layers := [], missPending := none
    missSaid := false, shadow := [], results := [], colos := [], orders := [], journalled := false, jseq := [], jctl := 0
    epochs := [], waveData := [], wavePlan := [], waveAt := 0, waves := 0, decl := 0, replayOf := none, charges := List.replicate 6 0, pmax := 0, bucketWait := [], arrived := [], posted := [], records := [], causes := 0
    faultEvent := 0, place := 0 }

/-- A run enters the table. -/
def State.addRun (s : State) (x : Run) : State :=
  { s with sched := { s.sched with runs := kvPut s.sched.runs s.sched.nextRun x, nextRun := s.sched.nextRun + 1 } }

/-- A STATE record is loaded into the destination before the first replayed run (R266). -/
def State.drLoad (s : State) (dst : Nat) (r : JRecord) : State :=
  let e := s.ctx dst
  (s.memWrite e.region 0 r.payload r.poison).setCtx dst { e with state := 2, stepCtr := r.stepCtr }

/-- The next journalled run of a replay, as a BE run on the destination (R266, R268). -/
def State.drNext (s : State) (n : Nat) : List JRecord → State
  | [] => s.drStop n drEnd 0
  | r :: rs =>
    let j := s.journal n
    let dst := s.rd (R.DR_DST_CTX n)
    let e := s.ctx dst
    if r.type = jGap || r.poison then s.drStop n drUnavailable 0
    else if r.type = jState && !j.replayed then
      if e.stateLen < r.payload.length then s.drStop n drUnavailable 0 else (s.drLoad dst r).drNext n rs
    else if r.type = jRunStart then
      let hash := fieldOf r.payload 0 32
      match s.sched.figures.find? fun f => f.2.client = n && f.2.fig.main.hash.toNat = hash with
      | none => s.drStop n drUnavailable 0
      | some (h, _) =>
        let ctl := fieldOf r.payload 64 4
        let x := newRun h n false (ctl.testBit 10) [replayCmd n dst h] s.msr.count 0
        let e' := if j.replayed then e else { e with stepCtr := r.stepCtr }
        ((s.setCtx dst { e' with inRun := true }).setJournal n { j with replay := some rs, replayed := true }).addRun
          { x with replayOf := some n, flags := 2 ^ 24, epochs := [(0, fieldOf r.payload 56 8)], place := r.place }
    else s.drNext n rs

/-- The bytes of a range of a T3 region, and whether a codeword among them is poisoned. -/
def State.t3Bytes (s : State) (h : Nat) (r : Region) (o n : Nat) : List Byte × Bool :=
  (unitsOf o n).foldl (fun (a : List Byte × Bool) u =>
    let (d, marks) := s.unitData (unitQdi r u.2) h u.2
    let lo := max o (u.2 * 16384)
    let hi := min (o + n) (u.2 * 16384 + 16384)
    let bad := marks.any fun k => decide (u.2 * 16384 + 4096 * k < hi) && decide (lo < u.2 * 16384 + 4096 * k + 4096)
    (a.1 ++ slice d (lo - u.2 * 16384) (hi - lo), a.2 || bad)) ([], false)

/-- Does the CHECK of a record pass as the region holds it (R261, R268)? What is still in write staging is as it was made. -/
def State.jIntact (s : State) (n : Nat) (r : JRecord) : Bool :=
  let h := s.rd (R.DJ_REGION n)
  match s.ownRegion n h with
  | none => false
  | some g =>
    let cap := g.bytes / 16 * 16
    let first := min r.size (cap - r.pos)
    let units := (unitsOf r.pos first ++ unitsOf 0 (r.size - first)).map Prod.snd
    let staged := s.ftl.groups.any fun e => e.2.region = h && e.2.units.any fun u => units.contains u.1
    let (a, bad) := s.t3Bytes h g r.pos first
    let (b, bad') := s.t3Bytes h g 0 (r.size - first)
    staged || (g.tier = 3 && !s.noT3 && !bad && !bad' && a ++ b = r.bytes)

/-- Is a RUN_START record that of a cold-path run (R262)? -/
def JRecord.cold (r : JRecord) : Bool := (fieldOf r.payload 64 4).testBit 10

/-- The records a replay reads: those of the source context from DR_FROM on, lost records that stand in their way, and before a warm
first run the STATE record that precedes it; only records that exist as START is written, and those whose CHECK fails marked so (R266,
R268, R269). -/
def State.drRecords (s : State) (n : Nat) : List JRecord :=
  let j := s.journal n
  let src := s.rd (R.DR_SRC_CTX n)
  let all := j.written.map (fun r => if s.jIntact n r then r else { r with poison := true }) ++ j.buffer
  let (rs, before) := (all.filter fun r => r.type = jGap || (r.type ≠ jMark && r.who % 2 ^ 18 = src)).partition
    fun r => decide (s.rd (R.DR_FROM n) ≤ r.seq)
  let warm := (rs.find? fun r => r.type = jRunStart).any fun r => !r.cold
  let stated := (rs.takeWhile fun r => r.type ≠ jRunStart).any fun r => r.type = jState
  (if warm && !stated then ((before.filter fun r => r.type = jState).getLast?).toList else []) ++ rs

/-- START: ignored while a replay runs, and for a destination that is not the client's, is in a run, has state spilled or still filling,
or is not COLD before a cold-path run; a warm first run without its STATE record lacks its input (R266, R268). -/
def State.drStart (s : State) (n : Nat) : State :=
  let dst := s.rd (R.DR_DST_CTX n)
  let e := s.ctx dst
  let ready := match s.region e.region with
    | some r => r.filled
    | none => false
  let rs := s.drRecords n
  let first := rs.find? fun r => r.type = jRunStart
  let stated := (rs.takeWhile fun r => r.type ≠ jRunStart).any fun r => r.type = jState
  if (s.journal n).replay.isSome || e.state = 0 || e.client ≠ n || e.inRun || e.spilled || !ready ||
      (first.any JRecord.cold && e.state ≠ 1) then s
  else
    let s1 := ((s.setCtx dst { e with inRun := true }).wr (R.DR_STAT n) drRunning).setJournal n
      { s.journal n with replay := some rs, replayed := false, aborting := false }
    if first.any (fun r => !r.cold) && !stated then s1.drStop n drUnavailable 0 else s1.drNext n rs

/-- The next record of a replayed run, when it is of a type: its payload from byte `skip` on; the records are then those behind it. -/
def State.drTake (s : State) (n type skip : Nat) : Option (List Byte) × State :=
  match (s.journal n).replay with
  | some (r :: rs) =>
    if r.type = type && !r.poison then
      (some (r.payload.drop skip), s.setJournal n { s.journal n with replay := some rs })
    else (none, s)
  | _ => (none, s)

/-- The landing of the next bucket that a replayed run releases: of the landings journalled up to the next run's start the one with the
lowest sequence number, its completion record and values; it is taken out of the records still to come (R263, R266, R363). -/
def State.drLanding (s : State) (n : Nat) : Option (List Byte) × State :=
  match (s.journal n).replay with
  | some rs =>
    let seqOf (r : JRecord) : Nat := fieldOf r.payload 16 8
    let here := (rs.takeWhile fun r => r.type ≠ jRunStart).filter fun r => r.type = jLinkIn && fieldOf r.payload 2 1 = 0xFF && !r.poison
    match here.foldl (fun (a : Option JRecord) r => match a with
      | some b => if seqOf r < seqOf b then some r else some b
      | none => some r) none with
    | some r => (some (r.payload.drop 16), s.setJournal n { s.journal n with replay := some (rs.erase r) })
    | none => (none, s)
  | none => (none, s)

/-- A replay that lacks the record it needs stops: at the end of the journal, or for want of the input (R268). -/
def State.drMissing (s : State) (n : Nat) : State :=
  match (s.journal n).replay with
  | some [] => s.drStop n drEnd 0
  | _ => s.drStop n drUnavailable 0

/-- The field code of the first difference between a replayed result and the journalled one (R267). -/
def drDiff (colo dig : List Byte) (payload : List Byte) : Option Nat :=
  let old := payload.take 128
  let same (i n : Nat) : Bool := fieldOf colo i n = fieldOf old i n
  let vbits := 0x21F0D00
  if (fieldOf colo 0 4 &&& vbits) ≠ (fieldOf old 0 4 &&& vbits) then some 0x01
  else if !same 32 32 then some 0x02
  else if !same 16 16 then some 0x03
  else if !same 8 8 then some 0x04
  else if !same 64 8 then some 0x05
  else if !same 92 4 then some 0x06
  else if dig ≠ (payload.drop 128).take 16 then some 0x10
  else none

/-- Is a RESULT record that of a run torn down (R262)? -/
def JRecord.torn (r : JRecord) : Bool := r.type = jResult && (r.payload.drop 128).take 16 = List.replicate 16 0

/-- A replayed result is compared with its RESULT record; answers the field code of a difference, 0x10 where the journalled run was torn
down or gave no such result (R267, R269). Lost records and the journal's end stop the replay behind the commit. -/
def State.drResult (s : State) (n : Nat) (colo dig : List Byte) : Option Nat × State :=
  match (s.journal n).replay with
  | some (r :: rs) =>
    if r.type = jGap || r.poison then (none, s)
    else if r.type = jResult then
      (if r.torn then some 0x10 else drDiff colo dig r.payload,
        (s.setJournal n { s.journal n with replay := some rs }).wr (R.DR_AT n) r.seq)
    else (some 0x10, s)
  | _ => (none, s)

/-- A replayed commit is compared with its STATE_DIGEST record, when one follows (R267). -/
def State.drDigest (s : State) (n dst : Nat) : Option Nat × State :=
  match (s.journal n).replay with
  | some (r :: rs) =>
    if r.type = jStateDigest && !r.poison then
      (if digest16 (s.ctxState dst) = r.payload.take 16 then none else some 0x11,
        (s.setJournal n { s.journal n with replay := some rs }).wr (R.DR_AT n) r.seq)
    else (none, s)
  | _ => (none, s)

/-! The colophon record (R252, R272). -/

/-- DET_COLO[i] as one run of registers. -/
def detColo (i : Nat) : Nat := R.DET_COLO 0 + 4 * i

/-- READ written to DET_CCMD by client c (R272). -/
def State.colophonRead (s : State) (c : Nat) : State :=
  let e := s.ctx (s.fld (banked c R.DET_CSEL) 17 0)
  let none_ := List.replicate 128 (0 : Byte)
  let answer (t : State) (code : Nat) (bs : List Byte) : State :=
    (t.copyWords c detColo bs).wr (banked c R.DET_CRESULT) (1 + 2 * code)
  if e.state = 0 then answer s 1 none_
  else if c ≠ 0 && e.client ≠ c then (answer s 1 none_).accessEvent 0x1002 c R.DET_CCMD
  else
    match e.colophon with
    | none => answer s 2 none_
    | some bs => answer s 0 bs

/-- DET_CCMD_READ (R272). -/
def execDetCcmdRead (c : Client) (s : State) : Host.Outcome State Fault Refusal :=
  settled (s.command c R.DET_CCMD 1 fun t _ raw => if raw.testBit 0 then t.colophonRead c else t)

end Sys2Proof.Machine
end

