-- ==== Sys2Proof/Machine/Fabric.lean ====
section
/-! DEFINITION. The fabric (ch. 12): training and admission of links, spares, trees, block-float 16, buckets as they are released,
reduced and restarted, and peer messages as they are posted and sent. -/

namespace Sys2Proof.Machine

/-! Ranks and trees (R356 to R358). -/

/-- Rank, size, and the position of a rank in tree t. -/
def State.rank (s : State) : Nat := s.fld R.RED_FAB 11 0
def State.fabricSize (s : State) : Nat := s.fld R.RED_FAB 27 16 + 1
def State.position (s : State) (t g : Nat) : Nat :=
  (s.fld (R.RED_TREE t) 11 0 * g + s.fld (R.RED_TREE t) 27 16) % s.fabricSize
def State.inPlan (s : State) (t : Nat) : Bool := s.bit (R.RED_TREE t) 31

/-- The position of the neighbour in direction d of position q: 0 parent, 1 left child, 2 right child; none when there is none. -/
def neighbour (n q d : Nat) : Option Nat :=
  if d = 0 then (if q = 0 then none else some ((q - 1) / 2)) else if 2 * q + d < n then some (2 * q + d) else none

/-- The neighbour that this rank has in tree t in direction d. -/
def State.treeNeighbour (s : State) (t d : Nat) : Option Nat := neighbour s.fabricSize (s.position t s.rank) d

/-- Directions of this rank's children in a tree. -/
def State.children (s : State) (t : Nat) : List Nat := [1, 2].filter fun d => (s.treeNeighbour t d).isSome

/-- The set of trees in service and the generation (RED_TSET). -/
def State.tset (s : State) : Nat := s.fld R.RED_TSET 9 0
def State.generation (s : State) : Nat := s.fld R.RED_TSET 31 16

/-- The trees of a mask, in ascending order. -/
def treesOf (mask : Nat) : List Nat := (List.range 10).filter fun t => mask.testBit t

/-! Links (R348 to R355). -/

/-- A link enters a state; LNK's state-change interrupt says so (R379), and on a link that comes UP the neighbour hears of this module's
caller key and hop count (R81, R82). -/
def State.setLinkState (s : State) (l v : Nat) : State :=
  if s.linkState l = v then s
  else
    let s1 := (s.setFld (R.LNK_STAT l) 2 0 v).setIrq (pageLnk l) 4 7
    if v = lkUp then s1.advertiseOn l else s1

/-- Does the plan leave a link uncabled: it serves a tree of the plan in a direction in which this rank has no neighbour (R358)? -/
def State.uncabled (s : State) (l : Nat) : Bool :=
  let t := s.linkTree l
  t < 10 && s.inPlan t && (s.treeNeighbour t (s.linkDir l)).isNone

/-- TRAIN written 0: the link goes DOWN; from UP or STANDBY the cause is 0x07. Written 1, a DOWN link trains, but for one that the plan
leaves uncabled, which stays DOWN (R348, R358). -/
def State.setTrain (s : State) (l v : Nat) : State :=
  let was := s.linkState l
  let s1 := s.wr (R.LNK_CTL l) v
  if v.testBit 0 then (if was = lkDown && !s1.uncabled l then s1.setLinkState l lkTrain else s1)
  else
    let s2 := if was = lkUp || was = lkStandby then s1.wr (R.LNK_LAST_DOWN l) 7 else s1
    (((s2.setLinkState l lkDown).setBit (R.LNK_STAT l) 4 false).setBit (R.LNK_STAT l) 5 false).setBit (R.LNK_STAT l) 6 false

/-- TRAIN (R348). -/
def execTrain (c : Client) (link : LinkNo) (v : Bool) (s : State) : Host.Outcome State Fault Refusal :=
  settled (s.command c (R.LNK_CTL link) v.toNat fun t new _ => t.setTrain link new)

/-- Do the peer's rank, role and link number fit the plan (R351, R358): the rank at the far end of the role's direction, its opposite
direction, and the link that has this role in the plan, which gives every rank the same link roles (DEDUCED; log entry 35); for a
spare the neighbour of the link it backs, on a link that is a spare? -/
def State.planFits (s : State) (l : Nat) (p : PeerPlan) : Bool :=
  let t := s.linkTree l
  let d := s.linkDir l
  let back := if d = 0 then (if s.position t s.rank % 2 = 1 then 1 else 2) else 0
  t < 10 && s.inPlan t && s.treeNeighbour t d = some (s.position t p.rank) && p.rank < s.fabricSize && p.link < 32 &&
    (if s.isSpare l then p.tree = 0xE && s.isSpare p.link
      else p.tree = t && p.dir = back && s.fld (R.LNK_ROLE p.link) 3 0 = t && s.fld (R.LNK_ROLE p.link) 5 4 = back)

/-- TRAINING_COMPLETE (R348, R351). -/
def execTrainingComplete (link : LinkNo) (peer : PeerPlan) (s : State) : Host.Outcome State Fault Refusal :=
  settled <|
    let l := link.val
    if s.linkState l ≠ lkTrain then s
    else
      let s1 := (s.setBit (R.LNK_STAT l) 4 true).wr (R.LNK_PEER l)
        (peer.rank % 4096 + peer.link % 32 * 2 ^ 12 + peer.tree % 16 * 2 ^ 17 + peer.dir % 4 * 2 ^ 21 + 2 ^ 31)
      if s1.planFits l peer then (s1.setBit (R.LNK_STAT l) 6 true).setLinkState l lkAuth
      else ((s1.setLinkState l lkRefused).wr (R.LNK_LAST_DOWN l) 5).raise (pageLnk l) 0x7006 none l 0

/-- An admitted link comes up: a spare in STANDBY, and a link whose traffic stays on its spare as that spare's standby; any other
UP, carrying its role's traffic (R348, R350, R355). -/
def State.linkReady (s : State) (l : Nat) : State :=
  let spared := match s.spareOf l with
    | some k => s.carries k
    | none => false
  let s0 := s.setLink l { s.linkUnit l with lastAt := s.etime }
  let s1 := if s.carries l then s0.setLinkState l lkUp
    else if s.isSpare l || spared then s0.setLinkState l lkStandby
    else (s0.setLinkState l lkUp).setBit (R.LNK_STAT l) 3 true
  s1.drainLink l (s1.linkUnit l).outq

/-- The words of a digest in eight registers, and the digest they hold. -/
def State.putDigest (s : State) (reg : Nat → Nat) (d : Nat) : State :=
  (List.range 8).foldl (fun t i => t.wr (reg i) (bits d (32 * i + 31) (32 * i))) s
def State.digestAt (s : State) (reg : Nat → Nat) : Nat := (List.range 8).foldl (fun a i => a + s.rd (reg i) * 2 ^ (32 * i)) 0

/-- The identity digest of a peer: the first 256 bits of SHAKE256 over its public key (R350). -/
def peerDigest (key : List Byte) : Nat := fieldOf (shake256 key 32) 0 32

/-- A link whose peer is authenticated compares its identity with the admitted one (R350). -/
def State.admission (s : State) (l : Nat) (digest : Nat) : State :=
  let s1 := (s.setBit (R.LNK_STAT l) 5 true).putDigest (R.LNK_PEER_ID l) digest
  if digest = s1.digestAt (R.LNK_ADM_ID l) then s1.linkReady l
  else ((s1.setLinkState l lkWait).setIrq (pageLnk l) 5 7).raise (pageLnk l) 0x7004 none l 0

/-- The transcript of an authentication: both challenges, the ranks, the link numbers and the roles of both ends (R349; log entry 35). -/
def State.transcript (s : State) (l : Nat) (mine theirs : List Byte) : List Byte :=
  mine ++ theirs ++ leBytes 2 s.rank ++ leBytes 1 l ++ leBytes 4 (s.rd (R.LNK_ROLE l)) ++ leBytes 4 (s.rd (R.LNK_PEER l))

/-- What this end says in AUTH: its chain, a challenge of 32 random bytes, and the transcript signed with its attestation key; the peer's
challenge is part of the exchange that the spec leaves open here (R349; log entry 35). -/
def State.prove (s : State) (l : Nat) : State :=
  let (mine, s1) := s.freeBytes 32
  let (theirs, s2) := s1.freeBytes 32
  s2.emit (.linkAuth l s.certChain mine (Config.sign s.sec.ak (s.transcript l mine theirs)))

/-- AUTH (R349, R350): the peer's public key, and whether its chain and signature verify; with no identity of its own the link is refused,
and the peer says so (R482). -/
def execAuth (link : LinkNo) (key : List (BitVec 8)) (ok : Bool) (s : State) : Host.Outcome State Fault Refusal :=
  settled <|
    let l := link.val
    if s.linkState l ≠ lkAuth then s
    else if !s.bit R.SEC_STAT 0 then (s.setLinkState l lkRefused).wr (R.LNK_LAST_DOWN l) 4
    else if !ok then ((s.prove l).setLinkState l lkRefused |>.wr (R.LNK_LAST_DOWN l) 4).raise (pageLnk l) 0x7005 none l 0
    else (s.prove l).admission l (peerDigest key)

/-- What slot 6 takes at a setting of EN or an ADMIT (R470). -/
def State.fabricData (s : State) (admitted : List Byte) : List Byte :=
  leBytes 4 (s.rd R.RED_FAB) ++ ((List.range 10).filter s.inPlan).flatMap (fun t => leBytes 4 (s.rd (R.RED_TREE t))) ++ admitted

/-- The admitted digest of a link, in its registers and in NOR (R350). -/
def State.setAdmitted (s : State) (l d : Nat) : State :=
  let s1 := s.putDigest (R.LNK_ADM_ID l) d
  (List.range 8).foldl (fun t i => t.norSet logDigests (R.LNK_ADM_ID l i) (bits d (32 * i + 31) (32 * i))) s1

/-- A value written to LNK_ADMIT: ADMIT and REFUSE settle a link in WAIT_ADMIT, FORGET clears the admitted digest (R350, R380). -/
def State.admitCmd (s : State) (l v : Nat) : State :=
  let s1 :=
    if v.testBit 0 && s.linkState l = lkWait then
      let d := s.digestAt (R.LNK_PEER_ID l)
      let t := s.setAdmitted l d
      (t.extend 6 (t.fabricData (leBytes 32 d))).linkReady l
    else if v.testBit 1 && s.linkState l = lkWait then (s.setLinkState l lkRefused).wr (R.LNK_LAST_DOWN l) 6
    else s
  if v.testBit 2 then s1.setAdmitted l 0 else s1

/-- ADMIT (R350). -/
def execLnkAdmit (c : Client) (link : LinkNo) (s : State) : Host.Outcome State Fault Refusal :=
  settled (s.command c (R.LNK_ADMIT link) 1 fun t _ raw => t.admitCmd link raw)

/-- REFUSE (R350). -/
def execRefuse (c : Client) (link : LinkNo) (s : State) : Host.Outcome State Fault Refusal :=
  settled (s.command c (R.LNK_ADMIT link) 2 fun t _ raw => t.admitCmd link raw)

/-- FORGET (R380). -/
def execForget (c : Client) (link : LinkNo) (s : State) : Host.Outcome State Fault Refusal :=
  settled (s.command c (R.LNK_ADMIT link) 4 fun t _ raw => t.admitCmd link raw)

/-- Every outstanding flit is sent again, from the one after ACK on (R352). -/
def State.replayLink (s : State) (l : Nat) : State :=
  let u := s.linkUnit l
  let n := u.retry.length
  if n = 0 then s
  else
    let s1 := u.retry.foldl (fun t e => t.flitOut l e.1 e.2) s
    (s1.count (R.LNK_RETRY l) n).setLink l { u with
      replays := (s.etime, n) :: u.replays.filter fun e => s.etime < e.1 + tickSec, nakked := false, ackAt := s.etime }

/-- Does a link carry flits at all: it is neither DOWN, nor retraining, nor REFUSED (R348)? -/
def State.carriesFlits (s : State) (l : Nat) : Bool :=
  s.linkState l ≠ lkDown && s.linkState l ≠ lkRetrain && s.linkState l ≠ lkRefused

/-- NAK_REPLAY (R352): after a NAK that came, or once ACK has not advanced for 2 µs while flits are outstanding. -/
def execNakReplay (link : LinkNo) (fromNak : Bool) (s : State) : Host.Outcome State Fault Refusal :=
  settled <|
    let u := s.linkUnit link
    if !s.carriesFlits link || u.retry.isEmpty || (fromNak && !u.nakked) then s
    else if fromNak then s.replayLink link
    else (s.untilElapsed (u.ackAt + 2 * tickUs)).replayLink link

/-- The traffic of a backed link moves to its spare: the end that detects the failure says SWITCH there, under the spare's own SEQ; then
the spare goes on with the failed link's SEQ, what waits and what is unacknowledged goes with it, and is sent again there (R355). -/
def State.moveTraffic (s : State) (l k : Nat) (say : Bool) : State :=
  let u := s.linkUnit l
  let s0 := if say then s.sendFlit k (.mgmt .switch) else s
  let s1 := (s0.setLink k { u with replays := [] }).setLink l emptyLink
  let s2 := ((s1.setBit (R.LNK_STAT l) 3 false).setBit (R.LNK_STAT k) 3 true).setLinkState k lkUp
  let s3 := (s2.countSat (R.LNK_SWITCHES l) 1).countSat (R.LNK_SWITCHES k) 1
  (((s3.setIrq (pageLnk l) 6 7).raise (pageLnk l) 0x7002 none l k).replayLink k).drainLink k u.outq

/-- A link that carries traffic and has failed, with its spare in STANDBY, or for a spare the link it backs, switches (R355). -/
def State.switchLink (s : State) (l : Nat) : State :=
  match s.partner l with
  | none => s
  | some k =>
    let st := s.linkState l
    if !s.carries l || s.linkState k ≠ lkStandby || (st ≠ lkRetrain && st ≠ lkDown && st ≠ lkRefused) then s
    else s.moveTraffic l k true

/-- SWITCH (R355). -/
def execSwitch (link : LinkNo) (s : State) : Host.Outcome State Fault Refusal := settled (s.switchLink link)

/-- The flits that a link has replayed within the last millisecond (R353). -/
def State.replaysNow (s : State) (l : Nat) : Nat :=
  ((s.linkUnit l).replays.filter fun e => s.etime < e.1 + 1000 * tickUs).foldl (fun a e => a + e.2) 0

/-- RETRAIN (R353): a link that was UP or STANDBY retrains when FEC lock is lost, when no intact flit has come for 10 µs, or when more
than 64 flits were replayed within 1 ms; traffic of a backed one moves at once (R355). After LNK_RT_MAX failures
in a row, or a failed authentication, it goes DOWN with event 0x7001; otherwise it returns, its delay to be calibrated anew. -/
def execRetrain (link : LinkNo) (cause : Fin 3) (fails : Nat) (authOk : Bool) (key : List (BitVec 8)) (s : State) :
    Host.Outcome State Fault Refusal :=
  settled <|
    let l := link.val
    if (s.linkState l ≠ lkUp && s.linkState l ≠ lkStandby) || (cause = 2 && s.replaysNow l ≤ 64) then s
    else
      let s0 := if cause = 1 then s.untilElapsed ((s.linkUnit l).lastAt + 10 * tickUs) else s
      let s1 := ((s0.setLinkState l lkRetrain).wr (R.LNK_LAST_DOWN l) (cause.val + 1)).setBit (R.LNK_STAT l) 4 (cause.val ≠ 0)
      let max := s1.fld (R.LNK_RT_MAX l) 3 0
      let tries := min fails max + (if fails < max then 1 else 0)
      let s2 := ((s1.switchLink l).countSat (R.LNK_RETRAINS l) tries).prove l
      if max ≤ fails || !authOk then
        let s3 := if max ≤ fails then s2 else s2.wr (R.LNK_LAST_DOWN l) 4
        (((s3.setBit (R.LNK_STAT l) 4 false).setBit (R.LNK_STAT l) 5 false).setLinkState l lkDown).raise (pageLnk l) 0x7001 none l 0
      else
        let s3 := (s2.setBit (R.TMB_LDLY l) 31 false).setBit (R.LNK_STAT l) 4 true
        let s4 := s3.admission l (peerDigest key)
        if s4.linkUp l then s4.replayLink l else s4

/-- LINK_RETRY_WARNING (R353): the flits replayed within a second exceed LNK_RETRY_WARN. -/
def execLinkRetryWarning (link : LinkNo) (s : State) : Host.Outcome State Fault Refusal :=
  settled <|
    let u := s.linkUnit link
    let n := (u.replays.filter fun e => s.etime < e.1 + tickSec).foldl (fun a e => a + e.2) 0
    let again := match u.warnedAt with
      | some t => t + tickSec ≤ s.etime
      | none => true
    if s.rd (R.LNK_RETRY_WARN link) < n && again then
      (s.setLink link { u with warnedAt := some s.etime }).raise (pageLnk link) 0x7007 none link.val 0
    else s

/-! Block-float 16 (R365 to R369, R371). -/

/-- The fields of a block. -/
def blkExp (b : Block) : Nat := b.toNat % 256
def blkPoison (b : Block) : Bool := b.toNat.testBit 8
def blkNonfin (b : Block) : Bool := b.toNat.testBit 9 || blkExp b = 255
def blkMant (b : Block) (i : Nat) : Int := signedOf 16 (b.toNat / 2 ^ (16 + 16 * i))

/-- A block of an exponent, its flags and 16 mantissas. -/
def mkBlock (exp : Nat) (poison nonfin : Bool) (ms : List Int) : Block :=
  BitVec.ofNat 272 (exp + poison.toNat * 256 + nonfin.toNat * 512 +
    ((List.range 16).foldl (fun a i => a + toTwos 16 (ms.getD i 0) * 2 ^ (16 + 16 * i)) 0))

/-- The zero block, and a non-finite block. -/
def zeroBlock (poison : Bool) : Block := mkBlock 0 poison false []
def nonfinBlock (poison : Bool) : Block := mkBlock 255 poison true []

/-- Is a block the zero block? -/
def blkZero (b : Block) : Bool := blkExp b = 0 && (List.range 16).all fun i => blkMant b i = 0

/-- Integers over 2^d, rounded ties away from zero (R129). -/
def roundShift (x d : Int) : Int :=
  if d ≤ 0 then x * (2 ^ d.natAbs : Nat)
  else
    let m : Int := ((x.natAbs + 2 ^ (d.toNat - 1)) / 2 ^ d.toNat : Nat)
    if x < 0 then -m else m

/-- Sixteen fp32 values encoded (R366). -/
def encodeBlock (xs : List (BitVec 32)) (poison : Bool) : Block :=
  let ns := xs.map num32
  if ns.any Num.special then nonfinBlock poison
  else
    match ns.filterMap Num.top with
    | [] => zeroBlock poison
    | t :: ts =>
      let exp := (ts.foldl max t + 127).toNat
      let at_ (e : Nat) : List Int := ns.map fun x => match x with
        | .fin neg m k => let v : Int := (roundUnits ((e : Int) - 141) m k : Nat); if neg then -v else v
        | _ => 0
      let big (l : List Int) : Bool := l.any fun m => 32768 ≤ m.natAbs
      let e := if big (at_ exp) then exp + 1 else exp
      if 254 < e then nonfinBlock poison else mkBlock e poison false (at_ e)

/-- Element i of a block as fp32 (R367). -/
def decodeElt (b : Block) (i : Nat) : BitVec 32 :=
  if blkNonfin b then nan32
  else
    let m := blkMant b i
    (Num.fin (decide (m < 0)) m.natAbs ((blkExp b : Int) - 141)).to32

/-- A rank's addition of the blocks of its children and its own: the output block, and how many widenings lost bits (R368, R369,
R371). -/
def addBlocks (bs : List Block) : Block × Nat :=
  let poison := bs.any blkPoison
  let live := bs.filter fun b => !blkZero b && !blkNonfin b
  let emax := live.foldl (fun a b => max a (blkExp b)) 0
  let wide (b : Block) (i : Nat) : Int := roundShift (blkMant b i) ((emax : Int) - blkExp b - 30)
  let lost := (live.map fun b =>
    let d := emax - blkExp b
    if d ≤ 30 then 0 else ((List.range 16).filter fun i => blkMant b i % (2 ^ (d - 30) : Nat) ≠ 0).length).foldl (· + ·) 0
  if bs.any blkNonfin then (nonfinBlock poison, lost)
  else
    let sum := (List.range 16).map fun i => live.foldl (fun a b => a + wide b i) 0
    let top := sum.foldl (fun a x => max a x.natAbs) 0
    if top = 0 then (zeroBlock poison, lost)
    else
      let k0 : Int := (Nat.log2 top : Int) - 44
      let at_ (k : Int) : List Int := sum.map fun x => roundShift x (30 + k)
      let k1 := if (at_ k0).any (fun m => 32768 ≤ m.natAbs) then k0 + 1 else k0
      let exp : Int := emax + k1
      if 254 < exp then (nonfinBlock poison, lost)
      else if exp < 1 then (mkBlock 1 poison false (at_ (1 - emax)), lost)
      else (mkBlock exp.toNat poison false (at_ k1), lost)

/-! Buckets (R359 to R364, R373). -/

/-- The blocks and flits of a bucket. -/
def bucketBlocks (size : Nat) : Nat := size / 64
def bucketFlits (size : Nat) : Nat := (bucketBlocks size + 6) / 7

/-- The own blocks of a bucket, encoded from its source (R366, R371). -/
def State.encodeSource (s : State) (g size : Nat) : List Block :=
  (List.range (size / 128)).flatMap fun i =>
    let w := s.gatherWord (g + i)
    let half (k : Nat) : Block := encodeBlock ((List.range 16).map fun j => BitVec.ofNat 32 (w.field 32 (16 * k + j))) w.poison
    [half 0, half 1]

/-- A bucket, and a bucket replaced. -/
def State.bucket (s : State) (seq : Nat) : Option Bucket := kvFind s.red.buckets seq
def State.setBucket (s : State) (seq : Nat) (b : Bucket) : State := { s with red := { s.red with buckets := kvPut s.red.buckets seq b } }

/-- Buckets released here and not landed, and RED_STAT. -/
def State.inFlight (s : State) : Nat := (s.red.buckets.filter fun e => e.2.released).length
def State.redShow (s : State) : State :=
  let n := s.inFlight
  (((s.setBit R.RED_STAT 0 (s.tset ≠ 0)).setBit R.RED_STAT 2 (n ≠ 0)).setFld R.RED_STAT 5 3 n).setIdle pageRed (n = 0)

/-- The start flits of a bucket's shares go toward the root (R361). -/
def State.sendStarts (s : State) (seq : Nat) (b : Bucket) : State :=
  (treesOf b.mask).foldl (fun t tr =>
    match t.treeNeighbour tr 0, t.treeLink tr 0 with
    | some _, some l => t.sendFlit l (.start seq b.size b.mask b.gen)
    | _, _ => t) s

/-- Every bucket in flight starts again from its source, as it was released, under the set of trees in force, with event 0x7008 (R364,
R373). -/
def State.restartBuckets (s : State) : State :=
  s.red.buckets.foldl (fun t e =>
    if !e.2.released || e.2.mask = t.tset then t
    else
      let b : Bucket := { e.2 with
        mask := t.tset, gen := t.generation, restarts := e.2.restarts + 1, children := [], landed := [], sent := [] }
      (((t.setBucket e.1 b).countSat R.RED_RESTART 1).raise pageRed 0x7008 none (e.1 % 2 ^ 48) 0).sendStarts e.1 b) s

/-- The set of trees and the generation change: RED's interrupt, and the restart of what is in flight (R372, R373, R382). -/
def State.setTset (s : State) (mask gen : Nat) : State :=
  let s1 := s.wr R.RED_TSET (mask + gen % 65536 * 65536)
  let s2 := if mask = s.tset then s1 else (s1.setIrq pageRed 4 7).restartBuckets
  s2.redShow

/-- The trees of TREE_GO join at a release, which is the first of their buckets (R359). -/
def State.joinTrees (s : State) : State :=
  if s.red.joining.isEmpty then s
  else
    let mask := s.red.joining.foldl (fun m e => m ||| 2 ^ e.1) s.tset
    let gen := s.red.joining.foldl (fun g e => max g e.2) s.generation
    let joined := s.red.joining.foldl (fun l e => kvPut l e.1 (s.rd R.RED_SEQ)) s.red.joined
    ({ s with red := { s.red with joining := [], joined } }).setTset mask gen

/-- What becomes of a release. -/
inductive Release where
  | refused
  | stalled
  | mismatch (s : State)
  | taken (s : State)

/-- A bucket is released (R360, R361): refused for a run that is not of RED's owner or whose destination is no T1 range of its client,
stalled while RED is off, quiescing or in FAULT (R38, R374), no tree serves, or 4 buckets are in flight; a start flit heard for it with another size is a
mismatch. -/
def State.releaseBucket (s : State) (rn : Nat) (x : Run) (g mib region off : Nat) : Release :=
  let size := mib * 2 ^ 20
  let owned := match s.region region with
    | some r => r.client = x.client && r.tier = 1 && decide (off + size + 32 ≤ r.bytes)
    | none => false
  if x.redOwner ≠ x.client || !owned || mib < 4 || 64 < mib || gatherWords < g + size / 128 then .refused
  else if !s.bit R.RED_CTL 0 || s.paused pageRed || s.bit R.RED_STAT 1 || 4 ≤ s.inFlight || (s.tset = 0 && s.red.joining.isEmpty) then .stalled
  else
    let s1 := s.joinTrees
    let seq := s1.rd R.RED_SEQ
    let heard := s1.bucket seq
    let wrong : Bool := match heard with
      | some b => b.size ≠ size
      | none => false
    if wrong then .mismatch s1
    else
      let kids := match heard with
        | some b => if b.mask = s1.tset then b.children else []
        | none => []
      let b : Bucket :=
        { size, run := rn, client := x.client, region, off, source := g, mask := s1.tset, gen := s1.generation, restarts := 0
          own := s1.encodeSource g size, children := kids, landed := [], sent := [], at_ := s1.etime, released := true, discard := false }
      .taken (((s1.wr R.RED_SEQ (seq + 1)).setBucket seq b).sendStarts seq b).redShow

/-- The seven blocks of a flit from a block at each position, padded with zero blocks (R361). -/
def flitBlocks (f : Nat → Block) (n fidx : Nat) : List Block :=
  (List.range 7).map fun i => if 7 * fidx + i < n then f (7 * fidx + i) else zeroBlock false

/-- The blocks of a flit land, and go down to the children (R363, R370). -/
def State.landBlocks (s : State) (seq : Nat) (b : Bucket) (t fidx : Nat) (blocks : List Block) : State :=
  let n := bucketBlocks b.size
  let put := (List.range 7).foldl (fun m i =>
    if 7 * fidx + i < n then kvPut m (7 * fidx + i) (blocks.getD i (zeroBlock false)) else m) b.landed
  let s1 := s.setBucket seq { b with landed := put }
  (s1.children t).foldl (fun u d =>
    match u.treeLink t d with
    | some l => (u.sendFlit l (.red true (seq % 65536) fidx b.mask blocks)).count R.RED_BLOCKS (min 7 (n - 7 * fidx))
    | none => u) s1

/-- RED_FLIT_REDUCE (R361, R362, R368 to R371): the flit's children have arrived and the flit before it on its tree is done; a leaf
sends its own blocks unchanged, the root sends the sum down. -/
def execRedFlitReduce (seq fidx : Nat) (s : State) : Host.Outcome State Fault Refusal :=
  settled <|
    match s.bucket seq with
    | none => s
    | some b =>
      let ts := treesOf b.mask
      let t := ts.getD (fidx % max ts.length 1) 0
      let n := bucketBlocks b.size
      let mine := (List.range 7).filter fun i => 7 * fidx + i < n
      let kids := s.children t
      let ready := kids.all fun d => mine.all fun i => (kvFind b.children (2 * (7 * fidx + i) + d - 1)).isSome
      let inOrder := fidx < ts.length || b.sent.contains (fidx - ts.length)
      if !b.released || ts.isEmpty || s.bit R.RED_STAT 1 || bucketFlits b.size ≤ fidx || b.sent.contains fidx || !ready ||
          !inOrder then s
      else
        let inputs (k : Nat) : List Block :=
          kids.map (fun d => kvGet (zeroBlock false) b.children (2 * k + d - 1)) ++ [b.own.getD k (zeroBlock false)]
        let out (k : Nat) : Block := if kids.isEmpty then b.own.getD k (zeroBlock false) else (addBlocks (inputs k)).1
        let lost := if kids.isEmpty then 0 else (mine.map fun i => (addBlocks (inputs (7 * fidx + i))).2).foldl (· + ·) 0
        let blocks := flitBlocks out n fidx
        let b1 : Bucket := { b with sent := fidx :: b.sent }
        let s1 := ((s.setBucket seq b1).count R.RED_BLOCKS mine.length).count R.RED_ALIGN_LOSS lost
        match s1.treeNeighbour t 0, s1.treeLink t 0 with
        | some _, some l => s1.sendFlit l (.red false (seq % 65536) fidx b.mask blocks)
        | _, _ => s1.landBlocks seq b1 t fidx blocks

/-! Trees in and out of service (R359, R372). -/

/-- Is a link that serves a tree UP? -/
def State.treeUp (s : State) (t d : Nat) : Bool :=
  match s.treeLink t d with
  | some l => s.linkUp l
  | none => false

/-- TREE_READY (R359): this rank's child links of the tree are UP and its children have reported; it reports to its parent once. -/
def execTreeReady (tree : Fin 10) (s : State) : Host.Outcome State Fault Refusal :=
  settled <|
    let t := tree.val
    let ok := s.bit R.RED_CTL 0 && s.inPlan t && !s.red.reported.contains t &&
      (s.children t).all fun d => s.treeUp t d && (kvFind s.red.childReady (2 * t + d - 1)).isSome
    if !ok then s
    else
      match s.treeNeighbour t 0 with
      | none => { s with red := { s.red with reported := t :: s.red.reported } }
      | some _ =>
        if !s.treeUp t 0 then s
        else
          let s1 : State := { s with red := { s.red with reported := t :: s.red.reported } }
          match s1.treeLink t 0 with
          | some l => s1.sendFlit l (.mgmt (.treeReady tree))
          | none => s1

/-- TREE_GO takes a tree toward service, and goes on to the children (R359). -/
def State.treeGo (s : State) (tree : Fin 10) (gen : Nat) : State :=
  let t := tree.val
  if !s.bit R.RED_CTL 0 || !s.red.reported.contains t || s.red.downSeen.contains t || s.red.joining.any (fun e => e.1 = t) ||
      s.tset.testBit t then s
  else
    let s1 : State := { s with red := { s.red with joining := s.red.joining ++ [(t, gen)] } }
    (s1.children t).foldl (fun u d =>
      match u.treeLink t d with
      | some l => u.sendFlit l (.mgmt (.treeGo tree gen))
      | none => u) s1

/-! Setting RED in service (R383). -/

/-- A tree of the plan that stands in the way of EN (R383). -/
def State.badTree (s : State) : Option Nat :=
  let n := s.fabricSize
  ((List.range 10).filter s.inPlan).find? fun t => Nat.gcd (s.fld (R.RED_TREE t) 11 0) n ≠ 1 || n ≤ s.fld (R.RED_TREE t) 27 16 ||
    [0, 1, 2].any fun d => (s.treeNeighbour t d).isSome && (s.treeLink t d).isNone

/-- Why EN may not be set (R383). -/
def State.redRefuses (s : State) : Bool :=
  let n := s.fabricSize
  n = 1 || n ≤ s.rank || !(List.range 10).any s.inPlan || s.badTree.isSome

/-- RED_CTL takes a value: EN set starts again from the plan, leaves FAULT and numbers buckets from 0, and is measured; EN cleared lets the
rounds in flight complete, and what the children report from then on is for the next start (R359, R374, R375, R383, R470). -/
def State.setRedCtl (s : State) (v : Nat) : State :=
  if !v.testBit 0 then ({ s with red := { s.red with childReady := [] } }).wr R.RED_CTL v
  else if s.bit R.RED_CTL 0 then s
  else if s.redRefuses then s.raise pageRed 0x700E none (s.badTree.getD 0) 0
  else
    let s1 : State := { s with red := { State.reset.red with childReady := s.red.childReady } }
    let s2 := (((s1.wr R.RED_CTL v).wr R.RED_SEQ 0).wr R.RED_TSET 0).wr R.RED_FAULT 0
    let s3 := (s2.setBit R.RED_STAT 1 false).redShow
    s3.extend 6 (s3.fabricData [])

/-- RED_EN_CLEAR (R375). -/
def execRedEnClear (c : Client) (s : State) : Host.Outcome State Fault Refusal :=
  settled (s.command c R.RED_CTL 0 fun t new _ => t.setRedCtl new)

/-! Peer messages (R376). -/

/-- The free postings of a link, which CTRL credits carry to the peer; the spec leaves open what the other seven counts say, RED's among
them (R347; log entry 35). -/
def State.sendCredits (s : State) (l : Nat) : State :=
  let (rest, s1) := s.freeBytes 14
  s1.sendFlit l (.ctrl (BitVec.ofNat 16 (s.linkUnit l).postings.length :: (List.range 7).map fun i =>
    BitVec.ofNat 16 (fieldOf rest (2 * i) 2)))

/-- A run posts a T1 buffer on a link: at most 8 stand; answers none when no more may (R376). -/
def State.postBuffer (s : State) (rn region off len l : Nat) : Option State :=
  let k := s.carrier l
  let u := s.linkUnit k
  if 8 ≤ u.postings.length then none
  else some ((s.setLink k { u with postings := u.postings ++ [⟨rn, region, off, len⟩] }).sendCredits k)

/-- May a message of a length go over a link: 64 bytes to 4 MiB, over a tree link (R376)? -/
def State.peerFits (s : State) (l bytes : Nat) : Bool := decide (64 ≤ bytes) && decide (bytes ≤ 2 ^ 22) && decide (s.fld (R.LNK_ROLE l) 3 0 < 10)

/-- A run's message waits on a link for a posting at the peer (R376). -/
def State.postMessage (s : State) (rn client l : Nat) (timed poison : Bool) (bs : List Byte) : State :=
  let k := s.carrier l
  let u := s.linkUnit k
  s.setLink k { u with outbox := u.outbox ++ [⟨rn, client, timed, !timed, poison, bs⟩] }

/-- SEND struck: the client's oldest timed message on the link may leave (R381). -/
def State.sendArmed (s : State) (l client : Nat) : State :=
  let k := s.carrier l
  let u := s.linkUnit k
  let rec mark : List PeerMsg → List PeerMsg
    | [] => []
    | m :: ms => if m.timed && !m.go && m.client = client then { m with go := true } :: ms else m :: mark ms
  s.setLink k { u with outbox := mark u.outbox }

/-- A message as PEER flits. -/
def peerFlits (bs : List Byte) (poison : Bool) : List FlitBody :=
  (List.range ((bs.length + 239) / 240)).map fun i => .peer (240 * i) bs.length ((bs.drop (240 * i)).take 240) poison

/-- PEER_MESSAGE_SEND (R376): the oldest message that may go leaves when a posting is free at the peer; the departure of a timed one is
stamped (R57, R381). -/
def execPeerMessageSend (link : LinkNo) (s : State) : Host.Outcome State Fault Refusal :=
  settled <|
    let l := link.val
    let u := s.linkUnit l
    match u.outbox.find? fun m => m.go with
    | none => s
    | some m =>
      if u.credits = 0 || !s.linkUp l || s.quiescing (pageLnk l) then s
      else
        let s1 := s.setLink l { u with
          outbox := u.outbox.erase m, credits := u.credits - 1, sentAt := if m.timed then some s.dtime else u.sentAt }
        ((peerFlits m.bytes m.poison).foldl (fun t f => t.sendFlit l f) s1).runLink m.run m.client l m.bytes.length 0

end Sys2Proof.Machine
end

