-- ==== Sys2Proof/Machine/Figures.lean ====
section
/-! DEFINITION. Figures: the checks of a load in their order (R134, R188, R205 to R208), what a load places in the tiers (R182),
and the unload (R207). -/

namespace Sys2Proof

open Machine

/-- Does a logical row number name one of `n` rows? -/
def RowOp.rowsOk (n : Nat) : RowOp → Bool
  | .laneScales r _ | .block r _ _ _ | .feed r _ _ _ _ | .tokenScales r _ _ | .drain r _ _ _ | .trim r _ _ _ | .collate r _ _
  | .commit r _ _ _ _ | .result r _ _ _ _ | .setpoint r _ _ | .readTime r _ | .release r _ _ _ _ _ => r < n
  | .merge ps _ _ _ => ps.all fun p => p.1 < n
  | .peer _ _ _ _ _ | .post _ _ _ _ | .receive _ => true
def StageOp.rowsOk (n : Nat) : StageOp → Bool
  | .state _ _ r _ _ | .layer _ _ r _ _ | .input _ _ r _ _ | .wave _ r _ _ => r < n
  | .draws _ _ lr r _ _ _ => r < n && lr < n

/-- The blocks of every pass of logical row r use one grid (R132): the grid of the block in the latches, that of the pass, and whether
every slice so far was fed to a block with the grid of its pass. -/
def StepDef.passGrids (x : StepDef) (r : Nat) : Bool :=
  (x.ops.foldl (fun a o => match o.op with
    | .block q fmt g _ => if q = r then (some (fmt, g), a.2.1, a.2.2) else a
    | .feed q _ _ _ first => if q ≠ r then a else if first then (a.1, a.1, a.2.2) else (a.1, a.2.1, a.2.2 && decide (a.1 = a.2.1))
    | _ => a) ((none, none, true) : Option (Fmt × GridRef) × Option (Fmt × GridRef) × Bool)).2.2

/-- A step within its limits: at most 16 distinct grids, one for each pass (R132), and rows of its figure. -/
def StepDef.ok (x : StepDef) (n : Nat) : Bool :=
  x.allGrids.length ≤ 16 && (List.range n).all x.passGrids && x.stage.all (StageOp.rowsOk n) && x.ops.all fun o => o.op.rowsOk n

/-- Do only rows of a Collator group issue descriptors: rows below `n` (R164, R212; log entry 53)? -/
def StepDef.grouped (x : StepDef) (n : Nat) : Bool := x.ops.all fun o => match o.op with
  | .collate r _ _ => decide (r < n)
  | _ => true

/-- The parameters of a figure within their ranges, both paths carried, its hash matching (R182, R205, R206). -/
def FigureCore.ok (f : FigureCore) : Bool :=
  f.hashOk && f.wellFormed && decide (1 ≤ f.rows) && decide (f.rows ≤ 96) && decide (f.groups.length ≤ 8) &&
    f.groups.all (fun g => decide (1 ≤ g) && decide (g ≤ 13)) && decide (f.groups.foldl (· + ·) 0 ≤ f.rows) &&
    decide (1 ≤ f.bmax) && decide (f.bmax ≤ 4096) && !f.warm.isEmpty && decide (f.warm.length ≤ 65535) && !f.cold.isEmpty &&
    decide (f.cold.length ≤ 65535) && decide (4096 ≤ f.stateLen) && decide (f.stateLen ≤ 67108864) && f.stateLen % 4096 == 0 &&
    (match f.hbmLcMin with
      | some n => decide (1 ≤ n) && decide (n ≤ 16)
      | none => true) &&
    (!f.streamed || (decide (1 ≤ f.windows) && decide (f.windows ≤ 4) && decide (2 ≤ f.slots) && decide (f.slots ≤ 255))) &&
    (f.warm ++ f.cold).all fun x => x.ok f.rows && x.grouped (f.groups.foldl (· + ·) 0)

/-- The longest step of a figure. -/
def FigureCore.longest (f : FigureCore) : Nat := (f.warm ++ f.cold).foldl (fun a x => max a (x.g + x.c)) 0

/-- The custom grids a figure carries, each slot with its levels (R134). -/
def FigureCore.grids (f : FigureCore) : List (Nat × List Int) :=
  ((f.warm ++ f.cold).flatMap StepDef.allGrids).filterMap fun g => match g with
    | .standard => none
    | .custom n ls => some (n.val, ls)

/-- The cores of an image. -/
def Figure.cores (f : Figure) : List FigureCore :=
  match f.reserve with
  | some r => [f.main, r.1]
  | none => [f.main]

/-- The slots an image names, each once. -/
def Figure.slots (f : Figure) : List Nat := ((f.cores.flatMap FigureCore.grids).map Prod.fst).eraseDups

/-- Does the image break a condition on reserves (R188)? That the reserve belongs to the client holds by the load of both together. -/
def Figure.reserveBad (f : Figure) : Bool :=
  match f.reserve with
  | none => f.main.streamed && f.main.lc
  | some (r, entry) =>
    f.nested || r.streamed || r.lc ≠ f.main.lc || r.galliard ≠ f.main.galliard ||
      decide (entry.length < max f.main.warm.length f.main.cold.length) ||
      entry.any fun i => decide (min r.warm.length r.cold.length ≤ i)

/-- The stored bytes of a Press frame (R179). -/
def PressFrame.bytes (f : PressFrame) : List Byte :=
  let b := leBytes 2 f.magic ++ leBytes 1 (f.type + f.raw.toNat * 16 + f.poison.toNat * 32) ++ [0] ++ leBytes 4 f.ulen ++
    leBytes 2 f.slen ++ [0, 0] ++ leBytes 4 f.check.toNat ++ f.payload
  b ++ List.replicate (f.slen * 128 - b.length) 0

end Sys2Proof

namespace Sys2Proof.Machine

/-- Statuses of the scheduler (R208). -/
def stFigInvalid : Nat := 0x40
def stFigShape : Nat := 0x41
def stFigEnvelope : Nat := 0x42
def stFigTableFull : Nat := 0x43
def stFigBusy : Nat := 0x44
def stCtxUnknown : Nat := 0x45
def stCtxLayout : Nat := 0x46
def stCtxFaulted : Nat := 0x47
def stStepFault : Nat := 0x48
def stRightsChanged : Nat := 0x49
def stCtxTableFull : Nat := 0x4A
def stFigGrid : Nat := 0x4C
def stFigUnknown : Nat := 0x4D
def stBufferSmall : Nat := 0x82
def stResultPoisoned : Nat := 0x83
def stDataError : Nat := 0x84

/-- The physical Collator group of a row (R16). -/
def rowGroup (r : Nat) : Nat := r / 13

/-- The rows in service, ascending. -/
def State.liveRows (s : State) : List Nat := (List.range 104).filter fun r => s.inService (pageRow r)

/-- Rows of a list that lie in physical group g, when its Collator is in service. -/
def State.inGroup (s : State) (rows : List Nat) (g : Nat) : List Nat :=
  if s.inService (pageCol g) then rows.filter fun r => rowGroup r = g else []

/-- Can logical groups of these sizes be placed in physical groups with so many rows free (R212)? -/
def packs (free : List Nat) : List Nat → Bool
  | [] => true
  | g :: gs => (List.range free.length).any fun i => decide (g ≤ free.getD i 0) && packs (free.modify i fun n => n - g) gs

/-- Can the groups of a Pavane figure be placed on rows in ascending order, with `rest` rows after them (R212)? -/
def State.packsInOrder (s : State) (rows : List Nat) (rest : Nat) : List Nat → Bool
  | [] => decide (rest ≤ rows.length)
  | g :: gs =>
    match (List.range 8).find? fun p => g ≤ (s.inGroup rows p).length with
    | none => false
    | some p =>
      let last := (s.inGroup rows p).getD (g - 1) 0
      s.packsInOrder (rows.filter fun r => decide (last < r)) rest gs

/-- Does a figure have the shape the module can run (item 3 of R206)? Every module has the bf16 path. -/
def State.shapeOk (s : State) (f : FigureCore) : Bool :=
  let live := s.liveRows
  f.rows ≤ live.length &&
    (if f.galliard then packs ((List.range 8).map fun g => (s.inGroup live g).length) f.groups
     else s.packsInOrder live (f.rows - f.groups.foldl (· + ·) 0) f.groups)

/-- The rows reserved for a client (R213). -/
def State.reservedCount (s : State) (c : Nat) : Nat := (s.sched.reserved.filter fun e => e.2 = c).length

/-- MAXRUN in force for a client (R220, R479). -/
def State.maxRun (s : State) (c : Nat) : Nat := s.forceFld (R.SCH_C_CTL c) 7 0

/-- Is a figure within the envelope of its class (item 4 of R206)? -/
def State.envelopeOk (s : State) (c : Nat) (f : FigureCore) : Bool :=
  if f.lc then f.longest ≤ 40000 && f.rows * s.maxRun c ≤ s.reservedCount c && f.hbmLcMin.isSome else f.longest ≤ 100000

/-- Is a grid that a figure carries the one in its slot, with room in REFS (R134)? -/
def State.gridFits (s : State) (g : Nat × List Int) : Bool :=
  s.gridValid g.1 && decide (s.levelsAt (R.QNT_GRID g.1) = g.2) && decide (s.gridRefs g.1 < 65535)

/-- Regions of figures, each a tier and a size; a size of 0 needs none and gives handle 0. Answers a tier status, or 0 with the
handles. -/
def State.allocAll (s : State) (c : Nat) : List (Nat × Nat) → Nat × List Nat × State
  | [] => (0, [], s)
  | (t, n) :: rest =>
    if n = 0 then
      let (st, hs, s1) := s.allocAll c rest
      (st, 0 :: hs, s1)
    else
      let st := s.allocStatus c t n
      if st ≠ 0 then (st, [], s)
      else
        let (h, s1) := s.newRegion c t n useFigure false 0 true
        let (st', hs, s2) := s1.allocAll c rest
        (st', h :: hs, s2)

/-- The regions a figure takes, in the order in which a failing tier is named: in T1 the reserve's image, the image of a pinned figure
and the windows of a streamed one, then in T2 the image of a streamed one (R182, R188, R192). -/
def figureRegions (f : Figure) : List (Nat × Nat) :=
  let spare := match f.reserve with
    | some r => pinnedSize r.1
    | none => 0
  (1, spare) :: (1, if f.main.streamed then 0 else pinnedSize f.main) ::
    (List.replicate (if f.main.streamed then f.main.windows else 0) (1, windowSize f.main) ++
      [(2, if f.main.streamed then imageOffset f.main f.main.layers.length else 0)])

/-- The layers of a pinned figure land in its region (R182). -/
def State.landPinned (s : State) (c h : Nat) (f : FigureCore) : State :=
  let s1 := (f.layers.zipIdx).foldl (fun t e =>
    t.decodeInto c h false 0 h (layerOffset f e.2) (roundUp e.1.size twoMiB) e.1.frames) s
  s1.chargeT1 c 0 (f.layers.foldl (fun a l => a + l.size) 0)

/-- The Press image of a streamed figure goes to its T2 region (R182). -/
def State.storeImage (s : State) (c h : Nat) (f : FigureCore) : State :=
  let bs := (f.layers.flatMap Layer.frames).flatMap PressFrame.bytes
  (s.memWrite h 0 bs false).chargeT2 c 0 bs.length

/-- The reference count of a grid slot moves by one (R134). -/
def State.gridRef (s : State) (up : Bool) (g : Nat) : State :=
  let n := s.gridRefs g
  s.setFld (R.QNT_GSTAT g) 31 16 (if up then n + 1 else n - 1)

/-- SCH_FIG_LOADED follows the table. -/
def State.figShow (s : State) : State := s.wr R.SCH_FIG_LOADED s.sched.figures.length

/-- A load that passed its checks: the figure takes the lowest free handle (R206), its images land, its grids gain a reference, and
measurement slot 4 takes it (R470). -/
def State.figAccept (s : State) (cid : Cid) (fig : Figure) (h : Nat) (regions : List Nat) : State :=
  let c := cid.c.val
  let spare := regions.getD 0 0
  let image := if fig.main.streamed then regions.getLastD 0 else regions.getD 1 0
  let wins := (regions.drop 2).dropLast
  let l : Loaded := ⟨c, fig, image, fig.reserve.map fun _ => spare, wins, wins⟩
  let s1 : State := { s with sched := { s.sched with figures := kvPut s.sched.figures h l } }
  let s2 := if fig.main.streamed then s1.storeImage c image fig.main else s1.landPinned c image fig.main
  let s3 := match fig.reserve with
    | some r => s2.landPinned c spare r.1
    | none => s2
  let s4 := fig.slots.foldl (fun t g => t.gridRef true g) s3.figShow
  (s4.extend 4 (leBytes 32 fig.main.hash.toNat ++ leBytes 1 c)).succeed cid h 0

/-- The checks of a load in the order of R206 after the free place, the first that fails ending it; the entry of 0x2204 names the slot
and the first 32 bits of the figure's hash (R146). -/
def State.figCheck (s : State) (cid : Cid) (fig : Figure) : State :=
  let c := cid.c.val
  let grids := fig.cores.flatMap FigureCore.grids
  match kvFirstFree s.sched.figures 0 1024 with
  | none => s.failGonum cid stFigTableFull 0
  | some h =>
    if !fig.cores.all FigureCore.ok then s.failGonum cid stFigInvalid 0
    else if !fig.cores.all s.shapeOk then s.failGonum cid stFigShape 0
    else if !fig.cores.all (s.envelopeOk c) then s.failGonum cid stFigEnvelope 0
    else
      match grids.find? fun g => !s.gridFits g with
      | some g => (s.raise pageQnt 0x2204 (some c) g.1 (fig.main.hash.toNat % 2 ^ 32)).failGonum cid stFigGrid 0x2204
      | none =>
        if fig.reserveBad then s.tierFail cid 0x08
        else
          match s.allocAll c (figureRegions fig) with
          | (0, hs, s1) => s1.figAccept cid fig h hs
          | (st, _, _) => s.tierFail cid st

/-- The first `n` bytes of a T3 region as the Binder reads them, and whether a codeword among them is poisoned (R175, R287). -/
def State.imageBytes (s : State) (h : Nat) (r : Region) (n : Nat) (reads : List ReadFault) : List Byte × Bool × State :=
  let s1 := (unitsOf 0 n).foldl (fun t u => t.readAs false (unitQdi r u.2) h u.2 (reads.find? fun f => f.nth = u.1)) s
  let units := (unitsOf 0 n).map fun u => s1.unitData (unitQdi r u.2) h u.2
  let bad := (units.zipIdx).any fun e => e.1.2.any fun k => decide (e.2 * 16384 + 4096 * k < n)
  ((units.flatMap fun u => slice u.1 0 16384).take n, bad, s1)

/-- FIG_LOAD with the image in a T3 region of the client: the figure is what its bytes spell; a poisoned codeword leaves an image
whose hash cannot be checked (R175, R206; log entry 50). -/
def State.figFromT3 (s : State) (cid : Cid) (e : Sqe) (reads : List ReadFault) : State :=
  let c := cid.c.val
  let n := e.cdw12.toNat
  let h := dword2 e.cdw14 e.cdw15
  if s.noT3 then s.tierFail cid 0x80
  else
    match s.ownRegion c h with
    | none => s.tierFail cid 0x05
    | some r =>
      if r.tier ≠ 3 || r.bytes < n then s.tierFail cid 0x05
      else
        let (bs, bad, s1) := s.imageBytes h r n reads
        let s2 := s1.chargeT3 c ((unitsOf 0 n).length * 16384) 0
        if bad then (s2.poisonSeen pageTier).failGonum cid stFigInvalid 0
        else
          match Config.parseFigure bs with
          | some fig => s2.figCheck cid fig
          | none => s2.failGonum cid stFigInvalid 0

/-- FIG_LOAD of an image in T3 once the MOVE that reads it has its turn (R177): the table may have filled meanwhile. -/
def State.figMoved (s : State) (cid : Cid) (e : Sqe) (reads : List ReadFault) : State :=
  if (kvFirstFree s.sched.figures 0 1024).isNone then s.failGonum cid stFigTableFull 0 else s.figFromT3 cid e reads

/-- FIG_LOAD with the image in T3: the MOVE that reads it has its turn at once, or behind the transfers that wait, its region in use (R175,
R177, R192). -/
def State.figMove (s : State) (cid : Cid) (e : Sqe) (reads : List ReadFault) : State :=
  let h := dword2 e.cdw14 e.cdw15
  let there := match s.ownRegion cid.c h with
    | some r => r.tier = 3 && decide (e.cdw12.toNat ≤ r.bytes)
    | none => false
  if !there || s.noT3 || (s.binderFree && !s.quiescing pageFtl) then s.figFromT3 cid e reads
  else (s.pin h).waitJob 0 e.cdw12.toNat (.figure cid e reads)

/-- FIG_LOAD on a fetched command: with a free place in the table, the image from the host, or from a T3 region of the client (R206,
R425, R428). -/
def State.figLoad (s : State) (cid : Cid) (e : Sqe) (fig : Figure) (data : FigData) : State :=
  let c := cid.c.val
  if (kvFirstFree s.sched.figures 0 1024).isNone then s.failGonum cid stFigTableFull 0
  else if e.cdw10.toNat.testBit 0 then s.figMove cid e data.reads
  else if !data.ok then (s.raise pageHif 0x1009 (some c) cid.id 0).failNvme cid 0 scData true 0
  else (s.chargeHost c 0 e.cdw12.toNat).figCheck cid fig

/-- The fields of FIG_LOAD. -/
def figLoadMasks : Nat × Nat × Nat × Nat × Nat × Nat := (1, 0, 0xFFFFFFFF, 0, 0xFFFFFFFF, 0xFFFFFFFF)

/-- FIG_LOAD (R206). -/
def execFigLoad (cid : Cid) (e : Sqe) (fig : Figure) (data : FigData) (s : State) :
    Host.Outcome State Fault Refusal :=
  settled (s.gonum cid e figLoadMasks fun t => t.figLoad cid e fig data)

/-- A loaded figure of client c that a handle names. -/
def State.ownFigure (s : State) (c h : Nat) : Option Loaded :=
  match kvFind s.sched.figures h with
  | some l => if l.client = c then some l else none
  | none => none

/-- Does a command that names the figure wait, or a run of it stand (R207)? -/
def State.figBusy (s : State) (h : Nat) : Bool :=
  s.sched.queue.any (fun m => m.handle = h) || s.sched.runs.any fun e => e.2.handle = h && e.2.phase ≠ .done

/-- FIG_UNLOAD on a fetched command (R207). -/
def State.figUnload (s : State) (cid : Cid) (e : Sqe) : State :=
  let h := e.cdw10.toNat
  match s.ownFigure cid.c h with
  | none => s.failGonum cid stFigUnknown 0
  | some l =>
    if s.figBusy h then s.failGonum cid stFigBusy 0
    else
      let s1 : State := { s with sched := { s.sched with figures := kvErase s.sched.figures h } }
      let s2 := ((l.image :: l.reserveImage.toList) ++ l.windows).foldl (fun t g => t.freeRegion g) s1
      (l.fig.slots.foldl (fun t g => t.gridRef false g) s2.figShow).succeed cid 0 0

/-- FIG_UNLOAD (R207). -/
def execFigUnload (cid : Cid) (e : Sqe) (s : State) : Host.Outcome State Fault Refusal :=
  settled (s.gonum cid e (0x3FF, 0, 0, 0, 0, 0) fun t => t.figUnload cid e)

/-! The transfers that waited (R177). -/

/-- What a transfer that waited does as its last chunk is taken (R175, R177). -/
def State.servedJob (s : State) : BinderJob → State
  | .move cid d reads ecc redo => ((s.unpin d.src.toNat).unpin d.dst.toNat).moveNow cid d reads ecc redo
  | .copy cid d ecc redo => ((s.unpin d.src.toNat).unpin d.dst.toNat).copyNow cid d ecc redo
  | .spill x redo ecc => s.spillNow x redo ecc
  | .figure cid e reads => (s.unpin (dword2 e.cdw14 e.cdw15)).figMoved cid e reads

/-- BINDER_CHUNK_BOUNDARY (R177, R542): an engine takes the next chunk; a transfer with a job of its own ends with its last one. -/
def execBinderChunkBoundary (s : State) : Host.Outcome State Fault Refusal :=
  settled <|
    match s.nextChunk with
    | none => s
    | some t =>
      match t.job with
      | some j => if t.chunks ≤ 1 then (s.dropTransfers fun u => u = t).servedJob j else s.chunkTaken t
      | none => s.chunkTaken t

end Sys2Proof.Machine
end

