-- ==== Sys2Proof/Machine/Contexts.lean ====
section
/-! DEFINITION. The context table (R231 to R233, R243, R244): create, reset and release by command and by register. -/

namespace Sys2Proof.Machine

/-- Entries a client holds (CTX_USE). -/
def State.ctxUse (s : State) (c : Nat) : Nat := (s.ctxs.filter fun e => e.2.client = c).length

/-- The 128 bytes of an entry (R231). -/
def State.ctxBytes (s : State) (x : Nat) : List Byte :=
  let e := s.ctx x
  let tier := if e.spilled then 2 else 1
  let ctl := e.state + e.client * 4 + e.inRun.toNat * 0x40 + e.spilled.toNat * 0x80 + e.pinned.toNat * 0x100 + e.poison.toNat * 0x200
  leBytes 4 ctl ++ leBytes 4 e.layout.toNat ++ leBytes 8 e.stepCtr ++ leBytes 16 e.seed.toNat ++
    leBytes 6 (Config.tierAddress tier e.region) ++ [0, 0] ++ leBytes 4 (e.stateLen / 1024) ++ leBytes 4 e.lastEvent ++
    leBytes 8 e.saveM ++ List.replicate 8 0 ++ ((List.range 6).flatMap fun i => leBytes 8 (e.counters.getD i 0)) ++
    List.replicate 16 0

/-- CTX_CREATE on a fetched command (R231, R232, R425): the lowest FREE entry, COLD, with a state region that fills with zeros. -/
def State.ctxCreate (s : State) (cid : Cid) (e : Sqe) : State :=
  let c := cid.c.val
  let n := e.cdw10.toNat
  if n = 0 || 16384 < n then s.failNvme cid 0 scField true 0
  else
    match kvFirstFree s.ctxs 0 262144 with
    | none => s.failGonum cid stCtxTableFull 0
    | some x =>
      if s.force (R.CTX_MAX c) ≤ s.ctxUse c then s.failGonum cid stCtxTableFull 0
      else
        let st := s.allocStatus c 1 (n * 4096)
        if st ≠ 0 then s.tierFail cid st
        else
          let (h, s1) := s.newRegion c 1 (n * 4096) useCtx false 0 false
          let seed := e.cdw15 ++ e.cdw14 ++ e.cdw13 ++ e.cdw12
          let s2 := s1.setCtx x { freeCtx with
            state := 1, client := c, seed := seed, region := h, stateLen := n * 4096, counters := List.replicate 6 0 }
          { s2 with tiers := { s2.tiers with pendingFills := s2.tiers.pendingFills ++ [(h, cid, x, 0)] } }

/-- CTX_CREATE (R232). -/
def execCtxCreate (cid : Cid) (e : Sqe) (s : State) : Host.Outcome State Fault Refusal :=
  settled (s.gonumOf pageCtx cid e (0x7FFF, 0, 0xFFFFFFFF, 0xFFFFFFFF, 0xFFFFFFFF, 0xFFFFFFFF) fun t => t.ctxCreate cid e)

/-- A context that is in no run goes back to COLD, without poison, and its state starts to fill with zeros (R232, R234). -/
def State.ctxReset (s : State) (x : Nat) : State :=
  let e := s.ctx x
  let s1 := s.setCtx x { e with state := 1, poison := false }
  match s1.region e.region with
  | some r => s1.setRegion e.region { r with filled := false }
  | none => s1

/-- A context that is in no run is given up: its region is freed, what waited for the region's fill completes, and the entry is
FREE (R232). -/
def State.ctxRelease (s : State) (x : Nat) : State :=
  let e := s.ctx x
  let s1 := e.resetBy.foldl (fun t c => t.wr (R.CTX_RESULT + c * bankStep) 1) ((s.freeRegion e.region).fillsDone e.region)
  let js := s1.journals.map fun j => (j.1, { j.2 with hadState := j.2.hadState.filter fun y => y ≠ x })
  ({ s1 with journals := js, accRem := kvErase s1.accRem (32 + x) }).setCtx x freeCtx

/-- The context a command of client c names, when it is the client's and in no run (R232). -/
def State.idleCtx (s : State) (c x : Nat) : Bool :=
  let e := s.ctx x
  e.state ≠ 0 && e.client = c && !e.inRun

/-- The field of CTX_RESET and CTX_RELEASE. -/
def ctxMasks : Nat × Nat × Nat × Nat × Nat × Nat := (0x3FFFF, 0, 0, 0, 0, 0)

/-- CTX_RESET on a fetched command (R232): it completes when the zero fill ends. -/
def State.ctxResetCmd (s : State) (cid : Cid) (x : Nat) : State :=
  if s.idleCtx cid.c x then
    let s1 := s.ctxReset x
    { s1 with tiers := { s1.tiers with pendingFills := s1.tiers.pendingFills ++ [((s1.ctx x).region, cid, 0, 0)] } }
  else s.failGonum cid stCtxUnknown 0

/-- CTX_RESET (R232). -/
def execCtxReset (cid : Cid) (e : Sqe) (s : State) : Host.Outcome State Fault Refusal :=
  settled (s.gonumOf pageCtx cid e ctxMasks fun t => t.ctxResetCmd cid e.cdw10.toNat)

/-- CTX_RELEASE on a fetched command (R232). -/
def State.ctxReleaseCmd (s : State) (cid : Cid) (x : Nat) : State :=
  if s.idleCtx cid.c x then (s.ctxRelease x).succeed cid 0 0 else s.failGonum cid stCtxUnknown 0

/-- CTX_RELEASE (R232). -/
def execCtxRelease (cid : Cid) (e : Sqe) (s : State) : Host.Outcome State Fault Refusal :=
  settled (s.gonumOf pageCtx cid e ctxMasks fun t => t.ctxReleaseCmd cid e.cdw10.toNat)

/-- CTX_ENTRY[i] as one run of registers. -/
def ctxEntry (i : Nat) : Nat := R.CTX_ENTRY 0 + 4 * i

/-- CTX_RESULT of a client says that a command is done, with its result. -/
def State.ctxResult (s : State) (c code : Nat) : State := s.wr (banked c R.CTX_RESULT) (1 + 2 * code)

/-- A value written to CTX_CMD by client c (R244): ignored while a RESET of the client's is still filling, and with none or more than
one of its three bits; a RESET or a RELEASE is no work that a quiescing block takes (R38; log entry 21). -/
def State.ctxCmd (s : State) (c v : Nat) : State :=
  let x := s.fld (banked c R.CTX_SEL) 17 0
  let e := s.ctx x
  if (s.ctxs.any fun y => y.2.resetBy.contains c) || ! [1, 2, 4].contains (v % 8) || (!v.testBit 0 && s.paused pageCtx) then s
  else
    let unknown := (s.copyWords c ctxEntry (List.replicate 128 0)).ctxResult c 1
    if e.state = 0 then unknown
    else if c ≠ 0 && e.client ≠ c then unknown.accessEvent 0x1002 c R.CTX_CMD
    else if v.testBit 0 then (s.copyWords c ctxEntry (s.ctxBytes x)).ctxResult c 0
    else if e.inRun then s.ctxResult c 2
    else if v.testBit 1 then
      let s1 := s.ctxReset x
      (s1.setCtx x { s1.ctx x with resetBy := e.resetBy ++ [c] }).wr (banked c R.CTX_RESULT) 0
    else (s.ctxRelease x).ctxResult c 0

/-- CTX_CMD_READ (R244). -/
def execCtxCmdRead (c : Client) (s : State) : Host.Outcome State Fault Refusal :=
  settled (s.command c R.CTX_CMD 1 fun t _ raw => t.ctxCmd c raw)

/-- CTX_CMD_RESET (R244). -/
def execCtxCmdReset (c : Client) (s : State) : Host.Outcome State Fault Refusal :=
  settled (s.command c R.CTX_CMD 2 fun t _ raw => t.ctxCmd c raw)

/-- CTX_CMD_RELEASE (R244). -/
def execCtxCmdRelease (c : Client) (s : State) : Host.Outcome State Fault Refusal :=
  settled (s.command c R.CTX_CMD 4 fun t _ raw => t.ctxCmd c raw)

end Sys2Proof.Machine
end

