-- ==== Sys2Proof/Machine/Collator.lean ====
section
/-! DEFINITION. The Collator: keys and rank order (R150 to R152), lists (R153, R154), the four operations (R155 to R159), its
refusals (R161), poison (R163), its engine cycles (R166), and its queues (R164). -/

namespace Sys2Proof.Machine

/-- The descriptor that the 64 bytes of a figure spell (R167); reserved bits are ignored. -/
def descOf (b : BitVec 512) : Desc :=
  let f (byte hi lo : Nat) : Nat := bits (b.toNat / 2 ^ (8 * byte)) hi lo
  { op := f 0 3 0, etype := Fin.ofNat 4 (f 0 5 4), dir := f 0 6 6 = 1, rel := f 0 8 7, lc := f 0 9 9 = 1, n := f 4 31 0, k := f 8 10 0
    nlists := f 8 21 16, cap := f 12 31 0, indexBase := f 16 47 0, thr := BitVec.ofNat 32 (f 24 31 0), kin := f 28 10 0
    src := f 32 31 0, sstride := f 36 31 0, dst := f 40 31 0 }

/-! Keys, entries and rank order. -/

/-- The index that names no element (R152). -/
def sentinel : Nat := 0xFFFFFFFFFFFF

/-- An element or entry on its way through an operation: the key as the entry holds it, its index, its tag, its poison. -/
structure ColEntry where
  key : Nat
  index : Nat
  aux : Nat
  poison : Bool
  deriving DecidableEq, Repr

/-- KTYPE of an element type (R151, R153). -/
def ktypeOf (etype : Nat) : Nat := if etype ≤ 1 then 0 else etype - 1

/-- Is an fp32 key a NaN? -/
def keyNaN (ktype key : Nat) : Bool := ktype = 0 && key / 2 ^ 23 % 256 = 255 && key % 2 ^ 23 ≠ 0

/-- A key as an integer in the order of R151: equal integers compare equal. -/
def keyOrd (ktype key : Nat) : Int :=
  match ktype with
  | 0 =>
    let mag : Nat := if key / 2 ^ 23 % 256 = 0 then 0 else key % 2 ^ 31
    if key.testBit 31 then -(mag : Int) else mag
  | 1 => signedOf 32 key
  | _ => key

/-- Is key a better than key b: the larger, or with DIR = 1 the smaller (R150)? -/
def keyBetter (dir : Bool) (ktype a b : Nat) : Bool :=
  if dir then decide (keyOrd ktype a < keyOrd ktype b) else decide (keyOrd ktype b < keyOrd ktype a)

/-- Do two keys compare equal? -/
def keyEq (ktype a b : Nat) : Bool := decide (keyOrd ktype a = keyOrd ktype b)

/-- Rank order (R150): the better key first, and of equal keys the lower index. -/
def ranksBefore (dir : Bool) (ktype : Nat) (a b : ColEntry) : Bool :=
  keyBetter dir ktype a.key b.key || (keyEq ktype a.key b.key && decide (a.index < b.index))

/-- An entry put into a list in rank order, before every entry that does not rank before it. -/
def rankInsert (dir : Bool) (ktype : Nat) (e : ColEntry) : List ColEntry → List ColEntry
  | [] => [e]
  | a :: l => if ranksBefore dir ktype a e then a :: rankInsert dir ktype e l else e :: a :: l

/-- A list sorted into rank order, equal entries in the order they came. -/
def rankSort (dir : Bool) (ktype : Nat) (l : List ColEntry) : List ColEntry :=
  l.foldr (rankInsert dir ktype) []

/-- No entry of a list ranks before the one it follows. -/
def inRank (dir : Bool) (ktype : Nat) : List ColEntry → Bool
  | a :: b :: l => !ranksBefore dir ktype b a && inRank dir ktype (b :: l)
  | _ => true

/-! Words and lists. -/

/-- Where a descriptor's address lies (R167): a Leaf by its row, or the gathering buffer, and the word. -/
def colTarget (rows : List Nat) (addr : Nat) : Option (Option Nat × Nat) :=
  let t := addr / 2 ^ 28 % 16
  let w := addr % 2 ^ 28
  if t = 0xF then some (none, w)
  else if t ≤ 0xC then (rows[t]?).map fun r => (some r, w)
  else none

/-- Do n words, `off` words behind an address, lie in the store that the address names (R161)? -/
def colFits (rows : List Nat) (addr off n : Nat) : Bool :=
  match colTarget rows addr with
  | some (some _, w) => decide (w + off + n ≤ leafWords)
  | some (none, w) => decide (w + off + n ≤ gatherWords)
  | none => false

/-- The word i words after an address. -/
def State.colWord (s : State) (rows : List Nat) (addr i : Nat) : LeafWord :=
  match colTarget rows addr with
  | some (some r, w) => s.leafWord r (w + i)
  | some (none, w) => s.gatherWord (w + i)
  | none => zeroWord

/-- A word put i words after an address. -/
def State.colPut (s : State) (rows : List Nat) (addr i : Nat) (x : LeafWord) : State :=
  match colTarget rows addr with
  | some (some r, w) => s.leafPut r (w + i) x
  | some (none, w) => s.gatherPut (w + i) x
  | none => s

/-- Words that a list with room for c entries takes (R153). -/
def listWords (c : Nat) : Nat := (32 + 16 * c + 127) / 128

/-- The elements of a raw vector (R151, R152), with those that are no NaN, and how many are. -/
def State.rawElements (s : State) (rows : List Nat) (d : Desc) : List ColEntry :=
  let per := if d.etype.val = 1 then 64 else 32
  (List.range d.n).map fun i =>
    let w := s.colWord rows d.src (i / per)
    let v := w.field (1024 / per) (i % per)
    ⟨if d.etype.val = 1 then v * 65536 else v, d.indexBase + i, 0, w.poison⟩

/-- A list as its header and entries stand in memory (R153, R154). -/
structure ListView where
  valid : Nat
  tie : Bool
  poison : Bool
  sorted : Bool
  dir : Bool
  ktype : Nat
  omitted : Nat
  nan : Nat
  kth : Nat
  headPoison : Bool
  anyPoison : Bool
  entries : List ColEntry
  deriving DecidableEq, Repr

/-- The list that lies `off` words behind an address, with room for `kin` entries: its VALID entries, or all when its header word is
poisoned (R159). -/
def State.listAt (s : State) (rows : List Nat) (addr off kin : Nat) : ListView :=
  let byte (o n : Nat) : Nat := (s.colWord rows addr (off + o / 128)).bits.toNat / 2 ^ (8 * (o % 128)) % 2 ^ (8 * n)
  let w0 := byte 0 4
  let head := (s.colWord rows addr off).poison
  let valid := w0 % 2 ^ 17
  let n := if head then kin else min valid kin
  let es := (List.range n).map fun i =>
    let o := 32 + 16 * i
    (⟨byte o 4, byte (o + 4) 6, byte (o + 12) 4, (s.colWord rows addr (off + o / 128)).poison || (byte (o + 10) 1).testBit 7⟩ : ColEntry)
  let any := (List.range (listWords n)).any fun i => (s.colWord rows addr (off + i)).poison
  ⟨valid, w0.testBit 17, w0.testBit 18, w0.testBit 20, w0.testBit 21, w0 / 2 ^ 22 % 4, byte 4 4, byte 8 4, byte 12 4, head, any, es⟩

/-- Does input list i of a MERGE lie in its store (R161)? -/
def listFits (rows : List Nat) (d : Desc) (i : Nat) : Bool := colFits rows d.src (i * d.sstride) (listWords d.kin)

/-- The input lists of a MERGE that lie in their store (R158, R161). -/
def State.mergeLists (s : State) (rows : List Nat) (d : Desc) : List ListView :=
  ((List.range d.nlists).filter (listFits rows d)).map fun i => s.listAt rows d.src (i * d.sstride) d.kin

/-- Input entries of a MERGE, as the limits count them (R161). -/
def inputEntries (d : Desc) (ls : List ListView) : Nat :=
  ls.foldl (fun a l => a + (if l.headPoison then d.kin else l.valid)) 0

/-- The checks of an input list (R159). -/
def ListView.ok (l : ListView) (d : Desc) : Bool :=
  l.headPoison ||
    (l.sorted && l.dir == d.dir && l.ktype = ktypeOf d.etype.val && decide (l.valid ≤ d.kin) &&
      (l.anyPoison ||
        (let es := l.entries.filter fun e => e.index ≠ sentinel
         inRank d.dir l.ktype es && es.all fun e => !keyNaN l.ktype e.key)))

/-- The entries an output list has room for. -/
def outRoom (d : Desc) : Nat := if d.op = 1 then d.cap else if d.op = 3 then d.n else d.k

/-- The lowest cause for which a descriptor is refused (R161); each field counts only for the operations that use it, and a list outside
its store for cause 7 alone. -/
def State.colCause (s : State) (q : QDesc) : Option Nat :=
  let d := q.d
  let raw := d.op = 1 || d.op = 2 || d.op = 3
  let mg := d.op = 4
  let ls := if mg then s.mergeLists q.rows d else []
  let total := inputEntries d ls
  let words := (d.n + (if d.etype.val = 1 then 63 else 31)) / (if d.etype.val = 1 then 64 else 32)
  let thrKey := if d.etype.val = 1 then d.thr.toNat % 65536 * 65536 else d.thr.toNat
  let tests : List (Nat × Bool) := [
    (1, (raw && (d.n = 0 || 65536 < d.n)) || (mg && decide (65536 < total))),
    (2, ((d.op = 2 || mg) && (d.k = 0 || 1024 < d.k)) || (mg && (d.kin = 0 || 1024 < d.kin)) ||
      (d.op = 1 && (d.cap = 0 || 65536 < d.cap))),
    (3, mg && !ls.all fun l => l.ok d),
    (4, raw && decide (0xFFFFFFFFFFFE < d.indexBase + d.n - 1)),
    (5, mg && (d.nlists = 0 || 32 < d.nlists)),
    (6, !(raw || mg) || (d.op = 1 && (3 < d.rel || (d.etype.val ≤ 1 && keyNaN 0 thrKey))) || (mg && d.etype.val = 1)),
    (7, (raw && !colFits q.rows d.src 0 words) || ((raw || mg) && !colFits q.rows d.dst 0 (listWords (outRoom d))) ||
      (mg && !(List.range d.nlists).all (listFits q.rows d)) ||
      (!(raw || mg) && !(colFits q.rows d.src 0 0 && colFits q.rows d.dst 0 0))),
    (8, d.lc && ((raw && decide (16384 < d.n)) || (mg && decide (16384 < total))))]
  (tests.find? fun e => e.2).map Prod.fst

/-! The operations. -/

/-- What an operation gives: its header fields and its entries, padding included. -/
structure ColResult where
  valid : Nat
  tie : Bool
  overflow : Bool
  sorted : Bool
  loss : Bool
  omitted : Nat
  nan : Nat
  newNan : Nat
  dup : Nat
  lost : Nat
  poison : Bool
  entries : List ColEntry
  pad : Nat
  read : Nat
  sortCycles : Nat
  deriving DecidableEq, Repr

/-- Does a key satisfy the relation of a THRESH (R155)? -/
def relHolds (rel ktype key thr : Nat) : Bool :=
  let a := keyOrd ktype key
  let b := keyOrd ktype thr
  match rel with
  | 0 => decide (b < a)
  | 1 => decide (b ≤ a)
  | 2 => decide (a < b)
  | _ => decide (a ≤ b)

/-- THRESH (R155). -/
def runThresh (d : Desc) (es : List ColEntry) : ColResult :=
  let kt := ktypeOf d.etype.val
  let nums := es.filter fun e => !keyNaN kt e.key
  let thr := if d.etype.val = 1 then d.thr.toNat % 65536 * 65536 else d.thr.toNat
  let pass := nums.filter fun e => relHolds d.rel kt e.key thr
  let out := pass.take d.cap
  let nan := es.length - nums.length
  ⟨out.length, false, decide (d.cap < pass.length), false, false, pass.length - out.length, nan, nan, 0, 0,
    es.any ColEntry.poison, out, 0, d.n, 0⟩

/-- How many of the entries left out compare equal to the last one written (R156, R158). -/
def tiesLeft (kt : Nat) (ranked : List ColEntry) (k : Nat) : Nat :=
  match (ranked.take k).getLast? with
  | some e => if ranked.length ≤ k then 0 else ((ranked.drop k).filter fun x => keyEq kt x.key e.key).length
  | none => 0

/-- TOPK (R156). -/
def runTopk (d : Desc) (es : List ColEntry) : ColResult :=
  let kt := ktypeOf d.etype.val
  let nums := es.filter fun e => !keyNaN kt e.key
  let ranked := rankSort d.dir kt nums
  let out := ranked.take d.k
  let o := tiesLeft kt ranked d.k
  let nan := es.length - nums.length
  ⟨out.length, decide (0 < o), false, true, false, o, nan, nan, 0, 0, es.any ColEntry.poison, out, d.k - out.length, d.n, 0⟩

/-- SORT (R157). -/
def runSort (d : Desc) (es : List ColEntry) : ColResult :=
  let kt := ktypeOf d.etype.val
  let nums := es.filter fun e => !keyNaN kt e.key
  let ranked := rankSort d.dir kt nums
  let nan := es.length - nums.length
  ⟨ranked.length, false, false, true, false, 0, nan, nan, 0, 0, es.any ColEntry.poison, ranked, 0, d.n, 0⟩

/-- The first of each index kept, in rank order; the rest are duplicates (R158). -/
def dropDuplicates : List ColEntry → List ColEntry → List ColEntry × Nat
  | kept, [] => (kept.reverse, 0)
  | kept, e :: es =>
    if kept.any fun x => x.index = e.index then
      let (l, n) := dropDuplicates kept es
      (l, n + 1)
    else dropDuplicates (e :: kept) es

/-- The SORT cycles of n entries (R166). -/
def sortSteps (n : Nat) : Nat :=
  let b := (n + 15) / 16
  b * (1 + (if b ≤ 1 then 0 else Nat.log2 (b - 1) + 1))

/-- MERGE (R158). -/
def runMerge (d : Desc) (ls : List ListView) : ColResult :=
  let kt := ktypeOf d.etype.val
  let all := (ls.flatMap ListView.entries).filter fun e => e.index ≠ sentinel
  let nums := all.filter fun e => !keyNaN kt e.key
  let bad := all.length - nums.length
  let (set_, dup) := dropDuplicates [] (rankSort d.dir kt nums)
  let out := set_.take d.k
  let full := decide (out.length = d.k)
  let kth := (out.getLast?.map ColEntry.key).getD 0
  let ties := ls.filter ListView.tie
  let counted := if full then ties.filter fun l => keyEq kt l.kth kth else []
  let lossy := if full then ties.filter fun l => keyBetter d.dir kt l.kth kth else ties
  let o := if full then tiesLeft kt set_ d.k + counted.foldl (fun a l => a + l.omitted) 0 else 0
  ⟨out.length, decide (0 < o), false, true, !lossy.isEmpty, o, ls.foldl (fun a l => a + l.nan) 0 + bad, bad, dup,
    lossy.foldl (fun a l => a + l.omitted) 0, ls.any fun l => l.poison || l.anyPoison || l.entries.any ColEntry.poison,
    out, d.k - out.length, inputEntries d ls,
    (ls.filter ListView.anyPoison).foldl (fun a l => a + sortSteps l.entries.length + listWords l.entries.length + 24) 0⟩

/-- What a descriptor gives. -/
def State.colRun (s : State) (q : QDesc) : ColResult :=
  match q.d.op with
  | 1 => runThresh q.d (s.rawElements q.rows q.d)
  | 2 => runTopk q.d (s.rawElements q.rows q.d)
  | 3 => runSort q.d (s.rawElements q.rows q.d)
  | _ => runMerge q.d (s.mergeLists q.rows q.d)

/-- A count of a header (R153). -/
def cap32 (n : Nat) : Nat := min n 0xFFFFFFFF

/-- The header of an output list (R153). A THRESH list, which has no rank order, holds the DIR of its descriptor too, as no rule says what
it holds there (DESIGN CHOICE; log entry 52). -/
def ColResult.header (x : ColResult) (d : Desc) : List Byte :=
  let kth := (x.entries.getLast?.map ColEntry.key).getD 0
  leBytes 4 (x.valid + x.tie.toNat * 2 ^ 17 + x.poison.toNat * 2 ^ 18 + x.overflow.toNat * 2 ^ 19 + x.sorted.toNat * 2 ^ 20 +
      d.dir.toNat * 2 ^ 21 + ktypeOf d.etype.val * 2 ^ 22 + x.loss.toNat * 2 ^ 24) ++
    leBytes 4 (cap32 x.omitted) ++ leBytes 4 (cap32 x.nan) ++ leBytes 4 kth ++ leBytes 4 (cap32 x.dup) ++
    leBytes 4 (cap32 x.lost) ++ leBytes 8 0

/-- An entry (R154), and a padding entry. -/
def ColEntry.bytes (e : ColEntry) : List Byte :=
  leBytes 4 e.key ++ leBytes 6 e.index ++ leBytes 2 (e.poison.toNat * 128) ++ leBytes 4 e.aux
def padBytes : List Byte := leBytes 4 0 ++ leBytes 6 sentinel ++ leBytes 6 0

/-- Bytes written as consecutive words from an address on; the first word takes a poison flag of its own (R163). -/
def State.colBytes (s : State) (rows : List Nat) (addr : Nat) (bs : List Byte) (poison : Bool) : State :=
  ((List.range ((bs.length + 127) / 128)).foldl (fun (a : List Byte × State) i =>
    (a.1.drop 128, a.2.colPut rows addr i ((a.2.colWord rows addr i).patch 0 (a.1.take 128) (poison && i = 0)))) (bs, s)).2

/-- Engine cycles of a descriptor when its words keep up (R166). -/
def colCycles (d : Desc) (x : ColResult) : Nat :=
  match d.op with
  | 1 => max ((d.n + 31) / 32) ((32 + 16 * x.valid + 127) / 128) + 16
  | 2 =>
    let r := if d.k ≤ 64 then 32 else if d.k ≤ 256 then 16 else 8
    (d.n + r - 1) / r + listWords d.k + 24
  | 3 => sortSteps d.n + listWords x.valid + 24
  | _ => (x.read + 15) / 16 + listWords d.k + 24 + x.sortCycles

/-! Queues and execution (R164). -/

/-- A Collator with nothing in it, and the Collator at a number. -/
def emptyCol : ColUnit := ⟨[], [], none, [], []⟩
def State.colUnit (s : State) (n : Nat) : ColUnit := kvGet emptyCol s.cols n

/-- COL_STAT shows the queues (R170). -/
def ColUnit.stat (u : ColUnit) : Nat :=
  u.lc.length + 16 * u.be.length + (if u.begun.isSome then 0x200 + 0x800 else 0)

/-- A Collator replaced. -/
def State.setCol (s : State) (n : Nat) (u : ColUnit) : State :=
  (({ s with cols := kvPut s.cols n u }).wr (R.COL_STAT n) u.stat).setIdle (pageCol n)
    ((u.lc.isEmpty && u.be.isEmpty) || s.bit (R.PG_STAT (pageCol n)) 1)

/-- Has a queue of the Collator room for a descriptor of a class (R164)? A fenced Collator takes none (R172). -/
def State.colRoom (s : State) (n : Nat) (lc : Bool) : Bool :=
  s.inService (pageCol n) && if lc then decide ((s.colUnit n).lc.length < 8) else decide ((s.colUnit n).be.length < 16)

/-- The physical row that issued a descriptor. -/
def QDesc.row (q : QDesc) : Nat := q.rows.getD q.pos 0

/-- A descriptor put behind those issued before it, and of those issued in the same cycle behind the ones of lower physical rows (R164). -/
def issueInto (q : QDesc) (l : List QDesc) : List QDesc :=
  let n := (l.reverse.takeWhile fun e => e.at_ = q.at_ && (e.run ≠ q.run || e.cyc = q.cyc) && decide (q.row < e.row)).length
  l.take (l.length - n) ++ q :: l.drop (l.length - n)

/-- A descriptor enters the queue of its class (R164). -/
def State.colEnqueue (s : State) (n : Nat) (q : QDesc) : State :=
  let u := s.colUnit n
  let held := if u.begun.isSome then 1 else 0
  s.setCol n (if q.d.lc then { u with lc := issueInto q u.lc } else { u with be := u.be.take held ++ issueInto q (u.be.drop held) })

/-- The descriptor a Collator takes next: an LC one first, a divided BE one that it holds even under a quiesce, and under a
quiesce no other (R164, R172). -/
def State.colNext (s : State) (n : Nat) : Option QDesc :=
  let u := s.colUnit n
  let p := pageCol n
  if !s.inService p then none
  else if s.quiescing p then (if u.begun.isSome then u.be.head? else none)
  else match u.lc with
    | q :: _ => some q
    | [] => u.be.head?

/-- A descriptor leaves its queue. -/
def State.colTake (s : State) (n : Nat) (q : QDesc) : State :=
  let u := s.colUnit n
  s.setCol n (if q.d.lc then { u with lc := u.lc.drop 1 } else { u with be := u.be.drop 1, begun := none })

/-- Does a Collator hold a descriptor of a run whose output is wanted? -/
def ColUnit.holds (u : ColUnit) (rn : Nat) : Bool := (u.lc ++ u.be).any fun q => q.run = rn && !q.void

/-- The descriptors of a run leave a BE queue, but for a divided one that the Collator finishes, to discard its output (R229). -/
def ColUnit.dropBe (u : ColUnit) (rn : Nat) : List QDesc :=
  let others (l : List QDesc) : List QDesc := l.filter fun q => q.run ≠ rn
  match u.be with
  | q :: rest => if q.run = rn && u.begun.isSome then { q with void := true } :: others rest else others (q :: rest)
  | [] => []

/-- The descriptors of a run leave every queue (R229). -/
def State.colDrop (s : State) (rn : Nat) : State :=
  s.cols.foldl (fun t e =>
    if e.2.holds rn then t.setCol e.1 { e.2 with lc := e.2.lc.filter fun q => q.run ≠ rn, be := e.2.dropBe rn } else t) s

/-- A new step of a run may say its Collator events again (R168). -/
def State.colForget (s : State) (rn : Nat) : State :=
  { s with cols := s.cols.map fun e =>
      (e.1, { e.2 with nanSaid := e.2.nanSaid.filter fun r => r ≠ rn, ovfSaid := e.2.ovfSaid.filter fun r => r ≠ rn }) }

/-- Cycles of the engine, charged to the run's client (R235, R246). -/
def State.colBusy (s : State) (n rn c cyc : Nat) : State :=
  ((s.count (R.COL_CYC_BUSY n) cyc).count (R.ACC_ENG_COL c) cyc).runEnergy rn c 3 cyc

/-- A step fault of a Collator: its cause, the issuing row and context, and event 0x2301 (R161). -/
def State.colFault (s : State) (x : Run) (n cause : Nat) (q : QDesc) : State :=
  let s1 := (s.wr (R.COL_FAULT n) cause).wr (R.COL_FAULT_SRC n) (q.pos % 16 + q.ctx % 0x40000 * 16)
  (s1.setIrq (pageCol n) 4 2).runEvent x (pageCol n) 0x2301

/-- A NaN in a descriptor: counted, and said once per step (R168). -/
def State.colNan (s : State) (x : Run) (rn n k : Nat) : State :=
  if k = 0 then s
  else
    let s1 := s.countSat (R.COL_NAN n) k
    let u := s1.colUnit n
    if u.nanSaid.contains rn then s1
    else ((s1.setCol n { u with nanSaid := rn :: u.nanSaid }).setIrq (pageCol n) 5 2).runEvent x (pageCol n) 0x2302

/-- A THRESH overflow: counted, and said once per step (R155, R168). -/
def State.colOvf (s : State) (x : Run) (rn n : Nat) : State :=
  let s1 := s.countSat (R.COL_OVF n) 1
  let u := s1.colUnit n
  if u.ovfSaid.contains rn then s1
  else ((s1.setCol n { u with ovfSaid := rn :: u.ovfSaid }).setIrq (pageCol n) 6 2).runEvent x (pageCol n) 0x2303

/-- A descriptor's output is written and its counters grow (R155 to R163, R170). -/
def State.colWrite (s : State) (x : Run) (n : Nat) (q : QDesc) (o : ColResult) : State :=
  let rn := q.run
  let bs := o.header q.d ++ o.entries.flatMap ColEntry.bytes ++ (List.replicate o.pad padBytes).flatten
  let s1 := s.colBytes q.rows q.d.dst bs o.poison
  let s2 := (s1.count (R.COL_OPS n) 1).count (R.COL_ELEMS n) o.read
  let s3 := (s2.countSat (R.COL_DUP n) o.dup).countSat (R.COL_TIE n) o.tie.toNat
  let s4 := (s3.countSat (R.COL_POISON n) o.poison.toNat).countSat (R.COL_LOSS n) o.loss.toNat
  let s5 := if o.poison then s4.poisonSeen (pageCol n) else s4
  let s6 := if o.loss then s5.flagUnits rn 20 q.x q.x.length (List.range q.x.length) else s5
  let s7 := s6.colNan x rn n o.newNan
  if o.overflow then s7.colOvf x rn n else s7

/-- The Collator executes the descriptor it takes next when its operation is one of `ops`: answers the run that a step fault
stops, or the run whose step may go on (R161, R164, R166). `redo` line mismatches of its working store make it execute the
descriptor again, each with event 0x4005 (R443). The output of one whose run is torn down is discarded (R229): it counts its busy
cycles, and nothing in COL_OPS, COL_ELEMS and the other counters, of which R170 and R229 say nothing (DESIGN CHOICE; log entry 52). -/
def State.colExecute (s : State) (n redo : Nat) (ops : Nat → Bool) : Option (Nat × Bool) × State :=
  match s.colNext n with
  | none => (none, s)
  | some q =>
    if !ops q.d.op then (none, s)
    else if q.void then
      (none, (s.colTake n q).colBusy n q.run q.client (((s.colUnit n).begun).getD 0))
    else
      match s.run q.run with
      | none => (none, s.colTake n q)
      | some x0 =>
        let x : Run := { x0 with forCtx := q.x }
        match s.colCause q with
        | some cause => (some (q.run, true), (s.colTake n q).colFault x n cause q)
        | none =>
          let o := s.colRun q
          let u := s.colUnit n
          let left := match u.begun with
            | some l => if q.d.lc then colCycles q.d o else l
            | none => colCycles q.d o
          let (wait, s1) := s.free
          let s2 := (s1.colTake n q).colWrite x n q o
          let s3 := (s2.colBusy n q.run x.client (left + redo * colCycles q.d o + wait)).count (R.COL_CYC_WAIT n) wait
          let s4 := (List.range redo).foldl (fun t _ => t.runEvent x (pageCol n) 0x4005) s3
          let took := left + redo * colCycles q.d o + wait
          let s5 := if q.d.lc then s4.raiseTo (R.COL_LC_WAIT_MAX n) (cap32 ((s.etime - q.at_) / tickCycle - took)) else s4
          (some (q.run, false), s5)

/-- COLLATOR_SEGMENT_BOUNDARY (R164): 2,048 engine cycles of the BE descriptor at the head of its queue have passed and more are
left, and no LC descriptor waits. -/
def execCollatorSegmentBoundary (col : ColNo) (s : State) : Host.Outcome State Fault Refusal :=
  settled <|
    let n := col.val
    let u := s.colUnit n
    match s.colNext n with
    | some q =>
      if q.d.lc || (!q.void && (s.colCause q).isSome) then s
      else
        let left := (u.begun).getD (colCycles q.d (s.colRun q))
        if left ≤ 2048 then s else (s.setCol n { u with begun := some (left - 2048) }).colBusy n q.run q.client 2048
    | none => s

end Sys2Proof.Machine
end

