-- ==== Sys2Proof/Machine/Search.lean ====
section
/-! DEFINITION. Near-channel search (ch. 11): the vector indexes and their commands (R316, R318 to R324, R333 to R337), the scan
set of a query (R327, R328), the pages of filter and scan jobs (R309 to R319, R329), their outputs, and VSX_CMD. -/

namespace Sys2Proof.Machine

/-! Statuses of R337. -/

def stIdxUnknown : Nat := 0x60
def stIdxFull : Nat := 0x61
def stIdxParam : Nat := 0x62
def stListRange : Nat := 0x63
def stListState : Nat := 0x64
def stItemRange : Nat := 0x65
def stDelFull : Nat := 0x66
def stIdxBusy : Nat := 0x67
def stBatch : Nat := 0x68

/-! Indexes, lists and folios (R316 to R323). -/

/-- A list that nothing has changed: LIVE and empty from epoch 0 on. -/
def freshVersion : ListVersion := ⟨0, 0, 0, []⟩
def freshList : IdxList := ⟨[freshVersion], [], [], []⟩

/-- An index, and a list of it. -/
def State.index (s : State) (i : Nat) : Option Index := kvFind s.search.indexes i
def State.setIndex (s : State) (i : Nat) (x : Index) : State :=
  { s with search := { s.search with indexes := kvPut s.search.indexes i x } }
def Index.list (x : Index) (l : Nat) : IdxList := kvGet freshList x.entries l
def Index.setList (x : Index) (l : Nat) (y : IdxList) : Index := { x with entries := kvPut x.entries l y }

/-- The version of a list in force now, and at a snapshot (R322, R323). -/
def IdxList.current (y : IdxList) : ListVersion := y.versions.headD freshVersion
def IdxList.at_ (y : IdxList) (snap : Nat) : ListVersion := (y.versions.find? fun v => v.epoch ≤ snap).getD freshVersion

/-- Is the list LIVE now? -/
def IdxList.live (y : IdxList) : Bool := y.current.state = 0

/-- The items whose deletes apply to a version at a snapshot (R323). -/
def IdxList.gone (y : IdxList) (v : ListVersion) (snap : Nat) : List Nat :=
  ((y.deletes ++ y.old).filter fun d => d.2 ≤ snap && v.epoch < d.2).map Prod.fst

/-- The entries of a list that are visible at an epoch (R323). -/
def IdxList.visible (y : IdxList) (snap : Nat) : List FolioEntry :=
  let v := y.at_ snap
  if v.state ≠ 0 then []
  else (v.chain.flatMap Folio.entries).filter fun e => e.epoch ≤ snap && !(y.gone v snap).contains e.item

/-- The entries a folio holds at most (R318). -/
def Index.room (x : Index) : Nat := 16320 / (x.l + 8)

/-- An entry is appended to the tail of a chain; a full tail, or one whose BASE is too old for the tag's 26 bits, is followed by a
new folio (R318, R320, R333). -/
def addEntry (room version : Nat) (e : FolioEntry) : List Folio → List Folio
  | [] => [⟨0, e.epoch, version, [e]⟩]
  | [f] =>
    if f.entries.length < room && f.base ≤ e.epoch && e.epoch < f.base + 2 ^ 26 then [{ f with entries := f.entries ++ [e] }]
    else [f, ⟨0, e.epoch, version, [e]⟩]
  | f :: fs => f :: addEntry room version e fs

/-- The channel of folio f of list l (R320). -/
def folioChannel (l f : Nat) : Nat := (l + f) % 32

/-- The 16 KiB of a folio (R318). -/
def Index.folioBytes (x : Index) (i l f : Nat) (y : Folio) : List Byte :=
  let e := x.room
  let head := leBytes 2 0x7A60 ++ leBytes 1 x.ctype ++ leBytes 1 (x.l / 8) ++ leBytes 2 y.entries.length ++ leBytes 2 0 ++
    leBytes 4 (i + 256 * l) ++ leBytes 4 f ++ leBytes 8 y.base ++ leBytes 8 y.version ++ leBytes 28 0
  let tags := y.entries.flatMap fun t => leBytes 8 (t.item % 2 ^ 38 + (t.epoch - y.base) * 2 ^ 38)
  let codes := y.entries.flatMap fun t => slice t.code 0 x.l
  let check := leBytes 4 (crc32c (head ++ tags ++ codes))
  slice (slice (head ++ check ++ tags) 0 (64 + 8 * e) ++ codes) 0 16384

/-- VSX_STAT[8:0] counts the indexes defined; compactions are whole, so that none is ever seen running (R344; log entry 56). -/
def State.vsxShow (s : State) : State := s.setFld R.VSX_STAT 8 0 s.search.indexes.length

/-- The value in force of VSX_PF_CTL or VSX_COMPACT_AT: a write applies from the next measure (R344). -/
def State.vsxCtl (s : State) (key : Nat) : Nat :=
  match kvFind s.search.before key with
  | some (old, n) => if s.msr.count ≤ n then old else s.rd key
  | none => s.rd key

/-- The oldest snapshot of the runs in flight on an index, or EPOCH_NOW (R324). -/
def State.oldSnap (s : State) (i : Nat) (x : Index) : Nat :=
  (s.search.queries.filter fun q => q.2.index = i).foldl (fun a q => min a q.2.snap) x.epoch

/-! Writing folios (R320, R321). -/

/-- The folio region of a channel, made when the first folio needs it (R278, R320). -/
def State.folioRegion (s : State) (i : Nat) (x : Index) (ch : Nat) : Nat × State :=
  match kvFind x.folios ch with
  | some h => (h, s)
  | none =>
    let (h, s1) := s.newRegion x.client 3 (s.capBytes 3) useIdx false ch true
    (h, s1.setIndex i { x with folios := kvPut x.folios ch h })

/-- A unit of a channel's folio region for a new folio. -/
def State.folioUnit (s : State) (i ch : Nat) : Nat × State :=
  match s.index i with
  | none => (0, s)
  | some x =>
    let u := kvGet 0 x.nextUnit ch
    (u, s.setIndex i { x with nextUnit := kvPut x.nextUnit ch (u + 1) })

/-- Folios that no quire takes wait; an ERASED one that fails its blank check is erased again for them (R284). -/
def State.folioWaits (s : State) : State := (List.range 4).foldl (fun t n => t.blankCheck n 0) s

/-- Folios of a list, from position f on, are programmed on dies of their channels, one die to each; one at position `old` or
beyond takes a new unit. Answers nothing when a die cannot take its page. -/
def State.writeFolios (s : State) (i l old : Nat) : Nat → List Folio → List GroupDie → Option (List Folio × List GroupDie × State)
  | _, [], ds => some ([], ds, s)
  | _, _ :: _, [] => none
  | f, y :: ys, d :: ds =>
    match s.index i with
    | none => none
    | some x =>
      let ch := folioChannel l f
      let (h, s1) := s.folioRegion i x ch
      let (u, s2) := if f < old then (y.unit, s1) else s1.folioUnit i ch
      if d.val / 17 ≠ ch % 8 then none
      else
        let n := ch / 8
        match s2.program n 0 d.val (newPage h u 0 [] (x.folioBytes i l f y)) with
        | none => none
        | some (p, s3) =>
          let s4 := (s3.setMap n h u (some p)).chargeT3 x.client 0 16384
          match s4.writeFolios i l old (f + 1) ys ds with
          | none => none
          | some (zs, ds', s5) => some ({ y with unit := u } :: zs, ds', s5)

/-- The folios that two chains share from their start. -/
def sameFolios : List Folio → List Folio → Nat
  | a :: as, b :: bs => if a = b then sameFolios as bs + 1 else 0
  | _, _ => 0

/-- The current chain of a list becomes `new`, whose changed folios are written (R320, R333). -/
def State.growChain (s : State) (i l : Nat) (new : List Folio) (ds : List GroupDie) : Option (List GroupDie × State) :=
  match s.index i with
  | none => none
  | some x =>
    let v := (x.list l).current
    let k := sameFolios v.chain new
    match s.writeFolios i l v.chain.length k (new.drop k) ds with
    | none => none
    | some (ys, ds', s1) =>
      match s1.index i with
      | none => none
      | some z =>
        let y := z.list l
        let v' : ListVersion := { v with chain := new.take k ++ ys }
        some (ds', s1.setIndex i (z.setList l { y with versions := v' :: y.versions.drop 1 }))

/-- The index takes an epoch for a commit, whose metadata goes into the FTL journal buffer (R321). -/
def State.commitIndex (s : State) (i epoch : Nat) : State :=
  match s.index i with
  | some x => (s.setIndex i { x with epoch := epoch }).journalRec 0 1
  | none => s

/-- The status that T3 or the client's quota gives a write of `n` new units (R337). -/
def State.folioStatus (s : State) (c n : Nat) : Nat :=
  if s.readOnly then 0x07 else if n = 0 then 0 else s.allocTest c 3 (n + s.stagedNew c)

/-! Index commands (R316, R321, R333 to R337, R425). -/

/-- The shape of an index command: the index is defined and its client's own; T3 is there (R337, R519). -/
def State.onIndex (s : State) (cid : Cid) (i : Nat) (eff : Index → State) : State :=
  if s.t3Absent then s.failGonum cid 0x80 0
  else
    match s.index i with
    | some x => if x.client = cid.c.val then eff x else s.failGonum cid stIdxUnknown 0
    | none => s.failGonum cid stIdxUnknown 0

/-- Success with an epoch. -/
def State.giveEpoch (s : State) (cid : Cid) (e : Nat) : State := s.succeed cid (e % 2 ^ 32) (e / 2 ^ 32)

/-- IDX_CREATE on a fetched command: the list table and DEL_SPACE are allocated in T2, and the command completes when their fill
ends (R196, R316). -/
def State.idxCreate (s : State) (cid : Cid) (e : Sqe) : State :=
  let lists := e.cdw10.toNat
  let w := e.cdw11.toNat
  let l := bits w 6 2
  let del := dword2 e.cdw12 e.cdw13
  if s.t3Absent then s.failGonum cid 0x80 0
  else if lists = 0 || 2 ^ 20 < lists || l < 2 || 16 < l || del % twoMiB ≠ 0 then s.failGonum cid stIdxParam 0
  else
    match kvFirstFree s.search.indexes 0 256 with
    | none => s.failGonum cid stIdxFull 0
    | some i =>
      let bytes := 64 * lists + del
      let st := s.allocStatus cid.c 2 bytes
      if st ≠ 0 then s.tierFail cid st
      else
        let (h, s1) := s.newRegion cid.c 2 bytes useIdx false 0 false
        let s2 := (s1.setIndex i ⟨cid.c, lists, w % 2, w / 2 % 2, 8 * l, del, 0, h, [], [], []⟩).vsxShow
        { s2 with tiers := { s2.tiers with pendingFills := s2.tiers.pendingFills ++ [(h, cid, i, 0)] } }

/-- IDX_CREATE (R316). -/
def execIdxCreate (cid : Cid) (e : Sqe) (s : State) : Host.Outcome State Fault Refusal :=
  settled (s.gonumOf pageVsx cid e (0x1FFFFF, 0x7F, 0xFFFFFFFF, 0xFFFFFFFF, 0, 0) fun t => t.idxCreate cid e)

/-- Different numbers of a list, in rising order. -/
def distinct (l : List Nat) : List Nat := kvKeys (l.foldl (fun m k => kvPut m k ()) [])

/-- The entries of an INSERT, appended list by list, and the folios written. -/
def State.insertAll (s : State) (i : Nat) (new : List (Nat × List Folio)) (ds : List GroupDie) : Option State :=
  (new.foldl (fun (a : Option (List GroupDie × State)) e =>
    match a with
    | none => none
    | some (l, t) => t.growChain i e.1 e.2 l) (some (ds, s))).map Prod.snd

/-- The checks of the entries of an INSERT or a DELETE (R333, R334, R337). -/
def Index.batchStatus (x : Index) (n : Nat) (items : List IdxItem) : Nat :=
  if 65536 < n then stBatch
  else if items.any fun t => x.lists ≤ t.list.toNat % 2 ^ 20 then stListRange
  else if items.any fun t => !(x.list (t.list.toNat % 2 ^ 20)).live then stListState
  else if items.any fun t => 2 ^ 38 ≤ t.item.toNat then stItemRange
  else 0

/-- IDX_INSERT on a fetched command; nothing happens yet while the dies named cannot take the folios. -/
def State.idxInsert (s : State) (cid : Cid) (e : Sqe) (items : List IdxItem) (dies : List GroupDie) : Option State :=
  let i := e.cdw10.toNat
  let n := e.cdw11.toNat
  if n = 0 then some (s.failNvme cid 0 scField true 0)
  else
    match (if s.t3Absent then none else s.index i) with
    | none => some (s.onIndex cid i fun _ => s)
    | some x =>
      if x.client ≠ cid.c.val then some (s.onIndex cid i fun _ => s)
      else
        let mine := items.take n
        let st := x.batchStatus n mine
        if st ≠ 0 then some (s.failGonum cid st 0)
        else
          let ep := x.epoch + 1
          let new := (distinct (mine.map fun t => t.list.toNat % 2 ^ 20)).map fun l =>
            let v := (x.list l).current
            (l, (mine.filter fun t => t.list.toNat % 2 ^ 20 = l).foldl (fun fs t =>
              addEntry x.room v.epoch ⟨t.item.toNat, ep, slice t.code 0 x.l⟩ fs) v.chain)
          let fresh := new.foldl (fun a p => a + (p.2.length - (x.list p.1).current.chain.length)) 0
          let st2 := s.folioStatus x.client fresh
          if st2 ≠ 0 then some (s.tierFail cid st2)
          else (s.insertAll i new dies).map fun t => (t.commitIndex i ep).giveEpoch cid ep

/-- IDX_INSERT (R333). -/
def execIdxInsert (cid : Cid) (e : Sqe) (items : List IdxItem) (dies : List GroupDie) (s : State) :
    Host.Outcome State Fault Refusal :=
  settled (s.gonumOf pageVsx cid e (0xFF, 0x1FFFF, 0, 0, 0, 0) fun t => (t.idxInsert cid e items dies).getD s.folioWaits)

/-- The pending deletes an index holds. -/
def Index.pendingDeletes (x : Index) : Nat := x.entries.foldl (fun a e => a + e.2.deletes.length) 0

/-- IDX_DELETE on a fetched command (R334). -/
def State.idxDelete (s : State) (cid : Cid) (e : Sqe) (items : List IdxItem) : State :=
  let i := e.cdw10.toNat
  let n := e.cdw11.toNat
  if n = 0 then s.failNvme cid 0 scField true 0
  else s.onIndex cid i fun x =>
    let mine := items.take n
    let st := x.batchStatus n mine
    if st ≠ 0 then s.failGonum cid st 0
    else
      let ep := x.epoch + 1
      let y := mine.foldl (fun (a : Index) t =>
        let l := t.list.toNat % 2 ^ 20
        let z := a.list l
        a.setList l { z with deletes := z.deletes ++ [(t.item.toNat, ep)] }) x
      let full := (distinct (mine.map fun t => t.list.toNat % 2 ^ 20)).any fun l => 4096 < (y.list l).deletes.length
      if full || x.delSpace < y.pendingDeletes * Config.deleteBytes then s.failGonum cid stDelFull 0
      else ((s.setIndex i y).commitIndex i ep).giveEpoch cid ep

/-- IDX_DELETE (R334). -/
def execIdxDelete (cid : Cid) (e : Sqe) (items : List IdxItem) (s : State) : Host.Outcome State Fault Refusal :=
  settled (s.gonumOf pageVsx cid e (0xFF, 0x1FFFF, 0, 0, 0, 0) fun t => t.idxDelete cid e items)

/-- The compaction of a LIVE list at the next epoch: its chain is written anew with the visible entries, and its pending deletes
are discarded (R335). -/
def State.compactList (s : State) (i l : Nat) (x : Index) (dies : List GroupDie) : Option State :=
  let ep := x.epoch + 1
  let y := x.list l
  let chain := (y.visible ep).foldl (fun fs t => addEntry x.room ep t fs) []
  let z := x.setList l { y with
    versions := ⟨ep, 0, 0, []⟩ :: y.versions, deletes := [], old := y.old ++ y.deletes }
  ((s.setIndex i z).growChain i l chain dies).map fun r => (r.2.commitIndex i ep).count R.VSX_COMPACTIONS 1

/-- A compaction that T3 or the quota stops: event 0x6004 (R335). -/
def State.compactStopped (s : State) (i l : Nat) (x : Index) : State :=
  (s.setIrq pageVsx 5 6).raise pageVsx 0x6004 (some x.client) i l

/-- The new folios of a compaction. -/
def Index.compactSize (x : Index) (l : Nat) : Nat :=
  (((x.list l).visible (x.epoch + 1)).foldl (fun fs t => addEntry x.room (x.epoch + 1) t fs) ([] : List Folio)).length

/-- IDX_COMPACT on a fetched command: work of rank 5, which waits while a throttle level holds that (R335, R542). -/
def State.idxCompact (s : State) (cid : Cid) (e : Sqe) (dies : List GroupDie) : Option State :=
  let i := e.cdw10.toNat
  let l := e.cdw11.toNat
  match (if s.t3Absent then none else s.index i) with
  | none => some (s.onIndex cid i fun _ => s)
  | some x =>
    if x.client ≠ cid.c.val then some (s.onIndex cid i fun _ => s)
    else if x.lists ≤ l then some (s.failGonum cid stListRange 0)
    else if !(x.list l).live then some (s.failGonum cid stListState 0)
    else if s.rank5Held then none
    else
      let st := s.folioStatus x.client (x.compactSize l)
      if st ≠ 0 then some (((s.compactStopped i l x).tierRefuse cid.c).failGonum cid st 0x6004)
      else (s.compactList i l x dies).map fun t => t.giveEpoch cid (x.epoch + 1)

/-- IDX_COMPACT (R335). -/
def execIdxCompact (cid : Cid) (e : Sqe) (dies : List GroupDie) (s : State) : Host.Outcome State Fault Refusal :=
  settled (s.gonumOf pageVsx cid e (0xFF, 0xFFFFF, 0, 0, 0, 0) fun t => (t.idxCompact cid e dies).getD (if s.rank5Held then s else s.folioWaits))

/-- COMPACTION (R335): the VSX compacts a LIVE list whose pending deletes have reached VSX_COMPACT_AT. -/
def execCompaction (index : Fin 256) (list : Fin 1048576) (dies : List GroupDie) (s : State) :
    Host.Outcome State Fault Refusal :=
  settled <|
    match s.index index with
    | none => s
    | some x =>
      let y := x.list list
      if x.lists ≤ list.val || !y.live || y.deletes.length < s.vsxCtl R.VSX_COMPACT_AT || s.t3Absent || s.rank5Held ||
          !s.inService pageVsx || s.quiescing pageVsx then s
      else if s.folioStatus x.client (x.compactSize list) ≠ 0 then s.compactStopped index list x
      else (s.compactList index list x dies).getD s.folioWaits

/-- A list takes a new state at an epoch (R322). -/
def Index.become (x : Index) (l epoch state target : Nat) : Index :=
  let y := x.list l
  x.setList l { y with versions := ⟨epoch, state, target, []⟩ :: y.versions, deletes := [], old := y.old ++ y.deletes }

/-- IDX_MERGE on a fetched command (R336). -/
def State.idxMerge (s : State) (cid : Cid) (e : Sqe) (dies : List GroupDie) : Option State :=
  let i := e.cdw10.toNat
  let a := e.cdw11.toNat
  let b := e.cdw12.toNat
  match (if s.t3Absent then none else s.index i) with
  | none => some (s.onIndex cid i fun _ => s)
  | some x =>
    if x.client ≠ cid.c.val then some (s.onIndex cid i fun _ => s)
    else if x.lists ≤ a || x.lists ≤ b then some (s.failGonum cid stListRange 0)
    else if a = b || !(x.list a).live || !(x.list b).live then some (s.failGonum cid stListState 0)
    else
      let ep := x.epoch + 1
      let v := (x.list b).current
      let new := ((x.list a).visible ep).foldl (fun fs t => addEntry x.room v.epoch { t with epoch := ep } fs) v.chain
      let st := s.folioStatus x.client (new.length - v.chain.length)
      if st ≠ 0 then some (s.tierFail cid st)
      else
        match s.growChain i b new dies with
        | none => none
        | some (_, t) =>
          match t.index i with
          | none => none
          | some z => some (((t.setIndex i (z.become a ep 1 b)).commitIndex i ep).giveEpoch cid ep)

/-- IDX_MERGE (R336). -/
def execIdxMerge (cid : Cid) (e : Sqe) (dies : List GroupDie) (s : State) : Host.Outcome State Fault Refusal :=
  settled (s.gonumOf pageVsx cid e (0xFF, 0xFFFFF, 0xFFFFF, 0, 0, 0) fun t => (t.idxMerge cid e dies).getD s.folioWaits)

/-- IDX_DROP on a fetched command (R336). -/
def State.idxDrop (s : State) (cid : Cid) (e : Sqe) : State :=
  let i := e.cdw10.toNat
  let l := e.cdw11.toNat
  s.onIndex cid i fun x =>
    if x.lists ≤ l then s.failGonum cid stListRange 0
    else if !(x.list l).live then s.failGonum cid stListState 0
    else ((s.setIndex i (x.become l (x.epoch + 1) 2 0)).commitIndex i (x.epoch + 1)).giveEpoch cid (x.epoch + 1)

/-- IDX_DROP (R336). -/
def execIdxDrop (cid : Cid) (e : Sqe) (s : State) : Host.Outcome State Fault Refusal :=
  settled (s.gonumOf pageVsx cid e (0xFF, 0xFFFFF, 0, 0, 0, 0) fun t => t.idxDrop cid e)

/-- IDX_EDGES on a fetched command (R336). -/
def State.idxEdges (s : State) (cid : Cid) (e : Sqe) (targets : List (BitVec 32)) : State :=
  let i := e.cdw10.toNat
  let l := e.cdw11.toNat
  let n := e.cdw12.toNat
  if 8 < n then s.failNvme cid 0 scField true 0
  else s.onIndex cid i fun x =>
    let ts := (List.range n).map fun k => ((targets[k]?).getD 0).toNat
    if x.lists ≤ l || ts.any fun t => x.lists ≤ t then s.failGonum cid stListRange 0
    else if !(x.list l).live then s.failGonum cid stListState 0
    else (s.setIndex i (x.setList l { x.list l with edges := ts.map fun t => (t, 0) })).succeed cid 0 0

/-- IDX_EDGES (R336). -/
def execIdxEdges (cid : Cid) (e : Sqe) (targets : List (BitVec 32)) (s : State) : Host.Outcome State Fault Refusal :=
  settled (s.gonumOf pageVsx cid e (0xFF, 0xFFFFF, 0xF, 0, 0, 0) fun t => t.idxEdges cid e targets)

/-- The queries that a figure's steps make. -/
def stepQueries (d : StepDef) : List Nat :=
  d.wave.filterMap fun w => match w with
    | .query x _ _ _ => some x
    | .plain _ _ _ => none
    | .filter _ => none

/-- Does a figure search an index: is it a probe figure? -/
def figProbes (f : FigureCore) : Bool := (f.warm ++ f.cold).any fun d => !(stepQueries d).isEmpty

/-- Does a loaded figure search an index? -/
def State.probeFigure (s : State) (handle : Nat) : Bool :=
  match kvFind s.sched.figures handle with
  | some l => figProbes l.fig.main
  | none => false

/-- Is a run of an index queued or in flight (R325)? -/
def State.indexInUse (s : State) (i : Nat) : Bool :=
  s.sched.queue.any (fun m => m.index = i && s.probeFigure m.handle) ||
    s.sched.runs.any fun e => s.probeFigure e.2.handle && e.2.phase ≠ .done && e.2.cmds.any fun m => m.index = i

/-- IDX_DESTROY on a fetched command; in read-only mode folios are not deallocated (R301, R336). -/
def State.idxDestroy (s : State) (cid : Cid) (e : Sqe) : State :=
  let i := e.cdw10.toNat
  s.onIndex cid i fun x =>
    if s.indexInUse i then s.failGonum cid stIdxBusy 0
    else if s.readOnly && !x.folios.isEmpty then s.tierFail cid 0x07
    else
      let s1 := x.folios.foldl (fun t p => t.freeRegion p.2) (s.freeRegion x.table)
      (({ s1 with search := { s1.search with indexes := kvErase s1.search.indexes i } }).vsxShow).ftlShow.succeed cid 0 0

/-- IDX_DESTROY (R336). -/
def execIdxDestroy (cid : Cid) (e : Sqe) (s : State) : Host.Outcome State Fault Refusal :=
  settled (s.gonumOf pageVsx cid e (0xFF, 0, 0, 0, 0, 0) fun t => t.idxDestroy cid e)

/-- The versions of a list that a snapshot at or after `snap` may need. -/
def keptVersions (snap : Nat) : List ListVersion → List ListVersion
  | [] => []
  | v :: vs => if v.epoch ≤ snap then [v] else v :: keptVersions snap vs

/-- OLD_FOLIO_RELEASE (R324): chains that no run in flight needs are deallocated, but not in read-only mode (R301). -/
def execOldFolioRelease (index : Fin 256) (s : State) : Host.Outcome State Fault Refusal :=
  settled <|
    match (if s.readOnly then none else s.index index) with
    | none => s
    | some x =>
      let snap := s.oldSnap index x
      x.entries.foldl (fun t e =>
        let keep := keptVersions snap e.2.versions
        let drop := e.2.versions.drop keep.length
        let kept := keep.flatMap ListVersion.chain
        let units := (drop.flatMap fun v => v.chain.zipIdx).filter fun p => !kept.any fun k => k = p.1
        let t1 := units.foldl (fun u p =>
          let ch := folioChannel e.1 p.2
          match kvFind x.folios ch with
          | some h => if (u.mapEntry h p.1.unit).isSome then u.setMap (ch / 8) h p.1.unit none else u
          | none => u) t
        match t1.index index with
        | some z =>
          -- a delete matters to a chain that is older than it
          let oldest := (keep.getLast?.map ListVersion.epoch).getD 0
          let old := e.2.old.filter fun d => oldest < d.2
          t1.setIndex index (z.setList e.1 { e.2 with versions := keep, old := old })
        | none => t1) s

/-! The channel engines (R309 to R311, R340). -/

/-- An engine with nothing in it, and the engine of a channel. -/
def emptyChan : ChanUnit := ⟨[], [], 3⟩
def State.chan (s : State) (ch : Nat) : ChanUnit := kvGet emptyChan s.search.engines ch

/-- An engine replaced; CHN_STAT follows it. -/
def State.setChan (s : State) (ch : Nat) (u : ChanUnit) : State :=
  let mask := u.slots.foldl (fun a e => a ||| 2 ^ e.1) 0
  let lc := u.slots.any fun e => e.2.lc
  (({ s with search := { s.search with engines := kvPut s.search.engines ch u } }).setFld (R.CHN_STAT ch) 5 0
    (mask + (if mask = 0 then 0 else 16) + (if lc then 32 else 0))).setIdle (pageChn ch)
    (mask = 0 || s.bit (R.PG_STAT (pageChn ch)) 1)

/-- Is the channel up: its page in service? -/
def State.chanUp (s : State) (ch : Nat) : Bool := s.inService (pageChn ch)

/-- The slot whose page the engine takes next: an LC job's first, then the BE jobs in turn (R310). -/
def ChanUnit.next (u : ChanUnit) : Option Nat :=
  match u.slots.find? fun e => e.2.lc with
  | some e => some e.1
  | none =>
    ((List.range 4).map fun i => (u.turn + 1 + i) % 4).find? fun k => (kvFind u.slots k).isSome

/-- The key of a job that has ended. -/
def jobKey (rn read ch : Nat) : Nat := rn * 2 ^ 20 + read * 32 + ch

/-- A job has ended: its read hold is released and its result is kept for the landing (R293, R326, R340). -/
def State.endJob (s : State) (ch : Nat) (j : Job) : State :=
  let passed := if j.filter.isSome && j.klocal = 0 then j.passed.length else min j.top.length j.klocal
  let s1 := (s.count (R.CHN_JOBS ch) 1).count (R.CHN_PASSED ch) passed
  { s1 with
    ftl := { s1.ftl with active := s1.ftl.active.erase j.hold }
    search := { s1.search with finished := kvPut s1.search.finished (jobKey j.run j.read ch) j } }

/-- A job in a slot has gone on: it keeps its slot, or has nothing left to read and leaves it. -/
def State.jobStep (s : State) (ch slot : Nat) (j : Job) : State :=
  let u := s.chan ch
  let turn := if j.lc then u.turn else slot
  if j.folios.isEmpty && j.units.isEmpty then
    (s.setChan ch { u with slots := kvErase u.slots slot, turn := turn }).endJob ch j
  else s.setChan ch { u with slots := kvPut u.slots slot j, turn := turn }

/-- Engine cycles charged to the run's client (R311). -/
def State.chanBusy (s : State) (ch rn c cyc wait : Nat) : State :=
  (((s.count (R.CHN_CYC_BUSY ch) cyc).count (R.CHN_CYC_WAIT ch) wait).count (R.ACC_ENG_CHN c) cyc).runEnergy rn c 4 cyc

/-- The context that a job works for. -/
def State.jobCtx (s : State) (j : Job) : Nat := ((s.run j.run).bind fun x => (x.cmds[j.x]?).map RunCmd.ctx).getD 0

/-- An event of a channel engine for a job, with the channel in ADDR and the context in AUX (R338). -/
def State.chanEvent (s : State) (ch code : Nat) (j : Job) : State := s.raise (pageChn ch) code (some j.client) ch (s.jobCtx j)

/-- A page of a job is read: as its class and as often as line mismatches ask, its bytes charged each time (R290, R311, R443). -/
def State.jobRead (s : State) (ch h u : Nat) (j : Job) (fault : Option ReadFault) (redo : Nat) : State :=
  let s1 := (List.range redo).foldl (fun t _ => t.chanEvent ch 0x4005 j) (s.readAs j.lc (ch / 8) h u fault)
  (s1.runT3 j.run j.client (16384 * (redo + 1)) 0).count (R.CHN_FOLIOS ch) 1

/-- A local list in rank order, with at most one entry for an item when `once`: the one that ranks first, and of equals the
earlier (R329). -/
def topInsert (once dir : Bool) (ktype : Nat) (e : ColEntry) (l : List ColEntry) : List ColEntry :=
  if once then
    match l.find? fun a => a.index = e.index with
    | some a => if ranksBefore dir ktype e a then rankInsert dir ktype e (l.filter fun b => b.index ≠ e.index) else l
    | none => rankInsert dir ktype e l
  else rankInsert dir ktype e l

/-- An entry of a job's list as the Collator's. -/
def ListEntry.col (e : ListEntry) : ColEntry := ⟨e.key, e.index, e.aux, false⟩
def ColEntry.list (e : ColEntry) : ListEntry := ⟨e.key, e.index, e.aux⟩

/-- A job's list takes an entry. -/
def Job.take (j : Job) (once dir : Bool) (ktype key index aux : Nat) : Job :=
  { j with top := (topInsert once dir ktype ⟨key, index, aux, false⟩ (j.top.map ListEntry.col)).map ColEntry.list }

/-! Filter jobs (R312 to R314). -/

/-- The bytes of a predicate's field type, when it is one of R313. -/
def fieldSize (t : Nat) : Nat := if t ≤ 1 then 2 else if t ≤ 4 then 4 else 8

/-- A value of a field type in an order of integers. -/
def fieldOrd (t v : Nat) : Int :=
  match t with
  | 0 => signedOf 16 v
  | 2 => signedOf 32 v
  | 4 => keyOrd 0 (v % 2 ^ 32)
  | 5 => signedOf 64 v
  | _ => (v % 2 ^ (8 * fieldSize t) : Nat)

/-- Does a term hold of a record (R313)? -/
def termHolds (t : PredTerm) (record : List Byte) : Bool :=
  let v := fieldOf record t.off (fieldSize t.ftype)
  let a := fieldOrd t.ftype v
  let lo := fieldOrd t.ftype t.lo.toNat
  let hi := fieldOrd t.ftype t.hi.toNat
  if t.ftype = 4 && keyNaN 0 v then false
  else
    match t.op with
    | 0 => decide (a = lo)
    | 1 => decide (a ≠ lo)
    | 2 => decide (a < lo)
    | 3 => decide (a ≤ lo)
    | 4 => decide (lo < a)
    | 5 => decide (lo ≤ a)
    | _ => decide (lo ≤ a) && decide (a ≤ hi)

/-- Does a record pass (R313)? -/
def passes (ts : List PredTerm) (record : List Byte) : Bool :=
  let used := (List.range 4).filter fun g => ts.any fun t => t.group.toNat.testBit g
  used.isEmpty || used.any fun g => (ts.filter fun t => t.group.toNat.testBit g).all fun t => termHolds t record

/-- The records of a unit (R312). -/
def recordsPer (f : FilterJob) : Nat := 16384 / max f.r 1

/-- A job tests one record with its number. -/
def Job.test (j : Job) (f : FilterJob) (number : Nat) (record : List Byte) : Job :=
  let j1 := { j with compared := j.compared + 1 }
  if !passes f.terms record then j1
  else
    match f.mode with
    | .pass p0 p cap =>
      if j1.passed.length < cap then { j1 with passed := j1.passed ++ [slice record p0 p] }
      else { j1 with overflow := true, omitted := j1.omitted + 1 }
    | .topk _ off etype dir =>
      let key := fieldOf record off 4
      if keyNaN (ktypeOf etype) key then { j1 with nan := j1.nan + 1 } else j1.take false dir (ktypeOf etype) key number 0

/-- Has another job of the run on the engine already passed over a record in this step (R314)? -/
def State.overflowed (s : State) (ch : Nat) (j : Job) : Bool :=
  (s.chan ch).slots.any (fun e => e.2.run = j.run && e.2.overflow) ||
    s.search.finished.any fun e => e.2.run = j.run && e.1 % 32 = ch && e.2.overflow

/-- The engine tests a unit of a filter job (R312 to R315): an unmapped unit is skipped, every record of a poisoned one too, in a number of
cycles that the spec does not state (log entry 50). -/
def State.filterPage (s : State) (ch slot : Nat) (j : Job) (f : FilterJob) (u : Nat) (fault : Option ReadFault) (redo : Nat) :
    State :=
  let j0 := { j with units := j.units.drop 1 }
  let n := ch / 8
  if (s.mapEntry f.region u).isNone then
    (s.countSat (R.CHN_UNMAPPED ch) 1).jobStep ch slot { j0 with unmapped := j.unmapped + 1 }
  else
    let (wait, s2) := (s.jobRead ch f.region u j fault redo).free
    let (data, marks) := s2.unitData n f.region u
    if !marks.isEmpty then
      let (cyc, s3) := s2.free
      (((s3.chanBusy ch j.run j.client cyc wait).countSat (R.CHN_POISON_SKIP ch) (recordsPer f)).poisonSeen (pageChn ch)).jobStep ch slot
        { j0 with nread := j.nread + 1, poisoned := j.poisoned + 1, poison := true }
    else
      let recs := (List.range (recordsPer f)).map fun p => (u * recordsPer f + p, slice data (p * f.r) f.r)
      let j1 := recs.foldl (fun a e => a.test f e.1 e.2) { j0 with nread := j.nread + 1 }
      let s3 := (s2.count (R.CHN_ENTRIES ch) (recordsPer f)).chanBusy ch j.run j.client (recordsPer f * (f.r / 4) * (redo + 1)) wait
      let s4 := if j1.overflow && !s.overflowed ch j then (s3.setIrq (pageChn ch) 6 6).chanEvent ch 0x6005 j else s3
      s4.jobStep ch slot j1

/-- FILTER_JOB_PAGE (R310, R312 to R314). -/
def execFilterJobPage (ch : ChanNo) (slot : Fin 4) (fault : Option ReadFault) (redo : Nat) (s : State) :
    Host.Outcome State Fault Refusal :=
  settled <|
    let u := s.chan ch
    if u.next ≠ some slot.val || !s.chanUp ch || s.quiescing (pageChn ch) then s
    else
      match kvFind u.slots slot with
      | none => s
      | some j =>
        match j.filter, j.units with
        | some f, n :: _ => s.filterPage ch slot j f n fault redo
        | _, _ => s

/-! Scan jobs (R317 to R319, R329). -/

/-- The key of a code as its 32-bit code (R317). -/
def Index.scanKey (x : Index) (table code : List Byte) : Nat :=
  let term (m : Nat) : Int :=
    let c := (code.getD m 0).toNat
    if x.ctype = 1 then signedOf 16 (fieldOf table (2 * (256 * m + c)) 2)
    else
      let q := signedOf 8 (table.getD m 0).toNat
      let v := signedOf 8 c
      if x.metric = 0 then (q - v) * (q - v) else q * v
  toTwos 32 ((List.range x.l).foldl (fun a m => a + term m) 0)

/-- DIR of an index's metric (R316). -/
def Index.dir (x : Index) : Bool := x.metric = 0

/-- Does a folio as read pass its checks (R319)? CHECK covers entries that a poisoned codeword may hold, and is made of a clean
folio. -/
def Index.folioOk (x : Index) (i l f : Nat) (d : List Byte) (marks : List Nat) : Bool :=
  let g := fieldOf d
  let n := g 4 2
  let e := x.room
  !marks.contains 0 && g 0 2 = 0x7A60 && g 2 1 = x.ctype && g 3 1 = x.l / 8 && n ≤ e && g 8 4 = i + 256 * l && g 12 4 = f &&
    (!marks.isEmpty ||
      g 60 4 = crc32c (slice d 0 60 ++ slice d 64 (8 * n) ++ slice d (64 + 8 * e) (x.l * n)))

/-- A job meets entry k of a folio: skipped as poisoned, hidden, deleted, or compared (R317, R323, R329). -/
def Job.meet (j : Job) (x : Index) (l : Nat) (d : List Byte) (marks : List Nat) (k : Nat) : Job :=
  let e := x.room
  let tag := 64 + 8 * k
  let code := 64 + 8 * e + x.l * k
  let bad := marks.any fun m => m = tag / 4096 || m = (tag + 7) / 4096 || m = code / 4096 || m = (code + x.l - 1) / 4096
  let t := fieldOf d tag 8
  let item := t % 2 ^ 38
  if bad then { j with skipped := j.skipped + 1, poison := true }
  else if j.snap < fieldOf d 16 8 + t / 2 ^ 38 then { j with hidden := j.hidden + 1 }
  else if j.deletes.contains (l, item) then { j with deleted := j.deleted + 1 }
  else ({ j with compared := j.compared + 1 }).take true x.dir 1 (x.scanKey j.table (slice d code x.l)) item l

/-- The engine compares a folio (R317, R319, R329); one that fails its checks takes a number of cycles that the spec does not state (log
entry 50). -/
def State.scanPage (s : State) (ch slot : Nat) (j : Job) (x : Index) (l f : Nat) (fault : Option ReadFault) (wait redo : Nat) :
    State :=
  let j0 := { j with folios := j.folios.drop 1 }
  let n := ch / 8
  let h := kvGet 0 x.folios ch
  let unit := ((((x.list l).at_ j.snap).chain[f]?).map Folio.unit).getD 0
  let s2 := s.jobRead ch h unit j fault redo
  let (d, marks) := s2.unitData n h unit
  if !x.folioOk j.index l f d marks then
    let (cyc, s0) := s2.free
    let s3 := (((s0.chanBusy ch j.run j.client cyc wait).countSat (R.CHN_HDR_ERR ch) 1).setIrq (pageChn ch) 5 6).poisonSeen (pageChn ch)
    (s3.chanEvent ch 0x6002 j).jobStep ch slot { j0 with nread := j.nread + 1, failed := j.failed + 1, poison := true }
  else
    let count := fieldOf d 4 2
    let j1 := (List.range count).foldl (fun a k => a.meet x l d marks k) { j0 with nread := j.nread + 1 }
    let s3 := (s2.count (R.CHN_ENTRIES ch) (j1.compared - j.compared)).countSat (R.CHN_HIDDEN ch) (j1.hidden - j.hidden)
    let s4 := (s3.countSat (R.CHN_DELETED ch) (j1.deleted - j.deleted)).countSat (R.CHN_POISON_SKIP ch) (j1.skipped - j.skipped)
    let s5 := s4.chanBusy ch j.run j.client (count * (x.l / 4) * (redo + 1)) wait
    (if j1.skipped = j.skipped then s5 else s5.poisonSeen (pageChn ch)).jobStep ch slot j1

/-- SCAN_JOB_PAGE (R310, R317 to R319, R329). -/
def execScanJobPage (ch : ChanNo) (slot : Fin 4) (fault : Option ReadFault) (waitCycles redo : Nat) (s : State) :
    Host.Outcome State Fault Refusal :=
  settled <|
    let u := s.chan ch
    if u.next ≠ some slot.val || !s.chanUp ch || s.quiescing (pageChn ch) then s
    else
      match kvFind u.slots slot with
      | none => s
      | some j =>
        match j.folios, s.index j.index with
        | (l, f) :: _, some x => s.scanPage ch slot j x l f fault waitCycles redo
        | _, _ => s

/-! Outputs of jobs (R314, R329). -/

/-- The descriptor whose DIR and key type a list of an engine has. -/
def listDesc (dir : Bool) (etype : Fin 4) : Desc := ⟨2, etype, dir, 0, false, 0, 0, 0, 0, 0, 0, 0, 0, 0, 0⟩

/-- A job's list: the best `k` entries, with TIE_AT_K and OMIT as a TOPK sets them, and padding (R153, R156, R329). -/
def Job.listBytes (j : Job) (k : Nat) (dir : Bool) (etype : Fin 4) : List Byte :=
  let all := j.top.map ListEntry.col
  let out := all.take k
  let o := tiesLeft (ktypeOf etype) all k
  let x : ColResult := ⟨out.length, decide (0 < o), false, true, false, o, j.nan, 0, 0, 0, j.poison, out, k - out.length, 0, 0⟩
  x.header (listDesc dir etype) ++ out.flatMap ColEntry.bytes ++ (List.replicate (k - out.length) padBytes).flatten

/-- The words of each engine's area in the wave buffer, and a job's output in it (R314). -/
def areaWords (f : FilterJob) : Nat :=
  match f.mode with
  | .pass _ p cap => (32 + p * cap + 127) / 128
  | .topk k _ _ _ => listWords k
def filterArea (f : FilterJob) (j : Job) : List Byte :=
  match f.mode with
  | .pass _ _ _ =>
    leBytes 4 j.passed.length ++ leBytes 4 (cap32 j.omitted) ++ leBytes 4 j.nread ++ leBytes 4 j.unmapped ++
      leBytes 4 j.poisoned ++ leBytes 4 (j.overflow.toNat + 2 * j.poison.toNat) ++ leBytes 8 0 ++ j.passed.flatten
  | .topk k _ etype dir => j.listBytes k dir etype

/-- Bytes as words, `n` of them. -/
def wordsOf (bs : List Byte) (n : Nat) (poison : Bool) : List LeafWord :=
  (List.range n).map fun i => wordOf (slice bs (128 * i) 128) poison

/-! The scan set of a query (R326 to R328). -/

/-- The first list LIVE at a snapshot on a list's forward chain (R327). -/
def Index.forward (x : Index) (snap : Nat) : Nat → Nat → Option Nat
  | 0, _ => none
  | n + 1, l =>
    let v := (x.list l).at_ snap
    if v.state = 0 then some l else if v.state = 1 then x.forward snap n v.target else none

/-- The probe lists that are scanned, in rank order, each with the list that stands for it, and the probe skips (R327). -/
def Index.probeSet (x : Index) (snap : Nat) (lists : List Nat) : List Nat × List (Option Nat) × Nat :=
  lists.foldl (fun (a : List Nat × List (Option Nat) × Nat) l =>
    match x.forward snap (x.entries.length + 1) l with
    | none => (a.1, a.2.1 ++ [none], a.2.2 + 1)
    | some t => (if a.1.contains t then a.1 else a.1 ++ [t], a.2.1 ++ [some t], a.2.2)) ([], [], 0)

/-- Positions of edges by descending hits, of equals the lower position (R328). -/
def byHits (es : List (Nat × Nat)) : List Nat :=
  (es.zipIdx.foldl (fun (l : List (Nat × Nat)) e =>
    let (a, b) := l.span fun y => e.1.2 ≤ y.1
    a ++ (e.1.2, e.2) :: b) []).map Prod.snd

/-- What the choice of edges has come to: the set, the edges taken (list, position, target), the skips, and the recorded
positions that a replay has still to take. -/
structure Prefetch where
  set_ : List Nat
  taken : List (Nat × Nat × Nat)
  skips : Nat
  left : List Nat
  deriving DecidableEq, Repr

/-- The edges of one list are considered in order until PF_PER or PF_MAX is reached (R328). -/
def Index.takeEdges (x : Index) (snap l per max_ : Nat) (es : List (Nat × Nat)) : List Nat → Nat → Prefetch → Prefetch
  | [], _, a => a
  | p :: ps, k, a =>
    if per ≤ k || max_ ≤ a.taken.length then a
    else
      let t := (es.getD p (0, 0)).1
      if ((x.list t).at_ snap).state ≠ 0 then x.takeEdges snap l per max_ es ps k { a with skips := a.skips + 1 }
      else if a.set_.contains t then x.takeEdges snap l per max_ es ps k a
      else x.takeEdges snap l per max_ es ps (k + 1)
        { a with set_ := a.set_ ++ [t], taken := a.taken ++ [(l, p, t)], left := a.left.drop 1 }

/-- The edges of a list at the query's admission, with the hits they have now if they are still the same (R325, R328). -/
def Query.edgesOf (q : Query) (x : Index) (l : Nat) : List (Nat × Nat) :=
  let old := kvGet [] q.edges l
  let now := (x.list l).edges
  if old.map Prod.fst = now.map Prod.fst then now else old

/-- The prefetch lists after the probe lists (R328): in Galliard mode by hits, or in a replay as recorded. -/
def Index.prefetch (x : Index) (q : Query) (galliard : Bool) (rec_ : Option (List Nat)) (set_ : List Nat) (ranked : List (Option Nat)) :
    Prefetch :=
  let src := bits q.pf 3 0
  let per := bits q.pf 7 4
  let max_ := bits q.pf 15 8
  (ranked.take src).foldl (fun a r =>
    match r with
    | none => a
    | some l =>
      let es := q.edgesOf x l
      let order := if !galliard then List.range es.length
        else match rec_ with
          | some _ => a.left.take per ++ (List.range es.length).filter fun p => !(a.left.take per).contains p
          | none => byHits es
      x.takeEdges q.snap l per max_ es (order.filter fun p => p < es.length) 0 a) ⟨set_, [], 0, rec_.getD []⟩

/-! The wave of a run (R222, R310, R325, R326). -/

/-- The key of the query of context index xi of a run. -/
def queryKey (rn xi : Nat) : Nat := rn * 65536 + xi
def State.query (s : State) (rn xi : Nat) : Option Query := kvFind s.search.queries (queryKey rn xi)
def State.setQuery (s : State) (rn xi : Nat) (q : Query) : State :=
  { s with search := { s.search with queries := kvPut s.search.queries (queryKey rn xi) q } }

/-- The snapshot of a run's search: for each context, its index, EPOCH_NOW and the edges, at the first admission (R323, R325). -/
def State.takeSnapshots (s : State) (rn : Nat) (x : Run) : State :=
  if !s.probeFigure x.handle then s
  else
    x.cmds.zipIdx.foldl (fun t e =>
      match t.index e.1.index with
      | some i => t.setQuery rn e.2 ⟨e.1.index, i.epoch, t.vsxCtl R.VSX_PF_CTL, i.entries.map (fun l => (l.1, l.2.edges)), 0,
          min e.1.k 256, e.1.k, 0, 0, 0, 0, [], 0, 0, 0, 0, 0, 0, false, false, false, 0⟩
      | none => t) s

/-- An engine's job with nothing done yet. -/
def newJob (rn read xi : Nat) (x : Run) (index snap : Nat) (filter : Option FilterJob) (klocal : Nat) (table : List Byte)
    (folios deletes : List (Nat × Nat)) (units : List Nat) (poison : Bool) : Job :=
  ⟨rn, read, xi, x.client, x.lc, 0, index, snap, filter, klocal, table, folios, deletes, units, [], [], false, poison,
    0, 0, 0, 0, 0, 0, 0, 0, 0, 0⟩

/-- A channel is down as a wave is issued: an empty poisoned list in its place, and event 0x6006 (R325, R338). -/
def State.chanDown (s : State) (ch : Nat) (j : Job) : State :=
  let s1 := (s.setIrq pageVsx 6 6).raise pageVsx 0x6006 (some j.client) ch (s.jobCtx j)
  let e : Job := { j with folios := [], units := [], poison := true }
  { s1 with search := { s1.search with finished := kvPut s1.search.finished (jobKey j.run j.read ch) e } }

/-- A job is sent to a channel: it waits in the channel die's queue, LC jobs first (R310). -/
def State.sendJob (s : State) (ch : Nat) (j : Job) : State :=
  if !s.chanUp ch then s.chanDown ch j
  else
    let u := s.chan ch
    let q := if j.lc then (u.queue.filter Job.lc) ++ [j] ++ u.queue.filter (fun k => !k.lc) else u.queue ++ [j]
    s.setChan ch { u with queue := q }

/-- The units of a filter's range on a channel, in order (R278, R312). -/
def State.filterUnits (s : State) (f : FilterJob) (ch : Nat) : List Nat :=
  match s.region f.region with
  | none => []
  | some r =>
    let us := (List.range (min f.u1 ((r.bytes + 16383) / 16384) - f.u0)).map fun i => f.u0 + i
    if r.striped then
      -- a unit of a striped region lies on whichever channel of its die group its page is on; an unmapped one counts on the first
      us.filter fun u => u % 4 = ch / 8 &&
        (match s.mapEntry f.region u with
          | some p => if p = mapPoisoned then ch % 8 = 0 else p / 3072 / 10280 / 17 = ch % 8
          | none => ch % 8 = 0)
    else if r.channel = ch then us else []

/-- A filter goes to all 32 engines (R312). -/
def State.sendFilter (s : State) (rn read : Nat) (x : Run) (f : FilterJob) : State :=
  let k := match f.mode with
    | .topk k _ _ _ => k
    | .pass _ _ _ => 0
  (List.range 32).foldl (fun t ch => t.sendJob ch (newJob rn read f.x x 0 0 (some f) k [] [] [] (s.filterUnits f ch) false)) s

/-- The list numbers of the probe list that a query reads: 48 bits of each of its first entries, at most 256 (R153, R327). -/
def State.probeLists (s : State) (region probe : Nat) : List Nat :=
  let valid := min (fieldOf (s.memRead region probe 4) 0 4 % 2 ^ 17) 256
  (List.range valid).map fun k => fieldOf (s.memRead region (probe + 32 + 16 * k + 4) 6) 0 6

/-- A query whose probe list names a list that its index has not: the context, the index and the list (R326, R338). -/
def State.badProbe (s : State) (x : Run) : WaveRead → Option (Nat × Nat × Nat)
  | .query xi probe _ _ =>
    match x.cmds[xi]? with
    | some m =>
      match s.index m.index with
      | some i => ((s.probeLists (s.ctx m.ctx).region probe).find? fun l => l ≠ sentinel && i.lists ≤ l).map fun l => (m.ctx, m.index, l)
      | none => none
    | none => none
  | .plain _ _ _ | .filter _ => none

/-- A query's scan set is built and a job sent to each engine (R326 to R328); nothing is answered when the probe list names a list
that the index has not. `recorded` are the edge positions of a replay. -/
def State.sendQuery (s : State) (rn read : Nat) (x : Run) (galliard : Bool) (recorded : Option (List Nat)) (xi probe table out : Nat) :
    Option (List Nat × State) :=
  match s.query rn xi, x.cmds[xi]? with
  | some q, some m =>
    match s.index q.index with
    | none => some ([], s)
    | some i =>
      let region := (s.ctx m.ctx).region
      let lists := s.probeLists region probe
      let valid := lists.length
      let tbytes := if i.ctype = 1 then 512 * i.l else i.l
      let poison := s.memReadPoison region probe (32 + 16 * valid) || s.memReadPoison region table tbytes
      if (s.badProbe x (.query xi probe table out)).isSome then none
      else
        let (set_, ranked, pskip) := i.probeSet q.snap (lists.filter fun l => l ≠ sentinel)
        let pf := i.prefetch q galliard recorded set_ ranked
        let down := (List.range 32).any fun ch => !s.chanUp ch
        let q1 : Query := { q with
          out := out, probes := set_.length, prefetch := pf.taken.length, edgeSkip := pf.skips, probeSkip := pskip,
          taken := pf.taken, poison := poison, down := down }
        let s1 := (s.setQuery rn xi q1).runT1 rn x.client (32 + 16 * valid + tbytes) 0
        let s2 := (s1.countSat R.VSX_EDGE_SKIP pf.skips).countSat R.VSX_PROBE_SKIP pskip
        -- a table that does not lie within the context's state is none, and the engines refuse the job (R340)
        let fits := (s.region region).any fun r => table + tbytes ≤ r.bytes
        let tbl := if fits then s.memRead region table tbytes else []
        let scan := pf.set_.flatMap fun l =>
          (((i.list l).at_ q.snap).chain.zipIdx.filter fun f => f.1.base ≤ q.snap).map fun f => (l, f.2)
        let dels := pf.set_.flatMap fun l => ((i.list l).gone ((i.list l).at_ q.snap) q.snap).map fun d => (l, d)
        let s3 := (List.range 32).foldl (fun t ch =>
          let mine := scan.filter fun f => folioChannel f.1 f.2 = ch
          let del := dels.filter fun d => mine.any fun f => f.1 = d.1
          t.sendJob ch (newJob rn read xi x q.index q.snap none q.klocal tbl mine del [] poison)) s2
        some (pf.taken.map fun e => e.2.1, s3)
  | _, _ => some ([], s)

/-- Has the run a job in an engine or waiting for one? -/
def State.jobsLeft (s : State) (rn : Nat) : Bool :=
  s.search.engines.any fun e => e.2.queue.any (fun j => j.run = rn) || e.2.slots.any fun k => k.2.run = rn

/-- The jobs of a run leave the engines, and what it has gathered goes (R229). -/
def State.dropJobs (s : State) (rn : Nat) : State :=
  let s1 := s.search.engines.foldl (fun t e =>
    if e.2.queue.any (fun j => j.run = rn) || e.2.slots.any (fun k => k.2.run = rn) then
      let holds := (e.2.slots.filter fun k => k.2.run = rn).map fun k => k.2.hold
      let t1 : State := { t with ftl := { t.ftl with active := t.ftl.active.filter fun h => !holds.contains h } }
      t1.setChan e.1 { e.2 with queue := e.2.queue.filter (fun j => j.run ≠ rn), slots := e.2.slots.filter fun k => k.2.run ≠ rn }
    else t) s
  { s1 with search := { s1.search with
    queries := kvDropRange s1.search.queries (queryKey rn 0) (queryKey (rn + 1) 0)
    finished := kvDropRange s1.search.finished (jobKey rn 0 0) (jobKey (rn + 1) 0 0) } }

/-- The job a channel ended for a read of a wave; an empty one when none did. -/
def State.ended (s : State) (rn read ch : Nat) (x : Run) : Job :=
  kvGet (newJob rn read 0 x 0 0 none 0 [] [] [] [] true) s.search.finished (jobKey rn read ch)

/-- The lists of a query land in the gathering buffer, one after another in ascending channel order, and its counts are summed
(R326, R330, R331, R344). -/
def State.landQuery (s : State) (rn read : Nat) (x : Run) (xi : Nat) : State :=
  match s.query rn xi with
  | none => s
  | some q =>
    match s.index q.index with
    | none => s
    | some i =>
      let js := (List.range 32).map fun ch => s.ended rn read ch x
      let w := listWords q.klocal
      let s1 := js.zipIdx.foldl (fun t e =>
        (wordsOf (e.1.listBytes q.klocal i.dir 2) w false).zipIdx.foldl (fun u p => u.gatherPut (q.out + e.2 * w + p.2) p.1) t) s
      let sum (f : Job → Nat) : Nat := js.foldl (fun a j => a + f j) 0
      let cut := decide (256 < q.k) && js.any fun j => decide (256 ≤ j.top.length)
      let q1 : Query := { q with
        nread := sum Job.nread, compared := sum Job.compared, hidden := sum Job.hidden, deleted := sum Job.deleted,
        skipped := sum Job.skipped, failed := sum Job.failed, trunc := cut, poison := q.poison || js.any Job.poison }
      (((s1.setQuery rn xi q1).count R.VSX_QUERIES 1).count R.VSX_LISTS (q.probes + q.prefetch)).count R.VSX_PF_LISTS q.prefetch

/-- The summary of a search (R331). -/
def Query.summary (q : Query) : List Byte :=
  leBytes 8 q.snap ++ leBytes 2 q.probes ++ leBytes 2 q.prefetch ++ leBytes 2 q.edgeSkip ++ leBytes 2 q.probeSkip ++
    leBytes 4 q.nread ++ leBytes 8 q.compared ++ leBytes 4 q.hidden ++ leBytes 4 q.deleted ++ leBytes 4 q.skipped ++
    leBytes 4 q.failed ++ leBytes 4 q.dup ++ leBytes 4 (q.trunc.toNat + 2 * q.poison.toNat + 4 * q.down.toNat) ++ leBytes 12 0

/-- An edge that helped gains a hit; a count that would pass 2^32 - 1 first has every count of its list halved (R332). -/
def Index.hit (x : Index) (e : Nat × Nat × Nat) : Index :=
  let y := x.list e.1
  match y.edges[e.2.1]? with
  | none => x
  | some (t, n) =>
    if t ≠ e.2.2 then x
    else
      let es := if n = 0xFFFFFFFF then y.edges.map fun p => (p.1, p.2 / 2) else y.edges
      x.setList e.1 { y with edges := es.modify e.2.1 fun p => (p.1, p.2 + 1) }

/-- The query of a run whose lists a descriptor merges, when it is such a MERGE (R326). -/
def State.mergeOf (s : State) (rn : Nat) (d : Desc) : Option Query :=
  if d.op = 4 && d.nlists = 32 then
    ((kvRange s.search.queries (queryKey rn 0) (queryKey (rn + 1) 0)).find? fun e => d.src = e.2.out + 0xF * 2 ^ 28).map Prod.snd
  else none

/-- A descriptor as it is issued: the MERGE of a query's lists has KIN = KLOCAL and the command's k (R326, R330). -/
def State.issued (s : State) (rn : Nat) (d : Desc) : Desc :=
  match s.mergeOf rn d with
  | some q => { d with k := q.k, kin := q.klocal }
  | none => d

/-- The MERGE of a query's lists has been executed: its duplicates go into the summary, and the edges whose target a result entry
carries in AUX gain a hit, each at most once for the query (R331, R332). -/
def State.mergedQuery (s : State) (rn : Nat) (d : Desc) (o : ColResult) : State :=
  (kvRange s.search.queries (queryKey rn 0) (queryKey (rn + 1) 0)).foldl (fun t e =>
    let q := e.2
    if d.src = q.out + 0xF * 2 ^ 28 && d.nlists = 32 && d.kin = q.klocal then
      let (helped, rest) := q.taken.partition fun k => o.entries.any fun r => r.aux = k.2.2
      let t1 : State := { t with search := { t.search with
        queries := kvPut t.search.queries e.1 { q with dup := o.dup, poison := q.poison || o.poison, taken := rest } } }
      match t1.index q.index with
      | some x => t1.setIndex q.index (helped.foldl Index.hit x)
      | none => t1
    else t) s

/-! VSX_CMD (R343, R344). -/

/-- The lists of an index hold this many entries visible now. -/
def Index.items (x : Index) : Nat := x.entries.foldl (fun a e => a + (e.2.visible x.epoch).length) 0

/-- An index's registers are read back for client c. -/
def State.showIndex (s : State) (c i : Nat) (x : Index) : State :=
  let cfg := 1 + 4 * x.client + 64 * x.ctype + 128 * x.metric + 256 * (x.l / 8)
  ((((s.wr (banked c R.VSX_I_CFG) cfg).wr (banked c R.VSX_I_LISTS) x.lists).wr (banked c R.VSX_I_ITEMS) x.items).wr
    (banked c R.VSX_I_EPOCH) x.epoch).wr (banked c R.VSX_I_OLDSNAP) (s.oldSnap i x)

/-- A list's registers are read back for client c. -/
def State.showList (s : State) (c : Nat) (x : Index) (l : Nat) : State :=
  let y := x.list l
  let v := y.current
  let s1 := (s.wr (banked c R.VSX_L_STAT) (v.state + y.deletes.length * 2 ^ 16)).wr (banked c R.VSX_L_FOLIOS) v.chain.length
  let s2 := (s1.wr (banked c R.VSX_L_ENTRIES) (v.chain.flatMap Folio.entries).length).wr (banked c R.VSX_L_EPOCH) v.epoch
  let s3 := s2.wr (banked c R.VSX_L_TARGET) (if v.state = 1 then v.target + 2 ^ 31 else 0)
  (List.range 8).foldl (fun t k =>
    match y.edges[k]? with
    | some (g, n) => t.wr (banked c (R.VSX_L_EDGE k)) (g + 2 ^ 31 + n * 2 ^ 32)
    | none => t.wr (banked c (R.VSX_L_EDGE k)) 0) s3

/-- A read command of client c: refused for an index it does not own, with event 0x1002; READ_LIST names a list of the index. -/
def State.vsxRead (s : State) (c : Nat) (list : Bool) : State :=
  let sel := s.rd (banked c R.VSX_SEL)
  let i := sel % 256
  let l := bits sel 27 8
  match s.index i with
  | none => s.wr (banked c R.VSX_RESULT) 3
  | some x =>
    if x.client ≠ c && c ≠ 0 then (s.wr (banked c R.VSX_RESULT) 3).accessEvent 0x1002 c R.VSX_CMD
    else if !list then (s.showIndex c i x).wr (banked c R.VSX_RESULT) 1
    else if x.lists ≤ l then s.wr (banked c R.VSX_RESULT) 5
    else (s.showList c x l).wr (banked c R.VSX_RESULT) 1

/-- A write of VSX_CMD. -/
def State.vsxCmd (s : State) (c v : Nat) : State :=
  let s1 := if v.testBit 0 then s.vsxRead c false else s
  if v.testBit 1 then s1.vsxRead c true else s1

/-- READ_INDEX (R344). -/
def execReadIndex (c : Client) (s : State) : Host.Outcome State Fault Refusal :=
  settled (s.command c R.VSX_CMD 1 fun t _ raw => t.vsxCmd c raw)

/-- READ_LIST (R344). -/
def execReadList (c : Client) (s : State) : Host.Outcome State Fault Refusal :=
  settled (s.command c R.VSX_CMD 2 fun t _ raw => t.vsxCmd c raw)

end Sys2Proof.Machine
end

