-- ==== Sys2Proof/Machine/Formation.lean ====
section
/-! DEFINITION. From command to run: RUN and its checks (R208, R426), coverage (R225), the formation of runs (R211), and the
reservation map (R213, R242). -/

namespace Sys2Proof.Machine

/-! Coverage (R225, R226). -/

/-- Is a run still on its way: neither done nor ended early? -/
def Run.live (x : Run) : Bool := x.phase ≠ .done && x.phase ≠ .tornDown && x.phase ≠ .stopped

/-- Covered runs of client c in flight that a test names. -/
def State.coveredRuns (s : State) (c : Nat) (p : Nat → Run → Bool) : Nat :=
  (s.sched.runs.filter fun e => e.2.client = c && e.2.covered && e.2.live && p e.1 e.2).length

/-- The cause for which a run of an LC figure is not covered, or 0: with measures stopped 0x04 (R217), else the lowest of R226 that
holds. -/
def State.coverage (s : State) (c : Nat) (f : FigureCore) (inFlight : Nat) : Nat :=
  let mine := s.sched.reserved.filter fun e => e.2 = c
  let max := s.maxRun c
  if !s.bit R.MSR_CTL 0 then 4
  else if max ≤ inFlight then 1
  else if s.sched.degraded.any (fun d => d.1 = c) || mine.any (fun e => !s.inService (pageRow e.1)) ||
      mine.length < max * f.rows then 2
  else if s.force R.SCH_HBM_LC < f.hbmLcMin.getD 0 then 3
  else if s.rd R.MSR_PERIOD * 2 < s.rd R.MSR_LEAD + 64 then 4
  else 0

/-! RUN (R207, R208, R232, R426). -/

/-- The status of a context for a figure of client c: 0 when it can run. -/
def State.runStatus (s : State) (c : Nat) (f : FigureCore) (x : Nat) : Nat :=
  let e := s.ctx x
  if e.state = 0 || e.client ≠ c then stCtxUnknown
  else if (e.layout ≠ 0 && e.layout ≠ f.layout) || e.stateLen ≠ f.stateLen then stCtxLayout
  else if e.state = 3 then stCtxFaulted
  else 0

/-- The fields of RUN. -/
def runMasks : Nat × Nat × Nat × Nat × Nat × Nat := (0x0FFFFFFF, 0x7FFFF, 0xFFFFFFFF, 0xFFFFFFFF, 0xFFFFFFFF, 0xFFFFFFFF)

/-- RUN on a fetched command: checked, and queued for its figure (R211). -/
def State.runCmd (s : State) (cid : Cid) (e : Sqe) (input : List Byte) (dataOk : Bool) : State :=
  let c := cid.c.val
  let x := bits e.cdw10.toNat 17 0
  let h := bits e.cdw10.toNat 27 18
  let n := e.cdw13.toNat
  let buf := dword2 e.cdw14 e.cdw15
  let index := bits e.cdw11.toNat 18 11
  if cid.q = pmbQ then s.failNvme cid 0 scOpcode true 0
  else if 2 ^ 24 < n || buf % 128 ≠ 0 then s.failNvme cid 0 scField true 0
  else
    match s.ownFigure c h with
    | none => s.failGonum cid stFigUnknown 0
    | some l =>
      let f := l.fig.main
      let st := s.runStatus c f x
      let probe := s.probeFigure h
      let owned := match s.index index with
        | some i => decide (i.client = c)
        | none => false
      if st ≠ 0 then s.failGonum cid st 0
      else if probe && !owned then s.failGonum cid 0x60 0
      else if probe && s.noT3 then s.failGonum cid 0x80 0
      else if e.cdw12.toNat < f.resultSize then s.failGonum cid stBufferSmall 0
      else if !dataOk then ((s.raise pageHif 0x1009 (some c) cid.id 0).failGonum cid stDataError 0x1009)
      else
        let s1 := s.chargeHost c 0 n
        let bound := if f.lc then s1.coverage c f (s1.coveredRuns c fun _ _ => true) else 0
        let data := input.take n ++ List.replicate (n - input.length) 0
        let m : RunCmd := ⟨cid, x, h, data, buf, e.cdw12.toNat, bits e.cdw11.toNat 10 0, index, s1.dtime, s1.msr.count, bound,
          s1.sched.nextOrder⟩
        { s1 with sched := { s1.sched with queue := s1.sched.queue ++ [m], nextOrder := s1.sched.nextOrder + 1 } }

/-- RUN (R426). -/
def execRun (cid : Cid) (e : Sqe) (input : List Byte) (dataOk : Bool) (s : State) : Host.Outcome State Fault Refusal :=
  settled (s.gonum cid e runMasks fun t => t.runCmd cid e input dataOk)

/-! Formation (R211). -/

/-- What a look through a figure's queue has come to: the commands a run takes, those whose context can run no more with their
status, and whether the run is cold. -/
structure Picked where
  take : List RunCmd
  fail : List (RunCmd × Nat)
  cold : Option Bool
  deriving DecidableEq, Repr

/-- Is a context's state region filled, with no reset under way (R211, R244)? -/
def State.ctxFilled (s : State) (x : Nat) : Bool :=
  let e := s.ctx x
  e.resetBy.isEmpty && (match s.region e.region with
    | some r => r.filled
    | none => false)

/-- The commands of a figure that a run would take, up to BMAX, in arrival order: of one kind, cold or warm, and one for each context
that is in no run; `late` names those that came too late (R211, R216). -/
def State.pick (s : State) (c : Nat) (f : FigureCore) (h : Nat) (late : RunCmd → Bool) : List RunCmd → Picked → Picked
  | [], a => a
  | m :: ms, a =>
    let e := s.ctx m.ctx
    let next :=
      if m.handle ≠ h || late m || f.bmax ≤ a.take.length || e.inRun || a.take.any (fun k => k.ctx = m.ctx) then a
      else
        let st := s.runStatus c f m.ctx
        if st ≠ 0 then { a with fail := a.fail ++ [(m, st)] }
        else
          let cold := decide (e.state = 1)
          if !s.ctxFilled m.ctx || (a.cold.getD cold) ≠ cold then a else { a with take := a.take ++ [m], cold := some cold }
    s.pick c f h late ms next

/-- A streamed run takes a free window of its figure, and the STREAM of each layer below W is issued (R182, R183). -/
def State.equip (s : State) (rn : Nat) : State :=
  match s.run rn with
  | none => s
  | some x =>
    match kvFind s.sched.figures x.handle with
    | none => s
    | some l =>
      match l.freeWindows with
      | w :: ws =>
        let f := l.fig.main
        let layers := (List.range f.layers.length).map fun j => (j, (⟨false, 0, false, false⟩ : LayerState))
        let s1 : State := { s with sched := { s.sched with figures := kvPut s.sched.figures x.handle { l with freeWindows := ws } } }
        (List.range (min f.slots f.layers.length)).foldl (fun t j => t.issueStream rn j)
          (s1.setRun rn { x with window := some w, layers := layers })
      | [] => s

/-- A run is formed from commands: its contexts are IN_RUN, spilled state is filled back (R215, R233), and a streamed run gets its
window. -/
def State.formRun (s : State) (h : Nat) (l : Loaded) (cmds : List RunCmd) (cold : Bool) (admitM : Nat) : State :=
  let f := l.fig.main
  let first := cmds.head?.map RunCmd.bound
  let x := newRun h l.client f.lc cold cmds s.msr.count admitM
  let rn := s.sched.nextRun
  let s1 : State := { s with sched := { s.sched with queue := s.sched.queue.filter fun m => !cmds.contains m } }
  let s2 := s1.addRun { x with bound := first.getD 0, covered := f.lc && first = some 0, pmax := s.rd R.MSR_PERIOD }
  let s3 := cmds.foldl (fun t m =>
    let e := t.ctx m.ctx
    let t1 := t.setCtx m.ctx { e with inRun := true }
    if e.spilled then t1.transfer ⟨trFill, f.lc, none, m.ctx, 0, rn, (e.stateLen + 65535) / 65536, false, none⟩ else t1) s2
  if f.streamed then s3.equip rn else s3

/-- Commands whose context can run no more complete (R211, R232). -/
def State.failPicked (s : State) (a : Picked) : State :=
  a.fail.foldl (fun t e =>
    ({ t with sched := { t.sched with queue := t.sched.queue.filter fun m => m ≠ e.1 } }).failGonum e.1.cid e.2 0) s

/-- Can a run of the figure be formed: is a window free when it is streamed (R182)? -/
def Loaded.hasWindow (l : Loaded) : Bool := !l.fig.main.streamed || !l.freeWindows.isEmpty

/-- LC runs are formed at the announce of measure m, figures in ascending handle, of commands that came 64 core cycles before
(R211, R216). -/
def State.formLc (s : State) (m : Nat) : State :=
  s.sched.figures.foldl (fun t e =>
    let f := e.2.fig.main
    if !f.lc || !e.2.hasWindow then t
    else
      let a := t.pick e.2.client f e.1 (fun k => decide (t.dtime < k.at_ + 64 * tickCycle)) t.sched.queue ⟨[], [], none⟩
      let t1 := t.failPicked a
      if a.take.isEmpty then t1 else t1.formRun e.1 e.2 a.take (a.cold.getD false) m) s

/-- BE_RUN_FORMATION (R211): the queue holds BMAX commands, or its oldest has waited SCH_BE_WAIT measures; the run takes those that can
run together now. -/
def execBeRunFormation (handle : Fin 1024) (s : State) : Host.Outcome State Fault Refusal :=
  settled <|
    match kvFind s.sched.figures handle with
    | none => s
    | some l =>
      let f := l.fig.main
      if f.lc then s
      else
        let a := s.pick l.client f handle (fun _ => false) s.sched.queue ⟨[], [], none⟩
        let s1 := s.failPicked a
        let mine := s.sched.queue.filter fun m => m.handle = handle.val
        let due := decide (f.bmax ≤ mine.length) ||
          (mine.take 1).any fun m => decide (m.atCount + s.rd R.SCH_BE_WAIT ≤ s.msr.count)
        if due && !a.take.isEmpty && l.hasWindow then s1.formRun handle l a.take (a.cold.getD false) 0 else s1

/-! The reservation map (R213, R242). -/

/-- Byte j of the staged map: row j with its client, when it is reserved. -/
def State.stagedRow (s : State) (r : Nat) : Option Nat :=
  let b := s.fld (R.SCH_RES_STAGE (r / 4)) (8 * (r % 4) + 7) (8 * (r % 4))
  if b.testBit 7 then some (b % 16) else none

/-- The staged map, and the registers that show a map. -/
def State.stagedMap (s : State) : KV Nat := (List.range 104).filterMap fun r => (s.stagedRow r).map fun c => (r, c)
def mapByte (m : KV Nat) (r : Nat) : Nat :=
  match kvFind m r with
  | some c => c + 0x80
  | none => 0
def State.showMap (s : State) (reg : Nat → Nat) (m : KV Nat) : State :=
  (List.range 26).foldl (fun t i =>
    t.wr (reg i) (mapByte m (4 * i) + mapByte m (4 * i + 1) * 0x100 + mapByte m (4 * i + 2) * 0x10000 +
      mapByte m (4 * i + 3) * 0x1000000)) s

/-- The largest ROWS of a client's loaded LC figures. -/
def State.largestLc (s : State) (c : Nat) : Nat :=
  s.sched.figures.foldl (fun a e =>
    if e.2.client = c && e.2.fig.main.lc then e.2.fig.cores.foldl (fun b f => max b f.rows) a else a) 0

/-- Why a commit is refused: 1 count, 2 row not in service, 3 MAXRUN last written; 0 accepted (R213, R242). -/
def State.mapCause (s : State) (m : KV Nat) : Nat :=
  if m.length < 8 || 48 < m.length then 1
  else if m.any fun e => !s.inService (pageRow e.1) then 2
  else if (List.range 16).any fun c =>
      (m.filter fun e => e.2 = c).length < s.fld (R.SCH_C_CTL c) 7 0 * s.largestLc c then 3
  else 0

/-- A value written to SCH_RES_CMD by client c (R213, R240, R242): SCH_STAT[14] is 1 from a write of the stage until a commit is accepted or the stage is
discarded. -/
def State.resCmd (s : State) (c v : Nat) : State :=
  if v.testBit 0 = v.testBit 1 then s
  else if v.testBit 1 then (s.showMap R.SCH_RES_STAGE s.sched.reserved).setBit R.SCH_STAT 14 false
  else
    let m := s.stagedMap
    let k := s.mapCause m
    let s1 := s.wr R.SCH_RES_RESULT (1 + 2 * k)
    if k ≠ 0 then s1.raise pageSch 0x2006 (some c) 0 0
    else (({ s1 with sched := { s1.sched with commit := some m } }).setBit R.SCH_STAT 14 false).settleRights

/-- SCH_RES_COMMIT (R213). -/
def execSchResCommit (c : Client) (s : State) : Host.Outcome State Fault Refusal :=
  settled (s.command c R.SCH_RES_CMD 1 fun t _ raw => t.resCmd c raw)

/-- SCH_RES_DISCARD (R242). -/
def execSchResDiscard (c : Client) (s : State) : Host.Outcome State Fault Refusal :=
  settled (s.command c R.SCH_RES_CMD 2 fun t _ raw => t.resCmd c raw)

end Sys2Proof.Machine
end

