-- ==== Sys2Proof/Machine/Ends.lean ====
section
/-! DEFINITION. How steps and runs end: the colophon (R253, R254), the end of a step on its rows (R235), teardown (R228, R229), a stop
by a change of rights (R230), and RED's FAULT (R374). -/

namespace Sys2Proof.Machine

/-- The cycles between two instants. -/
def cyclesFrom (t0 t1 : Nat) : Nat := (t1 - t0) / tickCycle

/-- The waits of a bound, in 1/16 ns (R224): T_flash, T_post and the fixed part of T_admit. -/
def tFlash : Nat := 110 * tickUs
def tPost : Nat := 5 * tickUs
def Run.lMax (x : Run) : Nat := x.decl * tickCycle + 2 * x.pmax * tickNs + 20 * tickUs + x.waves * tFlash + tPost

/-- The lowest cause of a mask, or 0x1F (R226). -/
def boundCause (mask : Nat) : Nat := 0x10 + ((List.range 15).find? fun i => mask.testBit i).getD 15

/-! The colophon (R253, R254). -/

/-- Bits 8 to 11 and the version of CTL: what the run is (R253). -/
def State.ctlBase (s : State) (x : Run) : Nat :=
  let galliard := match s.runCore x with
    | some f => f.galliard
    | none => false
  1 + galliard.toNat * 2 ^ 8 + x.lc.toNat * 2 ^ 9 + x.cold.toNat * 2 ^ 10 + x.fallback.isSome.toNat * 2 ^ 11

/-- BOUND of a colophon (R226, R253, R256): of a covered LC run whose bound is exceeded at the step, or one of whose steps was replayed,
the lowest cause known (log entry 55); else as at its admission. -/
def State.boundAt (s : State) (x : Run) : Nat :=
  let lat := x.cmds.foldl (fun a m => max a (s.dtime - m.at_)) 0
  if x.lc && x.covered && x.admitted && (decide (x.lMax < lat) || x.causes.testBit 2) then boundCause x.causes else x.bound

/-- The 128 bytes of a colophon for the context at index xi of a run, as its current step produces a result. -/
def State.colophon (s : State) (rn : Nat) (x : Run) (xi : Nat) (poison : Bool) : List Byte :=
  let ctx := ((x.cmds[xi]?).map RunCmd.ctx).getD 0
  let e := s.ctx ctx
  let hash := match kvFind s.sched.figures x.handle with
    | some l => l.fig.main.hash.toNat
    | none => 0
  let ctl := s.ctlBase x ||| x.flags ||| kvGet 0 x.vflags xi ||| (poison.toNat * 2 ^ 16) ||| (e.poison.toNat * 2 ^ 17)
  let epoch := if !ctl.testBit 25 then 0 else match s.query rn xi with
    | some q => q.snap
    | none => kvGet 0 x.epochs xi
  let (fbLayer, fbD) := x.fallback.getD (0xFFFF, 0)
  let body := leBytes 4 ctl ++ leBytes 4 (whoOf ctx x.client x.handle) ++ leBytes 8 e.stepCtr ++ leBytes 16 e.seed.toNat ++
    leBytes 32 hash ++ leBytes 8 epoch ++ leBytes 8 x.admitM ++ dtBytes x.startAt ++
    leBytes 2 x.step ++ leBytes 2 fbLayer ++ leBytes 8 fbD ++ leBytes 4 (min x.lateCyc 0xFFFFFFFF) ++
    leBytes 1 (min x.recomp 255) ++ leBytes 1 (s.boundAt x) ++ leBytes 2 s.rank ++
    leBytes 8 (kvGet 0xFFFFFFFFFFFFFFFF x.jseq xi) ++ leBytes 4 0
  body ++ leBytes 4 (crc32c body)

/-! The end of a step on its rows. -/

/-- A row whose operation had to wait starved meanwhile (R164). -/
def State.waitOver (s : State) (x : Run) : State :=
  match x.waitRow with
  | some (r, t0) => s.count (R.ROW_CYC_STARVE r) (cyclesFrom t0 s.etime)
  | none => s

/-- Rows end a step: ROW_STAT and ROW_CTX, the cycles since its admission, and the engine time of the run's client (R127, R235). -/
def State.endStep (s : State) (rn : Nat) (x : Run) : State :=
  let cyc := cyclesFrom x.admitAt s.etime
  let s1 := x.rows.foldl (fun t r =>
    let t1 := ((t.setBit (R.ROW_STAT r) 3 false).setBit (R.ROW_CTX r) 31 false).count (R.ROW_CYC_BUSY r) cyc
    (t1.setRow r { t1.rowUnit r with idleFrom := t1.etime }).setIdle (pageRow r) true) (s.waitOver x)
  let n := cyc * x.rows.length
  ((s1.count (R.ACC_ENG_ROW x.client) n).runCharge rn 0 n).repairAtEnd x.rows

/-- The cycles of steps at work since their admission, of those that a test picks, each as often as `n` says (R127, R235). -/
def State.stepCycles (s : State) (n : Run → Nat) : Nat :=
  s.sched.runs.foldl (fun a e => if e.2.phase.working then a + n e.2 * cyclesFrom e.2.admitAt s.etime else a) 0

/-- A register as its counter stands now: ROW_CYC_BUSY and ACC_ENG_ROW count on while a step runs (R127, R235). -/
def State.liveRd (s : State) (key : Nat) : Nat :=
  let p := key / 0x10000
  let o := key % 0x10000
  if 0x28 ≤ p && p < 0x90 && o = 0x110 then s.rd key + s.stepCycles fun x => (x.rows.contains (p - 0x28)).toNat
  else if p = pageAcc && 0x1000 ≤ o && o < 0x9000 && o % 0x800 = 0 then
    s.rd key + s.stepCycles fun x => if x.client = (o - 0x1000) / 0x800 then x.rows.length else 0
  else s.rd key

/-- What a run holds beside its rows is given up: transfers, its window, its jobs and queries, descriptors. -/
def State.giveUp (s : State) (rn : Nat) (x : Run) : State := (((s.dropOfRun rn).colDrop rn).dropJobs rn).windowBack x

/-- The landings of the buckets of a run that is torn down or stopped are discarded; their rounds go on (R364). -/
def State.discardLandings (s : State) (rn : Nat) : State :=
  { s with red := { s.red with
    buckets := s.red.buckets.map fun e => (e.1, if e.2.run = rn then { e.2 with discard := true } else e.2) } }

/-- A run is over; its charges wait for the next strike or idle tick (R236). -/
def State.runOver (s : State) (rn : Nat) : State :=
  match s.run rn with
  | none => s
  | some x =>
    let s1 := s.giveUp rn x
    let s2 := x.cmds.foldl (fun t m => t.leaveRun m.ctx) s1
    match s2.run rn with
    | some y => (s2.setRun rn { y with phase := .done, rows := [], cols := [], window := none, heldFrom := none }).showWork
    | none => s2

/-- Is a completion of a command held (R413)? -/
def State.heldCqe (s : State) (cid : Cid) : Bool :=
  (s.ctrl cid.c).cqs.any fun q => q.2.held.any fun e => e.sq = cid.q && e.id = cid.id

/-- A run that posts is DONE when its last completion is posted (R215). -/
def State.postingDone (s : State) : State :=
  s.sched.runs.foldl (fun t e =>
    if e.2.phase = .posting && !e.2.cmds.any (fun m => t.heldCqe m.cid) then t.runOver e.1 else t) s

/-- When the command of an LC run arrived; none for a BE run, whose DW1 reads 0 (R427). -/
def Run.arrivalOf (x : Run) (m : RunCmd) : Option Nat := if x.lc then some m.at_ else none

/-- A bound is exceeded: counted and reported, with event 0x2003 (R226). -/
def State.boundBroken (s : State) (x : Run) (cause : Nat) : State :=
  let c := x.client
  let s1 := ((s.countSat (R.SCH_C_BREAK c) 1).wr (R.SCH_C_LAST c) cause).wr (R.SCH_C_LAST_CTX c) (x.ctx0 + 2 ^ 31)
  ((s1.count (R.ACC_LC_BREAK c) 1).setIrq pageSch 4 2).raise pageSch 0x2003 (some c) 0 x.ctx0

/-- Whether an admitted covered run has exceeded its bound as the completion of one of its commands is posted, and the BOUND that this
reports: 0x13 when the completion is held, else the cause of a latency past L_max (R224, R226, R413). -/
def State.boundNow (s : State) (x : Run) (m : RunCmd) : Bool × Nat :=
  let lat := x.cmds.foldl (fun a m => max a (s.dtime - m.at_)) 0
  if x.lc && x.covered && x.admitted then
    if s.wouldHold m.cid then (true, 0x13)
    else if x.lMax < lat then (true, boundCause x.causes)
    else (false, x.bound)
  else (false, if x.lc then x.bound else 0)

/-- The completions of a run, posted one after another, each with the BOUND of the instant; the run's exceeded bound is reported once. -/
def State.postEach (s : State) (x : Run) (post : State → RunCmd × Nat → Bool → Nat → State) : State :=
  (x.cmds.zipIdx.foldl (fun (a : Bool × State) e =>
    let (broken, b) := a.2.boundNow x e.1
    let t := if broken && !a.1 then a.2.boundBroken x b else a.2
    (a.1 || broken, post t e broken b)) (false, s)).2

/-- Every command of a run fails with a scheduling status and the event that caused it (R208, R427). -/
def State.failRun (s : State) (x : Run) (status event : Nat) : State :=
  s.postEach x fun t e _ b =>
    t.completeRun e.1.cid 7 status (!gonumRetry status) (event % 65536 + b % 256 * 2 ^ 16) 0 (x.arrivalOf e.1)

/-- A replayed run leaves its rows and all else it holds, before its replay stops or goes on (R268). -/
def State.drLeave (s : State) (rn : Nat) : State :=
  match s.run rn with
  | none => s
  | some x =>
    let s1 := ((if x.phase.working then s.endStep rn x else s).runOver rn).discardLandings rn
    match s1.run rn with
    | some y => s1.setRun rn { y with replayOf := none }
    | none => s1

/-- ABORT: a running step commits first; between steps the replay stops at once (R269). -/
def State.drAbort (s : State) (n : Nat) : State :=
  let mine := s.sched.runs.filter fun e => e.2.replayOf = some n
  if (s.journal n).replay.isNone then s
  else if mine.any fun e => e.2.phase.working then s.setJournal n { s.journal n with aborting := true }
  else (mine.foldl (fun t e => t.drLeave e.1) s).drStop n drAborted 0

/-- A value written to DR_CMD. -/
def State.drCmd (s : State) (n v : Nat) : State :=
  if v.testBit 0 = v.testBit 1 then s else if v.testBit 0 then s.drStart n else s.drAbort n

/-- DR_START (R266). -/
def execDrStart (c n : Client) (s : State) : Host.Outcome State Fault Refusal :=
  settled (s.command c (R.DR_CMD n) 1 fun t _ raw => t.drCmd n raw)

/-- DR_ABORT (R269). -/
def execDrAbort (c n : Client) (s : State) : Host.Outcome State Fault Refusal :=
  settled (s.command c (R.DR_CMD n) 2 fun t _ raw => t.drCmd n raw)

/-! Teardown (R229). -/

/-- A torn-down run's RESULT record, with an all-zero digest, for each of its contexts (R262). -/
def State.jTorn (s : State) (rn : Nat) (x : Run) : State :=
  x.cmds.zipIdx.foldl (fun t e => t.jRun rn e.1.ctx jResult (t.colophon rn x e.2 false ++ List.replicate 16 0) false) s

/-- A replayed run is torn down, its colophon given: the replay goes on when the journalled run was torn down at the same step, else it
has diverged (R269). -/
def State.drTorn (s : State) (n : Nat) (colo : List Byte) : State :=
  let rs := ((s.journal n).replay.getD []).dropWhile fun r => r.type ≠ jResult && r.type ≠ jGap && r.type ≠ jRunStart
  match rs with
  | r :: rest =>
    if r.torn && (drDiff colo (List.replicate 16 0) r.payload).isNone then (s.wr (R.DR_AT n) r.seq).drNext n rest
    else s.drStop n drDiverged 0x10
  | [] => s.drStop n drDiverged 0x10

/-- A run is torn down for an event: its rows stop, its contexts are FAULTED, its commands complete with STEP_FAULT (R229). The
destination of a replay keeps its committed state (R268). -/
def State.teardown (s : State) (rn event : Nat) : State :=
  match s.run rn with
  | none => s
  | some x =>
    if !x.live || x.phase = .posting then s
    else
      let s1 := if x.phase.working then s.endStep rn x else s
      let s2 := s1.jTorn rn x
      let s3 := (s2.runOver rn).discardLandings rn
      let s4 := x.cmds.foldl (fun t m =>
        let e := t.ctx m.ctx
        if e.state = 0 then t
        else if x.replayOf.isSome then t.setCtx m.ctx { e with inRun := true }
        else t.setCtx m.ctx { e with state := 3, lastEvent := event }) s3
      let s5 := ((s4.setIrq pageCtx 4 2).setIrq pageSch 6 2).count (R.ACC_TEARDOWNS x.client) 1
      match x.replayOf with
      | some n => (s5.drLeave rn).drTorn n (s.colophon rn x 0 false)
      | none => s5.failRun x stStepFault event

/-- A run whose next step can no longer be admitted stops at its boundary (R230); a replay that is stopped so lacks its input. -/
def State.stopRun (s : State) (rn : Nat) : State :=
  match s.run rn with
  | none => s
  | some x =>
    let s1 := s.raise pageSch 0x2007 (some x.client) 0 x.ctx0
    match x.replayOf with
    | some n => (s1.drLeave rn).drStop n drUnavailable 0
    | none => ((s1.runOver rn).discardLandings rn).failRun x stRightsChanged 0x2007

/-! RED's FAULT (R374). -/

/-- The events with which RED enters FAULT, and so the codes a STOP carries (R374). -/
def isStopCode (code : Nat) : Bool := code = 0x7009 || code = 0x700C || code = 0x700F

/-- RED enters FAULT and floods STOP over every UP link; runs that wait for a bucket are torn down. RED_FAULT holds the cause, or 5
when a STOP brought it (R383); the entry names the bucket or the tree of its own event, and of a STOP heard the rank that sent it (R378). A
STOP of another code is none that a rank sends, and is discarded (log entry 49). -/
def State.redStop (s : State) (code cause rank addr : Nat) (heard : Bool) : State :=
  if s.bit R.RED_STAT 1 || !isStopCode code then s
  else
    let s1 := (((s.setBit R.RED_STAT 1 true).wr R.RED_FAULT ((if heard then 5 else cause % 256) + rank % 4096 * 256)).setIrq pageRed 5 7).raise pageRed code
      none (addr % 2 ^ 48) cause
    let s2 := (List.range 32).foldl (fun t l => if t.linkState l = lkUp then t.sendFlit l (.mgmt (.stop code cause rank)) else t) s1
    s2.sched.runs.foldl (fun t e => if e.2.bucketWait.isEmpty then t else t.teardown e.1 code) s2

/-- STOP (R374): one that arrives brings FAULT; a rank's own flood belongs to the command that brings its FAULT, and there is none
apart from it. -/
def execStop (code cause rank : Nat) (received : Bool) (s : State) : Host.Outcome State Fault Refusal :=
  settled (if s.bit R.RED_CTL 0 && received then s.redStop code cause rank rank true else s)

/-! A tree out of service (R372). -/

/-- Does RED take part in rounds: it is enabled, or rounds that it began are in flight (R375)? -/
def State.redActive (s : State) : Bool := s.bit R.RED_CTL 0 || s.inFlight ≠ 0

/-- A tree leaves service: removed from RED_TSET, its generation, event 0x7003, and TREE_DOWN over every link of every other tree but
the one it came on (R372, R375); a removal heard again only brings the highest generation; with the last tree RED is in FAULT (R374). -/
def State.dropTree (s : State) (tree : Fin 10) (gen : Nat) (via : Option Nat) : State :=
  let t := tree.val
  if !s.redActive || !s.inPlan t then s
  else if s.red.downSeen.contains t then (if s.generation < gen then s.setTset s.tset gen else s)
  else
    let s1 : State := { s with red := { s.red with
      downSeen := t :: s.red.downSeen, joining := s.red.joining.filter fun e => e.1 ≠ t } }
    let mask := if s1.tset.testBit t then s1.tset - 2 ^ t else s1.tset
    let s2 := (s1.setTset mask gen).raise pageRed 0x7003 none t 0
    let s3 := ((List.range 32).filter fun l => s2.linkUp l && s2.linkTree l ≠ t && s2.linkTree l < 10 && some l ≠ via).foldl (fun u l =>
      u.sendFlit l (.mgmt (.treeDown tree gen))) s2
    if s1.tset ≠ 0 && mask = 0 then s3.redStop 0x700C 4 s3.rank t false else s3

/-- TREE_DOWN (R372, R375): an unbacked link of the tree is DOWN or REFUSED at this end, so that the generation rises by 1; or the
message arrives, and the highest generation heard is adopted. -/
def execTreeDown (tree : Fin 10) (gen : Nat) (own : Option LinkNo) (s : State) : Host.Outcome State Fault Refusal :=
  settled <|
    match own with
    | none => s.dropTree tree (max gen s.generation) none
    | some l =>
      let st := s.linkState l
      let needed := (s.treeNeighbour tree (s.linkDir l)).isSome
      if s.linkTree l ≠ tree.val || !needed || (st ≠ lkDown && st ≠ lkRefused) || s.carrier l ≠ l.val || s.isSpare l && !s.carries l ||
          (s.partner l).any (fun k => s.linkState k = lkStandby) then s
      else s.dropTree tree (s.generation + 1) none

end Sys2Proof.Machine
end

