-- ==== Sys2Proof/Machine/Admission.lean ====
section
/-! DEFINITION. The admission of steps: rights (R230), rows and Collators (R16, R212, R214), order (R219, R220), wakes and clears
(R121, R122), deadlines (R184), coverage at admission (R225, R226), and the held admission (R216). -/

namespace Sys2Proof.Machine

/-! Rows that a run may use (R213, R214, R230). -/

/-- May a client's steps use a row at all: in service, and its guard bit in force? -/
def State.rowGuard (s : State) (r c : Nat) : Bool :=
  s.inService (pageRow r) && (c = 0 || (s.force (R.PG_GUARD (pageRow r))).testBit c)

/-- Is every step of a run's path within the LC limit (R214)? -/
def State.shortSteps (s : State) (x : Run) : Bool := (s.path x).all fun d => decide (d.g + d.c ≤ 40000)

/-- May a run use a row: an LC run those reserved for its client, a BE run the BE pool, and what its client lends (R214)? -/
def State.rowAllowed (s : State) (x : Run) (r : Nat) : Bool :=
  s.rowGuard r x.client &&
    (match s.reservedFor r with
      | some c => c = x.client && (x.lc || ((s.force (R.SCH_C_CTL c)).testBit 8 && s.shortSteps x))
      | none => !x.lc)

/-- Does a run hold rows from one step to the next? -/
def Run.holds (x : Run) (r : Nat) : Bool := x.live && x.phase ≠ .posting && x.rows.contains r

/-- Is a row taken from a run's point of view: another run holds it, and an LC run does not push it aside (R214, R216)? -/
def State.rowTaken (s : State) (rn : Nat) (x : Run) (r : Nat) : Bool :=
  s.sched.runs.any fun e => e.1 ≠ rn && e.2.holds r && !(x.lc && !e.2.lc)

/-- Can a figure be placed on rows of a list (R212)? -/
def State.placeable (s : State) (f : FigureCore) (rows : List Nat) : Bool :=
  f.rows ≤ rows.length &&
    (if f.galliard then packs ((List.range 8).map fun g => (s.inGroup rows g).length) f.groups
     else s.packsInOrder rows (f.rows - f.groups.foldl (· + ·) 0) f.groups)

/-- The rows a run may use, ascending: once it has given lent rows back, others, as long as it can be placed on others (R214; log
entry 53). -/
def State.usable (s : State) (x : Run) : List Nat :=
  let all := (List.range 104).filter fun r => s.rowAllowed x r
  let others := all.filter fun r => !x.gaveBack.contains r
  match s.runCore x with
  | some f => if s.placeable f others then others else all
  | none => all

/-- The rows a run could take now. -/
def State.freeRows (s : State) (rn : Nat) (x : Run) : List Nat :=
  (s.usable x).filter fun r => !s.rowTaken rn x r && !s.quiescing (pageRow r)

/-- Could a run ever be placed (R219, R230)? -/
def State.everFits (s : State) (x : Run) : Bool :=
  match s.runCore x with
  | some f => s.placeable f (s.usable x)
  | none => false

/-! What a first step waits for (R216, R217, R233). -/

/-- The layers that a step of the main figure reads have landed (R187). -/
def State.layersLanded (s : State) (x : Run) : Bool :=
  match s.runCore x with
  | none => false
  | some f =>
    x.inReserve || !f.streamed || f.layers.zipIdx.all fun e =>
      !(decide (e.1.firstStep ≤ x.step) && decide (x.step ≤ e.1.lastStep)) ||
        (match kvFind x.layers e.2 with
          | some l => l.landed
          | none => false)

/-- Has everything come that a formed run's first step needs: its measure, its contexts' state, its window and first layers? -/
def State.firstReady (s : State) (x : Run) : Bool :=
  (!x.lc || decide (x.admitM ≤ s.rd R.MSR_NOW)) && (x.cmds.all fun m => !(s.ctx m.ctx).spilled && s.ctxFilled m.ctx) &&
    ((match s.runCore x with
      | some f => !f.streamed || x.window.isSome
      | none => false) && s.layersLanded x)

/-- The place of an LC run among those of its client: its first command's arrival, then the lower context (R220). -/
def Run.lcBefore (a b : Run) : Bool :=
  let key (x : Run) : Nat × Nat := ((x.cmds.map RunCmd.order).foldl min (2 ^ 64), (x.cmds.map RunCmd.ctx).foldl min (2 ^ 18))
  let first (x : Run) : Nat := ((x.cmds.head?).map RunCmd.at_).getD 0
  first a < first b || (first a = first b && (key a).2 < (key b).2)

/-- The place of a BE run: oldest formed, then the lower handle (R219). -/
def beBefore (ra : Nat) (a : Run) (rb : Nat) (b : Run) : Bool :=
  a.formedCount < b.formedCount ||
    (a.formedCount = b.formedCount && (a.handle < b.handle || (a.handle = b.handle && ra < rb)))

/-- Is a formed run's turn on these rows now (R219, R220)? An LC run goes before its turn only ahead of one that could never be placed
(log entry 53). A BE run goes ahead of an older one only on rows that the older may not use, and before that has waited SCH_BE_AGE
measures. -/
def State.turn (s : State) (rn : Nat) (x : Run) (rows : List Nat) : Bool :=
  s.sched.runs.all fun e =>
    e.1 = rn || e.2.phase ≠ .formed || e.2.lc ≠ x.lc || e.2.heldFrom.isSome ||
      (if x.lc then e.2.client ≠ x.client || s.rd R.MSR_NOW < e.2.admitM || !e.2.lcBefore x || !s.everFits e.2
       else !beBefore e.1 e.2 rn x ||
        (decide (s.msr.count < e.2.formedCount + s.rd R.SCH_BE_AGE) && rows.all fun r => !s.rowAllowed e.2 r))

/-! The rows of one step (R212). -/

/-- The physical Collator group of each logical group on rows in logical order; none when a group is split or its Collator is not in
service (R16, R212). -/
def State.groupCols (s : State) (rows : List Nat) : List Nat → Nat → Option (List Nat)
  | [], _ => some []
  | g :: gs, i =>
    match (rows.drop i).take g with
    | [] => none
    | r :: rest =>
      if s.inService (pageCol (rowGroup r)) && rest.all (fun q => rowGroup q = rowGroup r) then
        (s.groupCols rows gs (i + g)).map fun l => rowGroup r :: l
      else none

/-- The Collators of a set of rows for a step, when the run may have them: as many as the figure names, each once and free for it, in
ascending order in Pavane mode. -/
def State.rowSet (s : State) (rn : Nat) (x : Run) (rows : List Nat) : Option (List Nat) :=
  match s.runCore x with
  | none => none
  | some f =>
    if rows.length = f.rows && decide rows.Nodup && (rows.all fun r => (s.freeRows rn x).contains r) &&
        (f.galliard || decide (rows.Pairwise (· < ·))) then s.groupCols rows f.groups 0
    else none

/-! Deadlines (R184). -/

/-- The declared cycles of the steps of a path from a to b. -/
def declared (p : List StepDef) (a b : Nat) : Nat := ((p.drop a).take (b - a)).foldl (fun n d => n + d.g + d.c) 0

/-- The deadlines of a run's layers as of the admission of its present step: a later value is kept, and queued transfers take their
places anew. The declared cycles come to whole measures, rounded down (DESIGN CHOICE; log entry 30). -/
def State.setDeadlines (s : State) (rn : Nat) (x : Run) (first : Bool) : State :=
  match s.runCore x with
  | none => s
  | some f =>
    if x.inReserve || !f.streamed then s
    else
      let now := s.rd R.MSR_NOW
      let plan (j : Nat) : Nat :=
        let k := ((f.layers[j]?).map Layer.firstStep).getD 0
        now + declared (s.path x) x.step k / (2 * max (s.rd R.MSR_PERIOD) 1) - s.vsxCtl R.TIER_DL_GUARD
      let ls := x.layers.map fun e => (e.1, { e.2 with deadline := if first then plan e.1 else max e.2.deadline (plan e.1) })
      let s1 := s.setRun rn { x with layers := ls }
      let mine (l : List Transfer) : List Transfer :=
        (l.filter fun t => t.kind = trStream && t.run = rn).map fun e => { e with deadline := (kvFind ls e.layer).map LayerState.deadline }
      let s2 := (mine (s1.tiers.lc ++ s1.tiers.be)).foldl State.transfer (s1.dropTransfers fun t => t.kind = trStream && t.run = rn)
      { s2 with tiers := { s2.tiers with again := s2.tiers.again ++ mine s1.tiers.again } }

/-! The first admission (R225, R226, R233, R265). -/

/-- The region whose count is the EPOCH of a context of a run: that of the first filter of the context on the run's path, else of its first
plain read (R253, R315). -/
def State.epochRegion (s : State) (x : Run) (xi : Nat) : Option Nat :=
  let reads := (s.path x).flatMap StepDef.wave
  (reads.findSome? fun w => match w with
    | .filter f => if f.x = xi then some f.region else none
    | _ => none).orElse fun _ => reads.findSome? fun w => match w with
    | .plain h _ _ => some h
    | _ => none

/-- The modification count of that region now. -/
def State.epochNow (s : State) (x : Run) (xi : Nat) : Nat :=
  (((s.epochRegion x xi).bind s.region).map Region.modCount).getD 0

/-- A run that is journalled starts with a RUN_START record for each context, before the first since journalling began with the state of a
warm context; JSEQ is the number of that record, where it is not lost (R253, R262, R265). -/
def State.jStart (s : State) (rn : Nat) (x : Run) : State :=
  let ctl := s.rd (R.DJ_CTL x.client)
  let on := ctl.testBit 0 && x.replayOf.isNone && (ctl.testBit 4 || bits ctl 14 5 = x.handle)
  if !on then s
  else
    let s1 := s.setRun rn { x with journalled := true, jctl := ctl, flags := x.flags ||| 2 ^ 22 }
    x.cmds.zipIdx.foldl (fun t e =>
      let c := e.1.ctx
      let j := t.journal x.client
      let t0 := if j.hadState.contains c then t else
          let u := t.setJournal x.client { j with hadState := c :: j.hadState }
          if (t.ctx c).state = 2 then u.jRun rn c jState (t.ctxState c) (t.ctx c).poison else u
      let t1 := t0.jGapDue x.client
      let seq := t1.rd (R.DJ_SEQ x.client)
      let hash := match kvFind t1.sched.figures x.handle with
        | some l => l.fig.main.hash.toNat
        | none => 0
      let t2 := t1.jRun rn c jRunStart (leBytes 32 hash ++ leBytes 16 (t1.ctx c).seed.toNat ++ leBytes 8 x.admitM ++
        leBytes 8 (match t1.query rn e.2 with
          | some q => q.snap
          | none => t1.epochNow x e.2) ++
        leBytes 4 (t1.ctlBase x &&& 0x500)) false
      match t2.run rn with
      | some y => if t2.rd (R.DJ_SEQ x.client) = seq then t2 else t2.setRun rn { y with jseq := kvPut y.jseq e.2 seq }
      | none => t2) s1

/-- An LC run that is not covered is counted and reported, with event 0x2004 once per client and measure (R226). -/
def State.uncovered (s : State) (x : Run) : State :=
  let c := x.client
  let s1 := ((s.countSat (R.SCH_C_UNCOV c) 1).wr (R.SCH_C_LAST c) x.bound).wr (R.SCH_C_LAST_CTX c) (x.ctx0 + 2 ^ 31)
  let s2 := (s1.count (R.ACC_LC_UNCOV c) 1).setIrq pageSch 5 2
  if s2.sched.uncovSaid.contains c then s2
  else ({ s2 with sched := { s2.sched with uncovSaid := c :: s2.sched.uncovSaid } }).raise pageSch 0x2004 (some c) 0 x.ctx0

/-- The first admission of a run: coverage is tested again (R225), an LC run's contexts are pinned (R233), a search takes its snapshot
(R325), and journalling starts (R265). -/
def State.firstAdmission (s : State) (rn : Nat) (x : Run) : State :=
  let placed := s.coveredRuns x.client fun n y => n ≠ rn && y.admitted
  let again := if x.lc && x.covered then
      (match s.runCore x with
        | some f => s.coverage x.client f placed
        | none => 0)
    else x.bound
  let y : Run := { x with admitted := true, covered := x.covered && again = 0, bound := again }
  let s1 := s.setRun rn y
  let s2 := if y.lc && !y.covered then s1.uncovered y else s1
  let s3 := if y.lc then y.cmds.foldl (fun t m => t.setCtx m.ctx { t.ctx m.ctx with pinned := true }) s2 else s2
  let s4 := match s3.run rn with
    | some z => s3.takeSnapshots rn z
    | none => s3
  match s4.run rn with
  | some z => (s4.jStart rn z)
  | none => s4

/-- A replayed search reads at the journalled epoch: every list must still have a version of it (R266, R268). -/
def State.replaySnapshots (s : State) (rn : Nat) (x : Run) : Option State :=
  if x.replayOf.isNone || !s.probeFigure x.handle then some s
  else
    (List.range x.cmds.length).foldl (fun (a : Option State) i =>
      match a with
      | none => none
      | some t =>
        match t.query rn i with
        | none => some t
        | some q =>
          match t.index q.index with
          | none => none
          | some ix =>
            let snap := kvGet 0 x.epochs i
            if snap ≤ ix.epoch && ix.entries.all (fun l => l.2.versions.any fun v => v.epoch ≤ snap) then
              some (t.setQuery rn i { q with snap })
            else none) (some s)

/-! Admission (R209, R215, R216). -/

/-- Is a row ready for a step of a client: ON, with its Leaf clear or the client's own (R121, R122)? -/
def State.rowReady (s : State) (r c : Nat) : Bool :=
  s.pwr r = 0 && !(s.rowUnit r).clearDue &&
    (s.rd (R.ROW_LEAF_CLIENT r) % 256 = 0xFF || s.rd (R.ROW_LEAF_CLIENT r) % 256 = c)

/-- Rows that are not ready wake, or clear their Leaf when no step is on them. -/
def State.kick (s : State) (rows : List Nat) (c : Nat) : State :=
  rows.foldl (fun t r =>
    if t.rowReady r c || t.rowBusy r then t
    else if t.pwr r = 0 && !(t.rowUnit r).clearDue then t.clearLeaf r
    else t.wake r) s

/-- A row takes a step: ROW_STAT, ROW_CTX and ROW_LEAF_CLIENT, and the step's custom grids in the row grid file (R122, R127, R132). -/
def State.rowTakes (s : State) (x : Run) (grids : List GridRef) (r : Nat) : State :=
  let s1 := (((s.setIdle (pageRow r) false).setBit (R.ROW_STAT r) 3 true).wr (R.ROW_CTX r) (x.ctx0 + 2 ^ 31)).wr
    (R.ROW_LEAF_CLIENT r) x.client
  let file := grids.filterMap fun g => match g with
    | .standard => none
    | .custom n _ => some (g, s1.levelsAt (R.QNT_GRID n))
  s1.setRow r { s1.rowUnit r with grids := file, satSaid := false, nonfinSaid := false, mismatches := [], fed := none, drained := none }

/-- The step of a run is admitted on its rows now: it stages, to strike after G_i cycles (R209). -/
def State.admitNow (s : State) (rn : Nat) (x : Run) : State :=
  let d := s.stepDef x
  let first := !x.admitted
  let s0 := if first then s.firstAdmission rn x else s
  match s0.run rn with
  | none => s0
  | some y0 =>
    match (if first then s0.replaySnapshots rn y0 else some s0) with
    | none => match y0.replayOf with
      | some n => (s0.drLeave rn).drStop n drUnavailable 0
      | none => s0
    | some s1 =>
      let t := s1.etime
      let y : Run := { y0 with
        phase := .staging, heldFrom := none, lentHeld := false, gen := s1.rd R.SEC_RIGHTS_GEN, admitAt := t
        strikeAt := t + d.g * tickCycle, expireAt := t + (d.g + d.c + s1.rd R.SCH_WD_SLACK) * tickCycle
        used := (y0.used ++ y0.rows).eraseDups, waitRow := none, expiries := 0, stepReplayed := false, replayDue := false, pc := 0, shadow := [], results := [], orders := []
        mons := (List.range 64).map fun m => s1.force (R.MON_CTL m) % 2 ^ 12, redOwner := s1.force (R.PG_OWNER pageRed) % 256
        pmax := max y0.pmax (s1.rd R.MSR_PERIOD), decl := y0.decl + d.g + d.c }
      let s2 := (y.rows.foldl (fun u r => u.rowTakes y d.allGrids r) (s1.setRun rn y)).colForget rn
      ((s2.setDeadlines rn y first).queueStage rn y d).showWork

/-- Is another run's step at work on one of these rows? -/
def State.rowsBusy (s : State) (rn : Nat) (rows : List Nat) : Bool :=
  s.sched.runs.any fun e => e.1 ≠ rn && e.2.phase.working && rows.any fun r => e.2.rows.contains r

/-- A run whose held admission ends records how long it was held (R216, R253). -/
def State.heldOver (s : State) (x : Run) : Run :=
  match x.heldFrom with
  | some t0 => { x with heldFrom := none, flags := x.flags ||| 2 ^ 21, lateCyc := x.lateCyc + cyclesFrom t0 s.etime }
  | none => x

/-- A run gives its rows up; lent ones among them it has given back (R214). -/
def State.rowsBack (s : State) (x : Run) : Run :=
  { s.heldOver x with
    rows := [], cols := [], gaveBack := (x.gaveBack ++ x.rows.filter fun r => (s.reservedFor r).isSome).eraseDups }

/-- A run takes rows for its step: BE runs between steps give way to an LC run (R214), and the admission is held while a row wakes,
clears or ends a lent step (R121, R216). -/
def State.place (s : State) (rn : Nat) (x : Run) (rows cols : List Nat) : State :=
  let runs := s.sched.runs.map fun e =>
    (e.1, if e.1 ≠ rn && !e.2.phase.working && rows.any (fun r => e.2.holds r) then s.rowsBack e.2 else e.2)
  let y : Run := { x with rows := rows, cols := cols, admitM := if x.admitted then x.admitM else s.rd R.MSR_NOW }
  let s1 := ({ s with sched := { s.sched with runs := runs } }).setRun rn y
  if rows.all (fun r => s1.rowReady r x.client) && !s1.rowsBusy rn rows then s1.admitNow rn y
  else (s1.setRun rn { y with heldFrom := some s1.etime, lentHeld := s1.rowsBusy rn rows }).kick rows x.client

/-- Do the scheduler, the rows or a unit that the run's step needs take no new work now: TIER for what the step stages, VSX for a query
of its wave, QNT for an operation that holds it (R38, R148)? -/
def State.schQuiet (s : State) (x : Run) (rows : List Nat) : Bool :=
  let d := s.stepDef x
  s.quiescing pageSch || rows.any (fun r => s.quiescing (pageRow r)) || (!d.stage.isEmpty && !s.tierGoes) ||
    (wavesQuery d.wave && s.quiescing pageVsx) || ((d.ops.any fun o => holdsQnt o.op) && s.quiescing pageQnt)

/-- Does a throttle level hold the admission of a run's step (R542, R543)? -/
def State.heldBack (s : State) (x : Run) : Bool := !x.lc && s.throttled

/-- A run's first step at a measure strike (R216). -/
def State.admitFirst (s : State) (rn : Nat) (x : Run) (rows : List Nat) : State :=
  let needs := match s.runCore x with
    | some f => f.streamed && x.window.isNone
    | none => false
  if needs then s.equip rn
  else if s.msr.struckAt ≠ some s.etime || s.schQuiet x rows || s.heldBack x || !s.firstReady x || !s.turn rn x rows then s
  else
    match s.rowSet rn x rows with
    | some cols => s.place rn x rows cols
    | none => s

/-- TIER_MISS_LAYER says that the reserve was taken, when it shows the miss of a layer of this run (R204). -/
def State.missShown (s : State) (x : Run) : State :=
  match kvFind x.layers (s.rd R.TIER_MISS_LAYER % 65536) with
  | some l =>
    if s.rd R.TIER_MISS_CTX = x.ctx0 + 2 ^ 31 && l.missed && s.rd R.TIER_MISS_M = l.deadline
    then s.setBit R.TIER_MISS_LAYER 16 true
    else s
  | none => s

/-- The switch to the reserve figure, in place of the main figure's step `next` (R186, R256): its transfers and its window
go, event 0x3001, and the journal says so. -/
def State.toReserve (s : State) (rn : Nat) (x : Run) (next layer deadline : Nat) : State :=
  match kvFind s.sched.figures x.handle with
  | none => s
  | some l =>
    match l.fig.reserve with
    | none => s
    | some (_, entry) =>
      let s1 := ((s.dropTransfers fun t => t.kind = trStream && t.run = rn).windowBack x).missShown x
      let y : Run := { x with
        step := entry.getD next 0, inReserve := true, fallback := some (layer, deadline), window := none, layers := []
        missPending := none }
      let s2 := (s1.setRun rn y).count R.DET_FALLBACK 1
      let s3 := s2.raise pageTier 0x3001 (some x.client) 0 x.ctx0
      x.cmds.foldl (fun t m => t.jRun rn m.ctx jFallback (leBytes 2 layer ++ List.replicate 6 0 ++ leBytes 8 deadline) false) s3

/-- Has the run missed a layer, with a reserve to go to (R186)? -/
def State.reserveDue (s : State) (x : Run) : Option (Nat × Nat) :=
  match kvFind s.sched.figures x.handle with
  | some l => if l.fig.reserve.isSome && !x.inReserve && x.replayOf.isNone then x.missPending else none
  | none => none

/-- The rights test of a chained step (R230): its client may still use the rows it holds, with the Collators of their groups (R212), or any
rows at all. -/
def State.mayGoOn (s : State) (x : Run) : Bool :=
  if x.rows.isEmpty then s.everFits x else (x.rows.all fun r => s.rowAllowed x r) && x.cols.all fun g => s.inService (pageCol g)

/-- Must a chained step take rows afresh: it gave its own back, or its figure needs another number (R186, R214)? -/
def State.needsRows (s : State) (x : Run) : Bool :=
  x.rows.isEmpty || (match s.runCore x with
    | some f => f.rows ≠ x.rows.length
    | none => false)

/-- A chained step: one that waits for a layer goes to the reserve when the layer misses (R186); any other is admitted on the core cycle
after the boundary, the wave or the layer (R216): on the run's rows, in Galliard mode in any
order. -/
def State.admitNext (s : State) (rn : Nat) (x : Run) (rows : List Nat) : State :=
  if !x.bucketWait.isEmpty then s
  else if !s.layersLanded x then
    (match s.reserveDue x with
      | some (j, d) => s.toReserve rn { x with phase := .boundary } x.step j d
      | none => s)
  else if !s.mayGoOn x then s.stopRun rn
  else if s.schQuiet x rows || s.heldBack x then s
  else
    let own := rows = x.rows || (rows.length = x.rows.length && (match s.runCore x with
      | some f => f.galliard && rows.all fun r => x.rows.contains r
      | none => false))
    if !s.needsRows x && !own then s
    else
      match s.rowSet rn x rows with
      | some cols => (s.cycles 1).place rn { x with phase := .boundary } rows cols
      | none => s

/-- STEP_ADMIT (R216). -/
def execStepAdmit (run : Nat) (rows : List RowNo) (s : State) : Host.Outcome State Fault Refusal :=
  settled <|
    match s.run run with
    | none => s
    | some x =>
      let ps := rows.map Fin.val
      if x.heldFrom.isSome then s
      else
        match x.phase with
        | .formed => s.admitFirst run x ps
        | .boundary | .waitLayer => s.admitNext run x ps
        | _ => s

/-- HELD_ADMISSION (R121, R216): its rows have become ready, and the held step is admitted, on the next core cycle when a lent step
has ended; the colophon counts the wait. -/
def execHeldAdmission (run : Nat) (rows : List RowNo) (s : State) : Host.Outcome State Fault Refusal :=
  settled <|
    match s.run run with
    | none => s
    | some x =>
      match x.heldFrom with
      | none => s
      | some _ =>
        if rows.map Fin.val ≠ x.rows || s.schQuiet x x.rows || s.heldBack x || s.rowsBusy run x.rows then s
        else if !(x.rows.all fun r => s.rowAllowed x r) then
          (if x.admitted then s.stopRun run else s.setRun run (s.rowsBack x))
        else if !(x.rows.all fun r => s.rowReady r x.client) then s.kick x.rows x.client
        else
          let s1 := if x.lentHeld then s.cycles 1 else s
          let y := s1.heldOver x
          (s1.setRun run y).admitNow run y

end Sys2Proof.Machine
end

