-- ==== Sys2Proof/Machine/Staging.lean ====
section
/-! DEFINITION. A step from its stage to the end of its compute: random draws (R258, R259), what the Binder stages (R175), the
operations in the order of the figure, order records (R249), and the strike (R209, R218). The Collator's operations end in the
issuing step going on (R164). -/

namespace Sys2Proof

open Machine

/-- Does an operation add to the order record, and so number a site (R249): a merge, and a receive that names several links (R376)? -/
def RowOp.site : RowOp → Bool
  | .merge _ _ _ _ => true
  | .receive ls => 1 < ls.length
  | _ => false

/-- The order sites of a step before its operation number `pc`. -/
def StepDef.sites (d : StepDef) (pc : Nat) : Nat := ((d.ops.take pc).filter fun o => o.op.site).length

/-- An operation has its turn only once the descriptors before it are done, unless it issues another (R164). -/
def RowOp.issues : RowOp → Bool
  | .collate _ _ _ => true
  | _ => false

/-- Does a run of `n` contexts skip an operation: it holds none of those whose data it works on (R250)? -/
def StepOp.skipped (o : StepOp) (n : Nat) : Bool := !o.of.isEmpty && o.of.all fun i => decide (n ≤ i)

/-- The issue cycle of operation `pc` of a step among those of the step: the first operation of the row of descriptors issued in one cycle
that it ends (R164). -/
def issueCycle (ops : List StepOp) (pc : Nat) : Nat :=
  pc - ((ops.take (pc + 1)).reverse.takeWhile fun o => match o.op with
    | .collate _ _ beside => beside
    | _ => false).length

end Sys2Proof

namespace Sys2Proof.Machine

/-! Random draws (R258, R259). -/

/-- One round of the generator on the words c0 to c3 under the keys k0 and k1. -/
def drawRound (k0 k1 : Nat) (c : Nat × Nat × Nat × Nat) : Nat × Nat × Nat × Nat :=
  let p0 := c.1 * 0xD2511F53
  let p1 := c.2.2.1 * 0xCD9E8D57
  ((p1 / 2 ^ 32) ^^^ c.2.1 ^^^ k0, p1 % 2 ^ 32, (p0 / 2 ^ 32) ^^^ c.2.2.2 ^^^ k1, p0 % 2 ^ 32)

/-- `n` rounds, the keys stepped after each. -/
def drawRounds : Nat → Nat → Nat → Nat × Nat × Nat × Nat → Nat × Nat × Nat × Nat
  | 0, _, _, c => c
  | n + 1, k0, k1, c => drawRounds n ((k0 + 0x9E3779B9) % 2 ^ 32) ((k1 + 0xBB67AE85) % 2 ^ 32) (drawRound k0 k1 c)

/-- One draw: the words c0 to c3 (R258). -/
def draw (seed stepCtr l r site j : Nat) : List Nat :=
  let c := drawRounds 10 (bits seed 31 0) (bits seed 63 32)
    (bits stepCtr 31 0, bits stepCtr 63 32, ((l + r * 2 ^ 8 + site * 2 ^ 15) % 2 ^ 32) ^^^ bits seed 95 64,
      (j % 2 ^ 32) ^^^ bits seed 127 96)
  [c.1, c.2.1, c.2.2.1, c.2.2.2]

/-- The 16 bytes of a draw in a format (R259). -/
def drawBytes (format : Nat) (cs : List Nat) : List Byte :=
  match format with
  | 0 => cs.flatMap (leBytes 4)
  | 1 => cs.flatMap fun c => leBytes 4 (Num.fin false (c / 256) (-24)).to32.toNat
  | _ => cs.flatMap fun c =>
      let half (h : Nat) : List Byte := leBytes 2 ((Num.fin false (h / 256) (-8)).to32.toNat / 65536)
      half (c % 65536) ++ half (c / 65536)

/-- Word w of a request site: 8 draws, slot q being draw (8 w + q) / 256 for lane (8 w + q) mod 256. -/
def drawWord (seed stepCtr r site format w : Nat) : LeafWord :=
  wordOf ((List.range 8).flatMap fun q => drawBytes format (draw seed stepCtr ((8 * w + q) % 256) r site ((8 * w + q) / 256))) false

/-! Staging (R175). -/

/-- The image of a run's figure that holds its layers now: the region, and the core. -/
def State.imageOf (s : State) (x : Run) : Option (Nat × FigureCore) :=
  match kvFind s.sched.figures x.handle, s.runCore x with
  | some l, some f =>
    if x.inReserve then l.reserveImage.map fun h => (h, f)
    else if f.streamed then x.window.map fun w => (w, f)
    else some (l.image, f)
  | _, _ => none

/-- Words put into consecutive Leaf words of a row, poison among them passing through the Binder (R448); words outside the Leaf are a
step fault (R99, R125). -/
def State.stageWords (s : State) (x : Run) (r word : Nat) (ws : List LeafWord) : Went :=
  if !inLeaf word ws.length then s.rowFault x r causeAddress
  else
    let s1 := if ws.any LeafWord.poison then s.poisonSeen pageTier else s
    (ws.zipIdx.foldl (fun t e => t.leafPut r (word + e.2) e.1) s1, false)

/-- `count` words of a region from byte `off` on, each with its poison. -/
def State.regionWords (s : State) (h off count : Nat) : List LeafWord :=
  (List.range count).map fun i => wordOf (s.memRead h (off + 128 * i) 128) (s.memReadPoison h (off + 128 * i) 128)

/-- Poisoned context state has been read: POISON in the entry, and event 0x2008 once for the context (R234). -/
def State.ctxPoisoned (s : State) (x : Run) (ctx : Nat) : State :=
  let e := s.ctx ctx
  if e.poison then s
  else ((s.setCtx ctx { e with poison := true }).setIrq pageCtx 5 2).raise pageCtx 0x2008 (some x.client) 0 ctx

/-- The journal record of one context's host data, or in a replay the data of the next HOST_IN record (R260, R266); none when a
replay lacks it. -/
def State.hostData (s : State) (rn : Nat) (x : Run) (m : RunCmd) (off n : Nat) : Option (List Byte) × State :=
  match x.replayOf with
  | some j => s.drTake j jHostIn 4
  | none =>
    let d := (m.input.drop off).take n
    (some d, s.jRun rn m.ctx jHostIn (leBytes 2 x.step ++ [0, 0] ++ d) false)

/-- How a part of a step ends. -/
inductive OpEnd where
  /-- The next part follows. -/
  | go (s : State)
  /-- The step waits for a descriptor, a queue, a message or a release: with the row that starves meanwhile, if one does. -/
  | wait (s : State) (row : Option Nat)
  /-- A step fault tears the run down with an event. -/
  | fault (s : State) (event : Nat)
  /-- The run is over, or its replay has stopped. -/
  | gone (s : State)

/-- A row's operation: the next part, or a step fault (R125). -/
def Went.done (w : Went) : OpEnd := if w.2 then .fault w.1 0x2103 else .go w.1

/-- Words that the Binder reads from a buffer of the module reserve in T1, as they are delivered: `ecc` are those that do not arrive
as stored (R437, R438). -/
def State.eccWords (s : State) (ws : List LeafWord) (ecc : List EccFault) : List LeafWord × State :=
  ecc.foldl (fun (a : List LeafWord × State) f =>
    let i := f.nth / 16
    let off := f.nth % 16 * 8
    let w := a.1.getD i zeroWord
    if f.fault.dead then (a.1.set i { w with poison := true }, a.2.deviceDead f.dev f.word)
    else
      let data := ofLe ((w.bytes.drop off).take 8)
      let (data0, t) := if f.fault.wrong.isSome then a.2.free else (data, a.2)
      let c := f.fault.flips.foldl (fun w i => flipBit w i.val) (bchEncode data0 w.poison (f.fault.wrong.getD f.word))
      let syn := bchSyndrome c f.word
      let k := bchClassify syn
      let t1 := t.eccEvent f.dev f.word f.fault.bank k syn
      let c' := match k with
        | .single _ | .double _ _ => bchCorrect c k
        | _ => c
      let bad := match k with
        | .uncorrectable | .address => true
        | _ => codePoison c'
      (a.1.set i { w.patch off (leBytes 8 (codeData c')) false with poison := bad || w.poison }, t1)) (ws, s)

/-- The 64-bit words of T1 that a staged operand reads. -/
def stageReads : StageOp → Nat
  | .state _ _ _ _ count | .layer _ _ _ _ count | .input _ _ _ _ count | .wave _ _ _ count => 16 * count
  | .draws _ _ _ _ _ _ _ => 0

/-- One staged operand (R175, R259), with the words of it that T1 does not deliver as stored (R437). -/
def State.stageOp (s0 : State) (rn : Nat) (x : Run) (ecc : List EccFault) : StageOp → OpEnd
  | .state xi off r word count =>
    match x.cmds[xi]?, x.rows[r]? with
    | some m, some p =>
      let s := s0.eccRead (s0.ctx m.ctx).region off ecc
      let ws := s.regionWords (s.ctx m.ctx).region off count
      let s1 := s.runT1 rn x.client (128 * count) 0
      ((if ws.any LeafWord.poison then s1.ctxPoisoned x m.ctx else s1).stageWords x p word ws).done
    | _, _ => .go s0
  | .layer j off r word count =>
    match s0.imageOf x, x.rows[r]? with
    | some (h, f), some p =>
      let s := s0.eccRead h (layerOffset f j + off) ecc
      ((s.runT1 rn x.client (128 * count) 0).stageWords x p word (s.regionWords h (layerOffset f j + off) count)).done
    | _, _ => .go s0
  | .input xi off r word count =>
    match x.cmds[xi]?, x.rows[r]? with
    | some m, some p =>
      match s0.hostData rn x m off (128 * count) with
      | (none, s1) => match x.replayOf with
        | some j => .gone ((s1.drLeave rn).drMissing j)
        | none => .go s1
      | (some d, s1) =>
        let (ws, s2) := s1.eccWords ((List.range count).map fun i => wordOf ((d.drop (128 * i)).take 128) false) ecc
        ((s2.runT1 rn x.client (128 * count) 0).stageWords x p word ws).done
    | _, _ => .go s0
  | .draws site xi lr r word count format =>
    match x.cmds[xi]?, x.rows[r]? with
    | some m, some p =>
      let e := s0.ctx m.ctx
      let ws := (List.range count).map fun w => drawWord e.seed.toNat e.stepCtr lr site format.val w
      ((s0.count R.DET_DRAWS (8 * count)).stageWords x p word ws).done
    | _, _ => .go s0
  | .wave off r word count =>
    match x.rows[r]? with
    | some p =>
      let (ws, s) := s0.eccWords ((List.range count).map fun i => x.waveData.getD (off + i) zeroWord) ecc
      ((s.runT1 rn x.client (128 * count) 0).stageWords x p word ws).done
    | none => .go s0

/-- The stage of a step, operand by operand; a word fault names its word by its place among all those the stage reads. -/
def State.stageAll (s : State) (rn : Nat) (ecc : List EccFault) : List StageOp → OpEnd
  | [] => .go s
  | o :: os =>
    match s.run rn with
    | none => .gone s
    | some x =>
      let n := stageReads o
      match s.stageOp rn x (ecc.filter fun f => f.nth < n) o with
      | .go s1 => s1.stageAll rn ((ecc.filter fun f => n ≤ f.nth).map fun f => { f with nth := f.nth - n }) os
      | e => e

/-! The Collator group of a logical row (R16, R167, R212). -/

/-- The logical group of a logical row, with its first row: groups take the first logical rows, one after another. -/
def groupOf : List Nat → Nat → Nat → Nat → Option (Nat × Nat)
  | [], _, _, _ => none
  | g :: gs, i, first, r => if r < first + g then some (i, first) else groupOf gs (i + 1) (first + g) r

/-- The Collator that a logical row issues to, the physical rows of its group by position, and its own position. -/
def State.colOf (s : State) (x : Run) (r : Nat) : Option (Nat × List Nat × Nat) :=
  match s.runCore x, x.rows[r]? with
  | some f, some p =>
    match groupOf f.groups 0 0 r with
    | some (i, first) => some (x.cols.getD i (rowGroup p), (x.rows.drop first).take (f.groups.getD i 0), r - first)
    | none => some (rowGroup p, [p], 0)
  | _, _ => none

/-- Has the run a descriptor in a Collator's queue? -/
def State.colWaits (s : State) (rn : Nat) : Bool := s.cols.any fun e => e.2.holds rn

/-! Inputs over links (R363, R376). -/

/-- A LINK_IN record's payload: step, link, stamp and data (R262). -/
def linkIn (x : Run) (link at_ : Nat) (data : List Byte) : List Byte :=
  leBytes 2 x.step ++ leBytes 1 link ++ [0] ++ dtBytes at_ ++ data

/-- A link arrival is journalled for every context of the run (R260, R262). -/
def State.jLink (s : State) (rn : Nat) (x : Run) (link at_ : Nat) (data : List Byte) (poison : Bool) : State :=
  x.cmds.foldl (fun t m => t.jRun rn m.ctx jLinkIn (linkIn x link at_ data) poison) s

/-- An order site of the running step takes its order (R249). -/
def Run.setOrder (x : Run) (i : Nat) (o : List Nat) : Run :=
  { x with orders := (x.orders ++ List.replicate (i + 1 - x.orders.length) []).set i o }

/-- A message is consumed: the first to have arrived on the first link in Pavane mode, on any of those named in Galliard mode, where
the choice is recorded (R376). -/
def State.receiveOp (s : State) (rn : Nat) (x : Run) (galliard : Bool) (site : Nat) (links : List LinkNo) : OpEnd :=
  let names := links.map Fin.val
  match x.replayOf with
  | some j =>
    match s.drTake j jLinkIn 2 with
    | (none, s1) => .gone ((s1.drLeave rn).drMissing j)
    | (some p, s1) =>
      let link := fieldOf p 0 1
      let data := p.drop 14
      match x.posted.find? fun b => b.1 = link with
      | none => .go s1
      | some b =>
        let s2 := (s1.memWrite b.2.1 b.2.2.1 (data.take b.2.2.2) false).runT1 rn x.client 0 data.length
        match s2.run rn with
        | some y => .go (s2.setRun rn { y with posted := y.posted.erase b })
        | none => .gone s2
  | none =>
    let named := if galliard then names else names.take 1
    match x.arrived.find? fun a => named.contains a.link with
    | none => .wait s none
    | some a =>
      let x1 : Run := { x with arrived := x.arrived.erase a }
      let x2 := if galliard && 1 < names.length then x1.setOrder site [(names.findIdx? fun l => l = a.link).getD 0] else x1
      .go ((s.setRun rn x2).jLink rn x2 a.link a.at_ a.bytes a.poison)

/-- A bucket is released (R360, R361, R363). In a replay nothing is sent: the landing's record and values come from the journal, where a
landing that no step waited for may be missing, its run having ended first. -/
def State.releaseOp (s : State) (rn : Nat) (x : Run) (r g mib region off : Nat) (wait : Bool) : OpEnd :=
  match x.replayOf with
  | some j =>
    match s.drLanding j with
    | (none, s1) => if wait then .gone ((s1.drLeave rn).drMissing j) else .go s1
    | (some data, s1) =>
      .go ((s1.memWrite region off (data.drop 32) false).memWrite region (off + (data.length - 32)) (data.take 32) false)
  | none =>
    let seq := s.rd R.RED_SEQ
    match s.releaseBucket rn x g mib region off with
    | .refused => .fault (s.raise pageRed 0x700D (some x.client) (seq % 2 ^ 48) x.ctx0) 0x700D
    | .stalled => .wait s x.rows[r]?
    | .mismatch s1 => .gone (s1.redStop 0x7009 1 s1.rank seq false)
    | .taken s1 =>
      match s1.run rn with
      | some y => .go (if wait then s1.setRun rn { y with bucketWait := y.bucketWait ++ [seq] } else s1)
      | none => .gone s1

/-- Words of a Leaf. -/
def State.leafRun (s : State) (r word count : Nat) : List LeafWord := (List.range count).map fun i => s.leafWord r (word + i)

/-- A descriptor goes to its Collator with the context and the class of its step, that of a search with what its command says: a full queue
stalls the row (R164, R167, R326). -/
def State.collateOp (s : State) (rn : Nat) (x : Run) (r : Nat) (d : Desc) : OpEnd :=
  match s.colOf x r with
  | none => .go s
  | some (n, rows, pos) =>
    if s.colRoom n x.lc then
      .go (s.colEnqueue n ⟨{ s.issued rn d with lc := x.lc }, rn, pos, rows, x.opCtx, x.forCtx, s.etime,
        issueCycle (s.stepDef x).ops x.pc, x.client, false⟩)
    else .wait s x.rows[r]?

/-- One operation of a step on its rows (R95 to R120, R164, R210, R247, R252, R260, R360, R376, R386). -/
def State.rowOp (s : State) (rn : Nat) (x : Run) (galliard : Bool) (site : Nat) (op : RowOp) : OpEnd :=
  let at_ (r : Nat) (f : Nat → OpEnd) : OpEnd := match x.rows[r]? with
    | some p => f p
    | none => .go s
  match op with
  | .laneScales r word => at_ r fun p => (s.loadLaneScales x p word).done
  | .block r fmt grid word => at_ r fun p => (s.loadBlock x p fmt grid word).done
  | .feed r fmt word tokens first => at_ r fun p => (s.feedTile rn x p fmt word tokens first).done
  | .tokenScales r word tokens => at_ r fun p => (s.loadTokenScales x p word tokens).done
  | .drain r tokens chain dst => at_ r fun p => (s.drainPass rn x p tokens chain dst).done
  | .trim r n chain dst => at_ r fun p => (s.trimPass rn x p n chain dst).done
  | .merge parts n fmt g =>
    let phys := parts.map fun e => (x.rows.getD e.1 0, e.2)
    let order := if galliard then x.orders.getD site [] else []
    (s.mergeParts x phys n fmt g (if isOrder parts.length order then order else List.range parts.length)).done
  | .collate r d _ => s.collateOp rn x r (descOf d)
  | .commit r word count xi off => at_ r fun p =>
      if !inLeaf word count then (s.rowFault x p causeAddress).done
      else
        let new := (s.leafRun p word count).zipIdx.map fun e => (⟨xi, off + 128 * e.2, e.1.bytes, e.1.poison⟩ : Shadow)
        .go ((s.setRun rn { x with shadow := x.shadow ++ new }).runT1 rn x.client 0 (128 * count))
  | .result r word bytes xi search => at_ r fun p =>
      let n := (bytes + 127) / 128
      if !inLeaf word n then (s.rowFault x p causeAddress).done
      else
        let ws := s.leafRun p word n
        let data := (ws.flatMap fun w => if w.poison then List.replicate 128 (0xFF : Byte) else w.bytes).take bytes
        .go ((s.setRun rn { x with results := x.results ++ [⟨xi, x.step, data, ws.any LeafWord.poison, search⟩] }).runT1 rn x.client 0 bytes)
  | .setpoint r word xi => at_ r fun p =>
      if !inLeaf word 1 then (s.rowFault x p causeAddress).done
      else
        let w := s.leafWord p word
        let n (i k : Nat) : Nat := fieldOf w.bytes i k
        .go (s.submitRecord ⟨n 64 2, n 72 8, dtOf (n 86 6) (n 82 4) (n 80 2), (List.range 16).map fun i => signedOf 32 (w.field 32 i),
          w.poison, x.lc, x.client, s.colophon rn x xi w.poison, false, 0, none, [], false, false⟩)
  | .readTime r word => at_ r fun p =>
      if !inLeaf word 1 then (s.rowFault x p causeAddress).done
      else
        match x.replayOf with
        | some j =>
          match s.drTake j jTime 4 with
          | (none, s1) => .gone ((s1.drLeave rn).drMissing j)
          | (some d, s1) => .go (s1.leafPut p word ((s1.leafWord p word).patch 0 (d.take 12) false))
        | none =>
          let d := dtBytes s.dtime
          let sharing := if x.forCtx.isEmpty then x.cmds else x.forCtx.eraseDups.filterMap fun i => x.cmds[i]?
          .go (sharing.foldl (fun t m => t.jRun rn m.ctx jTime (leBytes 2 x.step ++ [0, 0] ++ d) false)
            (s.leafPut p word ((s.leafWord p word).patch 0 d false)))
  | .release r g mib region off wait => s.releaseOp rn x r g mib region off wait
  | .peer xi off bytes link timed =>
    if x.replayOf.isSome then .go s
    else if x.lc || !s.peerFits link bytes then .fault (s.raise pageRed 0x700D (some x.client) link x.ctx0) 0x700D
    else
      match x.cmds[xi]? with
      | some m =>
        let h := (s.ctx m.ctx).region
        let bad := s.memReadPoison h off bytes
        let s1 := if bad then s.ctxPoisoned x m.ctx else s
        .go ((s1.runT1 rn x.client bytes 0).postMessage rn x.client link timed bad (s.memRead h off bytes))
      | none => .go s
  | .post link xi off len =>
    match x.cmds[xi]? with
    | some m =>
      let h := (s.ctx m.ctx).region
      if x.replayOf.isSome then .go (s.setRun rn { x with posted := x.posted ++ [(link.val, h, off, len)] })
      else
        match s.postBuffer rn h off len link with
        | some s1 => .go s1
        | none => .wait s none
    | none => .go s
  | .receive links => s.receiveOp rn x galliard site links

/-- The logical row that an operation feeds. -/
def feeds : RowOp → Option Nat
  | .feed r _ _ _ _ => some r
  | _ => none

/-- A run's operations from `pc` on, until one waits, faults or ends the run; those of a context that the run does not hold are
skipped. -/
def State.runOps (s : State) (rn : Nat) (galliard : Bool) (d : StepDef) (pc : Nat) : List StepOp → State
  | [] => s
  | o :: ops =>
    match s.run rn with
    | none => s
    | some x0 =>
      if !o.op.issues && s.colWaits rn then s
      else
        let x : Run := { x0 with forCtx := o.of }
        match if o.skipped x.cmds.length then OpEnd.go s else (s.setRun rn x).rowOp rn x galliard (d.sites pc) o.op with
        | .go s1 =>
          match s1.run rn with
          | some y =>
            let s2 := (s1.waitOver y).setRun rn { y with pc := pc + 1, endAt := max y.endAt s1.etime, waitRow := none }
            (match feeds o.op with
              | some r => s2.fetchAhead y r ops
              | none => s2).runOps rn galliard d (pc + 1) ops
          | none => s1
        | .wait s1 row =>
          match s1.run rn, row with
          | some y, some r => if y.waitRow.isSome then s1 else s1.setRun rn { y with waitRow := some (r, s1.etime) }
          | _, _ => s1
        | .fault s1 event => s1.teardown rn event
        | .gone s1 => s1

/-- A computing run goes on with its operations, as far as they go. -/
def State.advance (s : State) (rn : Nat) : State :=
  match s.run rn with
  | none => s
  | some x =>
    if x.phase ≠ .computing || x.replayDue then s
    else
      let g := match s.runCore x with
        | some f => f.galliard
        | none => false
      let d := s.stepDef x
      s.runOps rn g d x.pc (d.ops.drop x.pc)

/-! Order records (R249). -/

/-- The orders of an ORDER record's payload from its first site on. -/
def parseOrders : Nat → List Byte → List (List Nat)
  | 0, _ => []
  | n + 1, bs =>
    let k := fieldOf bs 0 1
    ((bs.drop 1).take k).map BitVec.toNat :: parseOrders n (bs.drop (1 + k))

/-- The payload of an ORDER record (R262). -/
def orderBytes (step : Nat) (os : List (List Nat)) : List Byte :=
  leBytes 2 step ++ leBytes 2 os.length ++ os.flatMap fun o => leBytes 1 o.length ++ o.flatMap (leBytes 1)

/-- The ORDER record of a step in a replay, found ahead of the run's other records, and the records without it (R266). -/
def takeOrder (step : Nat) : List JRecord → Option (List (List Nat)) × List JRecord
  | [] => (none, [])
  | r :: rs =>
    if r.type = jGap || r.type = jRunStart then (none, r :: rs)
    else if r.type = jOrder && !r.poison && fieldOf r.payload 0 2 = step then
      (some (parseOrders (fieldOf r.payload 2 2) (r.payload.drop 4)), rs)
    else
      let (o, rest) := takeOrder step rs
      (o, r :: rest)

/-- The orders of a step's sites: the order of arrival given, of a merge where it is one of its partials, else ascending (R247, R249). -/
def siteOrders (x : Run) (d : StepDef) (orders : List (List Nat)) : List (List Nat) :=
  ((d.ops.filter fun o => o.op.site).zipIdx).map fun e =>
    if e.1.skipped x.cmds.length then []
    else match e.1.op with
      | .merge parts _ _ _ =>
        if isOrder parts.length (orders.getD e.2 []) then orders.getD e.2 [] else List.range parts.length
      | _ => []

/-- The order record of a Galliard step as it starts: of a replayed step the record made before, in a replay the journal's, else the
order in which the partials arrive (R249, R257, R266). -/
def State.setOrders (s : State) (rn : Nat) (x : Run) (d : StepDef) (orders : List (List Nat)) : State :=
  if x.stepReplayed then s
  else
    match x.replayOf with
    | some j =>
      match (s.journal j).replay with
      | some rs =>
        match takeOrder x.step rs with
        | (some o, rest) => (s.setJournal j { s.journal j with replay := some rest }).setRun rn { x with orders := o }
        | (none, _) => s.setRun rn { x with orders := [] }
      | none => s
    | none => s.setRun rn { x with orders := siteOrders x d orders }

/-! The strike of a step (R209, R218, R443). -/

/-- Would a mismatch on a dirty line send the step back to its admission (R257, R443)? -/
def Run.sentBack (x : Run) (f : LineFault) : Bool :=
  !x.stepReplayed && !(f.clean && f.row.isSome) &&
    (match f.row with
      | some r => x.rows.contains r.val
      | none => true)

/-- The draws that a stage asks for (R259). -/
def stageDraws (l : List StageOp) : Nat := l.foldl (fun a o => match o with
  | .draws _ _ _ _ _ count _ => a + 8 * count
  | _ => a) 0

/-- The step strikes: a dirty-line mismatch sends it back, its random words drawn for this attempt too, otherwise its operands have been staged and its compute begins. -/
def State.strike (s : State) (rn : Nat) (ecc : List EccFault) (faults : List LineFault) (ports : List PortCycle) (orders : List (List Nat)) : State :=
  match s.run rn with
  | none => s
  | some x0 =>
    let d := s.stepDef x0
    let g := match s.runCore x0 with
      | some f => f.galliard
      | none => false
    let x1 : Run := { x0 with
      phase := .computing, endAt := x0.strikeAt + d.c * tickCycle
      startAt := if x0.step = 0 && !x0.inReserve then s.dtime else x0.startAt }
    let s1 := s.setRun rn x1
    let s2 := if g then s1.setOrders rn x1 d orders else s1
    match faults.findIdx? x0.sentBack with
    | some i => (faults.take (i + 1)).foldl (fun t f => t.lineFault rn f) (s2.count R.DET_DRAWS (stageDraws d.stage))
    | none =>
      match s2.stageAll rn ecc d.stage with
      | .go s3 => (ports.foldl State.portCycle (faults.foldl (fun t f => t.lineFault rn f) s3)).advance rn
      | .wait s3 _ => s3
      | .fault s3 event => s3.teardown rn event
      | .gone s3 => s3

/-- Has the STAGE of a run's step had its turn, or its last chunk just now (R177)? -/
def State.stageTurn (s : State) (rn : Nat) : Bool :=
  !((s.tiers.lc ++ s.tiers.be ++ s.tiers.again).any fun t => t.kind = trStage && t.run = rn) ||
    (s.headTransfer fun t => t.kind = trStage && t.run = rn).isSome

/-- The STAGE of a run's step leaves its queue. -/
def State.stageTaken (s : State) (rn : Nat) : State :=
  if (s.tiers.lc ++ s.tiers.be).any fun t => t.kind = trStage && t.run = rn then s.dropTransfers fun t => t.kind = trStage && t.run = rn
  else s

/-- STEP_STRIKE (R209): admission + G_i, when the stage has had its turn at the Binder. -/
def execStepStrike (run : Nat) (ecc : List EccFault) (faults : List LineFault) (ports : List PortCycle) (orders : List (List Nat))
    (s : State) : Host.Outcome State Fault Refusal :=
  settled <|
    match s.run run with
    | some x =>
      if x.phase = .staging && s.stageTurn run then ((s.untilElapsed x.strikeAt).stageTaken run).strike run ecc faults ports orders
      else s
    | none => s

/-- STAGE_OVERRUN_STRIKE (R218): the stage ends `late` cycles after admission + G_i, and the step strikes then. -/
def execStageOverrunStrike (run late : Nat) (ecc : List EccFault) (faults : List LineFault) (ports : List PortCycle) (orders : List (List Nat)) (s : State) :
    Host.Outcome State Fault Refusal :=
  settled <|
    match s.run run with
    | some x =>
      if x.phase ≠ .staging || late = 0 || !s.stageTurn run then s
      else
        let at_ := x.strikeAt + late * tickCycle
        let s1 := (s.untilElapsed at_).setRun run { x with
          strikeAt := at_, flags := x.flags ||| 2 ^ 13, lateCyc := x.lateCyc + late, causes := x.causes ||| 1 }
        (s1.raise pageSch 0x2002 (some x.client) 0 x.ctx0).stageTaken run |>.strike run ecc faults ports orders
    | none => s

/-! The Collator's descriptors (R155 to R158, R164). -/

/-- Steps that wait for a place, each with the instant since when and its physical row, put in order (R164). -/
def waitBefore (a b : Nat × Nat × Nat) : Bool := a.1 < b.1 || (a.1 = b.1 && decide (a.2.1 ≤ b.2.1))
def waitOrder (l : List (Nat × Nat × Nat)) : List (Nat × Nat × Nat) :=
  l.foldr (fun e m => m.takeWhile (fun d => !waitBefore e d) ++ e :: m.dropWhile fun d => !waitBefore e d) []

/-- A place may have become free: the steps that wait go on, in the order in which they came to wait, those of one cycle in ascending
physical row (R164). -/
def State.resume (s : State) : State :=
  let all := s.sched.runs.filterMap fun e => e.2.waitRow.map fun w => (w.2, w.1, e.1)
  (waitOrder all).foldl (fun t e => t.advance e.2.2) s

/-- A Collator executes the descriptor it takes next, when it is one of an operation: a step fault tears the run down, else its step
goes on, behind those that wait for a place in a queue. -/
def State.colStep (s : State) (n redo op : Nat) : State :=
  let next := s.colNext n
  let s0 := match next with
    | some q => if !q.void && q.d.op = 4 && op = 4 && (s.colCause q).isNone then s.mergedQuery q.run q.d (s.colRun q) else s
    | none => s
  match s0.colExecute n redo (fun o => o = op || (op = 1 && (o = 0 || 4 < o))) with
  | (some (rn, true), s1) => (s1.teardown rn 0x2301).resume
  | (some (rn, false), s1) => s1.resume.advance rn
  | (none, s1) => s1.resume

/-- THRESH (R155). A descriptor of an undefined operation is refused here, by cause 6 (R161). -/
def execThresh (col : ColNo) (redo : Nat) (s : State) : Host.Outcome State Fault Refusal := settled (s.colStep col redo 1)

/-- TOPK (R156). -/
def execTopk (col : ColNo) (redo : Nat) (s : State) : Host.Outcome State Fault Refusal := settled (s.colStep col redo 2)

/-- SORT (R157). -/
def execSort (col : ColNo) (redo : Nat) (s : State) : Host.Outcome State Fault Refusal := settled (s.colStep col redo 3)

/-- MERGE (R158, R332). -/
def execMerge (col : ColNo) (redo : Nat) (s : State) : Host.Outcome State Fault Refusal := settled (s.colStep col redo 4)

end Sys2Proof.Machine
end

