-- ==== Sys2Proof/Machine/Boundary.lean ====
section
/-! DEFINITION. The step boundary (R210, R215): commits, results, the switch to a reserve (R186), flash waves (R222), posting (R226,
R252, R426), and the watchdog and the replay of a step (R228, R257). -/

namespace Sys2Proof.Machine

/-! The commit of a step (R210, R231, R234, R252, R262, R267). -/

/-- The bytes of a result as it is delivered: the list of a search ends in its summary (R331, R426). -/
def State.resultBytes (s : State) (rn : Nat) (r : ResultPart) : List Byte :=
  r.bytes ++ (match s.query rn r.x with
    | some q => if r.search then q.summary else []
    | none => [])

/-- A result of a committed step: its record for the host is its colophon and its bytes padded to 128, and it is journalled, or in a
replay compared with the journal, whose first difference is the answer; behind one nothing is compared (R252, R262, R267, R426). -/
def State.deliver (s : State) (rn : Nat) (x : Run) (m : RunCmd) (r : ResultPart) (agree : Bool) : Option Nat × State :=
  let data := s.resultBytes rn r
  let colo := s.colophon rn x r.x r.poison
  let rec_ : ResultPart := { r with bytes := colo ++ data ++ List.replicate ((128 - data.length % 128) % 128) 0 }
  let t := match s.run rn with
    | some y => s.setRun rn { y with records := y.records ++ [rec_] }
    | none => s
  match x.replayOf with
  | some n => if agree then t.drResult n colo (digest16 data) else (none, t)
  | none => (none, t.jRun rn m.ctx jResult (colo ++ digest16 data) false)

/-- The shadow of a context goes to its state region, within its length; poisoned words are written poisoned (R210, R234). -/
def State.commitShadow (s : State) (x : Run) (ctx xi : Nat) : State :=
  (x.shadow.filter fun w => w.x = xi).foldl (fun t w =>
    let e := t.ctx ctx
    let bs := w.bytes.take (e.stateLen - w.off)
    if bs.isEmpty then t
    else
      let t1 := t.memWrite e.region w.off bs w.poison
      if w.poison then (t1.poisonEvent pageCtx 0x2008).ctxPoisoned x ctx else t1) s

/-- The entry of a context takes the commit (R231 to R233). -/
def State.commitEntry (s : State) (ctx : Nat) (layout : BitVec 32) (colo : List Byte) : State :=
  let e := s.ctx ctx
  s.setCtx ctx { e with
    state := 2, layout := if e.layout = 0 then layout else e.layout, stepCtr := e.stepCtr + 1
    saveM := s.rd R.MSR_NOW, touchedAt := s.msr.count, colophon := some colo }

/-- A context's part of a commit; in a replay answers the code of the first difference (R267), none while all agrees. -/
def State.commitOne (s : State) (rn : Nat) (x : Run) (xi : Nat) (m : RunCmd) : Option Nat × State :=
  let ctx := m.ctx
  let mine := x.results.filter fun p => p.x = xi
  let colo := s.colophon rn x xi (mine.any ResultPart.poison)
  let layout := match kvFind s.sched.figures x.handle with
    | some l => l.fig.main.layout
    | none => 0
  let (diff, s1) := mine.foldl (fun (a : Option Nat × State) r =>
    let (d, t) := a.2.deliver rn x m r a.1.isNone
    (a.1.orElse fun _ => d, t)) (none, s)
  let s2 := (s1.commitShadow x ctx xi).commitEntry ctx layout colo
  match x.replayOf with
  | some n =>
    if diff.isSome then (diff, s2) else s2.drDigest n ctx
  | none =>
    (diff, if x.jctl.testBit 3 then s2.jRun rn ctx jStateDigest (digest16 (s2.ctxState ctx)) false else s2)

/-- The step commits on every context of the run, and counts in STEPS (R235). -/
def State.commitStep (s : State) (rn : Nat) (x : Run) : Option Nat × State :=
  let (diff, s1) := x.cmds.zipIdx.foldl (fun (a : Option Nat × State) e =>
    let (d, t) := a.2.commitOne rn x e.2 e.1
    (a.1.orElse fun _ => d, t)) (none, s)
  (diff, s1.count (R.ACC_STEPS x.client) 1)

/-! The flash wave (R222, R291, R315, R323). -/

/-- T3_READ of a context, or of every context (R253). -/
def State.t3Read (s : State) (rn : Nat) (xi : Option Nat) : State :=
  match s.run rn with
  | none => s
  | some x =>
    s.setRun rn ((List.range x.cmds.length).foldl (fun (z : Run) i => if xi = none || xi = some i then z.flagV i 25 else z) x)

/-- At the issue of a run's first wave its contexts take their EPOCH, unless a search gives its snapshot (R315). -/
def State.takeEpochs (s : State) (rn : Nat) : State :=
  match s.run rn with
  | none => s
  | some x =>
    if x.waves ≠ 0 then s
    else s.setRun rn { x with epochs := (List.range x.cmds.length).map fun i => (i, s.epochNow x i) }

/-- One read of a wave is issued; a query whose snapshot a reset of VSX has discarded takes a new one, and one that reads poisoned context
state marks the context (R40, R234). Answers the edge positions of a query, or none for a probe list beyond its index (0x6003). -/
def State.issueRead (s : State) (rn : Nat) (x : Run) (galliard : Bool) (recorded : Option (List Nat)) (k : Nat) :
    WaveRead → Option (List (List Nat) × State)
  | .plain _ _ _ => some ([], s.t3Read rn none)
  | .filter f => some ([], if f.x < x.cmds.length then (s.t3Read rn (some f.x)).sendFilter rn k x f else s)
  | .query xi probe table out =>
    let s0 := if (s.query rn xi).isSome then s else s.takeSnapshots rn x
    match (s0.t3Read rn (some xi)).sendQuery rn k x galliard recorded xi probe table out with
    | none => none
    | some (edges, s1) =>
      let bad := ((s1.query rn xi).map Query.poison).getD false
      some (if galliard then [edges] else [], match bad, x.cmds[xi]? with
        | true, some m => s1.ctxPoisoned x m.ctx
        | _, _ => s1)

/-- The reads of a wave in order, with the edge positions they record (R249, R328). -/
def State.issueReads (s : State) (rn : Nat) (x : Run) (galliard : Bool) (recorded : List (List Nat)) : Nat → List WaveRead →
    Option (List (List Nat) × State)
  | _, [] => some ([], s)
  | k, w :: ws =>
    let mine := if x.replayOf.isSome && galliard then recorded.head? else none
    match s.issueRead rn x galliard mine k w with
    | none => none
    | some (e, s1) =>
      match s1.issueReads rn x galliard (recorded.drop (galliard && wavesQuery [w]).toNat) (k + 1) ws with
      | none => none
      | some (es, s2) => some (e ++ es, s2)

/-- The journalled EPOCH of a replayed run's T3 data: that of its next RESULT record, whose colophon holds it with T3_READ, else that of
its RUN_START record (R253, R262, R268). -/
def State.drEpoch (s : State) (n : Nat) (x : Run) : Nat :=
  match (((s.journal n).replay.getD []).takeWhile fun r => r.type ≠ jRunStart).find? fun r => r.type = jResult with
  | some r => if (fieldOf r.payload 0 4).testBit 25 then fieldOf r.payload 64 8 else kvGet 0 x.epochs 0
  | none => kvGet 0 x.epochs 0

/-- A replayed filter or plain read finds its input unavailable when the count of the run's region differs from EPOCH (R268, R315). -/
def State.waveReadable (s : State) (x : Run) (ws : List WaveRead) : Bool :=
  match x.replayOf with
  | none => true
  | some n =>
    let ours (h : Nat) : Bool := s.epochRegion x 0 ≠ some h || ((s.region h).map Region.modCount) = some (s.drEpoch n x)
    ws.all fun w => match w with
      | .plain h _ _ => ours h
      | .filter f => ours f.region
      | .query _ _ _ _ => true

/-! What follows a boundary (R183, R187, R216, R263). -/

/-- The streams of layers whose slot is free now: every step that reads the layer W before has ended (R183). -/
def State.nextStreams (s : State) (rn : Nat) (x : Run) (ended : Nat) : State :=
  match s.runCore x with
  | none => s
  | some f =>
    if x.inReserve || !f.streamed then s
    else
      (List.range f.layers.length).foldl (fun t j =>
        if f.slots ≤ j && ((f.layers[j - f.slots]?).map Layer.lastStep).getD 0 ≤ ended then t.issueStream rn j else t) s

/-- A run between steps: stalled for the journal (R263), waiting for a layer (R187), or ready for its next admission. -/
def State.atBoundary (s : State) (rn : Nat) : State :=
  match s.run rn with
  | none => s
  | some x =>
    if !x.lc && x.journalled && x.jctl.testBit 1 && jCap ≤ s.jTotal then
      (s.setRun rn { x with phase := .stalled }).setBit (R.DJ_STAT x.client) 2 true
    else if s.layersLanded x then s.setRun rn { x with phase := .boundary }
    else s.setRun rn { x with phase := .waitLayer, flags := if x.lc then x.flags else x.flags ||| 2 ^ 12 }

/-- JOURNAL_BUFFER_DRAINED (R263): below half full, the client's stalled runs go on. -/
def execJournalBufferDrained (n : Client) (s : State) : Host.Outcome State Fault Refusal :=
  settled <|
    if jCap / 2 ≤ s.jTotal then s
    else
      let s1 := s.setBit (R.DJ_STAT n) 2 false
      s1.sched.runs.foldl (fun t e => if e.2.client = n.val && e.2.phase = .stalled then t.atBoundary e.1 else t) s1

/-- The layer and deadline of the fallback that a boundary takes: a miss with a reserve to go to, or in a replay the FALLBACK record
next in the journal (R186, R266). -/
def State.fallbackDue (s : State) (x : Run) : Option (Nat × Nat) × State :=
  if x.inReserve || (s.path x).length ≤ x.step + 1 then (none, s)
  else
    match x.replayOf with
    | some n =>
      match (s.journal n).replay with
      | some (r :: _) =>
        if r.type = jFallback && !r.poison then
          (some (fieldOf r.payload 0 2, fieldOf r.payload 8 8), (s.drTake n jFallback 0).2)
        else (none, s)
      | _ => (none, s)
    | none => (s.reserveDue x, s)

/-! Posting (R224, R226, R252, R426, R427). -/

/-- The records of one command of a run are written to its result buffer, one after another (R426). -/
def State.writeRecords (s : State) (x : Run) (xi : Nat) (m : RunCmd) : State :=
  if m.cid.q = deadQ then s
  else
    ((x.records.filter fun r => r.x = xi).foldl (fun (a : Nat × State) r =>
      (a.1 + r.bytes.length, (a.2.emit (.result m.cid.c a.1 r.bytes)).chargeHost x.client r.bytes.length 0))
      (m.bufAddr, s)).2

/-- A run posts: its records, then its completions, within T_post of its last boundary, and it is over (R226, R252); poisoned results
raise event 0x4009 (R449). -/
def State.postRun (s : State) (rn : Nat) (x : Run) : State :=
  let (d, s0) := s.free
  let s1 := s0.elapse (d % (tPost + 1))
  let c := x.client
  let s2 := x.cmds.zipIdx.foldl (fun t e => t.writeRecords x e.2 e.1) s1
  let s5 := s2.postEach x fun t e broken bound =>
    let recs := x.records.filter fun r => r.x = e.2
    let poison := recs.any ResultPart.poison
    let t1 := if poison then (t.poisonSeen pageHif).raise pageErr 0x4009 (some c) 0 e.1.ctx else t
    t1.completeRun e.1.cid (if poison then 7 else 0) (if poison then stResultPoisoned else 0) poison
      ((if poison then 0x4009 else if broken then 0x2003 else 0) + bound * 2 ^ 16 + min recs.length 255 * 2 ^ 24) 0
      (x.arrivalOf e.1)
  let tokens := match s5.runCore x with
    | some f => f.tokens
    | none => 0
  let s6 := ((s5.count (R.ACC_RUNS c) 1).count (R.ACC_LC_RUNS c) x.lc.toNat).count (R.ACC_TOKENS c) (tokens * x.cmds.length)
  match x.replayOf with
  | some n =>
    let s7 := s6.drLeave rn
    s7.drNext n ((s7.journal n).replay.getD [])
  | none =>
    match s6.run rn with
    | some y => (s6.setRun rn { y with phase := .posting, heldFrom := none }).postingDone
    | none => s6

/-! STEP_BOUNDARY (R210, R215). -/

/-- A replay that stops at this boundary: diverged, at DR_STOP, aborted, at a lost record or at the journal's end; or diverged because the
journalled run was torn down at this step (R267 to R269). -/
def State.replayStops (s : State) (rn : Nat) (x : Run) (diff : Option Nat) : Option State :=
  match x.replayOf with
  | none => none
  | some n =>
    let dst := s.rd (R.DR_DST_CTX n)
    match diff with
    | some k => some ((s.drLeave rn).drStop n drDiverged k)
    | none =>
      let ends (code fld : Nat) : Option State := some ((s.drLeave rn).drStop n code fld)
      let last := (s.path x).length ≤ x.step + 1
      if s.rd (R.DR_STOP n) ≤ (s.ctx dst).stepCtr then some ((s.drLeave rn).drStop n drStopped 0)
      else if (s.journal n).aborting then some ((s.drLeave rn).drStop n drAborted 0)
      else
        match (s.journal n).replay with
        | some [] => if last then none else ends drEnd 0
        | some (r :: _) =>
          if r.type = jGap || r.poison then ends drUnavailable 0
          else if r.torn && fieldOf r.payload 8 8 < (s.ctx dst).stepCtr then ends drDiverged 0x10
          else none
        | none => none

/-- The wave of the step that has ended, if it has one, with the dies its reads suspend (R222, R291); answers the run waiting, or none
when a probe list was refused. -/
def State.issueWave (s : State) (rn : Nat) (x : Run) (d : StepDef) (galliard : Bool) (suspends : List (QdiNo × GroupDie × Bool)) :
    Option (List (List Nat) × State) :=
  let s1 := (suspends.foldl (fun t e => t.suspend e.1.val e.2.1.val e.2.2 x.lc) s).takeEpochs rn
  match s1.issueReads rn x galliard (x.orders.drop (d.sites d.ops.length)) 0 d.wave with
  | none => none
  | some (es, s2) =>
    match s2.run rn with
    | some y => some (es, s2.setRun rn { y with phase := .waitFlash, wavePlan := d.wave, waveAt := s2.etime, waves := y.waves + 1 })
    | none => some (es, s2)

/-- The order record of the committed step: counted, and journalled for each context (R249, R262). -/
def State.recordOrder (s : State) (rn : Nat) (x : Run) (os : List (List Nat)) : State :=
  if os.isEmpty then s
  else
    x.cmds.foldl (fun t m => t.jRun rn m.ctx jOrder (orderBytes x.step os) false) (s.count R.DET_ORDERS 1)

/-- Does an LC run wait for rows that a run holds: its held admission is on them, or it has none and cannot be placed without them
(R214)? -/
def State.waitsFor (s : State) (rn : Nat) (x : Run) (rows : List Nat) : Bool :=
  let without := (s.freeRows rn x).filter fun r => !rows.contains r
  if x.heldFrom.isSome then rows.any fun r => x.rows.contains r
  else (x.phase = .formed || ((x.phase = .boundary || x.phase = .waitLayer) && s.needsRows x)) && (match s.runCore x with
    | some f => !s.placeable f without && s.placeable f (s.freeRows rn x)
    | none => false)

/-- A BE run on rows lent by its client gives them back when an LC run of the client waits for them (R214). -/
def State.giveBack (s : State) (rn : Nat) (x : Run) : State :=
  let lent := x.rows.filter fun r => s.reservedFor r = some x.client
  if !x.lc && !lent.isEmpty && s.sched.runs.any (fun e => e.2.lc && e.2.client = x.client && s.waitsFor e.1 e.2 lent)
  then s.setRun rn (s.rowsBack x) else s

/-- A probe list that names a list beyond its index: VSX's event 0x6003, with the index and the list in ADDR as VSX_SEL holds them and the
context in AUX (R327, R338). -/
def State.probeRange (s : State) (x : Run) (ws : List WaveRead) : State :=
  let (ctx, i, l) := (ws.findSome? (s.badProbe x)).getD (x.ctx0, 0, 0)
  (s.setIrq pageVsx 4 6).raise pageVsx 0x6003 (some x.client) (i + 256 * l) ctx

/-- What follows the commit: the switch to the reserve, the wave, the end of the run, or the next step. -/
def State.afterCommit (s : State) (rn : Nat) (x : Run) (d : StepDef) (galliard : Bool) (suspends : List (QdiNo × GroupDie × Bool)) :
    State :=
  let (fb, s0) := s.fallbackDue x
  let last := (s0.path x).length ≤ x.step + 1
  if last then
    let s1 := if galliard then s0.recordOrder rn x x.orders else s0
    match s1.run rn with
    | some y => s1.postRun rn y
    | none => s1
  else if !s0.waveReadable x d.wave then match x.replayOf with
    | some n => (s0.drLeave rn).drStop n drUnavailable 0
    | none => s0
  else
    let issued := if d.wave.isEmpty then some ([], s0) else s0.issueWave rn x d galliard suspends
    match issued with
    | none => (s0.probeRange x d.wave).teardown rn 0x6003
    | some (edges, s1) =>
      let s2 := if galliard then s1.recordOrder rn x (x.orders.take (d.sites d.ops.length) ++ edges) else s1
      match s2.run rn with
      | none => s2
      | some y =>
        let s3 := match fb with
          | some (j, dl) => s2.toReserve rn y (y.step + 1) j dl
          | none => (s2.setRun rn { y with step := y.step + 1 }).nextStreams rn y x.step
        match s3.run rn with
        | none => s3
        | some z =>
          if !s3.mayGoOn z then s3.stopRun rn
          else
            let s4 := s3.giveBack rn z
            if d.wave.isEmpty then s4.atBoundary rn else s4

/-- The lag of a held arm strike goes into the colophons of the run whose step held it: HELD, and the cycles of LATE_CYC (R80, R253,
R256). -/
def State.recordHeld (s : State) (rn cyc : Nat) : State :=
  match s.run rn with
  | some x => s.setRun rn { x with flags := x.flags ||| 2 ^ 21, lateCyc := x.lateCyc + cyc }
  | none => s

/-- The arm strikes that a step held until its end are late by as much, which its colophon says (R80, R256). -/
def State.heldStrikes (s : State) (rn : Nat) : State :=
  (s.msr.heldBy.filter fun e => e.2 = rn).foldl (fun t e =>
    let u : State := { t with msr := { t.msr with heldBy := kvErase t.msr.heldBy e.1 } }
    match kvFind u.msr.held e.1 with
    | some at_ => u.recordHeld rn (cyclesFrom at_ u.etime)
    | none => u) s

/-- A unit of a page accepts work again, after a quiesce or a disable: a link sends what waits, and the releases that RED let wait go on
(R38, R39, R381). -/
def State.workAgain (s : State) (p : Nat) : State :=
  if s.quiescing p then s
  else if p = pageRed then s.resume
  else if 0xC0 ≤ p && p < 0xE0 then s.drainLink (p - 0xC0) (s.linkUnit (p - 0xC0)).outq
  else s

/-- The end of a step's compute: its rows end the step, its shadow commits, and the run moves on (R210, R215). -/
def State.boundary (s : State) (rn : Nat) (x0 : Run) (suspends : List (QdiNo × GroupDie × Bool)) : State :=
  let g := match s.runCore x0 with
    | some f => f.galliard
    | none => false
  let d := s.stepDef x0
  let s1 := (s.endStep rn x0).heldStrikes rn
  match s1.run rn with
  | none => s1
  | some x =>
    let (diff, s2) := s1.commitStep rn x
    match s2.run rn with
    | none => s2
    | some y =>
      let z : Run := { y with phase := .boundary, shadow := [], results := [] }
      let s3 := s2.setRun rn z
      match s3.replayStops rn z diff with
      | some t => t
      | none =>
        (s3.afterCommit rn z d g suspends).showWork

/-- STEP_BOUNDARY (R210). A watchdog that expires in the same cycle finds the step ended (R220). -/
def execStepBoundary (run : Nat) (suspends : List (QdiNo × GroupDie × Bool)) (s : State) : Host.Outcome State Fault Refusal :=
  settled <|
    match s.run run with
    | none => s
    | some x =>
      if x.phase ≠ .computing || x.replayDue || x.pc < (s.stepDef x).ops.length || s.colWaits run || x.expireAt < x.endAt then s
      else
        let s1 := s.untilElapsed x.endAt
        match s1.run run with
        | some y => s1.boundary run y suspends
        | none => s1

/-! WAVE_LANDED (R222). -/

/-- The words that plain reads of a wave bring, with what the medium does to each unit: of a region that is not a T3 region of the
client, poisoned words. -/
def State.plainWords (s : State) (rn : Nat) (x : Run) (h unit count : Nat) (faults : List ReadFault) (nth : Nat) :
    List LeafWord × State :=
  match s.ownRegion x.client h with
  | none => (List.replicate (128 * count) ⟨0, true⟩, s)
  | some r =>
    if r.tier ≠ 3 || s.noT3 then (List.replicate (128 * count) ⟨0, true⟩, s)
    else
      (List.range count).foldl (fun (a : List LeafWord × State) i =>
        let n := unitQdi r (unit + i)
        let t := a.2.readUnit n h (unit + i) (faults.find? fun f => f.nth = nth + i)
        let (bs, marks) := t.unitData n h (unit + i)
        let ws := (List.range 128).map fun k => wordOf (slice bs (128 * k) 128) (marks.contains (k / 32))
        (a.1 ++ ws, t.runT3 rn x.client 16384 0)) ([], s)

/-- The outputs of a filter job come to its area in T1, those of the engines in ascending channel order (R314). -/
def State.landFilter (s : State) (rn k : Nat) (x : Run) (f : FilterJob) : State :=
  match x.cmds[f.x]? with
  | some m =>
    let n := 128 * areaWords f
    (List.range 32).foldl (fun t ch =>
      t.memWrite (s.ctx m.ctx).region (f.out + n * ch) (slice (filterArea f (s.ended rn k ch x)) 0 n) false)
      (s.runT1 rn x.client 0 (32 * n))
  | none => s

/-- The results of a wave come to T1, read by read. -/
def State.landReads (s : State) (rn : Nat) (x : Run) (faults : List ReadFault) : Nat → Nat → List WaveRead → List LeafWord × State
  | _, _, [] => ([], s)
  | k, nth, w :: ws =>
    let (mine, s1, n) : List LeafWord × State × Nat := match w with
      | .plain h unit count =>
        let (l, t) := s.plainWords rn x h unit count faults nth
        (l, t, count)
      | .filter f => ([], s.landFilter rn k x f, 0)
      | .query xi _ _ _ => ([], s.landQuery rn k x xi, 0)
    let (rest, s2) := s1.landReads rn x faults (k + 1) (nth + n) ws
    (mine ++ rest, s2)

/-- Did the wave of a run read in the channels of channel die n: a unit of a plain read, or pages of a job? -/
def State.waveIn (s : State) (rn : Nat) (x : Run) (n : Nat) : Bool :=
  x.wavePlan.zipIdx.any fun w => match w.1 with
    | .plain h unit count => (match s.region h with
      | some r => (List.range count).any fun i => unitQdi r (unit + i) = n
      | none => false)
    | _ => (List.range 8).any fun i => match kvFind s.search.finished (jobKey rn w.2 (8 * n + i)) with
      | some j => j.nread ≠ 0
      | none => false

/-- An LC wave beyond 110 µs counts in each channel die that it read in (R306). -/
def State.lcLate (s : State) (rn : Nat) (x : Run) : State :=
  if x.lc && x.waveAt + tFlash < s.etime then
    (List.range 4).foldl (fun t n => if s.waveIn rn x n then t.countSat (R.QDI_LC_LATE n) 1 else t) s
  else s

/-- Are LC reads of a wave outstanding on a die: units of a plain read that lie there, or jobs of its channel (R291)? -/
def State.lcReads (s : State) (n d : Nat) : Bool :=
  s.sched.runs.any fun e => e.2.lc && e.2.phase = .waitFlash &&
    (e.2.wavePlan.any (fun w => match w with
      | .plain h unit count => (match s.region h with
        | some r => (List.range count).any fun i => unitQdi r (unit + i) = n && (match s.mapEntry h (unit + i) with
          | some p => p ≠ mapPoisoned && pageDie p = d
          | none => false)
        | none => false)
      | _ => false) ||
    (s.chan (8 * n + d / 17)).slots.any fun j => j.2.run = e.1)

/-- SUSPENDED_OPERATION_RESUME: the last LC read data has left the die (R291). -/
def execSuspendedOperationResume (n : QdiNo) (die : GroupDie) (s : State) : Host.Outcome State Fault Refusal :=
  settled (if s.lcReads n die then s
    else { s with ftl := { s.ftl with suspended := kvErase s.ftl.suspended (n.val * 136 + die.val) } })

/-- WAVE_LANDED (R222): every job of the wave has ended; a wave beyond 110 µs is a cause of an exceeded bound (R226). -/
def execWaveLanded (run : Nat) (faults : List ReadFault) (late : Bool) (s : State) : Host.Outcome State Fault Refusal :=
  settled <|
    match s.run run with
    | none => s
    | some x =>
      if x.phase ≠ .waitFlash || s.jobsLeft run then s
      else
        let s0 := if late then s.untilElapsed (x.waveAt + tFlash + 1) else s
        let (ws, s1) := (s0.lcLate run x).landReads run x faults 0 0 x.wavePlan
        let s2 : State := { s1 with search := { s1.search with
          finished := kvDropRange s1.search.finished (jobKey run 0 0) (jobKey (run + 1) 0 0) } }
        match s2.run run with
        | none => s2
        | some y =>
          let z : Run := { y with
            phase := .boundary, waveData := ws
            causes := if x.waveAt + tFlash < s2.etime then y.causes ||| 2 else y.causes }
          (((s2.setRun run z).runT1 run x.client 0 (128 * ws.length)).atBoundary run).showWork

/-! The watchdog and the replay of a step (R228, R257). -/

/-- STEP_WATCHDOG_EXPIRY (R228): the first expiry of a replayed step restarts the watchdog; any other tears the run down. -/
def execStepWatchdogExpiry (run : Nat) (s : State) : Host.Outcome State Fault Refusal :=
  settled <|
    match s.run run with
    | none => s
    | some x =>
      let d := s.stepDef x
      let ended := x.phase = .computing && !x.replayDue && d.ops.length ≤ x.pc && !s.colWaits run && x.endAt ≤ x.expireAt
      if !x.phase.working || ended then s
      else
        let s1 := s.untilElapsed x.expireAt
        if x.stepReplayed && x.expiries = 0 then
          s1.setRun run { x with expiries := 1, expireAt := s1.etime + (d.g + d.c + s1.rd R.SCH_WD_SLACK) * tickCycle }
        else ((s1.raise pageSch 0x2001 (some x.client) 0 x.ctx0).teardown run 0x2001).resume

/-- STEP_REPLAY (R257): the step starts again from its admission on the same rows; its shadow, accumulators and Collator outputs are
discarded, and its watchdog restarts. -/
def execStepReplay (run : Nat) (s : State) : Host.Outcome State Fault Refusal :=
  settled <|
    match s.run run with
    | none => s
    | some x =>
      if x.phase ≠ .computing || !x.replayDue then s
      else
        let d := s.stepDef x
        let t := s.etime
        let y : Run := { x with
          phase := .staging, replayDue := false, stepReplayed := true, recomp := x.recomp + 1, flags := x.flags ||| 2 ^ 14
          causes := x.causes ||| 4, pc := 0, shadow := [], results := [], strikeAt := t + d.g * tickCycle
          expireAt := t + (d.g + d.c + s.rd R.SCH_WD_SLACK) * tickCycle }
        let s1 := x.rows.foldl (fun u r => u.setRow r { u.rowUnit r with acc := [] }) (s.setRun run y)
        ((s1.colDrop run).count R.DET_RECOMP 1).queueStage run y d

end Sys2Proof.Machine
end

