-- ==== Sys2Proof/Machine/Measures.lean ====
section
/-! DEFINITION. The measure distributor: running and stopping (R72, R564), announces (R74), arm slots (R77 to R80, R94), the strike with
all that falls due at it (R75, R185, R227, R236, R238, R479), and idle ticks (R72). -/

namespace Sys2Proof.Machine

/-- A slot's ARM_STATE (R78). -/
def State.armState (s : State) (slot : Nat) : Nat := s.fld (R.ARM_CMD slot) 6 4
def State.setArm (s : State) (slot v : Nat) : State := s.setFld (R.ARM_CMD slot) 6 4 v

/-- Page, action and target measure of a slot (R93). -/
def State.armPage (s : State) (slot : Nat) : Nat := s.fld (R.ARM_ACT slot) 7 0
def State.armCode (s : State) (slot : Nat) : Nat := s.fld (R.ARM_ACT slot) 23 8
def State.armTgt (s : State) (slot : Nat) : Nat := s.rd (R.ARM_TGT slot)

/-- The client that armed a slot (R94). -/
def State.armClient (s : State) (slot : Nat) : Nat := kvGet 0 s.msr.armClient slot

/-- The kind of page that an arm may name (R77): ROW 1, COL 2, CHN 3, LNK 4, SPT 5, DET 6; 0 any other. -/
def armKind (p : Nat) : Nat :=
  if 0x28 ≤ p && p < 0x90 then 1
  else if 0x90 ≤ p && p < 0x98 then 2
  else if 0x98 ≤ p && p < 0xB8 then 3
  else if 0xC0 ≤ p && p < 0xE0 then 4
  else if p = pageSpt then 5
  else if p = pageDet then 6
  else 0

/-- Does the page accept the action code (R128, R171, R273, R341, R381, R401)? -/
def armable (p code : Nat) : Bool :=
  armKind p ≠ 0 && decide (1 ≤ code) && decide (code ≤ (if armKind p = 4 then 4 else 3))

/-- A slot goes to missed, refused or not performed, with its event (R78, R93). MSR_MISSED stays at its greatest value, which its table
leaves open (DESIGN CHOICE; log entry 48). The entry names the arming client, and its ADDR and AUX
are 0, which R90 leaves open (log entry 48). -/
def State.armFails (s : State) (slot st code : Nat) : State :=
  let s1 := s.setArm slot st
  let s2 := if st = 5 then s1 else s1.countSat R.MSR_MISSED 1
  (s2.setIrq pageMsr 5 8).raise pageMsr code (some (s.armClient slot)) 0 0

/-- ARM taken on a slot (R78 to R80). R78 orders only the causes of state 5: an arm that comes after the announce of its target is missed,
whatever else would refuse it; and once measures run, one for a measure before the first of them has come too late as well. A
refused write raises 0x8009 with no client (log entry 48). -/
def State.armSlot (s : State) (c slot : Nat) : State :=
  let st := s.armState slot
  if st = 1 || st = 2 then s.raise pageMsr 0x8009 none 0 0
  else
    let s1 : State := { s with msr := { s.msr with armClient := kvPut s.msr.armClient slot c } }
    let p := s1.armPage slot
    let m := s1.armTgt slot
    if s1.pastAnnounce m then s1.armFails slot 4 0x8007
    else if !armable p (s1.armCode slot) || !s1.inService p || !s1.guardOpen p c then s1.armFails slot 5 0x8006
    else if (List.range 256).any fun k =>
        k ≠ slot && (s1.armState k = 1 || s1.armState k = 2) && s1.armPage k = p && s1.armTgt k = m then
      s1.armFails slot 5 0x8005
    else s1.setArm slot 1

/-- A value written to ARM_CMD (R94). -/
def State.armCmd (s : State) (c slot v : Nat) : State :=
  if v.testBit 0 && v.testBit 1 then s.raise pageMsr 0x8009 none 0 0
  else if v.testBit 0 then s.armSlot c slot
  else if v.testBit 1 && s.armState slot = 1 then s.setArm slot 6
  else s

/-- ARM (R77, R78). -/
def execArm (c : Client) (slot : Fin 256) (s : State) : Host.Outcome State Fault Refusal :=
  settled (s.command c (R.ARM_CMD slot) 1 fun t _ raw => t.armCmd c slot raw)

/-- CANCEL (R80, R94). -/
def execCancel (c : Client) (slot : Fin 256) (s : State) : Host.Outcome State Fault Refusal :=
  settled (s.command c (R.ARM_CMD slot) 2 fun t _ raw => t.armCmd c slot raw)

/-! Announces (R74, R79, R211, R388). -/

/-- Is a page open to a client by the guard in force (R41, R479)? -/
def State.guardInForce (s : State) (p c : Nat) : Bool := c = 0 || (s.force (R.PG_GUARD p)).testBit c

/-- At the announce of measure m the slots armed for it are announced, or not performed, by the rights that have taken effect (R79). -/
def State.announceArms (s : State) (m : Nat) : State :=
  ((List.range 256).filter fun k => s.armState k = 1 && s.armTgt k = m).foldl (fun t k =>
    let p := t.armPage k
    let c := t.armClient k
    if t.inService p && t.guardInForce p c then t.setArm k 2 else t.armFails k 7 0x8008) s

/-- The next measure is announced: it joins the queue with its instant, and LC runs are formed (R74). -/
def State.announce (s : State) : State :=
  let m := s.msr.nextM
  let s1 : State := { s with msr := { s.msr with
    nextM := m + 1, announced := announceMore m s.msr.announced, queue := s.msr.queue ++ [⟨m, s.instant m⟩] } }
  ((s1.announceArms m).sptAnnounce m).formLc m

/-- The instant at which the next announce is due. -/
def State.announceAt (s : State) : Nat := s.instant s.msr.nextM - s.lead

/-- MEASURE_ANNOUNCE (R74): while measures run, in its place among the strikes that are due, at most 4 ahead of them (R75). -/
def execMeasureAnnounce (s : State) : Host.Outcome State Fault Refusal :=
  settled <|
    if s.running && decide (s.msr.queue.length < 4) && s.msr.queue.all (fun a => decide (s.announceAt ≤ a.at_)) then
      (s.until s.announceAt).announce
    else s

/-- Announces that a longer lead has made overdue are issued at once (R74). -/
def State.announceDue (s : State) : Nat → State
  | 0 => s
  | n + 1 =>
    if s.running && decide (s.msr.queue.length < 4) && decide (s.announceAt ≤ s.dtime) then s.announce.announceDue n else s

/-- MSR_LEAD takes a value (R74). -/
def State.setLead (s : State) (v : Nat) : State :=
  if v < 64 || 1024 < v then s.raise pageMsr 0x8009 none 0 0 else (s.wr R.MSR_LEAD v).announceDue 4

/-- MSR_LEAD_WRITE (R74). -/
def execMsrLeadWrite (c : Client) (v : BitVec 32) (s : State) : Host.Outcome State Fault Refusal :=
  settled (s.command c R.MSR_LEAD v.toNat fun t new _ => t.setLead new)

/-! RUN (R72, R564). -/

/-- RUN rises: the first measure is the first whose announce still lies ahead, and slots armed for one before it have missed (R80,
R564). -/
def State.startMeasures (s : State) : State :=
  if s.running then s
  else
    let lo := (s.msr.queue.map fun a => a.m + 1).foldl max 0
    let m := s.firstAt lo (s.dtime + s.lead)
    let s1 := s.wr R.MSR_CTL 1
    let s2 : State := { s1 with msr := { s1.msr with
      nextM := m, announced := (s1.msr.announced.filter fun r => decide (r.1 < m)).map fun r => (r.1, min r.2 (m - 1))
      struckAt := if s1.msr.queue.isEmpty then none else s1.msr.struckAt } }
    ((List.range 256).filter fun k => s2.armState k = 1 && decide (s2.armTgt k < m)).foldl (fun t k => t.armFails k 4 0x8007) s2

/-- RUN falls: no further measure is announced (R72); idle ticks count from here when none is left to strike, changes of rights that
no strike awaits take effect (R479), and a grid that was kept is free to change (R86). -/
def State.stopMeasures (s : State) : State :=
  if !s.running then s
  else
    let s1 := s.wr R.MSR_CTL 0
    let s2 : State := { s1 with tmb := { s1.tmb with ownGrid := false } }
    if s2.msr.queue.isEmpty then ({ s2 with msr := { s2.msr with idleFrom := s2.etime } }).settleRights else s2

/-- MSR_CTL takes a value. -/
def State.setMsrCtl (s : State) (v : Nat) : State := if v.testBit 0 then s.startMeasures else s.stopMeasures

/-- RUN_SET (R564). -/
def execRunSet (c : Client) (s : State) : Host.Outcome State Fault Refusal :=
  settled (s.command c R.MSR_CTL 1 fun t new _ => t.setMsrCtl new)

/-- RUN_CLEAR (R72). -/
def execRunClear (c : Client) (s : State) : Host.Outcome State Fault Refusal :=
  settled (s.command c R.MSR_CTL 0 fun t new _ => t.setMsrCtl new)

/-! Charges and snapshots (R236 to R238). -/

/-- The share of context index i when n is split among k contexts, the remainder to the one whose number is lowest. -/
def shareOf (n k : Nat) (lowest : Bool) : Nat := n / k + if lowest then n % k else 0

/-- A run's charges go into its contexts' entries, energy in µJ with the remainder kept (R231, R236, R237). -/
def State.addCharges (s : State) (x : Run) : State :=
  let xs := x.cmds.map RunCmd.ctx
  let low := xs.foldl min (2 ^ 18)
  xs.foldl (fun t i =>
    let e := t.ctx i
    if e.state = 0 then t
    else
      let part (j : Nat) : Nat := shareOf (x.charges.getD j 0) xs.length (i = low)
      let acc := kvGet 0 t.accRem (32 + i) + part 5
      let cs := (List.range 5).map (fun j => e.counters.getD j 0 + part j) ++ [e.counters.getD 5 0 + acc / 256000000]
      { t.setCtx i { e with counters := cs } with accRem := kvPut t.accRem (32 + i) (acc % 256000000) }) s

/-- Every run's charges are added, and a run that is over leaves the table. -/
def State.settleCharges (s : State) : State :=
  let s1 := s.sched.runs.foldl (fun t e => t.addCharges e.2) s
  let runs := (s1.sched.runs.filter fun e => e.2.phase ≠ .done).map fun e =>
    (e.1, { e.2 with charges := List.replicate 6 0 })
  { s1 with sched := { s1.sched with runs := runs } }

/-- Every counter of every block is copied (R238, R246). -/
def State.accSnapshot (s : State) (m : Nat) : State :=
  let s1 := (List.range 17).foldl (fun t i =>
    let t1 := (List.range 20).foldl (fun u j => u.wr (R.ACC_SNAP i j) (u.liveRd (R.ACC_ENG_ROW i + 8 * j))) t
    (List.range 32).foldl (fun u j =>
      (u.wr (R.ACC_LINK_TX_SNAP i j) (u.rd (R.ACC_LINK_TX i j))).wr (R.ACC_LINK_RX_SNAP i j) (u.rd (R.ACC_LINK_RX i j))) t1) s
  (s1.wr R.ACC_SNAP_M m).setIrq pageAcc 4 0

/-! The actions of arms (R128, R171, R273, R341, R381, R401). -/

/-- The first counter that SNAP copies from a page of a kind, how many, where to, and where the measure goes, as offsets. -/
def snapPlan (kind : Nat) : Nat × Nat × Nat × Nat :=
  match kind with
  | 1 => (0x110, 6, 0x190, 0x1C0)
  | 2 => (0x110, 4, 0x150, 0x170)
  | 3 => (0x108, 6, 0x150, 0x180)
  | 4 => (0x120, 4, 0x1A0, 0x1C0)
  | _ => (0x130, 2, 0x160, 0x170)

/-- SNAP struck on a page for measure m. -/
def State.snap (s : State) (p m : Nat) : State :=
  let (src, n, dst, at_) := snapPlan (armKind p)
  let b := p * 0x10000
  ((List.range n).foldl (fun t j => t.wr (b + dst + 8 * j) (t.liveRd (b + src + 8 * j))) s).wr (b + at_) m

/-- An action starts on its page for the client that armed it. -/
def State.act (s : State) (c p code m : Nat) : State :=
  if armKind p = 6 then s.jArm c code m
  else
    match code with
    | 1 => s.setQuiesce p true
    | 2 => (s.setQuiesce p false).workAgain p
    | 3 => s.snap p m
    | _ => s.sendArmed (p - 0xC0) c

/-- A slot strikes: its action starts, and the strike interrupt goes to its client (R78, R93, R94). -/
def State.strikeSlot (s : State) (slot : Nat) : State :=
  let c := s.armClient slot
  let s1 := (s.act c (s.armPage slot) (s.armCode slot) (s.armTgt slot)).setArm slot 3
  let s2 : State := { s1 with irq := { s1.irq with strikeTo := s1.irq.strikeTo ||| 2 ^ c } }
  s2.setIrq pageMsr 4 8

/-- The run whose step is in progress on the unit of a page: on its row, or at the head of its Collator's queue (R38). -/
def State.runningOn (s : State) (p : Nat) : Option Nat :=
  if 0x28 ≤ p && p < 0x90 then
    (s.sched.runs.find? fun e => e.2.phase.working && e.2.rows.contains (p - 0x28)).map Prod.fst
  else if 0x90 ≤ p && p < 0x98 then ((kvFind s.cols (p - 0x90)).bind fun u => u.be.head?).map fun d => d.run
  else none

/-- The announced slots of measure m strike; one whose unit was quiesced and still runs a step is held (R80). -/
def State.strikeArms (s : State) (m : Nat) : State :=
  ((List.range 256).filter fun k => s.armState k = 2 && s.armTgt k = m).foldl (fun t k =>
    let p := t.armPage k
    if t.quiescing p && t.busyPage p then
      { t with msr := { t.msr with
        held := kvPut t.msr.held k t.etime
        heldBy := match t.runningOn p with
          | some rn => kvPut t.msr.heldBy k rn
          | none => kvErase t.msr.heldBy k } }
    else t.strikeSlot k) s

/-- HELD_ARM_STRIKE (R80): the work of the unit has ended; the action starts, and its lag is recorded in the run that held it, unless the
step has ended and has told it already. -/
def execHeldArmStrike (slot : Fin 256) (s : State) : Host.Outcome State Fault Refusal :=
  settled <|
    match kvFind s.msr.held slot with
    | some at_ =>
      if s.busyPage (s.armPage slot) then s
      else
        let s1 : State := { s with msr := { s.msr with held := kvErase s.msr.held slot, heldBy := kvErase s.msr.heldBy slot } }
        (match kvFind s.msr.heldBy slot with
          | some rn => s1.recordHeld rn (cyclesFrom at_ s.etime)
          | none => s1).strikeSlot slot
    | none => s

/-! The strike (R75). -/

/-- At the strike of their deadline, layers that have not landed have missed, the lowest first (R185, R189). -/
def State.testDeadlines (s : State) (m : Nat) : State :=
  s.sched.runs.foldl (fun t e =>
    if e.2.live && e.2.admitted && !e.2.inReserve && e.2.replayOf.isNone then
      (e.2.layers.filter fun l => decide (l.2.deadline ≤ m) && !l.2.landed && !l.2.missed).foldl (fun u l => u.missLayer e.1 l.1) t
    else t) s

/-- The limits of one event per measure count afresh (R72, R226, R398, R413). -/
def State.freshLimits (s : State) : State :=
  { s with
    heldSaid := []
    spt := { s.spt with said := [] }
    sec := { s.sec with attSaid := false }
    sched := { s.sched with uncovSaid := [] } }

/-- Changes of rights at a strike: those of a hold that has reached its limit, or those that no hold keeps (R479, R481). -/
def State.strikeRights (s : State) : State :=
  let s1 := s.expireHold
  if s1.bit R.SEC_RIGHTS_CTL 0 then s1 else s1.takeEffect

/-- The grid at the strike of measure m: MSR_NOW, and a change of period whose measure it is (R71, R73); a run's bound takes the
longest period in force (R224). A change whose measure is never struck, because it passed while RUN was 0, stays pending until
another replaces it: the instants after it use its period, and MSR_PERIOD keeps the old one (log entry 48). -/
def State.strikeGrid (s : State) (m : Nat) : State :=
  let s1 := s.wr R.MSR_NOW m
  let due := match s1.msr.change with
    | some (c, _) => decide (c = m)
    | none => false
  if due then
    let s2 := s1.applyChange
    let p := s2.rd R.MSR_PERIOD
    { s2 with sched := { s2.sched with runs := s2.sched.runs.map fun e => (e.1, { e.2 with pmax := max e.2.pmax p }) } }
  else s1

/-- MEASURE_STRIKE (R75): the oldest announced measure strikes at its instant. -/
def execMeasureStrike (s : State) : Host.Outcome State Fault Refusal :=
  settled <|
    match s.msr.queue with
    | [] => s
    | a :: rest =>
      let s0 := s.until a.at_
      let s1 : State := { s0 with msr := { s0.msr with
        queue := rest, count := s0.msr.count + 1, struckAt := some s0.etime, idleFrom := s0.etime } }
      let s2 := (((s1.freshLimits).strikeGrid a.m).strikeRights).settleCharges
      let every := s2.rd R.ACC_SNAP_EVERY
      let s3 := if every ≠ 0 && a.m % every = 0 then s2.accSnapshot a.m else s2
      (((s3.repairAtStrike).testDeadlines a.m).sptStrike a.m a.at_).strikeArms a.m

/-- IDLE_TICK (R72): while no measure is left to strike and until the first one strikes, it counts where a measure would. -/
def execIdleTick (s : State) : Host.Outcome State Fault Refusal :=
  settled <|
    if (s.running || !s.msr.queue.isEmpty) && s.msr.struckAt.isSome then s
    else
      let at_ := s.msr.idleFrom + s.period
      let s0 := s.untilElapsed at_
      let s1 : State := { s0 with msr := { s0.msr with count := s0.msr.count + 1, idleFrom := at_ } }
      ((s1.freshLimits).expireHold).settleCharges

end Sys2Proof.Machine
end

