-- ==== Sys2Proof/Machine/Reduce.lean ====
section
/-! DEFINITION. What arrives over the links (R346, R352): flits in order, start flits and blocks for RED (R361, R370, R373), peer
messages (R376); the landing of a bucket (R363, R371) and its timeout (R374); and the start of a channel job (R310). -/

namespace Sys2Proof

open Machine

/-- Does a term of a predicate fit a record of r bytes (R313)? -/
def PredTerm.ok (t : PredTerm) (r : Nat) : Bool :=
  t.ftype ≤ 6 && t.op ≤ 6 && t.off % fieldSize t.ftype = 0 && decide (t.off + fieldSize t.ftype ≤ r)

/-- Does a filter's output mode fit its records (R314)? -/
def FilterMode.ok (m : FilterMode) (r : Nat) : Bool :=
  match m with
  | .pass p0 p _ => p % 4 = 0 && 4 ≤ p && p0 + p ≤ r
  | .topk _ off etype _ => etype.val ≠ 1 && off % 4 = 0 && off + 4 ≤ r

end Sys2Proof

namespace Sys2Proof.Machine

/-! Receiving flits (R346, R347, R352). -/

/-- The flits up to the acknowledged one leave the retry buffer, and waiting ones take their room (R352). -/
def State.acknowledge (s : State) (l ack : Nat) : State :=
  let u := s.linkUnit l
  match u.retry.findIdx? fun e => e.1 = ack with
  | some i => (s.setLink l { u with acked := ack, retry := u.retry.drop (i + 1), ackAt := s.etime }).drainLink l u.outq
  | none => s

/-- RED finds a mismatch of size (1) or of sequence (2) at a bucket (R361, R374). -/
def State.mismatch (s : State) (cause seq : Nat) : State := s.redStop 0x7009 cause s.rank seq false

/-- The set of trees as it will be at the next release (R359). -/
def State.nextTset (s : State) : Nat := s.red.joining.foldl (fun m e => m ||| 2 ^ e.1) s.tset

/-- The sequence number that a child's start flit on a link should carry: the one after the last of its share of the tree; at first that
of the bucket at which the tree joined here, and before it joins any from the next release on (R359, R361). -/
def State.startDue (s : State) (l seq : Nat) : Nat :=
  match kvFind s.red.heard (2 * s.linkTree l + s.linkDir l - 1), kvFind s.red.joined (s.linkTree l) with
  | some n, _ => n
  | none, some j => j
  | none, none => max seq (s.rd R.RED_SEQ)

/-- A start flit of a child's share (R361): its sequence number is the one due, or restarts a bucket already heard of (R373); its size
is that of the own release. -/
def State.heardStart (s : State) (l seq size mask gen : Nat) : State :=
  let next := s.startDue l seq
  let key := 2 * s.linkTree l + s.linkDir l - 1
  match s.bucket seq with
  | some b =>
    if b.size ≠ size then s.mismatch 1 seq
    else
      let s1 : State := { s with red := { s.red with heard := kvPut s.red.heard key (max next (seq + 1)) } }
      if next < seq then s.mismatch 2 seq
      else if b.released || b.mask = mask then s1
      else s1.setBucket seq { b with mask := mask, gen := gen, children := [] }
  | none =>
    if seq ≠ next then s.mismatch 2 seq
    else
      let s1 : State := { s with red := { s.red with heard := kvPut s.red.heard key (seq + 1) } }
      if seq < s.rd R.RED_SEQ then s1
      else s1.setBucket seq ⟨size, 0, 0, 0, 0, 0, mask, gen, 0, [], [], [], [], s.etime, false, false⟩

/-- A flit of blocks (R361, R370, R373): from a child, kept for the addition; from the parent, landed and sent on. One whose MASK is not
the rank's own is discarded; before the own release that is the set which the release will have. -/
def State.redFlit (s : State) (l : Nat) (down : Bool) (bseq fidx mask : Nat) (blocks : List Block) : State :=
  match s.red.buckets.find? fun e => e.1 % 65536 = bseq with
  | none => s
  | some (seq, b) =>
    let t := (treesOf mask).getD (fidx % max (treesOf mask).length 1) 0
    let d := s.linkDir l
    let n := bucketBlocks b.size
    if b.mask ≠ mask || mask ≠ (if b.released then s.tset else s.nextTset) || s.linkTree l ≠ t || bucketFlits b.size ≤ fidx then s
    else if down then (if d = 0 && b.released then s.landBlocks seq b t fidx blocks else s)
    else if d = 0 then s
    else
      let put := (List.range 7).foldl (fun m i =>
        if 7 * fidx + i < n then kvPut m (2 * (7 * fidx + i) + d - 1) (blocks.getD i (zeroBlock false)) else m) b.children
      s.setBucket seq { b with children := put }

/-- A management message (R355, R359, R372, R374). -/
def State.mgmt (s : State) (l : Nat) : Mgmt → State
  | .treeReady t =>
    let d := s.linkDir l
    if s.linkTree l = t.val && 0 < d then
      { s with red := { s.red with childReady := kvPut s.red.childReady (2 * t.val + d - 1) true } }
    else s
  | .treeGo t gen => if s.linkTree l = t.val && s.linkDir l = 0 then (s.treeGo t gen).resume else s
  | .treeDown t gen => s.dropTree t (max gen s.generation) (some l)
  | .stop code cause rank => if s.redActive then s.redStop code cause rank rank true else s
  | .switch =>
    match s.partner l with
    | some k => if s.carries k && s.linkState l = lkStandby then s.moveTraffic k l false else s
    | none => s

/-- The content of a flit accepted in order. TIME and CAL flits act by their own rows (R83, R87). -/
def State.flitContent (s : State) (l arrival : Nat) : FlitBody → State
  | .idle | .time _ | .cal _ | .reserved _ => s
  | .ctrl credits => s.setLink l { s.linkUnit l with credits := ((credits.head?).map BitVec.toNat).getD 0 }
  | .mgmt m => s.mgmt l m
  | .start seq size mask gen =>
    if s.linkTree l < 10 && s.linkDir l ≠ 0 && (s.bit R.RED_CTL 0 || (s.bucket seq).isSome) && !s.bit R.RED_STAT 1 then s.heardStart l seq size mask gen else s
  | .red down bseq fidx mask blocks =>
    if s.redActive && !s.bit R.RED_STAT 1 then s.redFlit l down bseq fidx mask blocks else s
  | .peer off len bytes poison =>
    let u := s.linkUnit l
    let all := (if off = 0 then [] else u.inbox) ++ [(off, bytes, poison)]
    let msg := all.flatMap fun p => p.2.1
    if msg.length < len then s.setLink l { u with inbox := all }
    else s.setLink l { u with inbox := [], whole := u.whole ++ [(msg.take len, all.any fun p => p.2.2, arrival)] }

/-- Is a flit of a reserved type (R347)? -/
def isReserved : FlitBody → Bool
  | .reserved _ => true
  | _ => false

/-- A flit as it arrives (R346, R352): FEC's counts, the CRC, the acknowledgement, and a sequenced one only in order; one of a reserved type
counts in LNK_CRC_ERR and is discarded, its SEQ being received (R347). -/
def State.receiveFlit (s : State) (l : Nat) (f : Flit) (arrival : Nat) : State :=
  let st := s.linkState l
  if st = lkDown || st = lkRefused || st = lkRetrain then s
  else
    let s1 := (s.count (R.LNK_FEC_CORR l) f.corrected).countSat (R.LNK_FEC_UNCORR l) f.uncorrected.toNat
    if !f.crcOk then (s1.countSat (R.LNK_CRC_ERR l) 1).setLink l { s1.linkUnit l with naking := true }
    else
      let w := s1.linkUnit l
      let sa := (s1.setLink l { w with lastAt := s.etime, nakked := w.nakked || f.nak }).acknowledge l f.ack
      let s2 := if isReserved f.body then sa.countSat (R.LNK_CRC_ERR l) 1 else sa
      let u := s2.linkUnit l
      if !sequenced f.body then (if maySend st false f.body then s2.flitContent l arrival f.body else s2)
      else if f.seq ≠ u.expect then
        (if (f.seq + 4096 - u.expect) % 4096 < 2048 then s2.setLink l { u with naking := true } else s2)
      else
        let s3 := (s2.setLink l { u with expect := (u.expect + 1) % 4096, naking := false }).count (R.LNK_FLITS_RX l)
          (!isReserved f.body).toNat
        if isReserved f.body then s3
        else if !maySend st false f.body then s3
        else
          let s4 := match s3.flitBlock f.body with
            | some i => s3.chargeLink i l 0 240
            | none => s3
          s4.flitContent l arrival f.body

/-- FLIT_RECEIVE (R346, R352). -/
def execFlitReceive (link : LinkNo) (f : Flit) (arrival : Nat) (s : State) : Host.Outcome State Fault Refusal :=
  settled (s.receiveFlit link f arrival)

/-! The landing of a bucket (R363, R367, R371). -/

/-- The completion record of a bucket (R363). -/
def Bucket.record (b : Bucket) (seq poisoned nonfin : Nat) : List Byte :=
  leBytes 8 seq ++ leBytes 4 b.size ++ leBytes 2 b.mask ++ leBytes 2 b.gen ++ leBytes 2 b.restarts ++
    leBytes 2 ((decide (0 < poisoned)).toNat + 2 * (decide (0 < nonfin)).toNat) ++ leBytes 4 poisoned ++ leBytes 4 nonfin ++ leBytes 4 0

/-- BUCKET_LANDING (R363, R364, R371): every block has come down; the values and the completion record go to the destination, are
journalled for the run, and a run that waited, for it or for its place, goes on. -/
def execBucketLanding (seq : Nat) (s : State) : Host.Outcome State Fault Refusal :=
  settled <|
    match s.bucket seq with
    | none => s
    | some b =>
      let n := bucketBlocks b.size
      if !b.released || b.landed.length < n || s.bit R.RED_STAT 1 then s
      else
        let s1 := ({ s with red := { s.red with buckets := kvErase s.red.buckets seq } }).redShow
        if b.discard then s1.resume
        else
          let blocks := b.landed.map Prod.snd
          let poisoned := (blocks.filter blkPoison).length
          let nonfin := (blocks.filter blkNonfin).length
          let values (k : Block) : List Byte := (List.range 16).flatMap fun i => leBytes 4 (decodeElt k i).toNat
          let rec_ := b.record seq poisoned nonfin
          let s2 := blocks.zipIdx.foldl (fun t e => t.memWrite b.region (b.off + 64 * e.2) (values e.1) (blkPoison e.1)) s1
          let s3 := (s2.memWrite b.region (b.off + b.size) rec_ false).chargeT1 (s2.ownerBlock pageRed) 0 (b.size + 32)
          let s4 := (s3.count R.RED_BUCKETS 1).raiseTo R.RED_LAT_MAX (cap32 ((s.etime - b.at_) / tickNs))
          let s5 := if poisoned = 0 then s4
            else (((s4.poisonEvent pageRed 0x700A).setIrq pageRed 6 7).countSat R.RED_POISON 1).raise pageRed 0x700A none (seq % 2 ^ 48) 0
          let s6 := if nonfin = 0 then s5
            else ((s5.setIrq pageRed 6 7).countSat R.RED_NONFIN 1).raise pageRed 0x700B none (seq % 2 ^ 48) 0
          match s6.run b.run with
          | none => s6.resume
          | some x =>
            let s7 := s6.jLink b.run x 0xFF s6.dtime (rec_ ++ blocks.flatMap values) (decide (0 < poisoned))
            match s7.run b.run with
            | some y => (s7.setRun b.run { y with bucketWait := y.bucketWait.erase seq }).resume
            | none => s7.resume

/-- BUCKET_TIMEOUT (R374): RED_TIMEOUT has passed since the release. -/
def execBucketTimeout (seq : Nat) (s : State) : Host.Outcome State Fault Refusal :=
  settled <|
    match s.bucket seq with
    | none => s
    | some b =>
      if !b.released || s.bit R.RED_STAT 1 then s
      else
        let s1 := s.untilElapsed (b.at_ + s.rd R.RED_TIMEOUT * 1000 * tickUs)
        s1.redStop 0x700F 3 s1.rank seq false

/-! Peer messages (R376). -/

/-- RED_CTL takes a value, and releases that waited for the enable go on (R375, R383). -/
def State.redCtl (s : State) (v : Nat) : State := (s.setRedCtl v).resume

/-- RED_EN_SET (R383). -/
def execRedEnSet (c : Client) (s : State) : Host.Outcome State Fault Refusal :=
  settled (s.command c R.RED_CTL 1 fun t new _ => t.redCtl new)

/-- TREE_GO (R359): the root sends it with its own generation; any other rank takes the one that arrives; a release that waited for a tree
goes on. -/
def execTreeGo (tree : Fin 10) (gen : Nat) (s : State) : Host.Outcome State Fault Refusal :=
  settled (s.treeGo tree (if (s.treeNeighbour tree 0).isNone then s.generation else gen)).resume

/-- PEER_MESSAGE_RECEIVE (R376): a complete message goes to the first posting of its link; one longer than the posting tears the
receiving run down. -/
def execPeerMessageReceive (link : LinkNo) (s : State) : Host.Outcome State Fault Refusal :=
  settled <|
    let l := link.val
    let u := s.linkUnit l
    match u.postings, u.whole with
    | p :: ps, (msg, poison, at_) :: rest =>
      let s1 := (s.setLink l { u with whole := rest, postings := ps }).sendCredits l
      match s1.run p.run with
      | none => s1
      | some x =>
        if !x.live then s1
        else
          let s2 := s1.runLink p.run x.client l 0 msg.length
          if p.len < msg.length then (s2.raise pageRed 0x700D (some x.client) l x.ctx0).teardown p.run 0x700D
          else
            let s3 := (s2.memWrite p.region p.off msg poison).runT1 p.run x.client 0 msg.length
            match s3.run p.run with
            | some y =>
              (s3.setRun p.run { y with
                arrived := y.arrived ++ [⟨s.roleLink l, at_, p.region, p.off, msg, poison⟩] }).advance p.run
            | none => s3
    | _, _ => s

/-! The start of a channel job (R310 to R314, R338, R340). -/

/-- Does a filter's output lie within the run's region that it names, the state of one of its contexts (R314, R340)? -/
def State.filterFits (s : State) (j : Job) (f : FilterJob) : Bool :=
  match (s.run j.run).bind fun x => x.cmds[f.x]? with
  | some m => f.out + 32 * 128 * areaWords f ≤ (s.ctx m.ctx).stateLen
  | none => false

/-- The lowest cause for which a job is refused (R340). -/
def State.jobCause (s : State) (j : Job) : Option Nat :=
  match j.filter with
  | none =>
    let table := match s.index j.index with
      | some x => if x.ctype = 1 then 512 * x.l else x.l
      | none => 0
    let out := match s.query j.run j.x with
      | some q => q.out + 32 * listWords j.klocal
      | none => 0
    if j.table.length ≠ table then some 1
    else if j.klocal = 0 || 256 < j.klocal then some 2
    else if gatherWords < out then some 5
    else none
  | some f =>
    let topk := match f.mode with
      | .topk _ _ _ _ => true
      | .pass _ _ _ => false
    let inRange := match s.ownRegion j.client f.region with
      | some r => r.tier = 3 && f.u0 ≤ f.u1 && f.u1 * 16384 ≤ roundUp r.bytes 16384
      | none => false
    if topk && (j.klocal = 0 || 256 < j.klocal) then some 2
    else if f.r < 8 || 1024 < f.r || f.r % 4 ≠ 0 || !f.terms.all (fun t => t.ok f.r) || !f.mode.ok f.r then some 3
    else if 8 < f.terms.length then some 4
    else if !s.filterFits j f then some 5
    else if !inRange then some 6
    else none

/-- A job that names what it may not: its cause and context, event 0x6001, and the run's teardown (R338, R340). -/
def State.jobFault (s : State) (ch : Nat) (j : Job) (cause : Nat) : State :=
  let u := s.chan ch
  let s1 := (s.setChan ch { u with queue := u.queue.erase j }).wr (R.CHN_FAULT ch) (cause + s.jobCtx j * 256)
  ((s1.setIrq (pageChn ch) 4 6).chanEvent ch 0x6001 j).teardown j.run 0x6001

/-- CHANNEL_JOB_START (R310): the first job waiting takes the lowest free slot, with its read hold (R293); a job with nothing to read
ends at once, and no turn goes to its slot. -/
def execChannelJobStart (ch : ChanNo) (s : State) : Host.Outcome State Fault Refusal :=
  settled <|
    let n := ch.val
    let u := s.chan n
    match u.queue, (List.range 4).find? fun k => (kvFind u.slots k).isNone with
    | j :: rest, some slot =>
      if !s.chanUp n || s.quiescing (pageChn n) then s
      else
        match s.jobCause j with
        | some cause => s.jobFault n j cause
        | none =>
          let hold := s.ftl.holds * 4 + n / 8
          let j1 : Job := { j with hold := hold }
          let s1 : State := { s with ftl := { s.ftl with holds := s.ftl.holds + 1, active := hold :: s.ftl.active } }
          let s2 := s1.setChan n { u with queue := rest, slots := kvPut u.slots slot j1 }
          if j1.folios.isEmpty && j1.units.isEmpty then (s1.setChan n { u with queue := rest }).endJob n j1 else s2
    | _, _ => s

end Sys2Proof.Machine
end

