-- ==== Sys2Proof/Machine/HostIf.lean ====
section
/-! DEFINITION. The host interface: doorbells (R411, R413, R431), the admin commands (R414 to R417, R429), resets of logical
devices (R406), the host link (R402, R403), the fabric manager and DOE (R404, R405), CXL.mem (R198 to R201, R440, R449), and
the attention pattern (R408, R409). -/

namespace Sys2Proof.Machine

/-! Doorbells. -/

/-- An invalid doorbell write: ignored, event 0x100A, and an asynchronous event of type 0 (R431). -/
def State.badDoorbell (s : State) (c q : Nat) : State := (s.raise pageHif 0x100A (some c) q 0).aerNow c 0 0 1

/-- SUBMISSION_DOORBELL_WRITE: the entries up to the new tail wait to be fetched; HIF_FETCH_MAX keeps the longest time of an
urgent I/O queue, by which runs arrive (R411, R431, R434). -/
def execSubmissionDoorbellWrite (c : Client) (q tail : Nat) (ids : List (Nat × Bool)) (ns : Nat) (s : State) :
    Host.Outcome State Fault Refusal :=
  let x := s.ctrl c
  if !s.reached c then settled s
  else
  match kvFind x.sqs q with
  | none => settled (s.badDoorbell c q)
  | some sq =>
    if sq.deleting.isSome || sq.size ≤ tail then settled (s.badDoorbell c q)
    else
      let n := (tail + sq.size - sq.tail) % sq.size
      let s1 := s.setCtrl c { x with sqs := kvPut x.sqs q { sq with tail := tail, ids := sq.ids ++ ids.take n } }
      settled (if q ≠ 0 && sq.prio = 0 then s1.raiseTo R.HIF_FETCH_MAX (min ns 0xFFFFFFFF) else s1)

/-- Held completions are posted while the queue has room (R413). -/
def State.postHeld (s : State) (c cq : Nat) : Nat → State
  | 0 => s
  | n + 1 =>
    let x := s.ctrl c
    match kvFind x.cqs cq with
    | none => s
    | some q =>
      match q.held with
      | [] => s
      | e :: es =>
        if q.full then s
        else
          let q' := { q with held := es }
          ((s.setCtrl c { x with cqs := kvPut x.cqs cq q' }).placeCqe c cq q' e).postHeld c cq n

/-- COMPLETION_DOORBELL_WRITE: the new head frees entries, and held completions are posted (R413, R431). -/
def execCompletionDoorbellWrite (c : Client) (q head : Nat) (s : State) : Host.Outcome State Fault Refusal :=
  let x := s.ctrl c
  if !s.reached c then settled s
  else
  match kvFind x.cqs q with
  | none => settled (s.badDoorbell c q)
  | some cq =>
    if cq.size ≤ head then settled (s.badDoorbell c q)
    else
      let s1 := s.setCtrl c { x with cqs := kvPut x.cqs q { cq with head := head } }
      settled (s1.postHeld c q cq.held.length).postingDone

/-! Admin commands. -/

/-- Bytes of a page, with fields placed at their offsets and zeros elsewhere. -/
def placed (n : Nat) (fields : List (Nat × List Byte)) : List Byte :=
  (List.range n).map fun i =>
    match fields.find? fun f => decide (f.1 ≤ i) && decide (i < f.1 + f.2.length) with
    | some f => f.2.getD (i - f.1) 0
    | none => 0

/-- The image of the active endpaper (R499). -/
def State.activeImage (s : State) : FwImage := if s.bit R.NOR_STAT 0 then s.nor.back else s.nor.front

/-- Identify Controller (R415, R498, R545), at the places NVM Express gives the fields (log entry 8); CTRATT's code is not
stated. -/
def State.identifyController (s : State) : List Byte × State :=
  let (ctratt, s1) := s.freeBytes 4
  (placed 4096
    [(64, s.activeImage.fr), (77, [9]), (96, ctratt), (111, [1]), (256, leBytes 2 4), (259, [7]), (260, [0x14]), (262, [63]),
     (266, leBytes 2 343), (268, leBytes 2 348), (319, [1]), (512, [0x66]), (513, [0x44]), (516, leBytes 4 257),
     (520, leBytes 2 0xC), (525, [0]), (526, leBytes 2 63), (528, leBytes 2 63)], s1)

/-- Units a region has mapped. -/
def State.mappedUnits (s : State) (h : Nat) : Nat := (kvRange s.ftl.map (h * 2 ^ 40) ((h + 1) * 2 ^ 40)).length

/-- Identify Namespace (R418, R424), at the places NVM Express gives the fields (log entry 8). -/
def State.identifyNamespace (s : State) (n : Namespace) : List Byte :=
  placed 4096
    [(0, leBytes 8 n.blocks), (8, leBytes 8 n.blocks), (16, leBytes 8 (s.mappedUnits n.region * 4)), (42, leBytes 2 0),
     (44, leBytes 2 63), (64, leBytes 2 3), (72, leBytes 2 3), (128, leBytes 4 (12 * 65536))]

/-- A namespace attached to a client's logical device (R418). -/
def State.namespaceOf (s : State) (c nsid : Nat) : Option Namespace :=
  match kvFind s.namespaces nsid with
  | some n => if n.client = c then some n else none
  | none => none

/-- The data an Identify returns, by CNS (R414, R415, R418, R424): 00h namespace, 01h controller, 02h the active namespaces,
1Ch the command set combinations, NVM alone and NVM with Gonum; 05h, 06h and 08h are data the spec does not state. -/
def State.identifyData (s : State) (c cns nsid : Nat) : Option (List Byte × State) :=
  if cns = 0x00 then
    match s.namespaceOf c nsid with
    | some n => some (s.identifyNamespace n, s)
    | none => if nsid = 1 then some (placed 4096 [], s) else none
  else if cns = 0x01 then some s.identifyController
  else if cns = 0x02 then
    let ids := (s.namespaces.filter fun e => e.2.client = c && decide (nsid < e.1)).map Prod.fst
    let all := if nsid < 1 then 1 :: ids else ids
    some (placed 4096 [(0, (all.map fun i => leBytes 4 i).flatten)], s)
  else if cns = 0x1C then some (placed 4096 [(0, leBytes 8 1), (8, leBytes 8 (1 + 2 ^ 48))], s)
  else if cns = 0x05 || cns = 0x06 || cns = 0x08 then some (s.freeBytes 4096)
  else none

/-- IDENTIFY (R414, R415). -/
def execIdentify (cid : Cid) (cns nsid : Nat) (s : State) : Host.Outcome State Fault Refusal :=
  settled (s.admin cid fun t =>
    if !([0x00, 0x01, 0x02, 0x05, 0x06, 0x08, 0x1C].contains cns) then t.failNvme cid 0 scField true 0
    else
      match t.identifyData cid.c cns nsid with
      | some (d, t1) => (t1.emit (.hostData cid.c cid.q cid.id d)).succeed cid 0 0
      | none => t.failNvme cid 0 scNamespace true 0)

/-- The critical warning bits of the SMART log of client c (R416, R517, R545). -/
def State.criticalWarning (s : State) (c : Nat) : Nat :=
  let low := s.ftl.dies.any fun e => decide (e.2.status = 0) && decide (e.2.reserve < s.fld R.FTL_RSV_WARN 15 0)
  (if low then 1 else 0) + (if s.sys.causes.testBit 0 || s.sys.causes.testBit (1 + c) then 2 else 0) + (if s.readOnly then 8 else 0) + (if s.noWrite then 16 else 0)

/-- A temperature in 1/16 °C as kelvin. -/
def kelvin (t : Int) : Nat := ((t + 8) / 16 + 273).toNat

/-- The SMART / Health log (R416, R545), at the places NVM Express gives the fields (log entry 8). -/
def State.smartLog (s : State) (c : Nat) : List Byte :=
  placed 512 [(0, leBytes 1 (s.criticalWarning c)), (1, leBytes 2 (kelvin (s.sys.temps.getD 8 0))), (5, leBytes 1 (min s.life 255))]

/-- The Firmware Slot Information log (R416): the active slot, and the revision of each endpaper (log entry 8). -/
def State.firmwareLog (s : State) : List Byte :=
  placed 512 [(0, [if s.bit R.NOR_STAT 0 then 2 else 1]), (8, s.nor.front.fr), (16, s.nor.back.fr)]

/-- The Commands Supported and Effects log (R414, R416, R419, R425): a supported command has bit 0 set (log entry 8). -/
def effectsLog : List Byte :=
  let admin := [0x00, 0x01, 0x02, 0x04, 0x05, 0x06, 0x08, 0x09, 0x0A, 0x0C, 0x10, 0x11]
  let io := [0x00, 0x01, 0x02, 0x08, 0x09, 0x81, 0x82, 0x84, 0x85, 0x86, 0x88, 0x8C, 0x8D, 0x90, 0x91] ++
    [0x94, 0x95, 0x96, 0x97, 0x98, 0x99, 0x9A, 0x9B, 0x9C, 0x9D]
  placed 4096 (admin.map (fun o => (4 * o, [1])) ++ io.map (fun o => (1024 + 4 * o, [1])))

/-- The entries of the ring from the oldest (R453). -/
def State.ringBytes (s : State) : List Byte :=
  let h := s.rd R.ERR_HEAD
  let n := min h 4096
  ((List.range n).map fun i =>
    match kvFind s.err.ring ((h - n + i) % 4096) with
    | some e => e.bytes
    | none => []).flatten

/-- The content of a log page (R416). -/
def State.logPage (s : State) (c lid : Nat) : Option (List Byte) :=
  if lid = 0x01 then some (((s.ctrl c).errors.map fun e => placed 64 [(0, e)]).flatten)
  else if lid = 0x02 then some (s.smartLog c)
  else if lid = 0x03 then some s.firmwareLog
  else if lid = 0x05 then some effectsLog
  else if lid = 0xC0 then some (((kvGet [] s.err.clients c).reverse.map Report.clientBytes).flatten)
  else if lid = 0xC1 then some s.ringBytes
  else none

/-- The event type a read of a log page re-arms (R417). -/
def aerTypeOf (lid : Nat) : Nat := if lid = 0x01 then 0 else if lid = 0x02 then 1 else if lid = 0x03 then 2 else 7

/-- GET_LOG_PAGE (R416, R417). -/
def execGetLogPage (cid : Cid) (lid off len : Nat) (rae : Bool) (s : State) : Host.Outcome State Fault Refusal :=
  settled (s.admin cid fun t =>
    match t.logPage cid.c lid with
    | none => t.failNvme cid 1 0x09 true 0
    | some d =>
      if lid = 0xC1 && cid.c ≠ 0 then t.failNvme cid 2 0x86 true 0
      else
        let x := t.ctrl cid.c
        let t1 := if rae || lid = 0x05 || lid = 0xC1 then t
          else t.setCtrl cid.c { x with reported := x.reported.filter fun y => y ≠ aerTypeOf lid }
        (t1.emit (.hostData cid.c cid.q cid.id ((d.drop off).take len))).succeed cid 0 0)

/-- The features supported (R414). -/
def featureOk (fid : Nat) : Bool := [0x01, 0x02, 0x04, 0x07, 0x08, 0x09, 0x0B, 0x19].contains fid

/-- The queue pairs a Set Features Number of Queues grants: the smallest of the count requested, the client's ceiling less what
it holds, and the free pool (R410). -/
def State.queueGrant (s : State) (c want : Nat) : Nat :=
  min want (min (s.forceFld (R.HIF_QMAX c) 10 0 - s.rd (R.HIF_QUSE c)) (s.rd R.HIF_QFREE))

/-- SET_FEATURES (R410, R414, R424). -/
def execSetFeatures (cid : Cid) (fid : Nat) (v : BitVec 32) (s : State) : Host.Outcome State Fault Refusal :=
  settled (s.admin cid fun t =>
    if !featureOk fid then t.failNvme cid 0 scField true 0
    else if fid = 0x07 then
      let want := max (v.toNat % 65536) (v.toNat / 65536) + 1
      let g := t.queueGrant cid.c want
      let t1 := (t.wr (R.HIF_QUSE cid.c) (t.rd (R.HIF_QUSE cid.c) + g)).wr R.HIF_QFREE (t.rd R.HIF_QFREE - g)
      if g = 0 then
        let (x, t2) := t1.free
        t2.succeed cid (x % 2 ^ 32) 0
      else t1.succeed cid ((g - 1) * 65537) 0
    else
      let x := t.ctrl cid.c
      (t.setCtrl cid.c { x with features := kvPut x.features fid v.toNat }).succeed cid 0 0)

/-- GET_FEATURES (R414). -/
def execGetFeatures (cid : Cid) (fid : Nat) (v : BitVec 32) (s : State) : Host.Outcome State Fault Refusal :=
  let _ := v
  settled (s.admin cid fun t =>
    if !featureOk fid then t.failNvme cid 0 scField true 0
    else if fid = 0x07 then
      let g := t.rd (R.HIF_QUSE cid.c)
      if g = 0 then
        let (x, t2) := t.free
        t2.succeed cid (x % 2 ^ 32) 0
      else t.succeed cid ((g - 1) * 65537) 0
    else t.succeed cid (kvGet 0 (t.ctrl cid.c).features fid) 0)

/-- The class code of each logical device's function: NVM Express (R405). No row of the table reads it. -/
def classCode : Nat := 0x010802

/-- What CAP says of a controller: queues in physically contiguous memory (R410), queues of up to CAP.MQES + 1 entries (R410), and weighted
round robin with urgent priority (R411); at the places of NVM Express (log entry 8). -/
def capCqr : Nat := 1
def capMqes : Nat := 4095
def capAms : Nat := 1
def ctrlCap : Nat := capMqes + capCqr * 2 ^ 16 + capAms * 2 ^ 17

/-- CSTS.RDY: the controller is ready, as CC.EN is set (R405, R410). -/
def Ctrl.ready (x : Ctrl) : Bool := x.en

/-- May a queue have a size: 2 to CAP.MQES + 1 entries (R410)? -/
def queueSize (n : Nat) : Bool := decide (2 ≤ n) && decide (n ≤ capMqes + 1)

/-- CREATE_IO_SUBMISSION_QUEUE (R410, R411). -/
def execCreateIoSubmissionQueue (cid : Cid) (q size : Nat) (prio : Fin 4) (cq : Nat) (contiguous : Bool) (s : State) :
    Host.Outcome State Fault Refusal :=
  settled (s.admin cid fun t =>
    let x := t.ctrl cid.c
    if q = 0 || t.rd (R.HIF_QUSE cid.c) < q || (kvFind x.sqs q).isSome then t.failNvme cid 1 0x01 true 0
    else if !queueSize size then t.failNvme cid 1 0x02 true 0
    else if cq = 0 || (kvFind x.cqs cq).isNone then t.failNvme cid 1 0x00 true 0
    else if !contiguous then t.failNvme cid 0 scField true 0
    else (t.setCtrl cid.c { x with sqs := kvPut x.sqs q ⟨size, prio.val, cq, 0, 0, [], none⟩ }).succeed cid 0 0)

/-- CREATE_IO_COMPLETION_QUEUE (R410, R412). -/
def execCreateIoCompletionQueue (cid : Cid) (q size vector : Nat) (ien contiguous : Bool) (s : State) :
    Host.Outcome State Fault Refusal :=
  settled (s.admin cid fun t =>
    let x := t.ctrl cid.c
    if q = 0 || t.rd (R.HIF_QUSE cid.c) < q || (kvFind x.cqs q).isSome then t.failNvme cid 1 0x01 true 0
    else if !queueSize size then t.failNvme cid 1 0x02 true 0
    else if 48 ≤ vector then t.failNvme cid 1 0x08 true 0
    else if !contiguous then t.failNvme cid 0 scField true 0
    else (t.setCtrl cid.c { x with cqs := kvPut x.cqs q ⟨size, vector, ien, 0, 0, true, []⟩ }).succeed cid 0 0)

/-- A RUN of a client's queue. -/
def ofQueue (c q : Nat) (m : RunCmd) : Bool := m.cid.c.val = c && m.cid.q = q

/-- DELETE_IO_SUBMISSION_QUEUE: Gonum commands not admitted complete with ABORTED, admitted runs and NVM commands complete
first, and the delete completes last (R431). -/
def execDeleteIoSubmissionQueue (cid : Cid) (q : Nat) (s : State) : Host.Outcome State Fault Refusal :=
  settled (s.admin cid fun t =>
    let x := t.ctrl cid.c
    match kvFind x.sqs q with
    | none => t.failNvme cid 1 0x01 true 0
    | some sq =>
      if q = 0 then t.failNvme cid 1 0x01 true 0
      else
        let t1 := t.setCtrl cid.c { x with sqs := kvPut x.sqs q { sq with deleting := some cid.id } }
        (t1.takeBack (ofQueue cid.c q) fun u m => u.failGonum m.cid 0x4B 0).finishDelete cid.c q)

/-- DELETE_IO_COMPLETION_QUEUE: not while a submission queue uses it (R410). -/
def execDeleteIoCompletionQueue (cid : Cid) (q : Nat) (s : State) : Host.Outcome State Fault Refusal :=
  settled (s.admin cid fun t =>
    let x := t.ctrl cid.c
    if q = 0 || (kvFind x.cqs q).isNone then t.failNvme cid 1 0x01 true 0
    else if x.sqs.any fun e => e.2.cq = q then t.failNvme cid 1 0x0C true 0
    else (t.setCtrl cid.c { x with cqs := kvErase x.cqs q }).postingDone.succeed cid 0 0)

/-- ABORT: a Gonum command not yet fetched, or a RUN queued or FORMED, completes with ABORTED and DW0[0] is 0; every other
fetched command runs to its end and DW0[0] is 1 (R429). -/
def execAbort (cid : Cid) (q id : Nat) (s : State) : Host.Outcome State Fault Refusal :=
  settled (s.admin cid fun t =>
    let x := t.ctrl cid.c
    let target : Cid := ⟨cid.c, q, id⟩
    let mine (m : RunCmd) : Bool := decide (m.cid = target)
    match kvFind x.sqs q with
    | none => t.succeed cid 1 0
    | some sq =>
      if q ≠ 0 && sq.ids.contains (id, true) then
        let sq1 := { sq with ids := sq.ids.erase (id, true), head := (sq.head + 1) % (max sq.size 1) }
        let x1 := { x with sqs := kvPut x.sqs q sq1, fetched := x.fetched ++ [(q, id)] }
        ((t.setCtrl cid.c x1).failGonum target 0x4B 0).succeed cid 0 0
      else if t.unadmitted mine then (t.takeBack mine fun u m => u.failGonum m.cid 0x4B 0).succeed cid 0 0
      else t.succeed cid 1 0)

/-- ASYNCHRONOUS_EVENT_REQUEST: it waits, up to 8 at a time, and completes at once when an event waits (R414, R417). -/
def execAsynchronousEventRequest (cid : Cid) (s : State) : Host.Outcome State Fault Refusal :=
  settled (s.admin cid fun t =>
    let x := t.ctrl cid.c
    if 8 ≤ x.aers.length then t.failNvme cid 1 0x05 true 0
    else (t.setCtrl cid.c { x with aers := x.aers ++ [cid.id] }).deliverAer cid.c)

/-! Controllers and logical devices. -/

/-- The queue pairs of a logical device go back to the pool (R406, R410). -/
def State.returnQueues (s : State) (c : Nat) : State :=
  (s.wr R.HIF_QFREE (s.rd R.HIF_QFREE + s.rd (R.HIF_QUSE c))).wr (R.HIF_QUSE c) 0

/-- CC_EN_WRITE: enabling makes the admin queues, clearing deletes the queues and ends the grant (R410). With an admin queue of a size that
R410 does not allow the controller stays disabled (DESIGN CHOICE; log entry 45). -/
def execCcEnWrite (c : Client) (v : Bool) (asqs acqs : Nat) (s : State) : Host.Outcome State Fault Refusal :=
  let x := s.ctrl c
  if !s.reached c then settled s
  else if v then
    if x.en || !queueSize asqs || !queueSize acqs then settled s
    else settled (s.setCtrl c { noCtrl with
      en := true
      sqs := [(0, ⟨asqs, 0, 0, 0, 0, [], none⟩)]
      cqs := [(0, ⟨acqs, 0, true, 0, 0, true, []⟩)] })
  else settled ((s.setCtrl c noCtrl).returnQueues c).postingDone

/-- A client's commands are no one's any more: runs in progress post nothing, writes in flight and zero fills complete unseen (R406). -/
def State.orphan (s : State) (c : Nat) : State :=
  let dead (cid : Cid) : Cid := if cid.c.val = c && cid.q ≠ pmbQ then { cid with q := deadQ } else cid
  let runs := s.sched.runs.map fun e => (e.1, { e.2 with cmds := e.2.cmds.map fun m => { m with cid := dead m.cid } })
  let writes := s.ftl.writes.map fun e => (e.1, { e.2 with cid := e.2.cid.map dead })
  let fills := s.tiers.pendingFills.map fun e => (e.1, dead e.2.1, e.2.2)
  { s with
    tiers := { s.tiers with pendingFills := fills }
    nor := { s.nor with activation := s.nor.activation.map dead }
    sched := { s.sched with runs := runs }
    ftl := { s.ftl with writes := writes, flushes := s.ftl.flushes.filter fun f => f.1.c.val ≠ c } }

/-- LOGICAL_DEVICE_RESET (R406): it resets the function too, which is in D0 afterwards (R402). -/
def execLogicalDeviceReset (n : Client) (s : State) : Host.Outcome State Fault Refusal :=
  let mine (m : RunCmd) : Bool := m.cid.c.val = n.val && m.cid.q ≠ pmbQ
  let busy := (s.ctrl n).fetched.any fun f => !(f.1 = 0 && (s.ctrl n).aers.contains f.2)
  let s0 : State := { s with fns := kvErase s.fns n }
  let s1 := ((((((s0.takeBack mine fun u _ => u).dropMoves n).orphan n).setCtrl n noCtrl)).returnQueues n).postingDone
  settled (if busy then s1.raise pageHif 0x1008 (some n.val) 0 0 else s1)

/-- HDM_DECODER_COMMIT: TQ_CXLM_STAT[0] shows whether the decoder is committed (R199). It takes its base, size and ways while it is
not, and a commit of more than one way, which it does not support, leaves it uncommitted (R198). -/
def execHdmDecoderCommit (n : Client) (decoder : Option Hdm) (s : State) : Host.Outcome State Fault Refusal :=
  settled <|
    if !s.reached n then s
    else
    match decoder with
    | none => s.setBit (R.TQ_CXLM_STAT n) 0 false
    | some x =>
      if s.bit (R.TQ_CXLM_STAT n) 0 then s
      else
        ({ s with tiers := { s.tiers with hdm := kvPut s.tiers.hdm n x } } : State).setBit (R.TQ_CXLM_STAT n) 0 (decide (x.ways = 1))

/-! The host link (R402, R403, R432). -/

/-- HOST_LINK_TRAINING: to a width and a rate of R402, with HIF_LINK, and events when it is again, or below the full link (R403, R432). -/
def execHostLinkTraining (width rate : Nat) (lowLatency again : Bool) (s : State) : Host.Outcome State Fault Refusal :=
  if !([1, 2, 4, 8].contains width) || !([8, 16, 32, 64].contains rate) then settled s
  else
    let v := width + rate * 16 + 2 ^ 11 + 2 ^ 12 + (if lowLatency then 2 ^ 13 else 0)
    let s1 := ({ s with linkL1 := false }.wr R.HIF_LINK v).setIrq pageHif 4 1
    let s2 := if again then (s1.countSat R.HIF_RETRAIN 1).raise pageHif 0x1005 none 0 0 else s1
    settled (if width < 8 || rate < 64 then s2.raise pageHif 0x1006 none 0 0 else s2)

/-- HOST_LINK_LOSS (R432). -/
def execHostLinkLoss (s : State) : Host.Outcome State Fault Refusal :=
  settled (((s.setFld R.HIF_LINK 12 11 0).setIrq pageHif 4 1).raise pageHif 0x1005 none 0 0)

/-! The fabric manager and DOE (R404, R405). -/

/-- GET_LD_INFO: the number of logical devices; the rest of the response is not stated (log entry 7). -/
def execGetLdInfo (s : State) : Host.Outcome State Fault Refusal :=
  let (a, s1) := s.freeBytes 8
  let (b, s2) := s1.freeBytes 1
  settled (s2.emit (.response 0x5400 0 (a ++ leBytes 2 16 ++ b)))

/-- GET_LD_ALLOCATIONS: the bindings of `count` logical devices from `first` (log entry 7). -/
def execGetLdAllocations (first count : Nat) (s : State) : Host.Outcome State Fault Refusal :=
  let n := min count (16 - first)
  settled (s.emit (.response 0x5401 0 ((List.range n).map fun i => if s.bit R.HIF_LD_EN (first + i) then 1 else 0)))

/-- SET_LD_ALLOCATIONS: HIF_LD_EN follows the bindings; an unbound client keeps all it has, and no host reaches it (R404, `State.reached`). -/
def execSetLdAllocations (first : Nat) (bound : List Bool) (s : State) : Host.Outcome State Fault Refusal :=
  let idx := (List.range bound.length).filter fun i => first + i < 16
  let s1 := idx.foldl (fun t i => t.setBit R.HIF_LD_EN (first + i) (bound.getD i false)) s
  settled (s1.emit (.response 0x5402 0 (idx.map fun i => if bound.getD i false then 1 else 0)))

/-- DOE_DISCOVERY: the protocol at an index and the next index (R405): Discovery, CXL Table Access, Talmel attestation. -/
def execDoeDiscovery (c : Client) (index : Nat) (s : State) : Host.Outcome State Fault Refusal :=
  let entry (v t next : Nat) : List Byte := leBytes 2 v ++ leBytes 1 t ++ leBytes 1 next
  let p := if index = 0 then entry 0x0001 0x00 1 else if index = 1 then entry 0x1E98 0x02 2
    else if index = 2 then entry Config.vendorId 0x01 0 else entry 0xFFFF 0 0
  settled (if s.reached c then s.emit (.hostData c 0 0 p) else s)

/-- The range size reported to the host software of a client: its window (R199). -/
def State.rangeSize (s : State) (c : Nat) : Nat := s.rd (R.TQ_CXLM c) * 2 ^ 28

/-- CXL_TABLE_ACCESS: the range size, and an entry of the module's CDAT (R199, R405). -/
def execCxlTableAccess (c : Client) (entry : Nat) (s : State) : Host.Outcome State Fault Refusal :=
  settled (if s.reached c then
      (s.emit (.cxlRange c (s.rangeSize c))).emit (.hostData c 0 0 (Config.cdat (s.rangeSize c) entry))
    else s)

/-! CXL.mem (R198 to R201, R440, R449, R512). -/

/-- The window of a client that a host reaches and that its decoder opens: committed, allocated and filled, after the release of RB#. An access comes with its offset in
the window, and the decoder's base and size take no part in it (DESIGN CHOICE; log entry 30). -/
def State.window (s : State) (c : Nat) : Option Nat :=
  if s.reached c && s.released && s.bit (R.TQ_CXLM_STAT c) 0 && s.bit (R.TQ_CXLM_STAT c) 1 then kvFind s.tiers.cxlm c else none

/-- CXL_MEM_READ: window data; poisoned words make the response all-ones with the poison indication, event 0x4009 (R449). -/
def execCxlMemRead (c : Client) (addr len : Nat) (ecc : List EccFault) (s : State) : Host.Outcome State Fault Refusal :=
  match s.window c with
  | none => settled s
  | some h =>
    match s.region h with
    | none => settled s
    | some r =>
      if r.bytes < addr + len then settled s
      else
        let s1 := s.eccRead h addr ecc
        if s1.memReadPoison h addr len then
          settled (((s1.emit (.cxlMem c (List.replicate len 0xFF) true)).poisonSeen pageHif).raise pageErr 0x4009 (some c.val) addr 0)
        else settled (s1.emit (.cxlMem c (s1.memRead h addr len) false))

/-- CXL_MEM_WRITE: the bytes reach the window and the write completes; a write of part of a word, or into a block with an open
entry, goes through the merge buffer; poisoned data poisons each word written, event 0x400A (R200, R440, R447). -/
def execCxlMemWrite (c : Client) (addr : Nat) (data : List Byte) (poison : Bool) (dev : DevNo) (block : Nat) (s : State) :
    Host.Outcome State Fault Refusal :=
  match s.window c with
  | none => settled s
  | some h =>
    match s.region h with
    | none => settled s
    | some r =>
      let at_ := addr % 64
      if r.bytes < addr + data.length || 64 < at_ + data.length then settled s
      else
        let s1 := s.memWrite h addr data poison
        let whole := addr % 8 = 0 && data.length % 8 = 0
        let key := dev.val * 2 ^ 34 + block
        let s2 := if (!whole || (kvFind s1.devs.merge key).isSome) && !poison then
            s1.mergeWrite dev block h (addr / 64 * 64) at_ data
          else
            let w0 := addr / 8
            (List.range ((addr + data.length + 7) / 8 - w0)).foldl (fun t i =>
              let a := block * 64 + ((w0 + i) * 8) % 64
              t.setDevWord dev a (bchEncode (ofLe (t.memRead h ((w0 + i) * 8) 8)) poison a)) s1
        let s3 := s2.emit (.cxlMem c [] false)
        settled (if poison then s3.raise pageErr 0x400A (some c.val) addr 0 else s3)

/-! The attention pattern (R408, R409). -/

/-- The pattern begins: three low pulses, which end 10 µs from now when no busy condition cuts them (R409, `State.attnCut`), and nothing is
due until SYS_ATTN has been read. -/
def State.emitPattern (s : State) : State :=
  let s1 := (s.emit .attention).countSat R.HIF_ATTN_CNT 1
  { s1 with attnWanted := .no, sys := { s1.sys with patternEnd := some (s1.etime + 10 * tickUs), attnRead := false } }

/-- Is the module ready with RB# released? -/
def State.rbReady (s : State) : Bool := s.rd R.SYS_STATE = 6 && !s.sys.low

/-- ATTENTION_PATTERN: the pattern of an attention that arose while the module was ready, with no pattern before it (R408). -/
def execAttentionPattern (s : State) : Host.Outcome State Fault Refusal :=
  settled (if s.attnWanted = .ready && s.rbReady && s.sys.patternEnd.isNone then s.emitPattern else s)

/-- ATTENTION_REEMIT: the attention of a busy interval is emitted 100 µs after its release (R409), and one that arose while the module was
ready once SYS_ATTN has been read and 1 ms has passed since the last pattern (R408). -/
def execAttentionReemit (s : State) : Host.Outcome State Fault Refusal :=
  settled <|
    if !s.rbReady then s
    else
      match s.attnWanted, s.sys.patternEnd with
      | .no, _ | .ready, none => s
      | .busy, _ => (s.elapse (s.sys.releasedAt + 100 * tickUs - s.etime)).emitPattern
      | .ready, some t => if s.sys.attnRead then (s.elapse (t + 1000 * tickUs - s.etime)).emitPattern else s

end Sys2Proof.Machine
end

