-- ==== Sys2Proof/Machine/Security.lean ====
section
/-! DEFINITION. Attestation requests (R473 to R475) and the diagnostic unlock (R478). -/

namespace Sys2Proof.Machine

/-- The statuses of R474. -/
def stMalformed : Nat := 1
def stUnsupported : Nat := 2
def stBusy : Nat := 3
def stIdentity : Nat := 4
def stRange : Nat := 5
def stRefused : Nat := 6
def stNotPermitted : Nat := 7

/-- Does a request come by its path: a DOE mailbox takes one only of a logical device that a host reaches (R404)? -/
def AttPath.arrives (p : AttPath) (s : State) : Bool :=
  match p with
  | .doe c => s.reached c
  | .sideband => true

/-- The frame of an attestation request: the checks of R474 in the order of its table, BUSY first, and then what the request
does, which answers a status and a payload. Without its supply the management domain answers nothing, and in AUX the security unit
does not (R506, R522). `unit` says that the security unit serves it, so that a firmware activation makes it
BUSY too (R473, R482). -/
def State.attest (s : State) (path : AttPath) (h : MsgHead) (p : List Byte) (busy : Bool) (code : Nat) (unit : Bool)
    (eff : State → (Nat × List Byte) × State) : State :=
  let say (t : State) (st : Nat) (d : List Byte) : State := t.respond path 0x7A90 h st d
  if !s.sys.aux || (unit && s.rd R.SYS_STATE = 0) || !AttPath.arrives path s then s
  else if busy || (unit && s.nor.running) then say s stBusy []
  else if h.magic ≠ 0x7A90 || p.length < h.len || h.status ≠ 0 then say s stMalformed []
  else if h.version ≠ 1 || h.code ≠ code then say s stUnsupported []
  else if !s.bit R.SEC_STAT 0 then say s stIdentity []
  else
    let (r, t) := eff s
    say t r.1 r.2

/-- GET_VERSION (R473). -/
def execGetVersion (path : AttPath) (h : MsgHead) (p : List Byte) (busy : Bool) (s : State) : Host.Outcome State Fault Refusal :=
  settled (s.attest path h p busy 0x01 false fun t => ((0, [1]), t))

/-- GET_DIGEST (R473). -/
def execGetDigest (path : AttPath) (h : MsgHead) (p : List Byte) (busy : Bool) (s : State) : Host.Outcome State Fault Refusal :=
  settled (s.attest path h p busy 0x02 false fun t => ((0, t.identity ++ leBytes 4 (t.rd R.SEC_STAT)), t))

/-- Bytes i to i + n − 1 of a payload as a number. -/
def field (p : List Byte) (i n : Nat) : Nat := ofLe ((p.drop i).take n)

/-- GET_CERT (R473): a request too short to hold its fields is malformed. -/
def execGetCert (path : AttPath) (h : MsgHead) (p : List Byte) (busy : Bool) (s : State) : Host.Outcome State Fault Refusal :=
  settled (s.attest path h p busy 0x03 false fun t =>
    let off := field p 0 4
    let n := field p 4 4
    let chain := t.certChain
    if h.len < 8 then ((stMalformed, []), t)
    else if n = 0 || 4096 < n || chain.length < off + n then ((stRange, []), t)
    else ((0, leBytes 4 chain.length ++ (chain.drop off).take n), t))

/-- Values and counts of the slots a mask names, in order (R473, R475). -/
def State.slotBytes (s : State) (mask : Nat) : List Byte :=
  ((List.range 8).filter fun i => mask.testBit i).flatMap fun i => s.slotValue i ++ leBytes 8 (s.slotCount i)

/-- GET_MEAS (R473). -/
def execGetMeas (path : AttPath) (h : MsgHead) (p : List Byte) (busy : Bool) (s : State) : Host.Outcome State Fault Refusal :=
  settled (s.attest path h p busy 0x04 true fun t =>
    let mask := field p 0 2
    if h.len < 2 || 256 ≤ mask then ((stMalformed, []), t)
    else if mask = 0 then ((stRange, []), t)
    else ((0, t.slotBytes mask), t))

/-- The signed part of a quote (R475). -/
def State.quoteBody (s : State) (path : AttPath) (nonce : List Byte) (mask : Nat) : List Byte :=
  let who := match path with
    | .doe n => n.val
    | .sideband => 16
  nonce ++ s.identity ++ shake256 s.sec.ak 32 ++ dtBytes s.dtime ++
    leBytes 1 (s.tmbState + (s.bit R.TMB_STAT 3).toNat * 8) ++ leBytes 1 who ++ leBytes 2 mask ++
    leBytes 8 (s.rd R.SEC_RIGHTS_GEN) ++ leBytes 4 (s.rd (R.PG_ID pageSys)) ++ leBytes 4 0 ++ s.slotBytes mask

/-- A signature of 3,309 bytes (R475). -/
def signature (key msg : List Byte) : List Byte :=
  let g := Config.sign key msg
  (List.range 3309).map fun i => g.getD i 0

/-- QUOTE (R475). -/
def execQuote (path : AttPath) (h : MsgHead) (p : List Byte) (busy : Bool) (s : State) : Host.Outcome State Fault Refusal :=
  settled (s.attest path h p busy 0x05 true fun t =>
    let mask := field p 32 2
    if h.len < 34 || 256 ≤ mask then ((stMalformed, []), t)
    else if mask = 0 then ((stRange, []), t)
    else
      let body := t.quoteBody path (p.take 32) mask
      ((0, body ++ signature t.sec.ak (ascii "Lanrin-quote" ++ body)), t.count R.SEC_QUOTES 1))

/-- An entry of the measurement log as GET_LOG sends it (R471): the slot, the event type, D and the event data; the spec gives no
layout (log entry 17). -/
def MeasLog.bytes (e : MeasLog) : List Byte :=
  leBytes 1 e.slot ++ leBytes 1 e.kind ++ leBytes 2 e.data.length ++ e.digest ++ e.data

/-- GET_LOG (R473). -/
def execGetLog (path : AttPath) (h : MsgHead) (p : List Byte) (busy : Bool) (s : State) : Host.Outcome State Fault Refusal :=
  settled (s.attest path h p busy 0x06 true fun t =>
    let first := field p 0 4
    let n := field p 4 4
    if h.len < 8 then ((stMalformed, []), t)
    else if n = 0 || 32 < n || t.sec.log.length < first + n then ((stRange, []), t)
    else ((0, ((t.sec.log.drop first).take n).flatMap MeasLog.bytes), t))

/-- May a path carry the diagnostic requests (R474, R478)? -/
def AttPath.supervisor : AttPath → Bool
  | .doe n => n.val = 0
  | .sideband => true

/-- DIAG_NONCE (R478). -/
def execDiagNonce (path : AttPath) (h : MsgHead) (p : List Byte) (busy : Bool) (s : State) : Host.Outcome State Fault Refusal :=
  settled (s.attest path h p busy 0x07 true fun t =>
    if !AttPath.supervisor path then ((stNotPermitted, []), t)
    else
      let (n, t1) := t.freeBytes 32
      ((0, n), { t1 with sec := { t1.sec with nonce := some n } }))

/-- The unlock begins: its pages, its end, and its event (R478). -/
def State.unlock (s : State) (pages measures : Nat) : State :=
  let s1 := { s with sec := { s.sec with pages := pages, endsAt := s.msr.count + measures, nonce := none } }
  ((s1.setBit R.SEC_STAT 2 true).setIrq pageSec 5 9).raise pageSec 0x9005 none 0 0

/-- The unlock ends (R478). -/
def State.lockDiag (s : State) : State :=
  if s.bit R.SEC_STAT 2 then
    let s1 := { s with sec := { s.sec with pages := 0, endsAt := 0 } }
    ((s1.setBit R.SEC_STAT 2 false).setIrq pageSec 5 9).raise pageSec 0x9005 none 0 0
  else s

/-- DIAG_UNLOCK (R478). -/
def execDiagUnlock (path : AttPath) (h : MsgHead) (p : List Byte) (busy : Bool) (sigOk : Bool) (s : State) :
    Host.Outcome State Fault Refusal :=
  settled (s.attest path h p busy 0x08 true fun t =>
    if !AttPath.supervisor path then ((stNotPermitted, []), t)
    else
      let expiry := field p 64 8
      let good := sigOk && h.len = 3405 && t.sec.nonce = some (p.take 32) && t.identity = (p.drop 32).take 32 &&
        decide (1 ≤ expiry) && decide (expiry ≤ 0x100000000) && field p 74 22 = 0
      if good then ((0, []), (t.extend 7 (p.take 32 ++ leBytes 8 expiry)).unlock (field p 72 2) expiry)
      else
        let t1 := { t with sec := { t.sec with nonce := none } }
        ((stRefused, []), t1.raise pageSec 0x9004 none 0 0))

/-- DIAG_UNLOCK_EXPIRY (R478). -/
def execDiagUnlockExpiry (s : State) : Host.Outcome State Fault Refusal :=
  settled (if s.bit R.SEC_STAT 2 && s.sec.endsAt ≤ s.msr.count then s.lockDiag else s)

/-- LOCK (R478, R485). -/
def execLock (c : Client) (s : State) : Host.Outcome State Fault Refusal :=
  settled (s.command c R.SEC_DIAG_CTL 1 fun t _ raw => if raw.testBit 0 then t.lockDiag else t)

end Sys2Proof.Machine
end

