-- ==== Sys2Proof/Machine/Firmware.lean ====
section
/-! DEFINITION. The firmware store: images and their validity (R491, R492), the endpapers and the selector (R494, R495), the rollback
counter (R493), download, commit and activation (R498 to R500), confirmation (R496) and ROM recovery (R497). -/

namespace Sys2Proof.Machine

/-! Images (R491, R492). -/

/-- The largest image, the header and the signature of an image, in bytes (R491). -/
def fwMax : Nat := 8388608
def fwHeader : Nat := 256
def fwSig : Nat := 3309

/-- The image that bytes spell: its header, with MAGIC, VERSION and LEN checked against the bytes, and whether BODY_DIGEST matches its
body (R491). -/
def parseImage (bs : List Byte) : FwImage :=
  let len := field bs 4 4
  let digest := (bs.drop 32).take 64
  let ok := decide (fwHeader ≤ bs.length) && field bs 0 2 = 0x7AB0 && field bs 2 1 = 1 &&
    decide (fwHeader + fwSig ≤ len) && decide (len ≤ bs.length) && decide (len ≤ fwMax)
  { magicOk := ok, raise := (field bs 3 1).testBit 0, len := len, part := field bs 8 4, svn := field bs 12 2
    fwver := field bs 16 4, fr := (bs.drop 20).take 8, seq := field bs 28 4, bodyDigest := digest
    digestOk := ok && shake256 ((bs.drop fwHeader).take (len - fwHeader - fwSig)) 64 = digest, bytes := bs.take len }

/-- The median of the three rollback copies (R493). -/
def State.rollbackNow (s : State) : Nat :=
  match s.nor.rollback with
  | [a, b, c] => max (min a b) (min (max a b) c)
  | _ => 0

/-- The event of the first check that an image fails, in the order header, signature and digest, SVN; none when it is valid (R492). -/
def State.imageFault (s : State) (im : FwImage) (sigOk : Bool) : Option Nat :=
  if !im.magicOk || im.part ≠ 0x882400A1 then some 0xA001
  else if !sigOk || !im.digestOk then some 0xA002
  else if im.svn < s.rollbackNow then some 0xA003
  else none

/-! The endpapers and the selector (R494, R495). -/

/-- The image of an endpaper. -/
def State.endpaper (s : State) (back : Bool) : FwImage := if back then s.nor.back else s.nor.front

/-- The endpaper whose firmware runs. -/
def State.runsBack (s : State) : Bool := s.bit R.NOR_STAT 0

/-- The validity of an endpaper is known: NOR_STAT[2] or [3]. -/
def State.setValid (s : State) (back v : Bool) : State := s.setBit R.NOR_STAT (if back then 3 else 2) v

/-- An endpaper takes an image. -/
def State.putEndpaper (s : State) (back : Bool) (im : FwImage) : State :=
  { s with nor := if back then { s.nor with back := im } else { s.nor with front := im } }

/-- All three selector copies take a record; ATTEMPT records before it no longer follow it (R495). -/
def State.setSelector (s : State) (back trial : Bool) (seq : Nat) : State :=
  let s1 := ({ s with nor := { s.nor with selectors := List.replicate 3 ⟨back, trial, seq⟩, attempts := [] } }).norLog logSelector
    (.selector s.nor.selectors s.nor.attempts)
  s1.setBit R.NOR_STAT 1 trial

/-- The record that at least two copies hold (R444). -/
def votedSelector : List Selector → Option Selector
  | [a, b, c] => if a = b || a = c then some a else if b = c then some b else none
  | _ => none

/-- Every sector of an endpaper is erased once, after its header has been made invalid, the banks finishing what was in progress in them
(R494); none is left undefined. -/
def State.eraseEndpaper (s : State) (back : Bool) : State :=
  let first := 2048 * back.toNat
  let s1 := (List.range 16).foldl (fun t i =>
    let b := t.norBank i
    b.erases.foldl (fun u e => u.norErased e.sector (e.since + e.left)) (t.setNorBank i { b with erases := [] })) s.norReadAll
  ({ s1 with nor := { s1.nor with undef := s1.nor.undef.filter fun x => x / 2048 ≠ back.toNat } }).norWear first

/-- An endpaper is written and read back: whether it holds the image, with SEQ one more than the active endpaper's (R494). -/
def State.writeEndpaper (s : State) (back : Bool) (im : FwImage) (readBackOk : Bool) : Bool × State :=
  let seq := (s.endpaper s.runsBack).seq + 1
  let s1 := s.eraseEndpaper back
  let new : FwImage := { im with seq := seq, bytes := im.bytes.take 28 ++ leBytes 4 seq ++ im.bytes.drop 32 }
  if readBackOk then (true, (s1.putEndpaper back new).setValid back true)
  else
    let (x, s2) := ((s1.putEndpaper back { new with digestOk := false }).setValid back false).free
    (false, (s2.wr R.NOR_LAST_SECT (2048 * back.toNat + x % 2048)).raise pageNor 0xA004 none back.toNat 0)

/-- Slots 1 and 2 are extended with the image that starts, and with the selector, its sequence and the rollback counter (R470). -/
def State.measureFirmware (s : State) (back : Bool) : State :=
  let sel := (votedSelector s.nor.selectors).getD ⟨back, false, 0⟩
  (s.extend 1 (s.endpaper back).bytes).extend 2
    (leBytes 1 (sel.active.toNat + 2 * sel.trial.toNat) ++ leBytes 4 sel.seq ++ leBytes 2 s.rollbackNow)

/-- The management cores start in an endpaper: an ATTEMPT record for a trial, slots 1 and 2 extended (R495). -/
def State.startFirmware (s : State) (back : Bool) : State :=
  let s1 := s.setBit R.NOR_STAT 0 back
  let s2 := match votedSelector s1.nor.selectors with
    | some sel => if sel.trial && sel.active = back then
        ({ s1 with nor := { s1.nor with attempts := s1.nor.attempts ++ [sel.seq] } }).norLog logSelector
          (.selector s1.nor.selectors s1.nor.attempts) else s1
    | none => s1
  s2.measureFirmware back

/-- The boot ROM takes another endpaper than the one named: a selector naming it with TRIAL 0, and an event (R495). -/
def State.takeOther (s : State) (back : Bool) (code : Nat) : State :=
  (s.setSelector back false (s.endpaper back).seq).raise pageNor code none back.toNat 0

/-- Steps 3 and 4 of R495 for a voted selector. -/
def State.followSelector (s : State) (sel : Selector) (fault : Bool → Option Nat) : Bool × State :=
  let tries := (s.nor.attempts.filter fun q => q = sel.seq).length
  let (b, s1) := if sel.trial && decide (2 ≤ tries) then (!sel.active, s.takeOther (!sel.active) 0xA006) else (sel.active, s)
  match fault b with
  | some code => (!b, (s1.setSelector (!b) false (s1.endpaper (!b)).seq).raise pageNor code none b.toNat 0)
  | none => (b, s1)

/-- The boot ROM chooses an endpaper and starts it (R444, R495), or finds none valid and enters ROM recovery with event 0xA008. Answers
whether firmware starts. -/
def State.bootSelect (s : State) (frontSig backSig : Bool) : Bool × State :=
  let fault (b : Bool) : Option Nat := s.imageFault (s.endpaper b) (if b then backSig else frontSig)
  let s1 := ((s.norReadAll.setValid false (fault false).isNone).setValid true (fault true).isNone).setBit R.NOR_STAT 7 false
  let voted := votedSelector s1.nor.selectors
  let s2 := match voted with
    | some sel =>
      if s1.nor.selectors.all fun x => x = sel then s1
      else (({ s1 with nor := { s1.nor with selectors := List.replicate 3 sel } }).norLog logSelector
        (.selector s1.nor.selectors s1.nor.attempts)).raise pageErr 0x4007 none 512 0
    | none => s1.raise pageErr 0x4008 none 512 0
  if (fault false).isSome && (fault true).isSome then
    let named := match voted with
      | some sel => sel.active
      | none => false
    let s3 := s2.raise pageNor ((fault named).getD 0xA001) none named.toNat 0
    (false, (((s3.setBit R.NOR_STAT 6 true).toPhase 8).rbLow).raise pageNor 0xA008 none 0 0)
  else
    let (b, s3) := match voted with
      | some sel => s2.followSelector sel fault
      | none =>
        let b := if (fault false).isSome then true else if (fault true).isSome then false
          else decide (s2.nor.front.seq < s2.nor.back.seq)
        (b, (s2.takeOther b 0xA007).setBit R.NOR_STAT 7 true)
    (true, (((s3.setBit R.NOR_STAT 6 false).setBit R.NOR_STAT 1 (match votedSelector s3.nor.selectors with
      | some sel => sel.trial
      | none => false)).startFirmware b))

/-! Download (R498). -/

/-- The bytes staged without a gap from offset 0. -/
def stagedImage : Nat → List (Nat × List Byte) → List Byte
  | 0, _ => []
  | n + 1, ps =>
    match ps.find? fun p => p.1 = 0 with
    | none => []
    | some p =>
      let d := p.2.length
      p.2 ++ stagedImage n ((ps.filter fun q => q.1 ≠ 0).map fun q => (q.1 - d, q.2))

/-- What a commit finds in staging. -/
def State.staged (s : State) : List Byte := stagedImage (s.nor.staged.length + 1) s.nor.staged

/-- The shape of a firmware command: on logical device 0 only (R414), and not while a commit runs (R499). -/
def State.firmware (s : State) (cid : Cid) (eff : State → State) : State :=
  s.admin cid fun t =>
    if cid.c ≠ 0 then t.failNvme cid 2 0x86 true 0
    else if t.nor.running then t.failNvme cid 1 0x13 true 0
    else eff t

/-- May a piece be staged: on 4 KiB boundaries unless it ends the image, within 8 MiB, over no staged data (R498)? -/
def State.pieceOk (s : State) (off : Nat) (data : List Byte) : Bool :=
  let e := off + data.length
  let last := s.nor.staged.all fun p => decide (p.1 + p.2.length ≤ off)
  let clear := s.nor.staged.all fun p => decide (e ≤ p.1) || decide (p.1 + p.2.length ≤ off)
  let whole := s.nor.staged.all fun p => p.2.length % 4096 = 0 || decide (e ≤ p.1)
  !data.isEmpty && off % 4096 = 0 && decide (e ≤ fwMax) && clear && whole && (data.length % 4096 = 0 || last)

/-- FIRMWARE_IMAGE_DOWNLOAD (R498). -/
def execFirmwareImageDownload (cid : Cid) (off : Nat) (data : List Byte) (s : State) : Host.Outcome State Fault Refusal :=
  settled (s.firmware cid fun t =>
    if t.pieceOk off data then
      let t1 := { t with nor := { t.nor with staged := t.nor.staged ++ [(off, data)] } }
      let n := t1.nor.staged.foldl (fun a p => a + p.2.length) 0
      (t1.wr R.NOR_DL_STAT (n + (if t1.staged.length = n then 2 ^ 24 else 0))).succeed cid 0 0
    else (t.failNvme cid 0 scField true 0).raise pageNor 0xA00B none 0 0)

/-! Commit and activation (R499, R500). -/

/-- A Commit completes: NOR_CMT_STAT reports it, NOR signals commit done (R499, R503). -/
def State.commitDone (s : State) (cid : Cid) (sc : Nat) : State :=
  let s1 := (s.wr R.NOR_CMT_STAT (1 + sc * 256)).setIrq pageNor 4 0xA
  if sc = 0 then s1.succeed cid 0 0 else s1.failNvme cid 1 sc true 0

/-- The endpaper that a firmware slot names: 1 the front, 2 the back (R499). -/
def slotBack (slot : Nat) : Option Bool := if slot = 1 then some false else if slot = 2 then some true else none

/-- Actions 001b and 011b: the staged image is checked and written to the inactive endpaper, and the selector names it in trial; then
`done` acts (R499). -/
def State.commitStaged (s : State) (cid : Cid) (slot : Nat) (sigOk readBackOk : Bool) (done : State → Bool → State) : State :=
  match slotBack slot with
  | none => s.commitDone cid 0x06
  | some b =>
    if b = s.runsBack then s.commitDone cid 0x06
    else
      let im := { parseImage s.staged with seq := 0 }
      match s.imageFault im sigOk with
      | some code => (s.raise pageNor code none b.toNat 0).commitDone cid 0x07
      | none =>
        let (ok, s1) := s.writeEndpaper b im readBackOk
        if ok then done (s1.setSelector b true (s1.endpaper b).seq) b else s1.commitDone cid 0x07

/-- FIRMWARE_COMMIT_REPLACE (R494, R499). -/
def execFirmwareCommitReplace (cid : Cid) (slot : Nat) (sigOk readBackOk : Bool) (s : State) : Host.Outcome State Fault Refusal :=
  settled (s.firmware cid fun t => t.commitStaged cid slot sigOk readBackOk fun u _ => u.commitDone cid 0)

/-- FIRMWARE_COMMIT_SELECT (R499). -/
def execFirmwareCommitSelect (cid : Cid) (slot : Nat) (sigOk : Bool) (s : State) : Host.Outcome State Fault Refusal :=
  settled (s.firmware cid fun t =>
    match slotBack slot with
    | none => t.commitDone cid 0x06
    | some b =>
      if b = t.runsBack then t.commitDone cid 0
      else
        match t.imageFault (t.endpaper b) sigOk with
        | some code => (((t.setValid b false)).raise pageNor code none b.toNat 0).commitDone cid 0x07
        | none => ((t.setValid b true).setSelector b true (t.endpaper b).seq).commitDone cid 0)

/-- An activation starts: the notice of R417, event 0xA005, RB# low, no more commands fetched (R500). -/
def State.startActivation (s : State) (cid : Cid) (b : Bool) : State :=
  let s1 := (List.range 16).foldl (fun t c => t.aerNow c 2 1 3) s
  let s2 := { s1 with nor := { s1.nor with activation := some cid, running := true, drained := false } }
  ((((s2.wr R.NOR_CMT_STAT (6 * 2)).setBit R.NOR_STAT 5 true).toPhase 9).rbLow.setIrq pageNor 5 0xA).raise pageNor 0xA005 none
    b.toNat 0

/-- FIRMWARE_COMMIT_ACTIVATE: the endpaper is replaced, and an activation starts; the command completes with it (R499, R500). -/
def execFirmwareCommitActivate (cid : Cid) (slot : Nat) (sigOk readBackOk : Bool) (s : State) :
    Host.Outcome State Fault Refusal :=
  settled (s.firmware cid fun t => t.commitStaged cid slot sigOk readBackOk fun u b => u.startActivation cid b)

/-- Has all fetched work completed, but for waiting event requests and the Commit (R500)? -/
def State.workDone (s : State) : Bool :=
  (List.range 16).all fun c =>
    let x := s.ctrl c
    x.fetched.all fun f => f.1 = 0 && (x.aers.contains f.2 || (match s.nor.activation with
      | some cid => cid.c.val = c && cid.id = f.2
      | none => false))

/-- An activation ends: RB# is released, fetching resumes, and the Commit completes (R500). -/
def State.endActivation (s : State) (sc : Nat) : State :=
  let cid := s.nor.activation
  let s1 := { s with nor := { s.nor with activation := none, running := false, drained := false } }
  let s2 := ((s1.setBit R.NOR_STAT 5 false).toPhase 6).rbRelease
  match cid with
  | some c => s2.commitDone c sc
  | none => s2

/-- ACTIVATION_DRAIN_END: with the work done the boot ROM restarts the management cores; after 1 s without, the activation gives up
(R495, R500). -/
def execActivationDrainEnd (drained frontSig backSig : Bool) (s : State) : Host.Outcome State Fault Refusal :=
  settled <|
    if !s.nor.running || s.nor.drained then s
    else if s.workDone then
      let (ok, s1) := s.bootSelect frontSig backSig
      let s2 := s1.deriveAk
      if ok then
        { s2 with
          nor := { s2.nor with drained := true }
          sys := { s2.sys with kickAt := s2.etime, bringupFrom := s2.etime } }
      else { s2.setBit R.NOR_STAT 5 false with nor := { s2.nor with activation := none, running := false } }
    else if drained then s
    else (s.elapse (s.sys.lowAt + tickSec - s.etime)).endActivation 0x0B

/-- The rollback counter rises to the SVN of a confirmed image that carries RAISE, by words up to 1,024 in each copy, with event 0xA009
(R493). -/
def State.raiseRollback (s : State) (im : FwImage) (b : Bool) : State :=
  let v := min im.svn 1024
  if im.raise && s.nor.rollback.any (fun x => decide (x < v)) then
    let s1 := s.nor.rollback.zipIdx.foldl (fun t x => (t.norProgram (0x1006 + x.2) x.1 (v - x.1)).2) s
    ({ s1 with nor := { s1.nor with rollback := s1.nor.rollback.map fun x => max x v } }).raise pageNor 0xA009 none b.toNat 0
  else s

/-- Does trial firmware run? -/
def State.inTrial (s : State) : Bool :=
  match votedSelector s.nor.selectors with
  | some sel => sel.trial && sel.active = s.runsBack
  | none => false

/-- TRIAL_CONFIRMATION: the module is ready in a trial endpaper, and RB# released, or to be released as the activation ends: the
selector's TRIAL is 0 and RAISE is applied (R496, R500). -/
def execTrialConfirmation (s : State) : Host.Outcome State Fault Refusal :=
  settled <|
    let ready := s.rd R.SYS_STATE = 6 && !s.sys.low && s.released
    if !s.inTrial || !(ready || s.nor.drained) then s
    else
      let b := s.runsBack
      let im := s.endpaper b
      let s1 := (s.setSelector b false im.seq).raiseRollback im b
      if s1.nor.drained then s1.endActivation 0 else s1

/-- ACTIVATION_CONFIRM_TIMEOUT: 3 s after the restart the boot ROM restarts the management cores in the old endpaper (R500), or in the
running one when the old was found invalid as they last started, for an invalid image is never executed (R3, R492, R495). -/
def execActivationConfirmTimeout (s : State) : Host.Outcome State Fault Refusal :=
  settled <|
    if !s.nor.drained then s
    else
      let t := s.elapse (s.sys.bringupFrom + 3 * tickSec - s.etime)
      let before := if s.inTrial then !s.runsBack else s.runsBack
      let old := if s.bit R.NOR_STAT (if before then 3 else 2) then before else !before
      let s1 := (t.takeOther old 0xA006).startFirmware old
      let s2 := s1.deriveAk
      ({ s2 with sys := { s2.sys with kickAt := s2.etime } }).endActivation 0x07

/-! ROM recovery (R497). -/

/-- The boot ROM has chosen an endpaper: slot 3 is extended, the AK derived, and the management cores, whose firmware enables the
watchdog, start bringing up the tiny shape (R470, R509, R510). -/
def State.coresStart (s : State) : State :=
  let s1 := ((s.extend 3 (s.nor.factory ++ s.nor.pufCheck)).deriveAk.wr R.RST_WD_CTL 1).toPhase 2
  { s1 with sys := { s1.sys with kickAt := s1.etime } }

/-- ROM_RECOVERY_IMAGE: a valid image is written to the front endpaper and booted in trial (R494, R497). -/
def execRomRecoveryImage (h : MsgHead) (image : List Byte) (sigOk readBackOk : Bool) (s : State) :
    Host.Outcome State Fault Refusal :=
  settled <|
    if s.rd R.SYS_STATE ≠ 8 then s
    else if h.magic ≠ 0x7A90 || image.length < h.len || h.status ≠ 0 then s.respond .sideband 0x7A90 h stMalformed []
    else if h.version ≠ 1 then s.respond .sideband 0x7A90 h stUnsupported []
    else
      let im := { parseImage image with seq := 0 }
      let turned (t : State) : State :=
        let (x, t1) := t.free
        t1.respond .sideband 0x7A90 h (x % 65536) []
      match s.imageFault im sigOk with
      | some code => turned (s.raise pageNor code none 0 0)
      | none =>
        let (ok, s1) := s.writeEndpaper false im readBackOk
        if ok then
          let s2 := (s1.setSelector false true s1.nor.front.seq).respond .sideband 0x7A90 h 0 []
          ((s2.setBit R.NOR_STAT 6 false).startFirmware false).coresStart
        else turned s1

end Sys2Proof.Machine
end

