-- ==== Sys2Proof/Machine/Reset.lean ====
section
/-! DEFINITION. The resets of the whole module: what each spares (R504, R505), their causes (R508, R528, R550), the supplies that start
them (R506, R507), the management watchdog (R509), and the fence requests (R516). -/

namespace Sys2Proof.Machine

/-! What a reset spares (R505). -/

/-- The registers of ERR that resets keep. -/
def errKept (k : Nat) : Bool :=
  k = R.ERR_HEAD || k = R.ERR_TAIL || k = R.ERR_WRAP || (decide (R.ERR_CNT 0 ≤ k) && decide (k < R.ERR_OVF 16))

/-- The page of a register key. -/
def pageOfKey (k : Nat) : Nat := k % bankStep / 0x10000

/-- The registers that a module reset keeps. -/
def regKept (k : Nat) : Bool := pageOfKey k = pageTmb || errKept k || k = R.SYS_RESETS || k = R.SEC_PUF_ERR ||
  k = R.FTL_HOST_WR || k = R.FTL_MEDIA_WR || k = R.FTL_JSEQ

/-- The writer empties the queue of reports within the time a reset takes to begin (R454, R508). -/
def State.drainLog (s : State) : State := s.err.queue.foldl (fun t _ => t.writerTake) s

/-- The T3 regions, and the list tables that the VSX reloads (R505). -/
def State.keptRegions (s : State) : KV Region :=
  (s.tiers.regions.filter fun e => e.2.tier = 3 || s.search.indexes.any fun x => x.2.table = e.1).map fun e =>
    (e.1, { e.2 with pins := 0 })

/-- An index whose hit counts start from zero (R332, R505). -/
def Index.rested (x : Index) : Index :=
  { x with entries := x.entries.map fun e => (e.1, { e.2 with edges := e.2.edges.map fun g => (g.1, 0) }) }

/-- RST shows the fence requests that stand in NOR (R516, R528). -/
def State.fenceShow (s : State) : State :=
  let n := s.nor.fences.length
  let s1 := (List.range 64).foldl (fun t i => t.wr (R.RST_FENCE i) (match s.nor.fences[i]? with
    | some p => p + 2 ^ 31
    | none => 0)) s
  (s1.wr R.RST_FENCE_CNT n).setBit R.SYS_FLAGS 5 (decide (0 < n))

/-- Everything but what R505 keeps goes to its reset value; RB# is low (R407), a setpoint frame on the wire is cut short (R395), and
a diagnostic unlock ends with its event (R478). -/
def State.wipe (s : State) : State :=
  let s0 := s.lockDiag.rbLow.sptLost.drainLog
  let z := State.reset
  let t : State := { z with
    pending := s0.pending
    out := s0.out
    fresh := s0.fresh
    regs := s0.regs.filter fun e => regKept e.1
    dtime := s0.dtime
    etime := s0.etime
    nowHold := s0.nowHold
    ppsHold := s0.ppsHold
    irq := { z.irq with cats := s0.irq.cats.filter fun e => e.1 / 32 = pageTmb }
    err := { s0.err with queue := [], clients := [] }
    tmb := s0.tmb
    msr := { z.msr with idleFrom := s0.etime }
    tiers := { z.tiers with regions := s0.keptRegions, nextHandle := s0.tiers.nextHandle }
    journals := s0.journals.map fun e => (e.1, { emptyJournal with written := e.2.written })
    ftl := { s0.ftl with mounted := false }
    namespaces := s0.namespaces
    search := { z.search with indexes := s0.search.indexes.map fun e => (e.1, e.2.rested) }
    sec := { z.sec with seed := s0.sec.seed, dik := s0.sec.dik, pufDue := s0.sec.pufDue }
    nor := { s0.nor with staged := [], activation := none, drained := false, running := false }
    sys := { s0.sys with
      phaseHidden := false, level := 0, drawing := none, hot := none, causes := 0, patternEnd := none, attnRead := false, deadDevs := [] } }
  let t1 := t.setBit R.SEC_STAT 0 (s0.bit R.SEC_STAT 0)
  (s0.keptRegions.foldl (fun u e => if e.2.tier = 3 then u else u.addUse e.2.client e.2.tier (chargeOf e.2.tier e.2.bytes)) t1).fenceShow

/-- Bring-up starts with a boot cause (R507, R508). -/
def State.startBringup (s : State) (cause : Nat) : State :=
  { s.wr R.SYS_BOOT_CAUSE cause with
    sys := { s.sys with bringupFrom := s.etime, boots := s.sys.boots + 1 } }

/-- A module reset with its cause (R505, R508). -/
def State.moduleRst (s : State) (cause : Nat) : State := (s.wipe.countSat R.SYS_RESETS 1).startBringup cause

/-- What the management domain holds is lost with both supplies (R505, R553). -/
def State.clearMgmt (s : State) : State :=
  let s1 := s.dropRegs fun k => errKept k || k = R.SEC_PUF_ERR
  { s1 with
    err := ⟨[], [], 0, []⟩
    sec := { s1.sec with seed := none, dik := [] }
    sys := { s1.sys with wdRecord := none, wdEvent := none, withdrawn := [], saidAt := [], bankMj := 0, temps := [] } }

/-- A power-on: as a module reset, and the timebase starts FREE at DTIME 0 with the learnt frequency (R65, R505). -/
def State.startPower (s : State) (lost : Bool) : State :=
  let s1 := if lost then s.wipe.clearMgmt else s.wipe
  let s2 := s1.dropRegs fun k => pageOfKey k = pageTmb || k = R.SYS_RESETS
  let f := s1.tmb.norLearnt.getD 0
  let t : State := { s2 with
    dtime := 0
    nowHold := []
    ppsHold := []
    irq := State.reset.irq
    tmb := { State.reset.tmb with learnt := f, norLearnt := s1.tmb.norLearnt }
    sec := { s2.sec with pufDue := s2.sec.seed.isNone } }
  (((t.setBit R.SEC_STAT 0 t.sec.seed.isSome).wr R.TMB_FREQ_ADJ f.toNat).startBringup 0)

/-- Is the module up: neither in AUX nor flushing? -/
def State.up (s : State) : Bool := s.rd R.SYS_STATE ≠ 0 && !s.sys.flushing

/-! Causes of resets. -/

/-- PERST_ASSERT: less than 1 µs is ignored, 100 µs or more always resets, and between the module may or may not (R550); after a trip
the reset starts from AUX (R544), and during a flush it follows the flush (R553). -/
def execPerstAssert (ns : Nat) (resets : Bool) (s : State) : Host.Outcome State Fault Refusal :=
  settled <|
    if ns < 1000 || (ns < 100000 && !resets) then s
    else
      let s1 : State := { s with sys := { s.sys with perst := true } }
      if !s1.sys.p54 || !s1.sys.aux then s1
      else if s1.sys.flushing then { s1 with sys := { s1.sys with afterFlush := 2 } }
      else s1.moduleRst 1

/-- PERST_DEASSERT: bring-up begins (R507). -/
def execPerstDeassert (s : State) : Host.Outcome State Fault Refusal :=
  settled (if s.sys.perst then { s with sys := { s.sys with perst := false, bringupFrom := s.etime } } else s)

/-- HOT_RESET (R504). -/
def execHotReset (s : State) : Host.Outcome State Fault Refusal := settled (if s.up then s.moduleRst 2 else s)

/-- MODULE: RST_CMD takes 0x0000_C0DE only (R528). -/
def execModuleReset (c : Client) (v : BitVec 32) (s : State) : Host.Outcome State Fault Refusal :=
  settled (s.command c R.RST_CMD v.toNat fun t _ raw => if raw = 0xC0DE then t.moduleRst 3 else t)

/-- POWER_ON: P54 rises within range. During a flush it waits for the end; without the auxiliary supply the management domain is held
in reset (R504, R506, R553). -/
def execPowerOn (aux : Bool) (s : State) : Host.Outcome State Fault Refusal :=
  settled <|
    let s1 : State := { s with sys := { s.sys with p54 := true, lowFrom := none } }
    if s1.sys.flushing then { s1 with sys := { s1.sys with afterFlush := 1 } }
    else if s1.sys.aux then s1.startPower !aux
    else s1.wipe.clearMgmt.toPhase 0

/-- AUX_POWER_RISE: the management domain leaves reset with RB# low; with P54 present bring-up may begin, else the module is in AUX
(R506, R549). -/
def execAuxPowerRise (s : State) : Host.Outcome State Fault Refusal :=
  settled <|
    if s.sys.aux then s
    else
      let s1 : State := { s with sys := { s.sys with aux := true } }
      if s1.sys.flushing then { s1 with sys := { s1.sys with afterFlush := if s1.sys.p54 then 1 else 0 } }
      else if s1.sys.p54 then s1.startPower false
      else s1.rbLow.toPhase 0

/-! The management watchdog (R509). -/

/-- RST_WD_KICK: only the core of the tiny shape restarts the watchdog (R509). -/
def execRstWdKick (core : Fin 4) (s : State) : Host.Outcome State Fault Refusal :=
  settled (if s.fld R.SYS_TINY 1 0 = core.val then { s with sys := { s.sys with kickAt := s.etime } } else s)

/-- MANAGEMENT_WATCHDOG_EXPIRY: a module reset with boot cause 5, the expiry and its core recorded; stopped in FATAL and ROM_RECOVERY
(R509, R525). -/
def execManagementWatchdogExpiry (s : State) : Host.Outcome State Fault Refusal :=
  settled <|
    let st := s.rd R.SYS_STATE
    if !s.bit R.RST_WD_CTL 0 || !s.up || st = 7 || st = 8 then s
    else
      let s1 := s.elapse (s.sys.kickAt + s.fld R.RST_WD_LIMIT 15 0 * 1000 * tickUs - s.etime)
      let core := s1.fld R.SYS_TINY 1 0
      let n := match s1.sys.wdRecord with
        | some (k, n, b) => if k = core && b + 1 = s1.sys.boots then n + 1 else 1
        | none => 1
      let s2 : State := { s1 with sys := { s1.sys with wdRecord := some (core, n, s1.sys.boots), wdEvent := some core } }
      s2.moduleRst 5

/-- WATCHDOG_RECORD_CLEAR: 10 min in READY without an expiry (R509). -/
def execWatchdogRecordClear (s : State) : Host.Outcome State Fault Refusal :=
  settled <|
    if s.rd R.SYS_STATE ≠ 6 then s
    else
      let s1 := s.elapse (s.sys.readyAt + 600 * tickSec - s.etime)
      { s1 with sys := { s1.sys with wdRecord := none } }

/-! Fence requests (R516). -/

/-- Has the unit of a page a test in R513? -/
def fencible (p : Nat) : Bool := [0x20, 0x21, 0x30, 0x31, 0x40, 0x50].contains (typeCode p)

/-- The outcome of a fence command: RST_FENCE_RESULT, and for a refusal event 0xC00A and RST's interrupt (R516, R528). -/
def State.fenceResult (s : State) (r : Nat) : State :=
  let s1 := s.fenceShow.wr R.RST_FENCE_RESULT (1 + 2 * r)
  if r = 0 then s1 else (s1.setIrq pageRst 4 0xC).raise pageRst 0xC00A none 0 0

/-- The fence requests change, in NOR (R487, R516). -/
def State.setFences (s : State) (l : List Nat) : State :=
  if l = s.nor.fences then s else ({ s with nor := { s.nor with fences := l } }).norLog logFences (.fences s.nor.fences)

/-- REQUEST for the page of RST_FENCE_SEL. -/
def State.fenceRequest (s : State) : State :=
  let p := s.fld R.RST_FENCE_SEL 7 0
  if !fencible p || (s.released && s.present p = 0) then s.fenceResult 1
  else if s.nor.fences.contains p then s.fenceResult 0
  else if 64 ≤ s.nor.fences.length then s.fenceResult 2
  else (s.setFences (s.nor.fences ++ [p])).fenceResult 0

/-- WITHDRAW for the page of RST_FENCE_SEL. -/
def State.fenceWithdraw (s : State) : State :=
  let p := s.fld R.RST_FENCE_SEL 7 0
  (s.setFences (s.nor.fences.filter fun x => x ≠ p)).fenceResult 0

/-- A write of RST_FENCE_CMD: with both bits or neither it is ignored (R528). -/
def State.fenceCmd (s : State) (v : Nat) : State :=
  if v % 4 = 1 then s.fenceRequest else if v % 4 = 2 then s.fenceWithdraw else s

/-- REQUEST (R516). -/
def execRequest (c : Client) (s : State) : Host.Outcome State Fault Refusal :=
  settled (s.command c R.RST_FENCE_CMD 1 fun t _ raw => t.fenceCmd raw)

/-- WITHDRAW (R516). -/
def execWithdraw (c : Client) (s : State) : Host.Outcome State Fault Refusal :=
  settled (s.command c R.RST_FENCE_CMD 2 fun t _ raw => t.fenceCmd raw)

end Sys2Proof.Machine
end

