-- ==== Sys2Proof/Machine/BlockReset.lean ====
section
/-! DEFINITION. The block reset: when it is refused, the registers and the state that a block keeps, and what the others lose (R40,
R122, R148, R172, R342, R562). -/

namespace Sys2Proof.Machine

/-- Does an offset lie in one of the ranges, ends included? -/
def within (o : Nat) (l : List (Nat × Nat)) : Bool := l.any fun r => decide (r.1 ≤ o) && decide (o ≤ r.2)

/-- Is the register at offset o of a page of a block type kept by a block reset? Kept are the header's fields of R40; the settings and
reports of R562 and of R148; the registers for which the spec gives no reset value, which go on reporting what the block still
holds, and QDI_STAT and VSX_STAT, which do so too; and what SYS and RST show of the whole module, with the watchdog, which host software cannot clear (R509). -/
def blockKeeps (type o : Nat) : Bool :=
  if o < 0x100 then [0x00, 0x04, 0x08, 0x0C, 0x20, 0x24].contains o ||
    (o = 0x18 && [0x07, 0x08, 0x0A, 0x0B, 0x60, 0x32].contains type)
  else match type with
    | 0x01 => decide (0x400 ≤ o)
    | 0x02 => within o [(0x104, 0x110), (0x118, 0x11C)]
    | 0x03 => within o [(0x104, 0x104), (0x11C, 0x11C), (0x200, 0x2FF)]
    | 0x07 => within o [(0x100, 0x104), (0x11C, 0x11C)] || (within o [(0x1000, 0x10FF)] && o % 16 < 8)
    | 0x08 => within o [(0x100, 0x114), (0x120, 0x120), (0x200, 0x2E8)] || (decide (0x1000 ≤ o) && o % 0x100 = 0)
    | 0x09 => within o [(0x104, 0x104), (0x110, 0x13F)]
    | 0x0A => within o [(0x100, 0x104)] || decide (0x1000 ≤ o)
    | 0x0B => within o [(0x104, 0x140)] || (decide (0x1000 ≤ o) && within (o % 0x100) [(0x00, 0x47), (0x50, 0x54)])
    | 0x0F => within o [(0x100, 0x104), (0x140, 0x15F)]
    | 0x10 => within o [(0x100, 0x11C), (0x128, 0x128), (0x130, 0x130), (0x140, 0x15F)]
    | 0x20 | 0x21 => within o [(0x100, 0x100), (0x14C, 0x14C)] || decide (0x1000 ≤ o)
    | 0x41 => within o [(0x100, 0x100), (0x108, 0x114)]
    | 0x42 => within o [(0x100, 0x14F)]
    | 0x43 => o = 0x100
    | 0x50 => within o [(0x104, 0x104), (0x180, 0x19F)]
    | 0x60 => within o [(0x100, 0x100), (0x108, 0x108), (0x110, 0x128)]
    | 0x32 => within o [(0x1000, 0x3FFF)] || (decide (0x4000 ≤ o) && o % 0x80 = 0)
    | _ => false

/-- The registers of a page go to their reset values, but for those kept; the block is quiesced (R40). -/
def State.resetRegs (s : State) (p : Nat) : State :=
  let t := s.dropRegs fun k => pageOfKey k = p && !blockKeeps (typeCode p) (k % 0x10000)
  let t1 : State := { t with irq := { t.irq with cats := t.irq.cats.filter fun e => e.1 / 32 ≠ p } }
  (t1.setBit (R.PG_CTL p) 1 true).setFld (R.PG_STAT p) 1 0 3

/-! What each block holds beside its registers. -/

/-- TMB: its discipline starts again, and the views of DTIME and PPS_IN that clients had latched are gone; DTIME, the learnt frequency and
what the neighbours said stay. -/
def State.resetTmb (s : State) : State :=
  let old := s.tmb
  let t : State := { s with tmb := { State.reset.tmb with
    learnt := old.learnt, norLearnt := old.norLearnt, neighbours := old.neighbours }, nowHold := State.reset.nowHold, ppsHold := State.reset.ppsHold }
  t.freeFreq

/-- MSR: no measure is announced, no slot armed and no strike interrupt owed; idle ticks count from now, and rights that waited for a
strike take effect (R72, R94, R479). -/
def State.resetMsr (s : State) : State :=
  ({ s with
    msr := { State.reset.msr with idleFrom := s.etime, count := s.msr.count }
    irq := { s.irq with strikeTo := 0 } }).settleRights

/-- A Collator: queued descriptors are discarded and each issuing step stops, cause 0x09 (R172). -/
def State.resetCol (s : State) (n : Nat) : State :=
  let u := s.colUnit n
  (u.lc ++ u.be).foldl (fun t q =>
    match t.run q.run with
    | some x => if x.live && !q.void then (t.colFault { x with forCtx := q.x } n 9 q).teardown q.run 0x2301 else t
    | none => t) (s.setCol n emptyCol)

/-- A channel engine: every job is discarded and its run stops, cause 0x07 (R342). -/
def State.resetChn (s : State) (ch : Nat) : State :=
  let u := s.chan ch
  let s1 := s.setChan ch emptyChan
  let s2 : State := { s1 with ftl := { s1.ftl with active := s1.ftl.active.filter fun h => !u.slots.any fun e => e.2.hold = h } }
  (u.slots.map Prod.snd ++ u.queue).foldl (fun t j => t.jobFault ch j 7) s2

/-- A lane row: its Leaf is cleared as after a power-up (R122), and ROW_STAT.LC shows the reservation (R223). -/
def State.resetRow (s : State) (r : Nat) : State := (s.clearLeaf r).setBit (R.ROW_STAT r) 2 (s.reservedFor r).isSome

/-- DET: replays and buffered records go; records written stay, and runs in flight are journalled no more (R264, R268). -/
def State.resetDet (s : State) : State :=
  let s1 := (s.sched.runs.filter fun e => e.2.replayOf.isSome).foldl (fun t e => t.drLeave e.1) s
  { s1 with
    sched := { s1.sched with runs := s1.sched.runs.map fun e =>
      (e.1, if e.2.journalled then { e.2 with journalled := false, flags := e.2.flags ||| 2 ^ 23 } else e.2) }
    journals := s1.journals.map fun e => (e.1, { emptyJournal with written := e.2.written }) }

/-- A memory device: its open merge entries are written, oldest first, and its bank counts start again. -/
def State.resetMem (s : State) (d : Nat) : State :=
  let mine := (s.devs.merge.filter fun e => e.1 / 2 ^ 34 = d).length
  let s1 := (List.range mine).foldl (fun t _ => match t.oldestEntry d with
    | some b => t.flushEntry d b []
    | none => t) s
  { s1 with devs := { s1.devs with banks := s1.devs.banks.filter fun e => e.1 / 65536 ≠ d } }

/-- A link goes DOWN with all that it held. -/
def State.resetLnk (s : State) (l : Nat) : State := { s with links := kvErase s.links l }

/-- The latched read-back copies that clients hold of SEC_MEAS, and what the security unit holds for a while: a hold ends, a diagnostic
unlock ends, a nonce is forgotten. The slots stay: the only change they admit is an extend (R470, R478, R481). -/
def State.resetSec (s : State) : State :=
  let t := s.endHold.lockDiag
  { t with measHold := [], sec := { t.sec with nonce := none } }

/-- What the block of a page holds beside its registers, before they go to their reset values. -/
def State.resetInside (s : State) (p : Nat) : State :=
  match typeCode p with
  | 0x02 => { s with attnWanted := .no, sys := { s.sys with phaseHidden := true } }
  | 0x07 => { s with heldSaid := [] }
  | 0x09 => { s with accRem := [] }
  | 0x0B => { s with tiers := { s.tiers with again := s.tiers.again ++ s.tiers.lc ++ s.tiers.be, lc := [], be := [] } }
  | 0x0C => s.resetDet
  | 0x0D => { s with err := ⟨[], [], 0, []⟩ }
  | 0x0F => s.resetSec
  | 0x10 => { s with nor := { s.nor with staged := [] } }
  | 0x20 | 0x21 => s.resetMem (p - 0x10)
  | 0x41 => { s with ftl := { s.ftl with suspended := s.ftl.suspended.filter fun e => e.1 / 136 ≠ p - 0xB8 } }
  | 0x42 => { s with ftl := { s.ftl with reads := [], retryAt := [], warnedAt := [] } }
  | 0x43 => { s with search := { s.search with
      before := s.search.before.filter fun e => pageOfKey e.1 ≠ pageVsx
      indexes := s.search.indexes.map fun e => (e.1, e.2.rested)
      queries := []
      finished := [] } }
  | 0x50 => s.resetLnk (p - 0xC0)
  | 0x51 => { s with red := State.reset.red }
  | _ => s

/-- What follows once the registers have their reset values; the causes of the steps that a Collator or a channel engine stops stand in
its fault register. -/
def State.resetAfter (s : State) (p : Nat) : State :=
  match typeCode p with
  | 0x04 => s.resetTmb
  | 0x05 => s.resetMsr
  | 0x06 => { s with irq := { s.irq with last := [], deferred := [] } }
  | 0x30 => s.resetRow (p - 0x28)
  | 0x31 => s.resetCol (p - 0x90)
  | 0x40 => s.resetChn (p - 0x98)
  | _ => s

/-- The block reset of a page whose block is quiesced (R40): QNT is refused while a step holds it (R148). -/
def State.blockReset (s : State) (c p : Nat) : State :=
  if !s.bit (R.PG_STAT p) 1 || (p = pageQnt && s.qntHeld) then s.accessEvent 0x1004 c (R.PG_CTL p)
  else (((s.resetInside p).resetRegs p).resetAfter p).settle

/-- A write of PG_CTL by client c with one bit changed and [2] at 0. -/
def State.ctlBit (s : State) (c p i : Nat) (b : Bool) : State :=
  s.command c (R.PG_CTL p) (putBits (s.rd (R.PG_CTL p)) i i b.toNat) fun t new _ => (t.pageCtl p new).workAgain p

/-- ENABLE (R39). -/
def execEnable (c : Client) (p : Page) (s : State) : Host.Outcome State Fault Refusal :=
  s.writePage c p (settled (s.ctlBit c p 0 true))

/-- DISABLE (R39). -/
def execDisable (c : Client) (p : Page) (s : State) : Host.Outcome State Fault Refusal :=
  s.writePage c p (settled (s.ctlBit c p 0 false))

/-- QUIESCE_REQUEST (R38). -/
def execQuiesceRequest (c : Client) (p : Page) (s : State) : Host.Outcome State Fault Refusal :=
  s.writePage c p (settled (s.ctlBit c p 1 true))

/-- QUIESCE_CLEAR (R38). -/
def execQuiesceClear (c : Client) (p : Page) (s : State) : Host.Outcome State Fault Refusal :=
  s.writePage c p (settled (s.ctlBit c p 1 false))

/-- A write of PG_CTL: a reset in it is judged by the state before the write, and then the other bits act (R38 to R40). -/
def State.ctlWrite (s : State) (c p new raw : Nat) : State :=
  if raw.testBit 2 && (s.present p = 3 || s.present p = 1) then
    let was := s.bit (R.PG_STAT p) 1
    if was then (s.pageCtl p (putBits new 1 1 1)).blockReset c p
    else ((s.pageCtl p new).workAgain p).accessEvent 0x1004 c (R.PG_CTL p)
  else (s.pageCtl p new).workAgain p

/-- BLOCK_RESET (R40). -/
def execBlockReset (c : Client) (p : Page) (s : State) : Host.Outcome State Fault Refusal :=
  s.writePage c p
    (settled (s.command c (R.PG_CTL p) (putBits (s.rd (R.PG_CTL p)) 2 2 1) fun t new raw => t.ctlWrite c p new raw))

end Sys2Proof.Machine
end

