-- ==== Sys2Proof/Machine/Supply.lean ====
section
/-! DEFINITION. Power loss and its flush (R302, R536, R539, R553), the sensors and the throttle levels (R541 to R545), and the fencing of
units (R25, R515). -/

namespace Sys2Proof.Machine

/-! Power loss (R536, R539). -/

/-- A power loss is declared: RB# low, NOR programs completed and its erases abandoned (R490), and all but the flush domains off. The FTL flushes when it has mounted; the module
is in AUX (R302, R507, R539, R544). -/
def State.declareLoss (s : State) : State :=
  let m := s.ftl.mounted
  let s1 := s.norLoss.wipe
  let s2 : State := { s1 with
    ftl := { s1.ftl with marker := none }
    sys := { s1.sys with flushing := m, afterFlush := 0 } }
  s2.toPhase 0

/-- Without the auxiliary supply, and with no flush that keeps it on the bank, the management domain has no power, and what it holds is
lost (R505, R506, R539, R553). -/
def State.offCheck (s : State) : State := if !s.sys.aux && !s.sys.flushing then s.clearMgmt else s

/-- What a flush writes: the journal buffers, and of every open quire the pages of partial parity and the write pointers (R302). -/
def State.flushArea (s : State) : FlushArea :=
  let opened := s.ftl.quires.filter fun e => e.2.phase = .opened
  { journals := s.ftl.jbuf
    parity := opened.map fun e => (e.1, (e.2.wp.foldl (fun a w => max a w.2) 0) - e.2.stripes)
    wps := opened.map fun e => (e.1, e.2.wp) }

/-- Bytes that a flush writes: the journal buffers, and the partial parity in pages of 16 KiB. -/
def FlushArea.bytes (a : FlushArea) : Nat :=
  a.journals.foldl (fun n e => n + e.2) 0 + 16384 * a.parity.foldl (fun n e => n + e.2) 0

/-- A program of a flush fails: the flush moves on to the next block of its area, a reserve block of the die (R294). -/
def State.flushFail (s : State) (n d : Nat) : State :=
  let x := s.die n d
  (s.setDie n d { x with grown := x.grown + 1, reserve := x.reserve - 1 }).countSat (R.QDI_PFAIL n) 1

/-- POWER_LOSS_FLUSH: the journal buffers, partial parity and write pointers reach the flush area, and then the clean marker; open
quires stay recorded (R302). What waited for the flush then follows (R553). -/
def execPowerLossFlush (e : FlushEnd) (s : State) : Host.Outcome State Fault Refusal :=
  settled <|
    if !s.sys.flushing then s
    else
      let k := s.sys.afterFlush
      let a := s.flushArea
      let s0 := (e.fails.foldl (fun t f => t.flushFail f.1 f.2) s).count R.FTL_MEDIA_WR a.bytes
      let s1 : State := { s0 with
        ftl := { s0.ftl with marker := some e.complete, jbuf := [], area := some (if e.complete then a else ⟨[], [], []⟩) }
        sys := { s.sys with flushing := false, afterFlush := 0 } }
      if s1.sys.p54 && s1.sys.aux && k = 1 then s1.startPower false
      else if s1.sys.p54 && s1.sys.aux && k = 2 then s1.moduleRst 1
      else s1.offCheck

/-- POWER_MONITOR_SAMPLE: from 48 V to 60 V all is normal; to 44 V and to 62 V event 0x0106 at most once per second; outside, the time
out of range starts (R536). -/
def execPowerMonitorSample (mv : Nat) (s : State) : Host.Outcome State Fault Refusal :=
  settled <|
    let s1 : State := { s with sys := { s.sys with p54mv := mv } }
    if !s1.sys.p54 then s1
    else if mv < 44000 || 62000 < mv then
      (match s1.sys.lowFrom with
        | some _ => s1
        | none => { s1 with sys := { s1.sys with lowFrom := some s1.etime } })
    else
      let s2 : State := { s1 with sys := { s1.sys with lowFrom := none } }
      if 48000 ≤ mv && mv ≤ 60000 then s2
      else
        let (b, s3) := s2.once 0x0106 tickSec
        if b then s3.raise pageSys 0x0106 none 0 0 else s3

/-- POWER_LOSS_DECLARED: P54 has been out of range for 2 µs (R536, R539); in AUX, or during a flush, there is nothing more to lose
(R553). -/
def execPowerLossDeclared (s : State) : Host.Outcome State Fault Refusal :=
  settled <|
    match s.sys.lowFrom with
    | none => s
    | some t =>
      let s1 := s.elapse (t + 2 * tickUs - s.etime)
      let s2 : State := { s1 with sys := { s1.sys with p54 := false, lowFrom := none, afterFlush := 0 } }
      if s2.up then (s2.raise pageSys 0x0107 none 0 0).declareLoss else s2.offCheck

/-- P3V3_AUX_LOSS: with P54 present it declares power loss; in AUX without P54 the module is off (R536, R553). -/
def execP3v3AuxLoss (s : State) : Host.Outcome State Fault Refusal :=
  settled <|
    if !s.sys.aux then s
    else
      let s1 : State := { s with sys := { s.sys with aux := false } }
      if s1.up then (s1.raise pageSys 0x0107 none 0 0).declareLoss.offCheck else s1.offCheck

/-! Sensors and throttle levels (R541 to R545). -/

/-- Warning, hold and trip thresholds by sensor, in °C (R541). -/
def thresholds : List (Int × Option (Int × Int)) :=
  [(95, some (100, 110)), (95, some (100, 110)), (95, some (100, 110)), (95, some (100, 110)), (95, some (100, 110)),
   (95, some (100, 110)), (85, some (95, 105)), (85, some (95, 105)), (70, some (75, 85)), (60, some (65, 75)), (45, none)]

/-- Sensors at or above their warning threshold. -/
def warm (temps : List Int) : List Nat :=
  ((temps.zip thresholds).zipIdx.filter fun e => decide (e.1.2.1 * 16 ≤ e.1.1)).map Prod.snd

/-- Does a sensor reach its hold threshold, or its trip threshold? -/
def holds (temps : List Int) : Bool :=
  (temps.zip thresholds).any fun e => e.2.2.any fun h => decide (h.1 * 16 ≤ e.1)
def trips (temps : List Int) : Bool :=
  (temps.zip thresholds).any fun e => e.2.2.any fun h => decide (h.2 * 16 ≤ e.1)

/-- Is every sensor at least 5 °C below its hold threshold? -/
def cooled (temps : List Int) : Bool :=
  (temps.zip thresholds).all fun e => e.2.2.all fun h => decide (e.1 ≤ (h.1 - 5) * 16)

/-- A cause of a throttle level as a reading finds it: it stands from the reading that meets its condition until the leaving condition
has held for a time; beside it, whether it has just begun. -/
def throttleCause (was : Option (Option Nat)) (on calm : Bool) (now hold : Nat) : Option (Option Nat) × Bool :=
  match was with
  | none => if on then (some none, true) else (none, false)
  | some from_ =>
    if on || !calm then (some none, false)
    else
      match from_ with
      | none => (some (some now), false)
      | some t => if t + hold ≤ now then (none, false) else (some (some t), false)

/-- Does the Composite Temperature cross a threshold of Set Features 04h: 0 none is set, else over, or under with bits [21:20] at 1
(R545)? -/
def tempCrossed (v k : Nat) : Bool :=
  if v = 0 then false else if bits v 21 20 = 1 then decide (k ≤ v % 65536) else decide (v % 65536 ≤ k)

/-- The SMART temperature warnings follow a reading; a warning that sets is an asynchronous event of type 1 (R417, R545). -/
def State.smartTemps (s : State) : State :=
  let k := kelvin (s.sys.temps.getD 8 0)
  let above (c : Nat) : Bool := tempCrossed (kvGet 0 (s.ctrl c).features 0x04) k
  let any := !(warm s.sys.temps).isEmpty
  let new := any.toNat + (List.range 16).foldl (fun a c => a + if above c then 2 ^ (c + 1) else 0) 0
  let old := s.sys.causes
  let s1 : State := { s with sys := { s.sys with causes := new } }
  (List.range 16).foldl (fun t c =>
    if (any || above c) && !(old.testBit 0 || old.testBit (c + 1)) then t.aerNow c 1 1 2 else t) s1

/-- An event of SYS at most once in a second. -/
def State.sysOnce (s : State) (key code aux : Nat) : State :=
  let (b, t) := s.once key tickSec
  if b then t.raise pageSys code none 0 aux else t

/-- Warnings of a reading: event 0x0104 for each sensor, with its number in AUX (R541). -/
def State.warnSensors (s : State) : State :=
  (warm s.sys.temps).foldl (fun t i => t.sysOnce (0x10400 + i) 0x0104 i) s

/-- SENSOR_READING: a trip stops the module; otherwise the throttle causes, the level and its events follow, and the warnings
(R541 to R545, R553). -/
def execSensorReading (temps : List Int) (w1 w100 : Nat) (s : State) : Host.Outcome State Fault Refusal :=
  settled <|
    if !s.up then s
    else
      let s0 : State := { s with sys := { s.sys with temps := temps, w100 := w100 } }
      if trips temps then
        let s1 := (s0.warnSensors.raise pageSys 0x0105 none 0 0)
        let s2 : State := { s1 with sys := { s1.sys with tripped := true } }
        s2.declareLoss
      else
        let (p, newP) := throttleCause s.sys.drawing (decide (1000 < w1) || decide (990 < w100))
          (decide (w1 < 950) && decide (w100 < 980)) s.etime (1000 * tickUs)
        let (h, newH) := throttleCause s.sys.hot (holds temps) (cooled temps) s.etime tickSec
        let level := if h.isSome then 2 else if p.isSome then 1 else 0
        let s1 : State := { s0 with sys := { s0.sys with drawing := p, hot := h, level := level } }
        let s2 := if newP then (s1.sysOnce 0x0101 0x0101 0).attend 4 else s1
        let s3 := if newH then (s2.sysOnce 0x0102 0x0102 0).attend 4 else s2
        let s4 := if level = 0 && s.sys.level ≠ 0 then s3.sysOnce 0x0103 0x0103 0 else s3
        s4.warnSensors.smartTemps

/-! Fencing (R25, R515). -/

/-- A channel is fenced: event 0xC006, and its 17 dies have failed with no spare (R276, R305, R515). -/
def State.channelFenced (s : State) (ch : Nat) : State :=
  let n := ch / 8
  let dies := (List.range 17).map fun i => ch % 8 * 17 + i
  let units := dies.map fun d => (d, s.unitsOn n d)
  let s1 := dies.foldl (fun t d => t.setDie n d { t.die n d with status := 3 }) (s.raise pageSys 0xC006 none 0 0)
  units.foldl (fun t e => t.unitsGone n e.1 e.2 []) ((s1.closeFull n).setIrq (pageQdi n) 6 5)

/-- What a device's retirements take from its tier (R450, R451). -/
def State.retiredBytes (s : State) (d : Nat) : Nat :=
  let v := R.MEM_STAT (pageDev d)
  s.fld v 31 16 * twoMiB + s.fld v 15 8 * (if d < 8 then 18874368 else 322961408)

/-- The capacity of T1 or T2 that the devices in service give: 36 GiB a stack less 8 GiB, 38.4 GiB a package less 70.4 GiB, in whole frames,
less what is retired in them (R173, R174, R450, R451). -/
def State.tierBytes (s : State) (t : Nat) : Nat :=
  let ds := ((if t = 1 then List.range 8 else (List.range 16).map fun i => i + 8)).filter fun d => s.devInService d
  (if t = 1 then ds.length * 38654705664 - 8589934592 else (ds.length * 192 - 352) * 1073741824 / 5 / twoMiB * twoMiB) -
    ds.foldl (fun a d => a + s.retiredBytes d) 0

/-- Units of T3 that a number of channels in service gives (R174, R277). -/
def t3Units (channels : Nat) : Nat := userUnits * channels / 32

/-- SYS_SHAPE counts the units in service (R527). -/
def State.shapeShow (s : State) (spares : Nat) : State :=
  let n (p k : Nat) : Nat := ((List.range k).filter fun i => s.inService (p + i)).length
  s.wr R.SYS_SHAPE (n 0x28 104 + spares * 2 ^ 7 + n 0x10 8 * 2 ^ 11 + n 0x18 16 * 2 ^ 15 + n 0x98 32 * 2 ^ 20)

/-- A link fenced in service goes DOWN, its traffic to its spare (R354, R355, R515). -/
def State.linkFenced (s : State) (l : Nat) : State :=
  let s1 := (s.setLinkState l lkDown).switchLink l
  (((s1.setBit (R.LNK_STAT l) 4 false).setBit (R.LNK_STAT l) 5 false).setBit (R.LNK_STAT l) 6 false).raise (pageLnk l) 0x7001 none l 0

/-- What the fencing of a unit in service takes with it (R174, R195, R515). -/
def State.fencedEffect (s : State) (p : Nat) : State :=
  if 0x10 ≤ p && p < 0x28 then
    let d := p - 0x10
    ((s.raise pageSys 0xC005 none 0 0).wr (tierCap (devTier d)) (s.tierBytes (devTier d))).capCheck (devTier d)
  else if 0x98 ≤ p && p < 0xB8 then
    let s1 := s.channelFenced (p - 0x98)
    let up := ((List.range 32).filter fun i => s1.inService (0x98 + i)).length
    (s1.wr (tierCap 3) (t3Units up)).capCheck 3
  else if 0xC0 ≤ p && p < 0xE0 then s.linkFenced (p - 0xC0)
  else s

/-- FENCING_IN_SERVICE: the page reads fenced and the directory follows, SYS signals the attention cause and the change of shape; a row
is not replaced until the next bring-up (R25, R37, R49, R515, R524, R527). -/
def execFencingInService (p : Page) (s : State) : Host.Outcome State Fault Refusal :=
  settled <|
    let k := p.val
    if s.rd R.SYS_STATE ≠ 6 || !fencible k || (s.present k ≠ 3 && s.present k ≠ 1) then s
    else
      let s1 := ((s.setPresent k 5).setFld (R.PG_CTL k) 1 0 0).fencedEffect k
      ((s1.shapeShow (s1.fld R.SYS_SHAPE 10 7)).setIrq pageSys 5 0).attend 0

end Sys2Proof.Machine
end

