-- ==== Sys2Proof/Machine/BringUp.lean ====
section
/-! DEFINITION. The climb: the phases of bring-up (R510), the tiny shape (R511), self-test, fencing and spares (R513, R514), growth and
the release of RB# (R517, R519, R521), and the fatal states (R518). -/

namespace Sys2Proof.Machine

/-- Milliseconds pass. -/
def State.ms (s : State) (n : Nat) : State := s.elapse (n * 1000 * tickUs)

/-- Does bring-up run a phase now (R507)? -/
def State.phase (s : State) (n : Nat) : Bool :=
  s.rd R.SYS_STATE = n && s.sys.p54 && s.sys.aux && !s.sys.perst && !s.sys.flushing

/-! ROM (R466, R469, R470, R495, R516). -/

/-- The withdrawals held for the boot ROM leave NOR (R516). -/
def State.applyWithdrawals (s : State) : State :=
  let s1 := s.setFences (s.nor.fences.filter fun p => !s.sys.withdrawn.contains p)
  ({ s1 with sys := { s1.sys with withdrawn := [] } }).fenceShow

/-- The identity is unavailable: SEC_STAT.ID_VALID is 0 and SEC says so (R467, R484). -/
def State.noIdentity (s : State) (code : Nat) : State :=
  ((s.setBit R.SEC_STAT 0 false).setIrq pageSec 4 9).raise pageSec code none 0 0

/-- The PUF is read once in each application of power, and the DIK derived from the seed (R466, R467); its two events rise in
ascending order (R558). -/
def State.readPuf (s : State) (puf : Nat × Option (List Byte)) : State :=
  if !s.sec.pufDue then s
  else
    let s1 := ({ s with sec := { s.sec with pufDue := false } }).wr R.SEC_PUF_ERR puf.1
    let warned (t : State) : State := if 655 < puf.1 then t.raise pageSec 0x9006 none 0 0 else t
    match puf.2 with
    | some seed =>
      if puf.1 ≤ 983 && shake256 seed 32 = s.nor.pufCheck then
        let dik := Config.publicKey (shake256 (ascii "Lanrin-DIK" ++ seed) 32)
        (warned { s1 with sec := { s1.sec with seed := some seed, dik := dik } }).setBit R.SEC_STAT 0 true
      else warned (s1.noIdentity 0x9001)
    | none => warned (s1.noIdentity 0x9001)

/-- BRINGUP_ROM (R495, R510); after a trip the phase waits until every sensor is below its hold threshold (R544), and a NOR die that
does not answer is fatal (R518). -/
def execBringupRom (ms : Nat) (f : RomFacts) (s : State) : Host.Outcome State Fault Refusal :=
  settled <|
    if !s.phase 1 then s
    else
      let s1 := s.ms ms
      if s1.sys.tripped && !f.cool then s1
      else
        let s2 : State := { s1 with sys := { s1.sys with tripped := false } }
        if !f.norOk then s2.enterFatal 3 pageNor
        else
          let s3 := (s2.applyWithdrawals.extend 0 Config.bootCode).readPuf f.puf
          let s4 := if s3.bit R.SEC_STAT 0 && !f.chainOk then s3.noIdentity 0x9002 else s3
          let (ok, s5) := s4.bootSelect f.frontSig f.backSig
          if ok then s5.coresStart else s5

/-! The tiny shape (R511, R512). -/

/-- The lowest candidate of `n` that passes its test and that no fence request names; with none, the lowest that passes its test, which
a request fences in the TEST phase (R511, R525). -/
def candidate (n : Nat) (fails fenced : Nat → Bool) : Option Nat :=
  match (List.range n).find? fun i => !fails i && !fenced i with
  | some i => some i
  | none => (List.range n).find? fun i => !fails i

/-- BRINGUP_TINY (R509, R511, R518). -/
def execBringupTiny (ms : Nat) (f : TinyFails) (s : State) : Host.Outcome State Fault Refusal :=
  settled <|
    if !s.phase 2 then s
    else
      let s1 := s.ms ms
      let named (p : Nat) (i : Nat) : Bool := s1.nor.fences.contains (p + i)
      let bad (i : Nat) : Bool := f.cores.any (fun k => k.val = i) || (match s1.sys.wdRecord with
        | some (k, n, _) => k = i && decide (2 ≤ n)
        | none => false)
      let core := candidate 3 bad fun _ => false
      let row := candidate 104 (fun i => f.rows.any fun k => k.val = i) (named 0x28)
      let hbm := candidate 8 (fun i => f.hbm.any fun k => k.val = i) (named 0x10)
      let chan := candidate 32 (fun i => f.chans.any fun k => k.val = i) (named 0x98)
      match core, row, hbm, chan with
      | some a, some b, some c, some d =>
        let s2 := s1.wr R.SYS_TINY (a + b * 2 ^ 2 + c * 2 ^ 9 + d * 2 ^ 12)
        (s2.setBit R.SYS_FLAGS 4 (a + b + c + d ≠ 0)).toPhase 3
      | none, _, _, _ => s1.enterFatal 2 pageSys
      | _, none, _, _ => s1.enterFatal 2 0x28
      | _, _, none, _ => s1.enterFatal 2 0x10
      | _, _, _, none => s1.enterFatal 2 0x98

/-- BRINGUP_FILL: every word of every device that trains is written clean (R446). -/
def execBringupFill (ms : Nat) (dead : List DevNo) (s : State) : Host.Outcome State Fault Refusal :=
  settled <|
    if !s.phase 3 then s
    else
      let s1 := s.ms ms
      let ds := dead.map Fin.val
      let s2 : State := { s1 with
        devs := { s1.devs with words := [], merge := [] }
        sys := { s1.sys with deadDevs := ds } }
      let s3 := (List.range 24).foldl (fun t d => t.wr (R.MEM_STAT (pageDev d)) (if ds.contains d then 0 else 3)) s2
      s3.toPhase 4

/-! TEST (R513 to R515, R518). -/

/-- A page takes its place: PG_PRESENT, and PG_CTL[0] 1 when it is in service (R36, R37). -/
def State.setUnit (s : State) (p v : Nat) : State := (s.setFld (R.PG_PRESENT p) 3 0 v).setBit (R.PG_CTL p) 0 (v = 3)

/-- A unit is fenced at bring-up: event 0xC001, and for a device or a channel R515's. -/
def State.fenceAt (s : State) (p : Nat) (test : Option Nat) : State :=
  let (x, s1) := match test with
    | some t => (t, s)
    | none => s.free
  let s2 := (s1.setUnit p 5).raise pageSys 0xC001 none p x
  if 0x10 ≤ p && p < 0x28 then s2.raise pageSys 0xC005 none 0 0
  else if 0x98 ≤ p && p < 0xB8 then s2.channelFenced (p - 0x98)
  else s2

/-- The spares that take the places of fenced rows: first each of its own group, then the lowest left (R514). -/
def takeSpares (spares lost : List Nat) : List Nat :=
  let own := spares.filter fun r => lost.any fun l => l / 13 = r / 13
  let rest := spares.filter fun r => !own.contains r
  own ++ rest.take (lost.length - own.length)

/-- BRINGUP_TEST (R513 to R515): failing units are fenced, spares take the places of fenced rows with event 0xC002, and every other unit
is in service. With no HBM stack or no row left it is fatal (R518). -/
def execBringupTest (ms : Nat) (fails : List (Page × Nat)) (s : State) : Host.Outcome State Fault Refusal :=
  settled <|
    if !s.phase 4 then s
    else
      let s1 := s.ms ms
      let failed (p : Nat) : Option Nat := (fails.find? fun e => e.1.val = p).map Prod.snd
      let bad (p : Nat) : Bool := (fencible p || p = pageSpt) &&
        ((failed p).isSome || s1.nor.fences.contains p || (0x10 ≤ p && p < 0x28 && s1.sys.deadDevs.contains (p - 0x10)))
      let pages := (List.range 256).filter fun p => typeCode p ≠ 0
      let spare (r : Nat) : Bool := s1.nor.spareRows.contains r
      let s2 := (pages.filter fun p => !bad p).foldl (fun t p =>
        t.setUnit p (if 0x28 ≤ p && p < 0x90 && spare (p - 0x28) then 9 else 3)) s1
      let s3 := (pages.filter bad).foldl (fun t p => t.fenceAt p (failed p)) s2
      let lost := (List.range 104).filter fun r => bad (pageRow r) && !spare r
      let used := takeSpares ((List.range 104).filter fun r => spare r && !bad (pageRow r)) lost
      let s4 := used.foldl (fun t r => (t.setUnit (pageRow r) 3).raise pageSys 0xC002 none 0 0) s3
      let s5 := (List.range 104).foldl (fun t r => if bad (pageRow r) then t else t.countSat (R.ROW_CLR_CNT r) 1) s4
      let s6 := s5.shapeShow used.length
      if s6.fld R.SYS_SHAPE 14 11 = 0 then s6.enterFatal 4 0x10
      else if s6.fld R.SYS_SHAPE 6 0 = 0 then s6.enterFatal 5 0x28
      else s6.toPhase 5

/-! GROW (R303, R510, R517, R519, R521). -/

/-- The settings that NOR keeps go back to their registers (R487, R510). -/
def State.restoreSettings (s : State) : State := s.nor.settings.foldl (fun t e => t.wr e.1 e.2) s.norReadAll

/-- Is a number that of a triplicated word of NOR that the growth phase reads (R444)? -/
def norVoted (w : Nat) : Bool := w = 34 || (decide (64 ≤ w) && decide (w < 80))

/-- A word of NOR that no two copies agree on: the quotas of T3 read 0 until they are written, and the factory frequency is used (R444). -/
def State.norVoteFailed (s : State) (w : Nat) : State :=
  let s1 := s.raise pageErr 0x4008 none w 0
  if w = 34 then
    let s2 : State := { s1 with tmb := { s1.tmb with learnt := 0, norLearnt := none } }
    if s2.tmbState = stFree then s2.freeFreq else s2
  else
    let a := tqMin (w - 64) 3
    let b := tqMax (w - 64) 3
    let s2 := (s1.wr a 0).wr b 0
    { s2 with nor := { s2.nor with settings := kvErase (kvErase s2.nor.settings a) b } }

/-- The votes on the words of NOR that growth reads: a minority copy is rewritten, and a failed vote has its effect (R444). -/
def State.norVotes (s : State) (minority lost : List Nat) : State :=
  (lost.filter norVoted).foldl State.norVoteFailed
    ((minority.filter norVoted).foldl (fun t w => t.raise pageErr 0x4007 none w 0) s)

/-- The retirements of a device take effect: frames and banks in force, none pending (R450, R451). -/
def State.retireAll (s : State) (d : Nat) : State :=
  let p := pageDev d
  let put (t : State) (k : Nat) : State := if t.bit k 31 then t.setBit k 30 false else t
  let s1 := (List.range 256).foldl (fun t i => put t (R.MEM_RET_FRAME p i)) s
  let s2 := (List.range 8).foldl (fun t i => put t (R.MEM_RET_BANK p i)) s1
  let f := ((List.range 256).filter fun i => s2.bit (R.MEM_RET_FRAME p i) 31).length
  let b := ((List.range 8).filter fun i => s2.bit (R.MEM_RET_BANK p i) 31).length
  ((s2.setFld (R.MEM_STAT p) 15 8 b).setFld (R.MEM_STAT p) 31 16 f).retLeft d

/-- The capacities in force: those of T1 and T2, and the channels' share of T3; client 0 may use all of T1 and T2 (R173, R174, R197, R277). -/
def State.setCapacities (s : State) : State :=
  let t1 := s.tierBytes 1
  let t2 := s.tierBytes 2
  let ch := ((List.range 32).filter fun i => s.inService (pageChn i)).length
  let s1 := ((s.wr (tierCap 1) t1).wr (tierCap 2) t2).wr (tierCap 3) (t3Units ch)
  ((s1.wr (tqMax 0 1) t1).wr (tqMax 0 2) t2).capCheck 3

/-- The 16 lowest active rows are reserved for client 0, or all when fewer remain (R213, R519). -/
def State.reserveAtBringup (s : State) : State :=
  let rows := ((List.range 104).filter fun r => s.inService (pageRow r)).take 16
  let s1 : State := { s with sched := { s.sched with reserved := rows.map fun r => (r, 0) } }
  rows.foldl (fun t r => t.setBit (R.ROW_STAT r) 2 true) s1

/-- The energy coefficients of NOR are read into ACC_COEF, when they pass their check (R237). -/
def State.loadCoefs (s : State) (ok : Bool) : State :=
  if ok then
    ((List.range 12).foldl (fun t i => t.wr (R.ACC_COEF i) (s.nor.coefs.getD i 0 % 2 ^ 32)) s).setBit R.ACC_STAT 0 true
  else ((s.setBit R.ACC_STAT 0 false).setIrq pageAcc 5 2).raise pageAcc 0x2009 none 0 0

/-- The MAC addresses of the cages are loaded from NOR (R400). -/
def State.loadMacs (s : State) : State :=
  let half (m i : Nat) : Nat := s.nor.macs.getD m 0 / 2 ^ (32 * i) % 2 ^ (32 - 16 * i)
  (((s.wr R.SPT_MAC0_LO (half 0 0)).wr R.SPT_MAC0_HI (half 0 1)).wr R.SPT_MAC1_LO (half 1 0)).wr R.SPT_MAC1_HI (half 1 1)

/-- The FTL mounts, or with no majority of root pointers T3 is not mounted (R303, R444, R519). -/
def State.mountT3 (s : State) (rootOk : Bool) (torn : Nat) : State :=
  if rootOk then s.mount torn
  else ((s.setBit R.SYS_FLAGS 2 true).raise pageErr 0x4008 none 513 0).raise pageSys 0xC007 none 0 0

/-- The shape in which the module comes up: NO_BE_ROW and REDUCED (R26, R519). -/
def State.shapeFlags (s : State) : State :=
  let n := s.fld R.SYS_SHAPE 6 0
  let reduced := n < 96 || s.fld R.SYS_SHAPE 14 11 < 8 || s.fld R.SYS_SHAPE 19 15 < 16 || s.fld R.SYS_SHAPE 25 20 < 32
  let s1 := if reduced then (s.setBit R.SYS_FLAGS 0 true).raise pageSys 0xC003 none 0 0 else s
  if n ≤ 16 then (s1.setBit R.SYS_FLAGS 1 true).raise pageSys 0xC004 none 0 0 else s1

/-- DIR_ENTRY of every page (R48). -/
def State.writeDir (s : State) : State :=
  ((List.range 256).filter fun p => typeCode p ≠ 0).foldl (fun t p =>
    t.wr (R.DIR_ENTRY p) (typeCode p * 65536 + instanceNo p * 256 + t.present p * 16)) s

/-- Does the module come up in a recovery shape: a unit fenced, or a service removed (R519)? -/
def State.recoveryShape (s : State) : Bool :=
  s.fld R.SYS_FLAGS 3 0 ≠ 0 || (List.range 256).any fun p => s.present p = 5

/-- The cages are up or down as their signals stand (R534). -/
def State.cagesShow (s : State) : State :=
  (List.range 2).foldl (fun t i => t.setBit R.SPT_STAT i (kvFind t.sys.cageSig i = some 8)) s

/-- The release, in the order of R521: the directory, READY, the time taken, RB#. Interrupts then become pending (R559), and the events
of the release follow (R509, R521, R524). -/
def State.release (s : State) : State :=
  let took := (s.etime - s.sys.bringupFrom) / (1000 * tickUs)
  let s1 := ((s.writeDir.toPhase 6).wr R.SYS_BRINGUP_MS (min took 65535)).rbRelease
  let s2 := ({ s1 with released := true, sys := { s1.sys with readyAt := s1.etime } }).settle
  let s3 := if 20000 < took then s2.raise pageSys 0xC00C none 0 0 else s2
  let s4 := match s3.sys.wdEvent with
    | some core => ({ s3 with sys := { s3.sys with wdEvent := none } }).raise pageRst 0xC009 none 0 core
    | none => s3
  if s4.recoveryShape then s4.attend 11 else s4

/-- BRINGUP_GROW (R510, R517, R519, R521). -/
def execBringupGrow (ms : Nat) (f : GrowFacts) (s : State) : Host.Outcome State Fault Refusal :=
  settled <|
    if !s.phase 5 then s
    else
      let s1 : State := { s.ms ms with sys := { (s.ms ms).sys with bankMj := f.bankMj } }
      let s2 := if f.bankMj < 14000 then (s1.setBit R.SYS_FLAGS 3 true).raise pageSys 0xC00B none 0 0 else s1
      let s3 := (List.range 24).foldl State.retireAll (s2.restoreSettings.norVotes f.minority f.lost)
      let s4 := (s3.setCapacities.loadMacs.loadCoefs f.coefsOk).mountT3 f.rootOk f.torn
      (s4.reserveAtBringup.shapeFlags.cagesShow.fenceShow.vsxShow).release

/-- BRINGUP_TIMEOUT: bring-up has taken 60 s (R518, R544). -/
def execBringupTimeout (s : State) : Host.Outcome State Fault Refusal :=
  settled <|
    let n := s.rd R.SYS_STATE
    if 1 ≤ n && n ≤ 5 && s.phase n then (s.elapse (s.sys.bringupFrom + 60 * tickSec - s.etime)).enterFatal 6 pageSys else s

end Sys2Proof.Machine
end

