-- ==== Sys2Proof/Machine/Mailbox.lean ====
section
/-! DEFINITION. NVM namespaces made and deleted by command (R418, R425), and the privileged mailbox (R430). -/

namespace Sys2Proof.Machine

/-- The fields of NS_CREATE and NS_DELETE (R425). -/
def nsCreateMasks : Nat × Nat × Nat × Nat × Nat × Nat := (0xF, 0, 0xFFFFFFFF, 0xFFFFFFFF, 0, 0)
def nsDeleteMasks : Nat × Nat × Nat × Nat × Nat × Nat := (0xFFFFFFFF, 0, 0, 0, 0, 0)

/-- A † command from a client other than 0 (R425, R428). -/
def stUnpermitted : Nat := 0x81

/-- NS_CREATE on a fetched command: a STRIPED T3 region of the owning client under the lowest free NSID (R418); the status with all
256 in use is a free value. -/
def State.nsCreate (s : State) (cid : Cid) (e : Sqe) : State :=
  if cid.c.val ≠ 0 then s.failGonum cid stUnpermitted 0
  else if s.t3Absent then s.tierFail cid 0x80
  else
    let c := e.cdw10.toNat % 16
    let blocks := dword2 e.cdw12 e.cdw13
    match kvFirstFree s.namespaces 2 256 with
    | none =>
      let (d, s1) := s.free
      s1.failGonum cid (1 + d % 255) 0
    | some id =>
      let st := s.allocStatus c 3 (blocks * 4096)
      if st ≠ 0 then s.tierFail cid st
      else
        let (h, s1) := s.newRegion c 3 (blocks * 4096) useNs true 0 true
        ({ s1 with namespaces := kvPut s1.namespaces id ⟨c, h, blocks⟩ }).succeed cid id 0

/-- NS_CREATE (R418). -/
def execNsCreate (cid : Cid) (e : Sqe) (s : State) : Host.Outcome State Fault Refusal :=
  settled (s.gonumOf pageFtl cid e nsCreateMasks fun t => t.nsCreate cid e)

/-- NS_DELETE on a fetched command: the namespace and its region go, but not in read-only mode (R301, R425). -/
def State.nsDelete (s : State) (cid : Cid) (e : Sqe) : State :=
  if cid.c.val ≠ 0 then s.failGonum cid stUnpermitted 0
  else if s.t3Absent then s.tierFail cid 0x80
  else
    match kvFind s.namespaces e.cdw10.toNat with
    | none => s.failNvme cid 0 scNamespace true 0
    | some n =>
      if s.readOnly then s.tierFail cid 0x07
      else
      (({ s with namespaces := kvErase s.namespaces e.cdw10.toNat }).freeRegion n.region).succeed cid 0 0

/-- NS_DELETE (R425). -/
def execNsDelete (cid : Cid) (e : Sqe) (s : State) : Host.Outcome State Fault Refusal :=
  settled (s.gonumOf pageFtl cid e nsDeleteMasks fun t => t.nsDelete cid e)

/-! The privileged mailbox (R430). -/

/-- Dword i of the mailbox entry. -/
def State.pmbDword (s : State) (i : Nat) : BitVec 32 := BitVec.ofNat 32 (s.rd (R.HIF_PMB_SQE i))

/-- The mailbox entry as a Gonum command (R424). -/
def State.pmbEntry (s : State) : Sqe :=
  { nsid := s.pmbDword 1, cdw2 := s.pmbDword 2, cdw3 := s.pmbDword 3
    mptr := BitVec.ofNat 64 (dword2 (s.pmbDword 4) (s.pmbDword 5))
    cdw10 := s.pmbDword 10, cdw11 := s.pmbDword 11, cdw12 := s.pmbDword 12
    cdw13 := s.pmbDword 13, cdw14 := s.pmbDword 14, cdw15 := s.pmbDword 15 }

/-- Data that the mailbox entry's pointer names has not arrived: event 0x1009 (R428, R432). -/
def State.pmbNoData (s : State) (cid : Cid) : State :=
  (s.raise pageHif 0x1009 (some cid.c.val) cid.id 0).failNvme cid 0 scData true 0

/-- The command of a mailbox entry takes place (R425, R430). -/
def State.pmbRun (s : State) (cid : Cid) (op : Nat) (e : Sqe) (d : DptrData) (dies : List GroupDie) : State :=
  let none6 : Nat × Nat × Nat × Nat × Nat × Nat := (0, 0, 0, 0, 0, 0)
  let batch : Nat × Nat × Nat × Nat × Nat × Nat := (0xFF, 0x1FFFF, 0, 0, 0, 0)
  let withData (eff : State → State) (t : State) : State := if d.ok then eff t else t.pmbNoData cid
  match op with
  | 0x81 => s.gonum cid e figLoadMasks fun t => match d.fig with
    | some f => t.figLoad cid e f ⟨d.ok, d.reads⟩
    | none => t.pmbNoData cid
  | 0x82 => s.gonum cid e (0x3FF, 0, 0, 0, 0, 0) fun t => t.figUnload cid e
  | 0x84 => s.gonum cid e (0x7FFF, 0, 0xFFFFFFFF, 0xFFFFFFFF, 0xFFFFFFFF, 0xFFFFFFFF) fun t => t.ctxCreate cid e
  | 0x85 => s.gonum cid e ctxMasks fun t => t.ctxResetCmd cid e.cdw10.toNat
  | 0x86 => s.gonum cid e ctxMasks fun t => t.ctxReleaseCmd cid e.cdw10.toNat
  | 0x8C => s.gonum cid e allocMasks fun t => t.regionAlloc cid e
  | 0x8D => s.gonum cid e freeMasks fun t => t.regionFree cid e
  | 0x90 => s.gonum cid e none6 (withData fun t => match d.desc with
    | some m => t.moveData cid m d.reads d.ecc d.redo
    | none => t.pmbNoData cid)
  | 0x91 => s.gonum cid e none6 (withData fun t => match d.desc with
    | some m => t.copyData cid m d.ecc d.redo
    | none => t.pmbNoData cid)
  | 0x94 => s.gonum cid e (0x1FFFFF, 0x7F, 0xFFFFFFFF, 0xFFFFFFFF, 0, 0) fun t => t.idxCreate cid e
  | 0x95 => s.gonum cid e batch (withData fun t => (t.idxInsert cid e d.items dies).getD t)
  | 0x96 => s.gonum cid e batch (withData fun t => t.idxDelete cid e d.items)
  | 0x97 => s.gonum cid e (0xFF, 0xFFFFF, 0, 0, 0, 0) fun t => (t.idxCompact cid e dies).getD t
  | 0x98 => s.gonum cid e (0xFF, 0xFFFFF, 0xFFFFF, 0, 0, 0) fun t => (t.idxMerge cid e dies).getD t
  | 0x99 => s.gonum cid e (0xFF, 0xFFFFF, 0, 0, 0, 0) fun t => t.idxDrop cid e
  | 0x9A => s.gonum cid e (0xFF, 0xFFFFF, 0xF, 0, 0, 0) (withData fun t => t.idxEdges cid e d.targets)
  | 0x9B => s.gonum cid e (0xFF, 0, 0, 0, 0, 0) fun t => t.idxDestroy cid e
  | 0x9C => s.gonum cid e nsCreateMasks fun t => t.nsCreate cid e
  | 0x9D => s.gonum cid e nsDeleteMasks fun t => t.nsDelete cid e
  | _ => s.failNvme cid 0 scOpcode true 0

/-- The page whose block carries out a command of the mailbox, for those that a quiesce holds (R38). -/
def pmbPage (op : Nat) : Option Nat :=
  if 0x84 ≤ op && op ≤ 0x86 then some pageCtx
  else if op = 0x8C || op = 0x8D then some pageTier
  else if 0x94 ≤ op && op ≤ 0x9B then some pageVsx
  else if op = 0x9C || op = 0x9D then some pageFtl
  else none

/-- Does a mailbox entry wait: for its block, or for dies that its index command can use? -/
def State.pmbWaits (s : State) (cid : Cid) (op : Nat) (e : Sqe) (d : DptrData) (dies : List GroupDie) : Bool :=
  (pmbPage op).any s.paused || (op = 0x95 && d.ok && (s.idxInsert cid e d.items dies).isNone) || (op = 0x97 && (s.idxCompact cid e dies).isNone) ||
    (op = 0x98 && (s.idxMerge cid e dies).isNone)

/-- HIF_PMB_GO takes a value: refused while a command runs (0x100B); else BUSY, and the command takes place (R430). -/
def State.pmbStart (s : State) (v : Nat) (d : DptrData) (dies : List GroupDie) : State :=
  if !v.testBit 0 then s
  else if s.bit R.HIF_PMB_STAT 0 then s.raise pageHif 0x100B (some 0) 0 0
  else if s.quiescing pageHif then s
  else
    let w := (s.pmbDword 0).toNat
    let cid : Cid := ⟨0, pmbQ, bits w 31 16⟩
    let e := s.pmbEntry
    if s.pmbWaits cid (w % 256) e d dies then s
    else
      let s1 := (s.wr R.HIF_PMB_STAT 1).setIdle pageHif false
      if bits w 15 8 ≠ 0 then s1.failNvme cid 0 scField true 0 else s1.pmbRun cid (w % 256) e d dies

/-- PMB_GO (R430). -/
def execPmbGo (c : Client) (v : BitVec 32) (d : DptrData) (dies : List GroupDie) (s : State) :
    Host.Outcome State Fault Refusal :=
  settled (s.command c R.HIF_PMB_GO v.toNat fun t _ raw => t.pmbStart raw d dies)

end Sys2Proof.Machine
end

