-- ==== Sys2Proof/Machine/Views.lean ====
section
/-! DEFINITION. What registers read as that show the state of a block rather than a stored value (R52, R91, R92, R204, R242, R244,
R272, R306, R308, R340, R400, R434, R461, R464, R485, R503). -/

namespace Sys2Proof.Machine

/-- IRQ_PEND[j] of client n: bit i is set while page 32 j + i has a pending bit routed to the client (R52). -/
def State.irqPend (s : State) (n j : Nat) : Nat :=
  (List.range 32).foldl (fun a i => if s.pagePending (32 * j + i) n then a + 2 ^ i else a) 0

/-- TMB's page: DTIME now, the client's latches, the holdover estimate (R64, R91, R92). -/
def State.viewTmb (s : State) (c o : Nat) : Option Nat :=
  match o with
  | 0x110 => some (dtFrac s.dtime)
  | 0x114 => some (dtNs (kvGet 0 s.nowHold c))
  | 0x118 => some (dtSec (kvGet 0 s.nowHold c) % 2 ^ 32)
  | 0x11C => some (dtSec (kvGet 0 s.nowHold c) / 2 ^ 32 % 65536)
  | 0x138 => some s.hoEst
  | 0x154 => some (dtNs (kvGet 0 s.ppsHold c))
  | 0x158 => some (dtSec (kvGet 0 s.ppsHold c) % 2 ^ 32)
  | 0x15C => some (dtSec (kvGet 0 s.ppsHold c) / 2 ^ 32 % 65536)
  | _ => none

/-- SCH_STAT (R219, R242). -/
def State.schStat (s : State) : Nat :=
  let pool := s.liveRows.filter fun r => (kvFind s.sched.reserved r).isNone
  let formed := s.sched.runs.filter fun e => e.2.phase = .formed && !e.2.lc
  let stuck := formed.any fun e => !s.everFits e.2 && formed.all fun d => d.1 = e.1 || beBefore e.1 e.2 d.1 d.2
  s.sched.reserved.length + pool.length * 2 ^ 7 + (s.bit R.SCH_STAT 14).toNat * 2 ^ 14 + stuck.toNat * 2 ^ 15

/-- Four bytes of a reservation map, for rows 4 i to 4 i + 3 (R242). -/
def mapWord (m : KV Nat) (i : Nat) : Nat :=
  mapByte m (4 * i) + mapByte m (4 * i + 1) * 0x100 + mapByte m (4 * i + 2) * 0x10000 + mapByte m (4 * i + 3) * 0x1000000

/-- Commands of client c that wait for a run of an LC or of a BE figure. -/
def State.queued (s : State) (c : Nat) (lc : Bool) : Nat :=
  (s.sched.queue.filter fun m => m.cid.c.val = c && (match kvFind s.sched.figures m.handle with
    | some l => l.fig.main.lc = lc
    | none => false)).length

/-- SCH's page (R242). -/
def State.viewSch (s : State) (o : Nat) : Option Nat :=
  if o = 0x100 then some s.schStat
  else if 0x280 ≤ o && o < 0x2E8 then some (mapWord s.sched.reserved ((o - 0x280) / 4))
  else if 0x1000 ≤ o then
    let c := (o - 0x1000) / 0x100
    match o % 0x100 with
    | 0x04 => some (s.reservedCount c + min (s.coveredRuns c fun _ _ => true) 63 * 2 ^ 6 +
        (s.sched.degraded.any fun d => d.1 = c).toNat * 2 ^ 12)
    | 0x08 => some (min (s.queued c true) 65535 + min (s.queued c false) 65535 * 65536)
    | _ => none
  else none

/-- CTX's page (R244). -/
def State.viewCtx (s : State) (o : Nat) : Option Nat :=
  if o = 0x104 then some (0x40000 - s.ctxs.length)
  else if 0x1000 ≤ o then
    let c := (o - 0x1000) / 0x10
    match o % 0x10 with
    | 4 => some (s.ctxUse c)
    | 8 => some (s.ctxs.filter fun e => e.2.client = c && e.2.state = 3).length
    | _ => none
  else none

/-- Bytes, or units of T3, that no client is charged for. -/
def State.tierFree (s : State) (t : Nat) : Nat := s.rd (tierCap t) - sumClients fun c => s.rd (tqUse c t)

/-- TIER's page (R204). -/
def State.viewTier (s : State) (o : Nat) : Option Nat :=
  match o with
  | 0x128 => some (s.tierFree 1)
  | 0x130 => some (s.tierFree 2)
  | 0x138 => some (s.tierFree 3)
  | _ =>
    if 0x1000 ≤ o && o % 0x100 = 0x48 then
      let c := (o - 0x1000) / 0x100
      let above (t : Nat) : Nat := (decide (s.rd (tqMax c t) < s.rd (tqUse c t))).toNat
      some (above 1 + above 2 * 2 + above 3 * 4)
    else none

/-- Does a client journal: its DJ_CTL.EN is set, or a run of it is still journalled (R265, R272)? -/
def State.journals? (s : State) (n : Nat) : Bool :=
  s.bit (R.DJ_CTL n) 0 || s.sched.runs.any fun e => e.2.client = n && e.2.journalled && e.2.live

/-- DET's page (R272). -/
def State.viewDet (s : State) (o : Nat) : Option Nat :=
  if o = 0x100 then
    some (((List.range 16).any s.journals?).toNat + (s.journals.any fun e => e.2.replay.isSome).toNat * 2)
  else if 0x1000 ≤ o && o % 0x100 = 0x2C then
    let n := (o - 0x1000) / 0x100
    some (putBits (s.rd (R.DJ_STAT n)) 0 0 (s.journals? n).toNat)
  else none

/-- The word of the log shown at a page offset of the window (R453, R461). -/
def State.errWord (s : State) (o : Nat) : Nat :=
  match kvFind s.err.ring (1024 * s.fld R.ERR_WIN 1 0 + (o - 0x8000) / 32) with
  | some r => ofLe ((r.bytes.drop (o % 32 / 4 * 4)).take 4)
  | none => 0

/-- ERR's page (R461). -/
def State.viewErr (s : State) (o : Nat) : Option Nat :=
  if o = 0x104 then
    some ((decide (4096 ≤ s.rd R.ERR_HEAD - s.rd R.ERR_TAIL)).toNat + (s.bit R.ERR_STAT 1).toNat * 2 + s.err.queue.length * 4)
  else if 0x8000 ≤ o then some (s.errWord o)
  else none

/-- SEC's page: the identity, the unlock, and the client's latch of the measurements (R478, R480, R485). -/
def State.viewSec (s : State) (c o : Nat) : Option Nat :=
  let latch := kvGet [] s.measHold c
  if o = 0x120 then
    some (min (s.sched.runs.filter fun e => e.2.phase.working && e.2.gen ≠ s.rd R.SEC_RIGHTS_GEN).length 255)
  else if o = 0x138 then some (if s.bit R.SEC_STAT 2 then s.sec.endsAt - s.msr.count else 0)
  else if 0x140 ≤ o && o < 0x160 then some (ofLe ((s.identity.drop (o - 0x140)).take 4))
  else if o = 0x188 then some (latch.getD 16 0)
  else if 0x1C0 ≤ o && o < 0x200 then some (latch.getD ((o - 0x1C0) / 4) 0)
  else none

/-- NOR's page: what the endpapers, the selector records and the counts say (R503). -/
def State.viewNor (s : State) (o : Nat) : Option Nat :=
  let seq (back : Bool) : Nat := if s.bit R.NOR_STAT (if back then 3 else 2) then (s.endpaper back).seq else 0
  match o with
  | 0x104 => some (s.rollbackNow % 2048)
  | 0x108 => some (seq false)
  | 0x10C => some s.nor.front.svn
  | 0x110 => some s.nor.front.fwver
  | 0x114 => some (seq true)
  | 0x118 => some s.nor.back.svn
  | 0x11C => some s.nor.back.fwver
  | 0x128 => some (min s.nor.attempts.length 3)
  | 0x130 => some (s.nor.erases.foldl (fun a e => max a e.2) 0 % 2 ^ 24)
  | _ =>
    if 0x140 ≤ o && o < 0x160 then some (ofLe (((s.endpaper s.runsBack).bodyDigest.drop (o - 0x140)).take 4)) else none

/-- The bank that a client has selected on the page of a memory device (R464). -/
def State.viewMem (s : State) (c p o : Nat) : Option Nat :=
  if o = 0x13C then some (kvGet 0 s.devs.banks ((p - 0x10) * 65536 + s.fld (banked c (R.MEM_BANK_SEL p)) 10 0)) else none

/-- The die that a client has selected on the page of channel die n: its channel times 17 plus its position (R306). -/
def State.dieSel (s : State) (c n : Nat) : Nat :=
  let v := s.rd (banked c (R.QDI_DIE_SEL n))
  bits v 2 0 * 17 + bits v 12 8

/-- The erase counts of the selected die's blocks, lowest and highest; a block of which none is listed counts 0 (R289, R306). -/
def State.dieWear (s : State) (n d : Nat) : Nat × Nat :=
  let l := (s.ftl.ec.filter fun e => e.1 / 2 ^ 24 = n && e.1 % 2 ^ 24 / 10280 = d).map fun e => e.2 / 10
  let hi := l.foldl max 0
  (if l.length < 10280 then 0 else l.foldl min hi, hi)

/-- The pages of the channel dies; a quire is short that lacks a block on one of the 16 in-service positions of each channel (R283, R306). -/
def State.viewQdi (s : State) (c n o : Nat) : Option Nat :=
  let d := s.dieSel c n
  let x := s.die n d
  match o with
  | 0x100 =>
    let up := (List.range 8).foldl (fun a i => a + (s.chanUp (8 * n + i)).toNat * 2 ^ i) 0
    some (putBits (s.rd (R.QDI_STAT n)) 7 0 up)
  | 0x108 => some (x.status + x.reserve * 65536)
  | 0x10C => some (min (s.dieWear n d).1 65535 + min (s.dieWear n d).2 65535 * 65536)
  | 0x110 => some (x.grown + x.factory * 65536)
  | 0x114 =>
    let opened := (s.ftl.quires.filter fun e => e.1 / 65536 = n && e.2.phase = .opened).length
    let short := (s.ftl.dead.any fun e => e.1 / 136 / 65536 = n) || s.ftl.quires.any fun e => e.1 / 65536 = n && e.2.phase ≠ .free &&
      e.2.dies.length < 128
    some (s.freeQuires n + min opened 255 * 65536 + short.toNat * 2 ^ 24)
  | 0x14C => some (min (s.spread n) 65535)
  | _ => none

/-- HIF_STAT (R434): RB# low, an attention pending, a pattern in progress. -/
def State.hifStat (s : State) : Nat :=
  s.sys.low.toNat + (decide (s.attnWanted ≠ .no)).toNat * 2 + (s.sys.patternEnd.any fun t => decide (s.etime < t)).toNat * 4

/-- What the register at offset o of page p shows client c, when it shows more than a stored value. -/
def State.view (s : State) (c p o : Nat) : Option Nat :=
  match typeCode p with
  | 0x02 => if o = 0x104 && s.sys.phaseHidden then some 1 else none
  | 0x04 => s.viewTmb c o
  | 0x06 => if 0x8000 ≤ o && 0x20 ≤ o % 0x800 then some (s.irqPend ((o - 0x8000) / 0x800) (o % 0x800 / 4 - 8)) else none
  | 0x07 => if o = 0x108 then some s.hifStat else none
  | 0x08 => s.viewSch o
  | 0x09 => if 0x1000 ≤ o && o < 0x9000 && o % 0x800 = 0 then some (s.liveRd (p * 0x10000 + o)) else none
  | 0x0A => s.viewCtx o
  | 0x0B => s.viewTier o
  | 0x0C => s.viewDet o
  | 0x0D => s.viewErr o
  | 0x0F => s.viewSec c o
  | 0x10 => s.viewNor o
  | 0x20 | 0x21 => s.viewMem c p o
  | 0x30 => if o = 0x110 then some (s.liveRd (p * 0x10000 + o)) else none
  | 0x40 => if o = 0x100 then some (putBits (s.rd (p * 0x10000 + o)) 6 6 (s.chanUp (p - 0x98)).toNat) else none
  | 0x41 => s.viewQdi c (p - 0xB8) o
  | 0x42 =>
    if o = 0x100 && s.phase 5 then some (putBits (s.rd R.FTL_STAT) 1 0 2)
    else if o = 0x118 then some (min s.life 255) else if o = 0x128 then some s.slcUsed else none
  | 0x60 =>
    if o = 0x104 then some (s.fld R.SPT_STAT 1 0 + s.timeUsable.toNat * 4 + (!s.spt.launched.isEmpty).toNat * 8) else none
  | _ => none

/-- The whole value of a register as client c reads it. -/
def State.show (s : State) (c p : Nat) (h : RegHit) : Nat := (s.view c p h.base).getD (s.rd (regKey c p h))

end Sys2Proof.Machine
end

