-- ==== Sys2Proof/Machine/Registers.lean ====
section
/-! DEFINITION. Register accesses of any width: what each register does with a value written to it, the two-half writes and reads
of 64-bit registers, the registers that clear or latch when they are read (R8, R33 to R36, R91, R92, R461, R485). -/

namespace Sys2Proof.Machine

/-! What registers do with a value written. -/

/-- A value in range is stored; another is dropped with an event of page p, whose entry names what `addr` says. -/
def State.wrRange (s : State) (ok : Bool) (p code key v addr : Nat) : State :=
  if ok then s.wr key v else s.raise p code none addr 0

/-- A register that holds rights takes a value (R479). -/
def State.takeRights (s : State) (key v : Nat) : State := (s.wrRights key v).settleRights

/-- A register whose new value applies from the next measure takes it (R204, R344). -/
def State.wrNextMeasure (s : State) (key v : Nat) : State :=
  let old := s.vsxCtl key
  { s.wr key v with search := { s.search with before := kvPut s.search.before key (old, s.msr.count) } }

/-- PG_CTL takes a value; its supervisor lock is a right (R38 to R40, R42, R479). -/
def State.wrPgCtl (s : State) (c p new raw : Nat) : State :=
  let k := R.PG_CTL p
  let old := s.rd k
  if old.testBit 31 = new.testBit 31 then s.ctlWrite c p new raw
  else
    let s1 : State := if (kvFind s.inForce k).isNone then { s with inForce := kvPut s.inForce k (BitVec.ofNat 64 old) } else s
    (s1.ctlWrite c p new raw).settleRights

/-- The common header (R36). -/
def State.wrHeader (s : State) (c p o new raw : Nat) : State :=
  match o with
  | 0x0C => s.wrPgCtl c p new raw
  | 0x18 => (s.wr (R.PG_IRQ_EN p) new).settle
  | 0x1C => s.clearIrq p raw
  | 0x20 =>
    if 0x10 ≤ new % 256 && new % 256 ≤ 0xFE then s.accessEvent 0x1002 c (p * 0x10000 + o)
    else (s.takeRights (R.PG_OWNER p) new).settle
  | 0x24 => (s.takeRights (R.PG_GUARD p) (new ||| 1)).settle
  | _ => s

/-- TMB's registers (R58, R67, R83, R87, R91). -/
def State.wrTmb (s : State) (o key new raw : Nat) : State :=
  match o with
  | 0x100 => s.setTmbCtl new
  | 0x12C => s.tmbCmd raw
  | 0x140 => s.wrRange (0 < bits new 18 0 && bits new 18 0 ≤ 500000) pageTmb 0x8009 key new 0
  | 0x178 => s.wrRange (0 < bits new 15 0 && 8 ≤ bits new 23 16 && 0 < bits new 31 24) pageTmb 0x8009 key new 0
  | _ => s.wr key new

/-- A register of the measure origin takes a value only in a stopped module that does not follow; a grid with nothing announced
starts from it (R71, R84). A write that meets both refusals raises 0x800D, which the rules do not order (log entry 48). -/
def State.wrOrigin (s : State) (key v : Nat) : State :=
  if s.tmbState = stFollowing then s.raise pageMsr 0x800D none 0 0
  else if s.running then s.raise pageMsr 0x8009 none 0 0
  else
    let s1 := s.wr key v
    if s1.msr.queue.isEmpty then { s1 with msr := { s1.msr with announced := [] } } else s1

/-- MSR's registers (R71 to R74, R84, R94). -/
def State.wrMsr (s : State) (c o key new raw : Nat) : State :=
  if 0x1000 ≤ o then
    let slot := (o - 0x1000) / 16
    if o % 16 = 12 then s.armCmd c slot raw
    else s.wrRange (s.armState slot ≠ 1 && s.armState slot ≠ 2) pageMsr 0x8009 key new 0
  else
    match o with
    | 0x100 => s.setMsrCtl new
    | 0x104 => s.setLead new
    | 0x10C => s.wrRange (s.tmbState ≠ stFollowing) pageMsr 0x800D key new 0
    | 0x110 => s.submitChange new
    | 0x120 | 0x124 | 0x128 | 0x12C | 0x130 => s.wrOrigin key new
    | _ => s.wr key new

/-- IRQ's windows (R52, R53). -/
def State.wrIrq (s : State) (o key new : Nat) : State :=
  if o % 0x800 = 0 then (s.wr key new).settle else s.wr key new

/-- What comes with a mailbox command given by a plain register write: nothing arrives from the host. -/
def noDptr : DptrData := ⟨none, [], [], none, false, [], [], 0⟩

/-- HIF's registers (R425, R430). -/
def State.wrHif (s : State) (o key new raw : Nat) : State :=
  if o = 0x2040 then s.pmbStart raw noDptr []
  else if o < 0x2000 then (if 1024 < new then s else s.takeRights key new)
  else s.wr key new

/-- SCH's registers (R242); a dropped value is logged with the client of the block written, or with the writer (R240). -/
def State.wrSch (s : State) (c o key new raw : Nat) : State :=
  let drop (n : Nat) : State := s.raise pageSch 0x200A (some n) 0 0
  if 0x1000 ≤ o then (if 48 < new % 256 then drop ((o - 0x1000) / 0x100) else s.takeRights key new)
  else
    match o with
    | 0x104 => if 16 < new then drop c else s.takeRights key new
    | 0x108 => if 256 ≤ new then s.wr key new else drop c
    | 0x118 => s.resCmd c raw
    | _ => if 0x200 ≤ o && o < 0x268 then (s.wr key new).setBit R.SCH_STAT 14 true else s.wr key new

/-- CTX's registers (R245). -/
def State.wrCtx (s : State) (c o key new raw : Nat) : State :=
  if 0x1000 ≤ o then s.takeRights key new else if o = 0x10C then s.ctxCmd c raw else s.wr key new

/-- A value of TIER that client c wrote is dropped (R202, R204). -/
def State.tierDrop (s : State) (c : Nat) : State := (s.setIrq pageTier 6 3).raise pageTier 0x3005 (some c) 0 0

/-- TIER's registers (R194, R199, R204). -/
def State.wrTier (s : State) (c o key new : Nat) : State :=
  if 0x1000 ≤ o then
    let n := (o - 0x1000) / 0x100
    let i := o % 0x100
    if i = 0x50 then s.setCxlm n new else s.setQuota n (i / 0x18 + 1) (i % 0x18 = 8) new
  else if o = 0x104 then (if 100 ≤ new && new ≤ 1095 then s.wr key new else s.tierDrop c)
  else if o = 0x108 then (if new = 0 then s.tierDrop c else s.wrNextMeasure key new)
  else s.wr key new

/-- DET's registers (R256, R265, R272). -/
def State.wrDet (s : State) (c o key new raw : Nat) : State :=
  if 0x1000 ≤ o then
    let n := (o - 0x1000) / 0x100
    match o % 0x100 with
    | 0x00 => s.setDjCtl n new
    | 0x08 => if s.bit (R.DJ_CTL n) 0 then s else s.jRegion n new
    | 0x58 => s.drCmd n raw
    | _ => s.wr key new
  else
    match o with
    | 0x104 => if 0 < new && new ≤ 16 then s.wr key new else s
    | 0x144 => if raw.testBit 0 then s.colophonRead c else s
    | _ => s.wr key new

/-- SEC's registers (R478, R481, R485). -/
def State.wrSec (s : State) (o key new raw : Nat) : State :=
  match o with
  | 0x108 => if new.testBit 0 then s.startHold else s.endHold
  | 0x10C => if new = 0 then s else s.wr key new
  | 0x130 => if raw.testBit 0 then s.lockDiag else s
  | _ => s.wr key new

/-- The registers of a memory device (R452, R464). -/
def State.wrMem (s : State) (d o key new raw : Nat) : State :=
  if o = 0x140 then (if raw % 4 = 1 then s.retireFrame d none false else if raw % 4 = 2 then s.retireBank d else s)
  else s.wr key new

/-- FTL's registers, kept in NOR; a new GC_MIN is at once what the groups are held to (R290, R308). -/
def State.wrFtl (s : State) (o key new : Nat) : State :=
  let ok := match o with
    | 0x104 => 32 ≤ new && new ≤ 4000
    | 0x108 => 2 ≤ new % 256 && new % 256 ≤ 16 && [8, 12, 16, 20].all fun i => 0 < bits new (i + 3) i
    | 0x110 => 1 ≤ new && new ≤ 1000000
    | _ => true
  if ok then
    let s1 := s.wrNor logFtl key new
    if o = 0x108 then (List.range 4).foldl State.fgcCheck s1 else s1
  else s.raise pageFtl 0x5010 none 0 0

/-- VSX's registers (R344). -/
def State.wrVsx (s : State) (c o key new raw : Nat) : State :=
  match o with
  | 0x104 => if bits new 3 0 ≤ 8 && bits new 7 4 ≤ 8 && bits new 15 8 ≤ 64 then s.wrNextMeasure key new else s
  | 0x108 => if 64 ≤ new && new ≤ 4096 then s.wrNextMeasure key new else s
  | 0x204 => s.vsxCmd c raw
  | _ => s.wr key new

/-- A link's registers (R348, R380). -/
def State.wrLnk (s : State) (l o key new raw : Nat) : State :=
  match o with
  | 0x100 => s.setTrain l new
  | 0x104 => s.wrRange (s.linkState l = lkDown) (pageLnk l) 0x700E key new l
  | 0x110 => s.admitCmd l raw
  | 0x118 => s.wrRange (new ≠ 0) (pageLnk l) 0x700E key new l
  | _ => s.wr key new

/-- RED's registers: the plan changes only while EN is 0 (R383). -/
def State.wrRed (s : State) (o key new : Nat) : State :=
  match o with
  | 0x100 => s.redCtl new
  | 0x110 => s.wrRange (new ≠ 0) pageRed 0x700E key new 0
  | _ => if s.bit R.RED_CTL 0 then s else if o = 0x104 then (s.wr key new).elect else s.wr key new

/-- SPT's registers (R400). -/
def State.wrSpt (s : State) (c o key new raw : Nat) : State :=
  match o with
  | 0x100 => s.setSptCtl new
  | 0x108 => if 0 < new && new ≤ 1000000 then s.wr key new else s.sptEvent 0xB009 0 none
  | 0x204 => s.sptCmd c raw
  | _ => s.wr key new

/-- QNT's registers: EN and CLIENT of a monitor are rights (R133, R145, R479). -/
def State.wrQnt (s : State) (c o key new raw : Nat) : State :=
  if o = 0x110 then s.gridCmd raw
  else if o = 0x118 then s.monCmd c raw
  else if 0x4000 ≤ o && bits new 11 8 * 2 + new % 2 ≠ s.fld key 11 8 * 2 + s.rd key % 2 then s.takeRights key new
  else s.wr key new

/-- RST's registers: the watchdog takes kicks of the management cores only (R509, R516, R528). -/
def State.wrRst (s : State) (o key new raw : Nat) : State :=
  match o with
  | 0x100 => if raw = 0xC0DE then s.moduleRst 3 else s
  | 0x10C => s
  | 0x114 => s.fenceCmd raw
  | _ => s.wr key new

/-- A register of page p takes a value: `new` is what it would hold, `raw` what was written. -/
def State.wrHook (s : State) (c p : Nat) (h : RegHit) (new raw : Nat) : State :=
  let o := h.base
  let key := regKey c p h
  if o < 0x100 then s.wrHeader c p o new raw
  else
    match typeCode p with
    | 0x03 => s.wrRst o key new raw
    | 0x04 => s.wrTmb o key new raw
    | 0x05 => s.wrMsr c o key new raw
    | 0x06 => s.wrIrq o key new
    | 0x07 => s.wrHif o key new raw
    | 0x08 => s.wrSch c o key new raw
    | 0x09 => if new = 0 then s else s.wr key new
    | 0x0A => s.wrCtx c o key new raw
    | 0x0B => s.wrTier c o key new
    | 0x0C => s.wrDet c o key new raw
    | 0x0D => if o = 0x110 then s.setTail new else s.wr key new
    | 0x0E => if o = 0x104 && (new = 0 || 720 < new) then s else s.wr key new
    | 0x0F => s.wrSec o key new raw
    | 0x20 | 0x21 => s.wrMem (p - 0x10) o key new raw
    | 0x32 => s.wrQnt c o key new raw
    | 0x42 => s.wrFtl o key new
    | 0x43 => s.wrVsx c o key new raw
    | 0x50 => s.wrLnk (p - 0xC0) o key new raw
    | 0x51 => s.wrRed o key new
    | 0x60 => s.wrSpt c o key new raw
    | _ => s.wr key new

/-! Writes. -/

/-- A checked whole write of the register at `addr`. -/
def State.wrWhole (s : State) (c addr v : Nat) : State :=
  match regHit (addr / 0x10000) (addr % 0x10000) with
  | some h => s.writeBy c addr v fun t new raw => t.wrHook c (addr / 0x10000) h new raw
  | none => s.writeBy c addr v fun t _ _ => t

/-- A 32-bit write to the lower half of the 64-bit register at `addr`: checked, and held (R35, R41, R42). -/
def State.writeLower (s : State) (c addr : Nat) (h : RegHit) (v : Nat) : State :=
  let p := addr / 0x10000
  match s.verdict c p h (s.rd (regKey c p h) / 2 ^ 32 * 2 ^ 32 + v) with
  | .ignore => s
  | .refuse code => s.accessEvent code c addr
  | .take _ raw =>
    let s1 : State := { s with wrHold := kvPut s.wrHold c ⟨p * 0x10000 + h.base, v⟩ }
    if raw < 2 ^ 64 then s1 else s1.accessEvent 0x1002 c addr

/-- A 32-bit write to the upper half: with the held lower half of the same register one 64-bit write, else the lower half stays as it
is (R35). -/
def State.writeUpper (s : State) (c addr : Nat) (h : RegHit) (v : Nat) : State :=
  let p := addr / 0x10000
  let key := p * 0x10000 + h.base
  match kvFind s.wrHold c with
  | some x =>
    if x.key = key then ({ s with wrHold := kvErase s.wrHold c }).wrWhole c addr (v * 2 ^ 32 + x.bits)
    else (s.dropHeld c p key).wrWhole c addr (v * 2 ^ 32 + s.rd (regKey c p h) % 2 ^ 32)
  | none => s.wrWhole c addr (v * 2 ^ 32 + s.rd (regKey c p h) % 2 ^ 32)

/-- A 32-bit write by client c to an aligned address of a page that answers. -/
def State.write32 (s : State) (c addr v : Nat) : State :=
  let p := addr / 0x10000
  match regHit p (addr % 0x10000) with
  | none => (s.dropHeld c p addr).wrWhole c addr v
  | some h =>
    if !h.rd.wide then (s.dropHeld c p addr).wrWhole c addr v
    else if h.upper then s.writeUpper c addr h v
    else (s.dropHeld c p addr).writeLower c addr h v

/-- Is the word at a page offset a half of a 64-bit register? -/
def wideAt (p o : Nat) : Bool :=
  match regHit p o with
  | some h => h.rd.wide
  | none => false

/-- The forms that an access to BAR0 can take (R33). -/
inductive AccessForm where
  | refused
  | part
  | word
  | whole
  | pair
  deriving DecidableEq, Repr

/-- The form of an access at an address: within a word, a word, a whole 64-bit register, two words, or one that R33 refuses. -/
def accessForm (addr : Nat) (w : Width) : AccessForm :=
  let p := addr / 0x10000
  let o := addr % 0x10000
  match w with
  | .b8 => .part
  | .b16 => if o % 4 = 3 then .refused else .part
  | .b32 => if o % 4 = 0 then .word else .refused
  | .b64 =>
    if o % 4 ≠ 0 || 0x10000 < o + 8 then .refused
    else if o % 8 = 0 && wideAt p o then .whole
    else if wideAt p o || wideAt p (o + 4) then .refused
    else .pair

/-- A write by client c, which a host reaches, of a width to an address of BAR0 (R33, R404). -/
def State.write (s : State) (c addr : Nat) (w : Width) (v : Nat) : State :=
  if !s.reached c || !s.answers (addr / 0x10000) then s
  else
    match accessForm addr w with
    | .refused => s.accessEvent 0x1001 c addr
    | .part => s.accessEvent 0x1001 c addr
    | .word => s.write32 c addr (v % 2 ^ 32)
    | .whole => (s.dropHeld c (addr / 0x10000) addr).wrWhole c addr v
    | .pair =>
      let s1 := s.write32 c addr (v % 2 ^ 32)
      if s1.answers (addr / 0x10000) then s1.write32 c (addr + 4) (v / 2 ^ 32) else s1

/-! Reads. -/

/-- What a read latches: TMB_NOW_FRAC the whole of DTIME (R92), TMB_PPSIN_FRAC the PPS_IN stamp (R91), SEC_MEAS[0] the selected slot
and its count (R485). -/
def State.readLatch (s : State) (c p o : Nat) : State :=
  if p = pageTmb && o = 0x110 then { s with nowHold := kvPut s.nowHold c s.dtime }
  else if p = pageTmb && o = 0x150 then
    { s with ppsHold := kvPut s.ppsHold c (dtOf (s.rd R.TMB_PPSIN_SEC_LO + s.rd R.TMB_PPSIN_SEC_HI * 2 ^ 32) (s.rd R.TMB_PPSIN_NS)
      (s.rd R.TMB_PPSIN_FRAC)) }
  else if p = pageSec && o = 0x1C0 then
    let i := s.fld R.SEC_MEAS_SEL 2 0
    let words := (List.range 16).map fun j => ofLe (((s.slotValue i).drop (4 * j)).take 4)
    { s with measHold := kvPut s.measHold c (words ++ [s.slotCount i]) }
  else s

/-- What a read clears: the RC bits of the whole register (R8, R33), and ERR_STAT[1] with any ERR_OVF (R461). -/
def State.readClear (s : State) (c p : Nat) (h : RegHit) : State :=
  if h.rd.rc = 0 then s
  else
    let k := regKey c p h
    let s1 := s.wr k (s.rd k &&& (0xFFFFFFFFFFFFFFFF ^^^ h.rd.rc))
    if p = pageErr && 0x1C0 ≤ h.base && h.base < 0x1F4 then s1.setBit R.ERR_STAT 1 false else s1

/-- A register that client c reads: its whole value, and the state after what the read latches and clears. -/
def State.readReg (s : State) (c p : Nat) (h : RegHit) : Nat × State :=
  let s1 := s.readLatch c p h.base
  (s1.show c p h, s1.readClear c p h)

/-- A read of the register that holds the word at an address, whole, and what the guard makes of it (R32, R41, R555). -/
def State.readAt (s : State) (c addr : Nat) : Nat × State :=
  match s.readVerdict c (addr / 0x10000) (addr % 0x10000) with
  | .none => (0, s)
  | .refused => (0, s.accessEvent 0x1002 c addr)
  | .reg h => s.readReg c (addr / 0x10000) h

/-- A 32-bit read of the lower half of a 64-bit register latches its upper half (R34). -/
def State.readLower (s : State) (c p : Nat) (h : RegHit) : Nat × State :=
  let (v, s1) := s.readReg c p h
  (v % 2 ^ 32, { s1 with rdHold := kvPut s1.rdHold c ⟨p * 0x10000 + h.base, v / 2 ^ 32⟩ })

/-- A 32-bit read of the upper half returns what the client's last lower-half read latched, when that was of this register (R34). -/
def State.readUpper (s : State) (c p : Nat) (h : RegHit) : Nat × State :=
  let (v, s1) := s.readReg c p h
  match kvFind s.rdHold c with
  | some x => if x.key = p * 0x10000 + h.base then (x.bits, { s1 with rdHold := kvErase s1.rdHold c }) else (v / 2 ^ 32, s1)
  | none => (v / 2 ^ 32, s1)

/-- A 32-bit read by client c of an aligned address. -/
def State.read32 (s : State) (c addr : Nat) : Nat × State :=
  let p := addr / 0x10000
  match s.readVerdict c p (addr % 0x10000) with
  | .none => (0, s)
  | .refused => (0, s.accessEvent 0x1002 c addr)
  | .reg h => if !h.rd.wide then s.readReg c p h else if h.upper then s.readUpper c p h else s.readLower c p h

/-- A read within one word: the addressed bytes of the current value, with the side effects of the whole register (R33). -/
def State.readPart (s : State) (c addr : Nat) (w : Width) : Nat × State :=
  let word := addr / 4 * 4
  let (v, s1) := s.readAt c word
  let half := match regHit (word / 0x10000) (word % 0x10000) with
    | some h => if h.upper then v / 2 ^ 32 else v
    | none => v
  (half / 2 ^ (8 * (addr % 4)) % 2 ^ (8 * w.bytes), s1)

/-- A read by client c of a width at an address of BAR0 (R33). -/
def State.read (s : State) (c addr : Nat) (w : Width) : Nat × State :=
  if !s.answers (addr / 0x10000) then (0, s)
  else
    match accessForm addr w with
    | .refused => (2 ^ (8 * w.bytes) - 1, s)
    | .part => s.readPart c addr w
    | .word => s.read32 c addr
    | .whole => s.readAt c addr
    | .pair =>
      let (lo, s1) := s.read32 c addr
      let (hi, s2) := s1.read32 c (addr + 4)
      (hi * 2 ^ 32 + lo, s2)

/-- A read with its data returned to the client, when a host reaches it (R404); of an unlocked diagnostic page the data is a free value (log
entry 19). -/
def State.readOut (s : State) (c addr : Nat) (w : Width) : State :=
  if !s.reached c then s
  else
  let (v, s1) := if s.diagOpen c (addr / 0x10000) then (s.free.1 % 2 ^ (8 * w.bytes), s.free.2) else s.read c addr w
  s1.emit (.readData c addr (BitVec.ofNat 64 v))

/-! The commands. -/

/-- REGISTER_WRITE (R33). -/
def execRegisterWrite (c : Client) (addr : BitVec 24) (w : Width) (v : BitVec 64) (s : State) : Host.Outcome State Fault Refusal :=
  s.writePage c (addr.toNat / 0x10000) (settled (s.write c addr.toNat w (v.toNat % 2 ^ (8 * w.bytes))))

/-- READ_CLEAR_ACCESS (R8, R33): a read of any width of any register; what it clears is what the register's table says. -/
def execReadClearAccess (c : Client) (addr : BitVec 24) (w : Width) (s : State) : Host.Outcome State Fault Refusal :=
  settled (s.readOut c addr.toNat w)

/-- LOWER_HALF_READ (R34). -/
def execLowerHalfRead (c : Client) (addr : BitVec 24) (s : State) : Host.Outcome State Fault Refusal :=
  settled (s.readOut c addr.toNat .b32)

/-- UPPER_HALF_READ (R34). -/
def execUpperHalfRead (c : Client) (addr : BitVec 24) (s : State) : Host.Outcome State Fault Refusal :=
  settled (s.readOut c addr.toNat .b32)

/-- LOWER_HALF_WRITE (R35). -/
def execLowerHalfWrite (c : Client) (addr : BitVec 24) (v : BitVec 32) (s : State) : Host.Outcome State Fault Refusal :=
  s.writePage c (addr.toNat / 0x10000) (settled (s.write c addr.toNat .b32 v.toNat))

/-- UPPER_HALF_WRITE (R35). -/
def execUpperHalfWrite (c : Client) (addr : BitVec 24) (v : BitVec 32) (s : State) : Host.Outcome State Fault Refusal :=
  s.writePage c (addr.toNat / 0x10000) (settled (s.write c addr.toNat .b32 v.toNat))

/-- TMB_NOW_FRAC_READ (R92). -/
def execTmbNowFracRead (c : Client) (s : State) : Host.Outcome State Fault Refusal :=
  settled (s.readOut c R.TMB_NOW_FRAC .b32)

/-- TMB_PPSIN_FRAC_READ (R91). -/
def execTmbPpsinFracRead (c : Client) (s : State) : Host.Outcome State Fault Refusal :=
  settled (s.readOut c R.TMB_PPSIN_FRAC .b32)

/-- SEC_MEAS_READ (R485): word i of the selected slot; the read of word 0 latches all. -/
def execSecMeasRead (c : Client) (slot : Fin 16) (s : State) : Host.Outcome State Fault Refusal :=
  settled (s.readOut c (R.SEC_MEAS slot) .b32)

end Sys2Proof.Machine
end

