-- ==== Sys2Proof/Machine/Sideband.lean ====
section
/-! DEFINITION. The sideband of the management controller: register access and reset (R522, R523), the sensors (R546). -/

namespace Sys2Proof.Machine

/-- The frame of a sideband request: the checks of R474 in the order of its table, BUSY first, and then what the request does. -/
def State.sideband (s : State) (magic code : Nat) (h : MsgHead) (p : List Byte) (busy : Bool) (eff : State → State) : State :=
  let say (st : Nat) : State := s.respond .sideband magic h st []
  if !s.sys.aux then s
  else if busy then say stBusy
  else if h.magic ≠ magic || p.length < h.len || h.status ≠ 0 then say stMalformed
  else if h.version ≠ 1 || h.code ≠ code then say stUnsupported
  else eff s

/-- The fields of a register request: page, offset, count; none where it is too short or a reserved byte is not 0 (R523). -/
def regFields (h : MsgHead) (p : List Byte) : Option (Nat × Nat × Nat) :=
  if h.len < 8 || field p 1 1 ≠ 0 || field p 5 3 ≠ 0 then none
  else some (field p 0 1, field p 2 2, field p 4 1)

/-- The pages that REG_READ accepts (R523). -/
def sidebandPages : List Nat := [pageDir, pageSys, pageRst, pageTmb, pageErr]

/-- Dwords from an address on, as client 0 reads them one after another. -/
def State.readDwords (s : State) (addr : Nat) : Nat → List Byte × State
  | 0 => ([], s)
  | n + 1 =>
    let (v, s1) := s.read32 0 addr
    let (l, s2) := s1.readDwords (addr + 4) n
    (leBytes 4 v ++ l, s2)

/-- REG_READ's effect; a read that covers SYS_ATTN lets the next attention pattern out (R408). In AUX only ERR is read (R522). -/
def State.regRead (s : State) (h : MsgHead) (p : List Byte) : State :=
  match regFields h p with
  | none => s.respond .sideband 0x7AC0 h stMalformed []
  | some (page, o, n) =>
    if s.rd R.SYS_STATE = 0 && page ≠ pageErr then s
    else if !sidebandPages.contains page || o % 4 ≠ 0 || n = 0 || 64 < n || 0x10000 < o + 4 * n then
      s.respond .sideband 0x7AC0 h stRange []
    else
      let (l, s1) := s.readDwords (page * 0x10000 + o) n
      let attn := page = pageSys && o ≤ 0x120 && 0x120 < o + 4 * n
      let s2 : State := if attn then { s1 with sys := { s1.sys with attnRead := true } } else s1
      s2.respond .sideband 0x7AC0 h 0 l

/-- REG_READ (R523). -/
def execRegRead (h : MsgHead) (p : List (BitVec 8)) (busy : Bool) (s : State) : Host.Outcome State Fault Refusal :=
  settled (s.sideband 0x7AC0 0x11 h p busy fun t => t.regRead h p)

/-- The addresses that REG_WRITE accepts (R523). -/
def sidebandWrites : List Nat :=
  [R.SYS_ATTN, R.SYS_ATTN_EN, R.ERR_TAIL, R.ERR_TAIL + 4, R.ERR_WIN, R.RST_FENCE_SEL, R.RST_FENCE_CMD]

/-- A withdrawal over the sideband is held until the next bring-up (R516). -/
def State.holdWithdrawal (s : State) : State :=
  let p := s.fld R.RST_FENCE_SEL 7 0
  if s.sys.withdrawn.contains p then s else { s with sys := { s.sys with withdrawn := s.sys.withdrawn ++ [p] } }

/-- REG_WRITE's effect (R523). -/
def State.regWrite (s : State) (h : MsgHead) (p : List Byte) : State :=
  let say (t : State) (st : Nat) : State := t.respond .sideband 0x7AC0 h st []
  match regFields h p with
  | none => say s stMalformed
  | some (page, o, n) =>
    let v := field p 8 4
    if s.rd R.SYS_STATE = 0 then s
    else if h.len < 12 then say s stMalformed
    else if n ≠ 1 || !sidebandWrites.contains (page * 0x10000 + o) then say s stRange
    else if page * 0x10000 + o = R.RST_FENCE_CMD then
      if v % 4 = 2 then say s.holdWithdrawal 0 else say s stRange
    else say (s.write32 0 (page * 0x10000 + o) v) 0

/-- REG_WRITE (R523). -/
def execRegWrite (h : MsgHead) (p : List (BitVec 8)) (busy : Bool) (s : State) : Host.Outcome State Fault Refusal :=
  settled (s.sideband 0x7AC0 0x12 h p busy fun t => t.regWrite h p)

/-- RESET's effect: the response, and then the reset; a flush in progress restarts the module by itself (R523, R553). -/
def State.sidebandRst (s : State) (h : MsgHead) (p : List Byte) : State :=
  if s.rd R.SYS_STATE = 0 then s
  else if h.len ≠ 4 || field p 0 4 ≠ 0xC0DE then s.respond .sideband 0x7AC0 h stMalformed []
  else
    let s1 := s.respond .sideband 0x7AC0 h 0 []
    if s1.sys.flushing then s1 else s1.moduleRst 4

/-- RESET (R523). -/
def execSidebandReset (h : MsgHead) (p : List (BitVec 8)) (busy : Bool) (s : State) : Host.Outcome State Fault Refusal :=
  settled (s.sideband 0x7AC0 0x13 h p busy fun t => t.sidebandRst h p)

/-- The bytes of a SENSORS response (R546). -/
def State.sensorBytes (s : State) : List Byte :=
  ((List.range 11).flatMap fun i => match s.sys.temps[i]? with
    | some t => leBytes 2 (toTwos 16 t)
    | none => leBytes 2 0x8000) ++
  leBytes 4 s.sys.p54mv ++ leBytes 2 s.sys.w100 ++ leBytes 1 s.sys.level ++
  leBytes 1 (s.sys.drawing.isSome.toNat + s.sys.hot.isSome.toNat * 2) ++ leBytes 4 s.sys.bankMj

/-- SENSORS (R546): the management firmware answers, so it is BUSY in ROM, FATAL and ROM_RECOVERY and during an activation. -/
def execSensors (h : MsgHead) (p : List (BitVec 8)) (busy : Bool) (s : State) : Host.Outcome State Fault Refusal :=
  settled <|
    let n := s.rd R.SYS_STATE
    if n = 0 then s
    else s.sideband 0x7AD0 0x31 h p (busy || n = 1 || n = 7 || n = 8 || n = 9 || s.nor.running) fun t =>
      t.respond .sideband 0x7AD0 h 0 t.sensorBytes

end Sys2Proof.Machine
end

