-- ==== Sys2Proof/Machine/Dispatch.lean ====
section
/-! DEFINITION. Dispatch: one arm for each command, a direct call of its meaning. -/

namespace Sys2Proof.Machine

/-- The effect of a command on everything but the queue. -/
def exec (i : Instr) (s : State) : Host.Outcome State Fault Refusal :=
  match i with
  | .registerWrite c addr w v => Sys2Proof.Machine.execRegisterWrite c addr w v s
  | .readClearAccess c addr w => Sys2Proof.Machine.execReadClearAccess c addr w s
  | .lowerHalfRead c addr => Sys2Proof.Machine.execLowerHalfRead c addr s
  | .upperHalfRead c addr => Sys2Proof.Machine.execUpperHalfRead c addr s
  | .lowerHalfWrite c addr v => Sys2Proof.Machine.execLowerHalfWrite c addr v s
  | .upperHalfWrite c addr v => Sys2Proof.Machine.execUpperHalfWrite c addr v s
  | .enable c p => Sys2Proof.Machine.execEnable c p s
  | .disable c p => Sys2Proof.Machine.execDisable c p s
  | .quiesceRequest c p => Sys2Proof.Machine.execQuiesceRequest c p s
  | .quiesceClear c p => Sys2Proof.Machine.execQuiesceClear c p s
  | .quiesceComplete p => Sys2Proof.Machine.execQuiesceComplete p s
  | .blockReset c p => Sys2Proof.Machine.execBlockReset c p s
  | .irqModIntervalEnd n cat => Sys2Proof.Machine.execIrqModIntervalEnd n cat s
  | .errWriterTake => Sys2Proof.Machine.execErrWriterTake s
  | .errTailWrite c v => Sys2Proof.Machine.execErrTailWrite c v s
  | .tmbNowFracRead c => Sys2Proof.Machine.execTmbNowFracRead c s
  | .tmbPpsinFracRead c => Sys2Proof.Machine.execTmbPpsinFracRead c s
  | .secMeasRead c slot => Sys2Proof.Machine.execSecMeasRead c slot s
  | .loadNow c => Sys2Proof.Machine.execLoadNow c s
  | .loadAtPps c => Sys2Proof.Machine.execLoadAtPps c s
  | .saveFreq c => Sys2Proof.Machine.execSaveFreq c s
  | .ppsInEdge stamp => Sys2Proof.Machine.execPpsInEdge stamp s
  | .tref10mLoss => Sys2Proof.Machine.execTref10mLoss s
  | .ptpMessageReceive cage frame => Sys2Proof.Machine.execPtpMessageReceive cage frame s
  | .delayReqSend stamp => Sys2Proof.Machine.execDelayReqSend stamp s
  | .ptpSyncTimeout => Sys2Proof.Machine.execPtpSyncTimeout s
  | .lockAchieved => Sys2Proof.Machine.execLockAchieved s
  | .ovenReady => Sys2Proof.Machine.execOvenReady s
  | .learntFrequencySave => Sys2Proof.Machine.execLearntFrequencySave s
  | .holdoverLimitExceeded => Sys2Proof.Machine.execHoldoverLimitExceeded s
  | .ppsOutEdge => Sys2Proof.Machine.execPpsOutEdge s
  | .runSet c => Sys2Proof.Machine.execRunSet c s
  | .runClear c => Sys2Proof.Machine.execRunClear c s
  | .msrLeadWrite c v => Sys2Proof.Machine.execMsrLeadWrite c v s
  | .periodChangeSubmit c at_ => Sys2Proof.Machine.execPeriodChangeSubmit c at_ s
  | .measureAnnounce => Sys2Proof.Machine.execMeasureAnnounce s
  | .measureStrike => Sys2Proof.Machine.execMeasureStrike s
  | .idleTick => Sys2Proof.Machine.execIdleTick s
  | .arm c slot => Sys2Proof.Machine.execArm c slot s
  | .cancel c slot => Sys2Proof.Machine.execCancel c slot s
  | .heldArmStrike slot => Sys2Proof.Machine.execHeldArmStrike slot s
  | .timeMessageSend link => Sys2Proof.Machine.execTimeMessageSend link s
  | .timeMessageReceive link msg arrival retried => Sys2Proof.Machine.execTimeMessageReceive link msg arrival retried s
  | .callerKeyAdvertise link key hops => Sys2Proof.Machine.execCallerKeyAdvertise link key hops s
  | .upstreamLoss => Sys2Proof.Machine.execUpstreamLoss s
  | .linkCalibration link samples => Sys2Proof.Machine.execLinkCalibration link samples s
  | .calMessageReceive link leg arrival retried => Sys2Proof.Machine.execCalMessageReceive link leg arrival retried s
  | .stepAdmit run rows => Sys2Proof.Machine.execStepAdmit run rows s
  | .heldAdmission run rows => Sys2Proof.Machine.execHeldAdmission run rows s
  | .stepStrike run ecc faults ports orders => Sys2Proof.Machine.execStepStrike run ecc faults ports orders s
  | .stageOverrunStrike run late ecc faults ports orders => Sys2Proof.Machine.execStageOverrunStrike run late ecc faults ports orders s
  | .stepBoundary run suspends => Sys2Proof.Machine.execStepBoundary run suspends s
  | .waveLanded run faults late => Sys2Proof.Machine.execWaveLanded run faults late s
  | .stepWatchdogExpiry run => Sys2Proof.Machine.execStepWatchdogExpiry run s
  | .stepReplay run => Sys2Proof.Machine.execStepReplay run s
  | .beRunFormation handle => Sys2Proof.Machine.execBeRunFormation handle s
  | .contextSpill x redo ecc => Sys2Proof.Machine.execContextSpill x redo ecc s
  | .rowGate r => Sys2Proof.Machine.execRowGate r s
  | .rowOff r => Sys2Proof.Machine.execRowOff r s
  | .rowWakeComplete r => Sys2Proof.Machine.execRowWakeComplete r s
  | .leafClearComplete r => Sys2Proof.Machine.execLeafClearComplete r s
  | .schResCommit c => Sys2Proof.Machine.execSchResCommit c s
  | .schResDiscard c => Sys2Proof.Machine.execSchResDiscard c s
  | .qntGcmdLoad c slot => Sys2Proof.Machine.execQntGcmdLoad c slot s
  | .qntGcmdClear c slot => Sys2Proof.Machine.execQntGcmdClear c slot s
  | .qntMonLatch c m => Sys2Proof.Machine.execQntMonLatch c m s
  | .qntMonClear c m => Sys2Proof.Machine.execQntMonClear c m s
  | .thresh col redo => Sys2Proof.Machine.execThresh col redo s
  | .topk col redo => Sys2Proof.Machine.execTopk col redo s
  | .sort col redo => Sys2Proof.Machine.execSort col redo s
  | .merge col redo => Sys2Proof.Machine.execMerge col redo s
  | .collatorSegmentBoundary col => Sys2Proof.Machine.execCollatorSegmentBoundary col s
  | .stream run layer redo ecc => Sys2Proof.Machine.execStream run layer redo ecc s
  | .layerLanded run layer => Sys2Proof.Machine.execLayerLanded run layer s
  | .fill x redo ecc => Sys2Proof.Machine.execFill x redo ecc s
  | .binderChunkBoundary => Sys2Proof.Machine.execBinderChunkBoundary s
  | .zeroFillComplete region => Sys2Proof.Machine.execZeroFillComplete region s
  | .quotaWrite c n tier max v => Sys2Proof.Machine.execQuotaWrite c n tier max v s
  | .tqCxlmWrite c n v => Sys2Proof.Machine.execTqCxlmWrite c n v s
  | .figLoad cid e fig data => Sys2Proof.Machine.execFigLoad cid e fig data s
  | .figUnload cid e => Sys2Proof.Machine.execFigUnload cid e s
  | .ctxCreate cid e => Sys2Proof.Machine.execCtxCreate cid e s
  | .ctxReset cid e => Sys2Proof.Machine.execCtxReset cid e s
  | .ctxRelease cid e => Sys2Proof.Machine.execCtxRelease cid e s
  | .run cid e input dataOk => Sys2Proof.Machine.execRun cid e input dataOk s
  | .regionAlloc cid e => Sys2Proof.Machine.execRegionAlloc cid e s
  | .regionFree cid e => Sys2Proof.Machine.execRegionFree cid e s
  | .move cid e d reads ecc redo => Sys2Proof.Machine.execMove cid e d reads ecc redo s
  | .copy cid e d ecc redo => Sys2Proof.Machine.execCopy cid e d ecc redo s
  | .idxCreate cid e => Sys2Proof.Machine.execIdxCreate cid e s
  | .idxInsert cid e items dies => Sys2Proof.Machine.execIdxInsert cid e items dies s
  | .idxDelete cid e items => Sys2Proof.Machine.execIdxDelete cid e items s
  | .idxCompact cid e dies => Sys2Proof.Machine.execIdxCompact cid e dies s
  | .idxMerge cid e dies => Sys2Proof.Machine.execIdxMerge cid e dies s
  | .idxDrop cid e => Sys2Proof.Machine.execIdxDrop cid e s
  | .idxEdges cid e targets => Sys2Proof.Machine.execIdxEdges cid e targets s
  | .idxDestroy cid e => Sys2Proof.Machine.execIdxDestroy cid e s
  | .nsCreate cid e => Sys2Proof.Machine.execNsCreate cid e s
  | .nsDelete cid e => Sys2Proof.Machine.execNsDelete cid e s
  | .ctxCmdRead c => Sys2Proof.Machine.execCtxCmdRead c s
  | .ctxCmdReset c => Sys2Proof.Machine.execCtxCmdReset c s
  | .ctxCmdRelease c => Sys2Proof.Machine.execCtxCmdRelease c s
  | .detCcmdRead c => Sys2Proof.Machine.execDetCcmdRead c s
  | .djCtlWrite c n v => Sys2Proof.Machine.execDjCtlWrite c n v s
  | .journalRecordWrite n count => Sys2Proof.Machine.execJournalRecordWrite n count s
  | .journalBufferDrained n => Sys2Proof.Machine.execJournalBufferDrained n s
  | .drStart c n => Sys2Proof.Machine.execDrStart c n s
  | .drAbort c n => Sys2Proof.Machine.execDrAbort c n s
  | .write cid nsid slba data poisoned => Sys2Proof.Machine.execWrite cid nsid slba data poisoned s
  | .read cid nsid slba nlb faults => Sys2Proof.Machine.execRead cid nsid slba nlb faults s
  | .writeZeroes cid nsid slba nlb => Sys2Proof.Machine.execWriteZeroes cid nsid slba nlb s
  | .datasetManagement cid nsid deallocate ranges => Sys2Proof.Machine.execDatasetManagement cid nsid deallocate ranges s
  | .flush cid nsid => Sys2Proof.Machine.execFlush cid nsid s
  | .programComplete group dies => Sys2Proof.Machine.execProgramComplete group dies s
  | .programFailure n stream die moves => Sys2Proof.Machine.execProgramFailure n stream die moves s
  | .eraseFailure n quire die => Sys2Proof.Machine.execEraseFailure n quire die s
  | .quireErase n quire stream done => Sys2Proof.Machine.execQuireErase n quire stream done s
  | .quireVerify n quire weak => Sys2Proof.Machine.execQuireVerify n quire weak s
  | .fold n moves => Sys2Proof.Machine.execFold n moves s
  | .garbageCollection n moves => Sys2Proof.Machine.execGarbageCollection n moves s
  | .wearLevellingMove n moves => Sys2Proof.Machine.execWearLevellingMove n moves s
  | .mapCheckpoint n => Sys2Proof.Machine.execMapCheckpoint n s
  | .dieFailure n die moves => Sys2Proof.Machine.execDieFailure n die moves s
  | .spareDieMigration n die moves => Sys2Proof.Machine.execSpareDieMigration n die moves s
  | .suspendedOperationResume n die => Sys2Proof.Machine.execSuspendedOperationResume n die s
  | .retryRateWarning n => Sys2Proof.Machine.execRetryRateWarning n s
  | .powerLossFlush e => Sys2Proof.Machine.execPowerLossFlush e s
  | .channelJobStart ch => Sys2Proof.Machine.execChannelJobStart ch s
  | .filterJobPage ch slot fault redo => Sys2Proof.Machine.execFilterJobPage ch slot fault redo s
  | .scanJobPage ch slot fault waitCycles redo => Sys2Proof.Machine.execScanJobPage ch slot fault waitCycles redo s
  | .compaction index list dies => Sys2Proof.Machine.execCompaction index list dies s
  | .oldFolioRelease index => Sys2Proof.Machine.execOldFolioRelease index s
  | .readIndex c => Sys2Proof.Machine.execReadIndex c s
  | .readList c => Sys2Proof.Machine.execReadList c s
  | .train c link v => Sys2Proof.Machine.execTrain c link v s
  | .trainingComplete link peer => Sys2Proof.Machine.execTrainingComplete link peer s
  | .auth link key ok => Sys2Proof.Machine.execAuth link key ok s
  | .lnkAdmit c link => Sys2Proof.Machine.execLnkAdmit c link s
  | .refuse c link => Sys2Proof.Machine.execRefuse c link s
  | .forget c link => Sys2Proof.Machine.execForget c link s
  | .flitReceive link f arrival => Sys2Proof.Machine.execFlitReceive link f arrival s
  | .nakReplay link fromNak => Sys2Proof.Machine.execNakReplay link fromNak s
  | .retrain link cause fails authOk key => Sys2Proof.Machine.execRetrain link cause fails authOk key s
  | .linkRetryWarning link => Sys2Proof.Machine.execLinkRetryWarning link s
  | .switch link => Sys2Proof.Machine.execSwitch link s
  | .treeReady tree => Sys2Proof.Machine.execTreeReady tree s
  | .treeGo tree gen => Sys2Proof.Machine.execTreeGo tree gen s
  | .treeDown tree gen own => Sys2Proof.Machine.execTreeDown tree gen own s
  | .redFlitReduce seq fidx => Sys2Proof.Machine.execRedFlitReduce seq fidx s
  | .bucketLanding seq => Sys2Proof.Machine.execBucketLanding seq s
  | .stop code cause rank received => Sys2Proof.Machine.execStop code cause rank received s
  | .bucketTimeout seq => Sys2Proof.Machine.execBucketTimeout seq s
  | .redEnSet c => Sys2Proof.Machine.execRedEnSet c s
  | .redEnClear c => Sys2Proof.Machine.execRedEnClear c s
  | .peerMessageSend link => Sys2Proof.Machine.execPeerMessageSend link s
  | .peerMessageReceive link => Sys2Proof.Machine.execPeerMessageReceive link s
  | .setpointFrameDepart endpoint start also bad => Sys2Proof.Machine.execSetpointFrameDepart endpoint start also bad s
  | .sptCmdRead c => Sys2Proof.Machine.execSptCmdRead c s
  | .sptCmdWrite c => Sys2Proof.Machine.execSptCmdWrite c s
  | .sptCtlWrite c v => Sys2Proof.Machine.execSptCtlWrite c v s
  | .cageLinkChange cage modAbs txFault los lock => Sys2Proof.Machine.execCageLinkChange cage modAbs txFault los lock s
  | .submissionDoorbellWrite c q tail ids ns => Sys2Proof.Machine.execSubmissionDoorbellWrite c q tail ids ns s
  | .completionDoorbellWrite c q head => Sys2Proof.Machine.execCompletionDoorbellWrite c q head s
  | .identify cid cns nsid => Sys2Proof.Machine.execIdentify cid cns nsid s
  | .getLogPage cid lid off len rae => Sys2Proof.Machine.execGetLogPage cid lid off len rae s
  | .setFeatures cid fid v => Sys2Proof.Machine.execSetFeatures cid fid v s
  | .getFeatures cid fid v => Sys2Proof.Machine.execGetFeatures cid fid v s
  | .createIoSubmissionQueue cid q size prio cq contiguous => Sys2Proof.Machine.execCreateIoSubmissionQueue cid q size prio cq contiguous s
  | .deleteIoSubmissionQueue cid q => Sys2Proof.Machine.execDeleteIoSubmissionQueue cid q s
  | .createIoCompletionQueue cid q size vector ien contiguous => Sys2Proof.Machine.execCreateIoCompletionQueue cid q size vector ien contiguous s
  | .deleteIoCompletionQueue cid q => Sys2Proof.Machine.execDeleteIoCompletionQueue cid q s
  | .abort cid q id => Sys2Proof.Machine.execAbort cid q id s
  | .asynchronousEventRequest cid => Sys2Proof.Machine.execAsynchronousEventRequest cid s
  | .firmwareImageDownload cid off data => Sys2Proof.Machine.execFirmwareImageDownload cid off data s
  | .firmwareCommitReplace cid slot sigOk readBackOk => Sys2Proof.Machine.execFirmwareCommitReplace cid slot sigOk readBackOk s
  | .firmwareCommitSelect cid slot sigOk => Sys2Proof.Machine.execFirmwareCommitSelect cid slot sigOk s
  | .firmwareCommitActivate cid slot sigOk readBackOk => Sys2Proof.Machine.execFirmwareCommitActivate cid slot sigOk readBackOk s
  | .activationDrainEnd drained frontSig backSig => Sys2Proof.Machine.execActivationDrainEnd drained frontSig backSig s
  | .trialConfirmation => Sys2Proof.Machine.execTrialConfirmation s
  | .activationConfirmTimeout => Sys2Proof.Machine.execActivationConfirmTimeout s
  | .romRecoveryImage h image sigOk readBackOk => Sys2Proof.Machine.execRomRecoveryImage h image sigOk readBackOk s
  | .pmbGo c v d dies => Sys2Proof.Machine.execPmbGo c v d dies s
  | .logicalDeviceReset n => Sys2Proof.Machine.execLogicalDeviceReset n s
  | .hostLinkTraining width rate lowLatency again => Sys2Proof.Machine.execHostLinkTraining width rate lowLatency again s
  | .cxlMemRead c addr len ecc => Sys2Proof.Machine.execCxlMemRead c addr len ecc s
  | .cxlMemWrite c addr data poison dev block => Sys2Proof.Machine.execCxlMemWrite c addr data poison dev block s
  | .getLdInfo => Sys2Proof.Machine.execGetLdInfo s
  | .getLdAllocations first count => Sys2Proof.Machine.execGetLdAllocations first count s
  | .setLdAllocations first bound => Sys2Proof.Machine.execSetLdAllocations first bound s
  | .doeDiscovery c index => Sys2Proof.Machine.execDoeDiscovery c index s
  | .cxlTableAccess c entry => Sys2Proof.Machine.execCxlTableAccess c entry s
  | .attentionPattern => Sys2Proof.Machine.execAttentionPattern s
  | .attentionReemit => Sys2Proof.Machine.execAttentionReemit s
  | .getVersion path h p busy => Sys2Proof.Machine.execGetVersion path h p busy s
  | .getDigest path h p busy => Sys2Proof.Machine.execGetDigest path h p busy s
  | .getCert path h p busy => Sys2Proof.Machine.execGetCert path h p busy s
  | .getMeas path h p busy => Sys2Proof.Machine.execGetMeas path h p busy s
  | .quote path h p busy => Sys2Proof.Machine.execQuote path h p busy s
  | .getLog path h p busy => Sys2Proof.Machine.execGetLog path h p busy s
  | .diagNonce path h p busy => Sys2Proof.Machine.execDiagNonce path h p busy s
  | .diagUnlock path h p busy sigOk => Sys2Proof.Machine.execDiagUnlock path h p busy sigOk s
  | .diagUnlockExpiry => Sys2Proof.Machine.execDiagUnlockExpiry s
  | .lock c => Sys2Proof.Machine.execLock c s
  | .holdSet c => Sys2Proof.Machine.execHoldSet c s
  | .holdClear c => Sys2Proof.Machine.execHoldClear c s
  | .holdMaxExpiry => Sys2Proof.Machine.execHoldMaxExpiry s
  | .mergeBufferFlush d block faults => Sys2Proof.Machine.execMergeBufferFlush d block faults s
  | .scrubRead fault => Sys2Proof.Machine.execScrubRead fault s
  | .triplicateWalk minority lost => Sys2Proof.Machine.execTriplicateWalk minority lost s
  | .retireFrame c d region reserve => Sys2Proof.Machine.execRetireFrame c d region reserve s
  | .retireBank c d => Sys2Proof.Machine.execRetireBank c d s
  | .powerOn aux => Sys2Proof.Machine.execPowerOn aux s
  | .auxPowerRise => Sys2Proof.Machine.execAuxPowerRise s
  | .perstAssert ns resets => Sys2Proof.Machine.execPerstAssert ns resets s
  | .perstDeassert => Sys2Proof.Machine.execPerstDeassert s
  | .hotReset => Sys2Proof.Machine.execHotReset s
  | .moduleReset c v => Sys2Proof.Machine.execModuleReset c v s
  | .rstWdKick core => Sys2Proof.Machine.execRstWdKick core s
  | .managementWatchdogExpiry => Sys2Proof.Machine.execManagementWatchdogExpiry s
  | .watchdogRecordClear => Sys2Proof.Machine.execWatchdogRecordClear s
  | .bringupRom ms f => Sys2Proof.Machine.execBringupRom ms f s
  | .bringupTiny ms f => Sys2Proof.Machine.execBringupTiny ms f s
  | .bringupFill ms dead => Sys2Proof.Machine.execBringupFill ms dead s
  | .bringupTest ms fails => Sys2Proof.Machine.execBringupTest ms fails s
  | .bringupGrow ms f => Sys2Proof.Machine.execBringupGrow ms f s
  | .bringupTimeout => Sys2Proof.Machine.execBringupTimeout s
  | .request c => Sys2Proof.Machine.execRequest c s
  | .withdraw c => Sys2Proof.Machine.execWithdraw c s
  | .regRead h p busy => Sys2Proof.Machine.execRegRead h p busy s
  | .regWrite h p busy => Sys2Proof.Machine.execRegWrite h p busy s
  | .sidebandReset h p busy => Sys2Proof.Machine.execSidebandReset h p busy s
  | .sensors h p busy => Sys2Proof.Machine.execSensors h p busy s
  | .powerMonitorSample mv => Sys2Proof.Machine.execPowerMonitorSample mv s
  | .powerLossDeclared => Sys2Proof.Machine.execPowerLossDeclared s
  | .sensorReading temps w1 w100 => Sys2Proof.Machine.execSensorReading temps w1 w100 s
  | .tmbCtlWrite c v => Sys2Proof.Machine.execTmbCtlWrite c v s
  | .ppsInEdgeMissing => Sys2Proof.Machine.execPpsInEdgeMissing s
  | .tref10mValid ppm => Sys2Proof.Machine.execTref10mValid ppm s
  | .p3v3AuxLoss => Sys2Proof.Machine.execP3v3AuxLoss s
  | .hostLinkLoss => Sys2Proof.Machine.execHostLinkLoss s
  | .ccEnWrite c v asqs acqs => Sys2Proof.Machine.execCcEnWrite c v asqs acqs s
  | .hdmDecoderCommit n decoder => Sys2Proof.Machine.execHdmDecoderCommit n decoder s
  | .fencingInService p => Sys2Proof.Machine.execFencingInService p s

end Sys2Proof.Machine
end

