-- ==== Sys2Proof/Safety.lean ====
section
/-! DEFINITION. The terms that claims about the module are stated in: a command that runs and what then holds, when a page takes
register accesses, which registers events change, and the invariants. -/

namespace Sys2Proof.Safety

open Sys2Proof.Machine

/-- The command answers a next state, of which P holds. -/
def Runs (i : Instr) (s : State) (P : State → Prop) : Prop := ∃ t, exec i s = .next t ∧ P t

/-- Page p takes the register accesses of client c, which a host reaches (R404): it answers (R32, R47), is neither fenced nor a spare (R563),
and c is the supervisor or has the page's guard bit (R41) while the supervisor lock is off (R42). -/
def Open (s : State) (c p : Nat) : Prop :=
  s.reached c = true ∧ s.answers p = true ∧ s.present p ≠ 5 ∧ s.present p ≠ 9 ∧
    (c = 0 ∨ s.guardOpen p c = true ∧ s.bit (R.PG_CTL p) 31 = false)

/-- The IRQ_CAT_STAT registers of the clients (R52), which follow the pending bits at every command's end. -/
def catReg (k : Nat) : Bool := decide (0x58000 ≤ k) && decide (k < 0x60000) && decide (k % 0x800 = 0)

/-- The registers that raising an interrupt or an event can change: the page headers, IRQ, ERR and SYS_ATTN (R557). -/
def flagReg (k : Nat) : Bool :=
  decide (k % 0x10000 < 0x100) || decide (k / 0x10000 = 5) || decide (k / 0x10000 = 12) || decide (k = R.SYS_ATTN)

/-- The registers that a write into NOR can change: the last sector refused and the count of suspensions (R486, R489, R502). -/
def norReg (k : Nat) : Prop := k = R.NOR_LAST_SECT ∨ k = R.NOR_SUSP

/-- Once RB# has been released, every category with a pending bit routed to a client shows in the client's IRQ_CAT_STAT (R53). -/
def IrqShown (s : State) : Prop :=
  s.released = true → ∀ n < 16, ∀ c < 13, (s.pendCats n).testBit c = true → s.bit (R.IRQ_CAT_STAT n) c = true

/-- The memories of T1, T2, the Leaves and the gathering buffer are in canonical form: addresses rise, and no entry equals what an
unlisted address reads as. -/
def Memory.wf (s : State) : Bool :=
  kvWf (fun _ => 0) s.mem && kvWf (fun _ => false) s.memPoison && kvWf (fun _ => zeroWord) s.leaf &&
    kvWf (fun _ => zeroWord) s.gather

/-- The command of an identity stands at the head of its queue and its controller fetches (R410), with what a Gonum command passes
before it acts: NSID 1, the command set enabled, reserved fields 0 (R424, R425). -/
def GonumReady (s : State) (cid : Cid) (e : Sqe) (m : Nat × Nat × Nat × Nat × Nat × Nat) : Prop :=
  s.fetchable cid = true ∧ (s.fetch cid).gonumCheck cid e m.1 m.2.1 m.2.2.1 m.2.2.2.1 m.2.2.2.2.1 m.2.2.2.2.2 = none

/-- An admin command at the head of the admin queue of a controller that fetches (R410, R414). -/
def AdminReady (s : State) (cid : Cid) : Prop := s.fetchable cid = true ∧ cid.q = 0

/-- An NVM command at the head of its I/O queue that acts: T3 is there, the module is ready, its namespace is the client's, its blocks lie
within it, a change is not refused by read-only mode (R419, R423, R517, R519), the FTL takes new commands (R38), and write staging has room for a change
(R297). -/
def NvmReady (s : State) (cid : Cid) (nsid slba nlb limit : Nat) (writes : Bool) (ns : Namespace) (r : Region) : Prop :=
  s.fetchable cid = true ∧ cid.q ≠ 0 ∧ s.nvmState writes = none ∧ kvFind s.namespaces nsid = some ns ∧ ns.client = cid.c.val ∧
    0 < nlb ∧ nlb ≤ limit ∧ slba + nlb ≤ ns.blocks ∧ (writes = true → s.readOnly = false) ∧ s.region ns.region = some r ∧
    r.client = ns.client ∧ s.quiescing pageFtl = false ∧ (writes && s.stagingFull (4096 * min nlb 512)) = false

/-- The register at an address answers the reads of client c, which a host reaches (R32, R41, R52, R404, R563). -/
def Readable (s : State) (c addr : Nat) : Prop :=
  s.reached c = true ∧ s.answers (addr / 0x10000) = true ∧ s.mayRead c (addr / 0x10000) (addr % 0x10000) = true

/-- Does a read of the register at a page offset latch other registers (R91, R92, R485)? -/
def latching (p base : Nat) : Bool :=
  (decide (p = pageTmb) && (decide (base = 0x110) || decide (base = 0x150))) || (decide (p = pageSec) && decide (base = 0x1C0))

/-- What a command keeps of the registers: all but those that raising events and interrupts may change, and those that p names. -/
def Kept (s t : State) (p : Nat → Prop) : Prop := ∀ k, flagReg k = false → ¬ p k → t.rd k = s.rd k

/-- Every byte of T1 and T2, every word of the Leaves and of the gathering buffer stays, and its poison. -/
def SameMem (s t : State) : Prop :=
  t.mem = s.mem ∧ t.memPoison = s.memPoison ∧ t.leaf = s.leaf ∧ t.gather = s.gather

/-- The contexts, the regions, the runs, the namespaces and the searches stay as they are. -/
def SameWork (s t : State) : Prop :=
  t.ctxs = s.ctxs ∧ t.tiers = s.tiers ∧ t.sched = s.sched ∧ t.search = s.search ∧ t.cols = s.cols

/-- Nothing waits for the unit of page p to accept work again: no flit on its link, and no run's operation (R38, R352, R360). -/
def NothingWaits (s : State) (p : Nat) : Prop :=
  (s.linkUnit (p - 0xC0)).outq = [] ∧ ∀ e ∈ s.sched.runs, e.2.waitRow = none

/-- The completion queue of a command has a free entry and holds nothing back (R412, R413). -/
def CplRoom (s : State) (cid : Cid) (q : CplQ) : Prop :=
  kvFind (s.ctrl cid.c).cqs (s.cqOf cid) = some q ∧ q.full = false ∧ q.held = []

/-- The command is answered with a status and DW0: in the mailbox's registers when it came by the mailbox, else by an entry of its
completion queue when that has room (R412, R427, R430). -/
def Answered (s t : State) (cid : Cid) (sct sc dw0 : Nat) : Prop :=
  (cid.q = pmbQ → t.rd R.HIF_PMB_STAT = 2 ∧ t.fld (R.HIF_PMB_CQE 3) 27 17 = sc + 256 * sct ∧ t.rd (R.HIF_PMB_CQE 0) = dw0 % 2 ^ 64) ∧
  (cid.q ≠ pmbQ → ∀ q, CplRoom s cid q → ∃ head dnr dw1 o l, t.out = s.out ++ l ∧ o ∈ l ∧
    o = Output.cqe cid.c (s.cqOf cid) cid.id head q.phase sct sc dnr (BitVec.ofNat 32 dw0) dw1)

/-- Something of the kind has left the module during the command. -/
def Sent (s t : State) (p : Output → Prop) : Prop := ∃ o l, t.out = s.out ++ l ∧ o ∈ l ∧ p o

end Sys2Proof.Safety
end

