-- ==== Sys2Proof/Certificates/Slice0/Obligations.lean ====
section
/-! DEFINITION. The statements about the module that the provers are asked for. -/

open Sys2Proof Sys2Proof.Machine Sys2Proof.Safety

/-! The block as a whole. -/

/-- A step runs the command at the front of the queue on the state with the rest of the queue. With no command waiting, a step lets one
nanosecond pass: elapsed time grows by 16 sixteenths, no register changes, and DTIME grows with it when no correction is being slewed
(the model's choice, log entry 11). -/
def Obligations.StepRunsFrontCommand : Prop :=
  (∀ (c : Instr) (rest : List Instr) (s : State), step { s with pending := c :: rest } = exec c { s with pending := rest }) ∧
  ∀ s : State, s.pending = [] → ∃ t, step s = .next t ∧ t.etime = s.etime + 16 ∧ (∀ k, t.rd k = s.rd k) ∧ t.pending = [] ∧
    t.out = s.out ∧ (s.tmb.slew = 0 → t.dtime = s.dtime + 16)

/-- After reset: bring-up is in its ROM phase, RB# is low, DTIME is 0, nothing waits, the memories are empty and in canonical form,
the page of row 0 is shared, guarded for client 0 alone, and the registers named read the reset values of their tables. -/
def Obligations.ResetLeavesTableValues : Prop :=
  let s := State.reset
  s.rd R.SYS_STATE = 1 ∧ s.released = false ∧ s.sys.low = true ∧ s.dtime = 0 ∧ s.pending = [] ∧ s.mem = [] ∧ s.leaf = [] ∧
    Memory.wf s = true ∧ s.rd R.MSR_PERIOD = 1000 ∧ s.rd R.SCH_WD_SLACK = 2048 ∧ s.rd R.HIF_QFREE = 4096 ∧
    s.rd (R.HIF_QMAX 15) = 256 ∧ s.rd (R.PG_OWNER 0x28) % 256 = 0xFF ∧ s.rd (R.PG_GUARD 0x28) = 1 ∧ s.rd R.RED_TIMEOUT = 10000 ∧ IrqShown s

/-- Every step keeps what R53 asks: once RB# has been released, a category with a pending bit routed to a client shows in the client's
IRQ_CAT_STAT. It holds of any state in which it holds before the step, whatever the command. -/
def Obligations.EveryStepShowsPendingInterrupts : Prop :=
  ∀ s t : State, IrqShown s → step s = .next t → IrqShown t

/-! Register accesses. -/

/-- READ_CLEAR_ACCESS, LOWER_HALF_READ and UPPER_HALF_READ return the register's value to the client that reads. A 32-bit read of a register
with RC bits clears them; a read of the lower half of a 64-bit register keeps the upper half for the client, and a following read of the
upper half returns what was kept and frees it. IRQ_CAT_STAT is left to
other statements. The reads that latch: TMB_NOW_FRAC takes DTIME into the client's latch and returns its fraction, TMB_PPSIN_FRAC does the
same with the PPS_IN stamp, and word 0 of SEC_MEAS takes the selected slot, of which every word then reads as it was. -/
def Obligations.ReadsReturnClearAndLatch : Prop :=
  ∀ (s : State) (c : Client),
    (∀ (addr : BitVec 24) (h : RegHit), Readable s c addr.toNat → addr.toNat % 4 = 0 →
    regHit (addr.toNat / 0x10000) (addr.toNat % 0x10000) = some h → latching (addr.toNat / 0x10000) h.base = false →
    catReg (regKey c (addr.toNat / 0x10000) h) = false →
    let v := s.show c (addr.toNat / 0x10000) h
    (h.rd.wide = false → h.rd.rc ≠ 0 → Runs (.readClearAccess c addr .b32) s fun t =>
      Sent s t (fun o => o = .readData c addr.toNat (BitVec.ofNat 64 v)) ∧
      t.rd (regKey c (addr.toNat / 0x10000) h) =
        s.rd (regKey c (addr.toNat / 0x10000) h) &&& (0xFFFFFFFFFFFFFFFF ^^^ h.rd.rc)) ∧
    (h.rd.wide = true → h.upper = false → Runs (.lowerHalfRead c addr) s fun t =>
      Sent s t (fun o => o = .readData c addr.toNat (BitVec.ofNat 64 (v % 2 ^ 32))) ∧
      kvFind t.rdHold c = some ⟨addr.toNat / 0x10000 * 0x10000 + h.base, v / 2 ^ 32⟩) ∧
    (h.rd.wide = true → h.upper = true → ∀ b, kvFind s.rdHold c = some ⟨addr.toNat / 0x10000 * 0x10000 + h.base, b⟩ →
      Runs (.upperHalfRead c addr) s fun t =>
        Sent s t (fun o => o = .readData c addr.toNat (BitVec.ofNat 64 b)) ∧ kvFind t.rdHold c = none)) ∧
    (Readable s c R.TMB_NOW_FRAC → Runs (.tmbNowFracRead c) s fun t => kvFind t.nowHold c = some s.dtime ∧
      Sent s t fun o => o = .readData c R.TMB_NOW_FRAC (BitVec.ofNat 64 (dtFrac s.dtime))) ∧
    (Readable s c R.TMB_PPSIN_FRAC → Runs (.tmbPpsinFracRead c) s fun t =>
      kvFind t.ppsHold c = some (dtOf (s.rd R.TMB_PPSIN_SEC_LO + s.rd R.TMB_PPSIN_SEC_HI * 2 ^ 32) (s.rd R.TMB_PPSIN_NS)
        (s.rd R.TMB_PPSIN_FRAC)) ∧
      Sent s t fun o => o = .readData c R.TMB_PPSIN_FRAC (BitVec.ofNat 64 (s.rd R.TMB_PPSIN_FRAC))) ∧
    (Readable s c (R.SEC_MEAS 0) → Runs (.secMeasRead c 0) s fun t =>
      kvFind t.measHold c = some ((List.range 16).map (fun j =>
        ofLe (((s.slotValue (s.fld R.SEC_MEAS_SEL 2 0)).drop (4 * j)).take 4)) ++ [s.slotCount (s.fld R.SEC_MEAS_SEL 2 0)])) ∧
    (∀ (i : Fin 16) (l : List Nat), i.val ≠ 0 → Readable s c (R.SEC_MEAS i) → kvFind s.measHold c = some l →
      Runs (.secMeasRead c i) s fun t => t.measHold = s.measHold ∧
        Sent s t fun o => o = .readData c (R.SEC_MEAS i) (BitVec.ofNat 64 (l.getD i.val 0)))

/-- Writes: REGISTER_WRITE of PG_IRQ_EN of any open page stores the bits that the block has and keeps every register outside the page and
IRQ; LOWER_HALF_WRITE to an arm target holds the value and stores nothing; UPPER_HALF_WRITE then stores both halves at once and frees the
holding register. -/
def Obligations.WritesStoreOrHold : Prop :=
  ∀ (s : State) (c : Client),
    (∀ (p : Page) (v : BitVec 64), Open s c p → v.toNat < 2 ^ 32 →
      Runs (.registerWrite c (BitVec.ofNat 24 (R.PG_IRQ_EN p)) .b32 v) s fun t =>
        t.rd (R.PG_IRQ_EN p) = (s.rd (R.PG_IRQ_EN p) &&& (0xFFFFFFFFFFFFFFFF ^^^ irqBitsOf (typeCode p))) |||
          (v.toNat &&& irqBitsOf (typeCode p)) ∧
        (∀ k, k / 0x10000 ≠ p.val → catReg k = false → t.rd k = s.rd k) ∧ t.mem = s.mem ∧ t.leaf = s.leaf) ∧
    (∀ (slot : Fin 256) (v : BitVec 32), Open s c pageMsr →
      Runs (.lowerHalfWrite c (BitVec.ofNat 24 (R.ARM_TGT slot)) v) s fun t =>
        kvFind t.wrHold c = some ⟨R.ARM_TGT slot, v.toNat⟩ ∧ ∀ k, catReg k = false → t.rd k = s.rd k) ∧
    (∀ (slot : Fin 256) (v : BitVec 32) (b : Nat), Open s c pageMsr → s.armState slot ≠ 1 → s.armState slot ≠ 2 → b < 2 ^ 32 →
      kvFind s.wrHold c = some ⟨R.ARM_TGT slot, b⟩ →
      Runs (.upperHalfWrite c (BitVec.ofNat 24 (R.ARM_TGT slot + 4)) v) s fun t =>
        t.rd (R.ARM_TGT slot) = v.toNat * 2 ^ 32 + b ∧ kvFind t.wrHold c = none ∧
        ∀ k, k ≠ R.ARM_TGT slot → catReg k = false → t.rd k = s.rd k)

/-- R32: a reserved page, the page of an absent unit and a diagnostic page that no unlock opens answer no access: at every offset and of
every width a read returns 0, and a write changes no register (IRQ_CAT_STAT follows what was pending before), no event is reported
and no interrupt is set; DIAG_UNLOCK opens no page without Talmel's signature. On a page in service a client without the guard
bit gets 0, and event 0x1002 with the client and the offset in HIF_ACC_LAST, whether it reads or writes a block register, and the
register stays. -/
def Obligations.RefusedAccessesChangeNothing : Prop :=
  ∀ (s : State) (c : Client) (addr : BitVec 24) (w : Width) (v : BitVec 64),
    let p := addr.toNat / 0x10000
    let quiet := (0xBE ≤ p ∧ p ≤ 0xBF) ∨ (0xE3 ≤ p ∧ p ≤ 0xEF) ∨ (p < 0xF0 ∧ s.present p = 0 ∧ p ∉ [pageDir, pageSys, pageRst, pageTmb, pageErr]) ∨
      (0xF0 ≤ p ∧ (s.bit R.SEC_STAT 2 = false ∨ s.sec.pages.testBit (p - 0xF0) = false))
    let still := fun t : State => (∀ k, catReg k = false → t.rd k = s.rd k) ∧ t.err = s.err ∧ t.irq.cats = s.irq.cats ∧ SameMem s t
    (quiet → s.answers p = false ∧ s.diagOpen c p = false) ∧
    (s.answers p = false → s.diagOpen c p = false → Runs (.registerWrite c addr w v) s still ∧
      Runs (.readClearAccess c addr w) s fun t => still t ∧
        (s.reached c = true → Sent s t fun o => o = .readData c addr.toNat 0)) ∧
    (∀ path h b busy t, exec (.diagUnlock path h b busy false) s = .next t → t.bit R.SEC_STAT 2 = true → s.bit R.SEC_STAT 2 = true) ∧
    (s.reached c = true → s.answers (addr.toNat / 0x10000) = true → s.present (addr.toNat / 0x10000) = 3 → c.val ≠ 0 →
      s.guardOpen (addr.toNat / 0x10000) c = false → addr.toNat / 0x10000 ≠ 5 → 0x100 ≤ addr.toNat % 0x10000 → addr.toNat % 4 = 0 →
      (Runs (.registerWrite c addr .b32 v) s fun t => t.rd R.HIF_ACC_LAST = addr.toNat + c.val * 2 ^ 24 ∧
        t.rd (R.PG_ERR pageHif) % 65536 = 0x1002 ∧ ∀ k, flagReg k = false → k ≠ R.HIF_ACC_LAST → t.rd k = s.rd k) ∧
      Runs (.readClearAccess c addr .b32) s fun t => t.rd R.HIF_ACC_LAST = addr.toNat + c.val * 2 ^ 24 ∧
        t.rd (R.PG_ERR pageHif) % 65536 = 0x1002 ∧ (∀ k, flagReg k = false → k ≠ R.HIF_ACC_LAST → t.rd k = s.rd k) ∧
        Sent s t fun o => o = .readData c addr.toNat 0)

/-! Pages, interrupts and the error log. -/

/-- ENABLE sets PG_PRESENT[1] at once, and DISABLE of a block with no work in progress completes: PG_PRESENT reads 0x3 or 0x1, the
directory follows, and a block with work keeps its page enabled until it has quiesced. Other pages keep their registers. -/
def Obligations.EnableDisableSetPresentAndDirectory : Prop :=
  ∀ (s : State) (c : Client) (p : Page), Open s c p → s.present p = 3 ∨ s.present p = 1 →
    (NothingWaits s p → Runs (.enable c p) s fun t => t.present p = 3 ∧ t.bit (R.PG_CTL p) 0 = true ∧
      (s.released = true → s.present p = 1 →
        t.rd (R.DIR_ENTRY p) = typeCode p * 65536 + instanceNo p * 256 + 0x30 ∧ t.rd R.DIR_GEN = (s.rd R.DIR_GEN + 1) % 2 ^ 32) ∧
      Kept s t (fun k => k = R.DIR_ENTRY p ∨ k = R.DIR_GEN) ∧ SameMem s t) ∧
    (s.present p = 3 → s.bit (R.PG_STAT p) 1 = false →
      (s.busyPage p = false → Runs (.disable c p) s fun t => t.present p = 1 ∧ t.bit (R.PG_CTL p) 0 = false ∧
        t.fld (R.PG_STAT p) 1 0 = 3 ∧ t.bit (R.PG_IRQ_STAT p) 3 = true ∧
        (s.released = true → t.rd (R.DIR_ENTRY p) = typeCode p * 65536 + instanceNo p * 256 + 0x10 ∧
          t.rd R.DIR_GEN = (s.rd R.DIR_GEN + 1) % 2 ^ 32) ∧
        Kept s t (fun k => k = R.DIR_ENTRY p ∨ k = R.DIR_GEN) ∧ SameMem s t) ∧
      (s.busyPage p = true → Runs (.disable c p) s fun t => t.present p = 3 ∧ t.bit (R.PG_CTL p) 0 = false ∧
        t.bit (R.PG_STAT p) 1 = false ∧ Kept s t (fun _ => False) ∧ SameMem s t))

/-- A quiesce request completes at once on a block with no work in progress, else when the work ends: PG_STAT[1:0] and interrupt bit 3 set.
Clearing it on an enabled page clears PG_STAT[1]. -/
def Obligations.QuiesceCompletesWhenWorkEnds : Prop :=
  ∀ (s : State) (c : Client) (p : Page),
    (Open s c p → s.present p = 3 →
      (s.bit (R.PG_STAT p) 1 = false → s.bit (R.PG_CTL p) 0 = true →
        (s.busyPage p = false → Runs (.quiesceRequest c p) s fun t => t.fld (R.PG_STAT p) 1 0 = 3 ∧ t.bit (R.PG_CTL p) 1 = true ∧
          t.bit (R.PG_IRQ_STAT p) 3 = true ∧ t.present p = 3 ∧ Kept s t (fun _ => False) ∧ SameMem s t) ∧
        (s.busyPage p = true → Runs (.quiesceRequest c p) s fun t => t.rd (R.PG_STAT p) = s.rd (R.PG_STAT p) ∧
          t.bit (R.PG_CTL p) 1 = true ∧ Kept s t (fun _ => False) ∧ SameMem s t)) ∧
      (NothingWaits s p → s.bit (R.PG_CTL p) 0 = true → Runs (.quiesceClear c p) s fun t => t.bit (R.PG_CTL p) 1 = false ∧
        t.bit (R.PG_STAT p) 1 = false ∧ t.present p = 3 ∧ Kept s t (fun _ => False) ∧ SameMem s t)) ∧
    (s.answers p = true → s.present p = 3 → s.quiescing p = true → s.bit (R.PG_STAT p) 1 = false → s.busyPage p = false →
      Runs (.quiesceComplete p) s fun t => t.fld (R.PG_STAT p) 1 0 = 3 ∧ t.bit (R.PG_IRQ_STAT p) 3 = true ∧
        t.present p = (if s.bit (R.PG_CTL p) 0 then 3 else 1))

/-- BLOCK_RESET of a quiesced page: the block registers that its chapter does not keep go to their reset values, the page keeps its
identity, PG_PRESENT, PG_OWNER and PG_GUARD, and the block leaves reset quiesced. On a page that is not quiesced the reset is
refused with event 0x1004. TMB, MSR, IRQ, lane rows, Collators and channel engines set registers anew after the reset, and have
their own rules. -/
def Obligations.BlockResetClearsAndKeeps : Prop :=
  ∀ (s : State) (c : Client) (p : Page), Open s c p → s.present p = 3 →
    (s.bit (R.PG_STAT p) 1 = true → s.bit (R.PG_CTL p) 0 = true → typeCode p ∉ [0x04, 0x05, 0x06, 0x30, 0x31, 0x32, 0x40] →
      Runs (.blockReset c p) s fun t => (∀ o, 0x100 ≤ o → o < 0x10000 → blockKeeps (typeCode p) o = false →
          t.rd (p * 0x10000 + o) = (regDefault (p * 0x10000 + o)).toNat) ∧
        t.present p = 3 ∧ t.rd (R.PG_OWNER p) = s.rd (R.PG_OWNER p) ∧ t.rd (R.PG_GUARD p) = s.rd (R.PG_GUARD p) ∧
        t.fld (R.PG_STAT p) 1 0 = 3 ∧ t.bit (R.PG_CTL p) 1 = true ∧ t.bit (R.PG_CTL p) 0 = true) ∧
    (NothingWaits s p → s.bit (R.PG_STAT p) 1 = false → s.quiescing p = false →
      Runs (.blockReset c p) s fun t => t.rd (R.PG_ERR pageHif) % 65536 = 0x1004 ∧
        t.rd R.HIF_ACC_LAST = R.PG_CTL p + c.val * 2 ^ 24 ∧ Kept s t (fun k => k = R.HIF_ACC_LAST) ∧ SameMem s t)

/-- The interrupt aggregation and the error log: a deferred message leaves when its interval has passed and its category still stands;
the writer puts the first queued report that no written entry takes up at ERR_HEAD; ERR_TAIL takes a value of the ring. -/
def Obligations.ErrorLogAndDeferredMessagesAdvance : Prop :=
  ∀ (s : State) (c n : Client) (cat : Fin 13),
    (∀ d, kvFind s.irq.deferred (16 * n + cat) = some d → s.modPassed n cat = true → s.bit (R.IRQ_CAT_STAT n) cat = true →
      s.bit (R.IRQ_CAT_EN n) cat = true → s.masked n (48 + cat) = false →
      Runs (.irqModIntervalEnd n cat) s fun t => Sent s t fun o => o = .msix n (48 + cat)) ∧
    (∀ r rest, s.err.queue = r :: rest → s.err.dropped = 0 → s.recentMatch r = none → s.ringRoom = true →
      s.rd R.ERR_HEAD < 2 ^ 64 - 1 → (∀ n, (s.ctrl n).aers = []) →
      Runs .errWriterTake s fun t => t.err.queue = rest ∧ t.rd R.ERR_HEAD = s.rd R.ERR_HEAD + 1 ∧
        kvFind t.err.ring (s.rd R.ERR_HEAD % 4096) = some { r with seq := s.rd R.ERR_HEAD % 2 ^ 32 } ∧
        (∀ k, k ≠ s.rd R.ERR_HEAD % 4096 → kvFind t.err.ring k = kvFind s.err.ring k) ∧
        t.bit (R.PG_IRQ_STAT pageErr) 4 = true ∧ Kept s t (fun _ => False) ∧ SameMem s t) ∧
    (∀ v : BitVec 64, Open s c pageErr → s.err.dropped = 0 → (∀ n, (s.ctrl n).aers = []) →
      (v.toNat ≤ s.rd R.ERR_HEAD → s.rd R.ERR_HEAD ≤ v.toNat + 4096 →
        Runs (.errTailWrite c v) s fun t => t.rd R.ERR_TAIL = v.toNat ∧ t.rd R.ERR_HEAD = s.rd R.ERR_HEAD ∧
          Kept s t (fun _ => False) ∧ SameMem s t) ∧
      (s.rd R.ERR_HEAD < v.toNat ∨ v.toNat + 4096 < s.rd R.ERR_HEAD →
        Runs (.errTailWrite c v) s fun t => t.rd R.ERR_TAIL = s.rd R.ERR_TAIL ∧ Kept s t (fun _ => False) ∧ SameMem s t))

/-! The timebase. -/

/-- The time commands: a load takes the set registers with FRAC 0 and is dropped with 0x800E while measures run; SAVE_FREQ saves the learnt
frequency; a write of TMB_CTL with a reserved SRC is dropped with 0x8009, and SRC 0 enters FREE. None of them changes a register
outside TMB, but those that a write into NOR counts in, or any memory. -/
def Obligations.TimeCommandsLoadSaveAndSelect : Prop :=
  ∀ (s : State) (c : Client), Open s c pageTmb →
    (s.running = false →
      (Runs (.loadNow c) s fun t =>
        t.dtime = dtOf (s.rd R.TMB_SET_SEC_LO + s.rd R.TMB_SET_SEC_HI * 2 ^ 32) (s.rd R.TMB_SET_NS) 0 ∧ t.etime = s.etime ∧
        t.bit R.TMB_STAT 3 = true ∧ t.tmb.slew = 0 ∧ Kept s t (fun k => k = R.TMB_STAT) ∧ SameMem s t) ∧
      (Runs (.loadAtPps c) s fun t => t.tmb = { s.tmb with loadPending := true } ∧ t.dtime = s.dtime ∧
        Kept s t (fun _ => False) ∧ SameMem s t)) ∧
    (s.running = true → ∀ i ∈ [Instr.loadNow c, Instr.loadAtPps c], Runs i s fun t => t.dtime = s.dtime ∧ t.tmb = s.tmb ∧
      t.rd (R.PG_ERR pageTmb) % 65536 = 0x800E ∧ Kept s t (fun _ => False) ∧ SameMem s t) ∧
    (Runs (.saveFreq c) s fun t => t.tmb = { s.tmb with norLearnt := some s.tmb.learnt } ∧ t.dtime = s.dtime ∧
      Kept s t norReg ∧ SameMem s t) ∧
    (∀ v : BitVec 32,
      (6 ≤ v.toNat % 8 → Runs (.tmbCtlWrite c v) s fun t => t.rd (R.PG_ERR pageTmb) % 65536 = 0x8009 ∧ t.tmb = s.tmb ∧
        Kept s t (fun _ => False) ∧ SameMem s t) ∧
      (v.toNat % 8 < 6 → Runs (.tmbCtlWrite c v) s fun t => t.rd R.TMB_CTL % 8 = v.toNat % 8 ∧
        t.fld R.TMB_CTL 15 8 = bits v.toNat 15 8 ∧ t.dtime = s.dtime ∧
        (v.toNat % 8 = 0 → s.tmbState ≠ stFollowing → t.tmbState = stFree) ∧
        Kept s t (fun k => k / 0x10000 = pageTmb ∨ norReg k) ∧ SameMem s t))

/-- References: an accepted PPS_IN edge is stamped into TMB_PPSIN and marks PPS_IN valid, and performs a pending load; a rejected one
counts in TMB_REJECT with 0x8002; the third bad edge in a row, a lost TREF_10M or missing Sync messages send a timebase LOCKED to
them into HOLDOVER with its frequency saved; a valid TREF_10M is acquired from FREE when SRC selects it alone. -/
def Obligations.ReferencesAcquireAndLose : Prop :=
  ∀ s : State,
    (∀ stamp, dtSec stamp < 2 ^ 48 → (s.until stamp).ppsAccepts stamp = true → Runs (.ppsInEdge stamp) s fun t =>
      t.rd R.TMB_PPSIN_FRAC = dtFrac stamp ∧ t.rd R.TMB_PPSIN_NS = dtNs stamp ∧ t.rd R.TMB_PPSIN_SEC_LO = dtSec stamp % 2 ^ 32 ∧
      t.rd R.TMB_PPSIN_SEC_HI = dtSec stamp / 2 ^ 32 ∧ t.bit R.TMB_STAT 8 = true ∧ t.tmb.ppsBad = 0 ∧ t.tmb.loadPending = false ∧
      (s.tmb.loadPending = true → s.running = false → t.dtime = s.setValue + (s.dtime - stamp) ∧ t.bit R.TMB_STAT 3 = true) ∧
      Kept s t (fun k => k / 0x10000 = pageTmb) ∧ SameMem s t) ∧
    (∀ stamp, (s.until stamp).ppsAccepts stamp = false → s.tmb.ppsBad < 2 → Runs (.ppsInEdge stamp) s fun t =>
      t.rd R.TMB_REJECT = min (s.rd R.TMB_REJECT + 1) 0xFFFFFFFF ∧ t.rd (R.PG_ERR pageTmb) % 65536 = 0x8002 ∧
      t.tmb.ppsBad = s.tmb.ppsBad + 1 ∧ Kept s t (fun k => k = R.TMB_REJECT) ∧ SameMem s t) ∧
    (s.tmb.ppsBad < 2 → Runs .ppsInEdgeMissing s fun t => t.tmb = { s.tmb with ppsBad := s.tmb.ppsBad + 1 } ∧
      Kept s t (fun _ => False) ∧ SameMem s t) ∧
    (s.tmbState = stLocked →
      (s.tmb.ppsBad = 2 → srcPps s.tmbSrc = true → Runs .ppsInEdgeMissing s fun t => t.tmbState = stHoldover ∧
        t.bit R.TMB_STAT 8 = false ∧ t.tmb.norLearnt = some s.tmb.learnt ∧ Kept s t (fun k => k / 0x10000 = pageTmb ∨ norReg k) ∧
        SameMem s t) ∧
      (srcTref s.tmbSrc = true → Runs .tref10mLoss s fun t => t.tmbState = stHoldover ∧ t.bit R.TMB_STAT 7 = false ∧
        t.tmb.norLearnt = some s.tmb.learnt ∧ Kept s t (fun k => k / 0x10000 = pageTmb ∨ norReg k) ∧ SameMem s t) ∧
      (srcPtp s.tmbSrc = true → Runs .ptpSyncTimeout s fun t => t.tmbState = stHoldover ∧ t.bit R.TMB_STAT 9 = false ∧
        t.tmb.norLearnt = some s.tmb.learnt ∧ t.tmb.ptp.masters = [] ∧ Kept s t (fun k => k / 0x10000 = pageTmb ∨ norReg k) ∧
        SameMem s t)) ∧
    (∀ ppm : Int, (ppm.natAbs ≤ 10 → Runs (.tref10mValid ppm) s fun t => t.bit R.TMB_STAT 7 = true ∧
        (s.tmbState = stFree → s.tmbSrc = 1 → t.tmbState = stAcquiring) ∧ Kept s t (fun k => k / 0x10000 = pageTmb) ∧ SameMem s t) ∧
      (10 < ppm.natAbs → Runs (.tref10mValid ppm) s fun t => t.rd R.TMB_REJECT = min (s.rd R.TMB_REJECT + 1) 0xFFFFFFFF ∧
        t.rd (R.PG_ERR pageTmb) % 65536 = 0x8002 ∧ Kept s t (fun k => k = R.TMB_REJECT) ∧ SameMem s t))

/-- Lock, oven and holdover: a source acquired and still valid, whose error lies within its bound, is locked, and TMB_HO_EST goes to 0;
with an error out of bounds no lock is taken; OVEN_READY keeps the error accumulated
so far; the learnt frequency goes to NOR while LOCKED or FOLLOWING; the estimate passes its limit once, with 0x8004. -/
def Obligations.LockAndHoldover : Prop :=
  ∀ s : State,
    (s.tmbState = stAcquiring → s.srcValid = true → s.tmb.okFrom.isSome = true → Runs .lockAchieved s fun t =>
      t.tmbState = stLocked ∧ t.rd R.TMB_HO_EST = 0 ∧ t.tmb.lossAt = none ∧ (∀ a, s.tmb.okFrom = some a → a + 16 * tickSec ≤ t.etime) ∧
      Kept s t (fun k => k / 0x10000 = pageTmb) ∧ SameMem s t) ∧
    (s.tmb.okFrom = none → Runs .lockAchieved s fun t => t.tmb = s.tmb ∧ Kept s t (fun _ => False) ∧ SameMem s t) ∧
    (Runs .ovenReady s fun t => t.bit R.TMB_STAT 4 = true ∧ t.hoError = s.hoError ∧ Kept s t (fun k => k = R.TMB_STAT) ∧
      SameMem s t) ∧
    (s.tmbState = stLocked ∨ s.tmbState = stFollowing → Runs .learntFrequencySave s fun t =>
      t.tmb = { s.tmb with norLearnt := some s.tmb.learnt } ∧ Kept s t norReg ∧ SameMem s t) ∧
    (∀ e, s.hoError = some e → s.tmb.hoSaid = false → s.tmbState = stFree ∨ s.tmbState = stHoldover →
      (∀ a, s.tmb.lossAt = some a → a ≤ s.etime) →
      Runs .holdoverLimitExceeded s fun t => t.tmb.hoSaid = true ∧ t.rd (R.PG_ERR pageTmb) % 65536 = 0x8004 ∧
        t.bit (R.PG_IRQ_STAT pageTmb) 6 = true ∧ t.bit R.SYS_ATTN 10 = true ∧
        (∃ e', t.hoError = some e' ∧ s.rd R.TMB_HO_LIMIT < hoNs e') ∧ Kept s t (fun _ => False) ∧ SameMem s t)

/-- IEEE 1588 and PPS_OUT: frames of the other cage or transport count as ignored; an Announce in the domain is kept with its rank; a one-step Sync of the
master, or the Follow_Up of a two-step one, gives the offset arrival less origin less the path delay; a Delay_Resp gives the mean
path delay; a Delay_Req leaves with its stamp; PPS_OUT rises at the next whole second. -/
def Obligations.PtpMeasuresOffsetAndPpsOutRises : Prop :=
  ∀ (s : State) (cage : CageNo),
    let u := s.bit R.TMB_PTP_CTL 8
    (∀ f : PtpFrame, cage.val ≠ s.fld R.TMB_PTP_CTL 9 9 ∨ f.udp ≠ u → Runs (.ptpMessageReceive cage f) s fun t =>
      t.rd R.SPT_PTP_IGN = min (s.rd R.SPT_PTP_IGN + 1) 0xFFFFFFFF ∧ Kept s t (fun k => k = R.SPT_PTP_IGN) ∧ SameMem s t) ∧
    (cage.val = s.fld R.TMB_PTP_CTL 9 9 →
      (∀ d master rank, d = s.fld R.TMB_PTP_CTL 7 0 → Runs (.ptpMessageReceive cage ⟨u, .announce d master rank⟩) s fun t =>
        kvFind t.tmb.ptp.masters master = some rank ∧ t.rd R.SPT_PTP_RX = (s.rd R.SPT_PTP_RX + 1) % 2 ^ 64 ∧
        Kept s t (fun k => k = R.SPT_PTP_RX) ∧ SameMem s t) ∧
      (∀ d master seq origin arrival, s.fromMaster d master = true → s.tmbState ≠ stLocked →
        (Runs (.ptpMessageReceive cage ⟨u, .sync d master seq false origin arrival⟩) s fun t =>
          t.rd R.TMB_PTP_OFFS = sat32 ((arrival : Int) - origin - s.tmb.ptp.delay) ∧ t.bit R.TMB_STAT 9 = true ∧
          t.tmb.ptp.t2 = some arrival ∧ Kept s t (fun k => k / 0x10000 = pageTmb ∨ k = R.SPT_PTP_RX) ∧ SameMem s t) ∧
        (s.tmb.ptp.sync = some (seq, arrival) → Runs (.ptpMessageReceive cage ⟨u, .followUp d master seq origin⟩) s fun t =>
          t.rd R.TMB_PTP_OFFS = sat32 ((arrival : Int) - origin - s.tmb.ptp.delay) ∧ t.bit R.TMB_STAT 9 = true ∧
          Kept s t (fun k => k / 0x10000 = pageTmb ∨ k = R.SPT_PTP_RX) ∧ SameMem s t)) ∧
      (∀ d master (received interval t1 t2 t3 : Nat), s.fromMaster d master = true → s.tmb.ptp.t1 = some t1 →
        s.tmb.ptp.t2 = some t2 → s.tmb.ptp.t3 = some t3 →
        Runs (.ptpMessageReceive cage ⟨u, .delayResp d master received interval⟩) s fun t =>
          (t.tmb.ptp.delay * 2 - (((t2 : Int) - t1) + ((received : Int) - t3))).natAbs ≤ 1 ∧ t.tmb.ptp.t3 = none ∧
          t.tmb.ptp.interval = interval ∧ Kept s t (fun k => k = R.SPT_PTP_RX) ∧ SameMem s t)) ∧
    (∀ stamp, (s.until stamp).delayReqReady = true → Runs (.delayReqSend stamp) s fun t => t.tmb.ptp.t3 = some (max s.dtime stamp) ∧
      (Sent s t fun o => o = .delayReq (s.fld R.TMB_PTP_CTL 9 9) (max s.dtime stamp) (if u then
        .udp (s.rd (if s.fld R.TMB_PTP_CTL 9 9 = 0 then R.SPT_IP0 else R.SPT_IP1)) 0xE0000181 319 else .ethernet 0x88F7 0x011B19000000)) ∧
      Kept s t (fun _ => False) ∧ SameMem s t) ∧
    (∀ stamp at_, s.tmb.ptp.sentAt = some at_ → (s.until stamp).etime < at_ + s.tmb.ptp.interval → Runs (.delayReqSend stamp) s fun t =>
      t.tmb.ptp = s.tmb.ptp ∧ t.out = s.out ∧ Kept s t (fun _ => False) ∧ SameMem s t) ∧
    (s.bit R.TMB_PPS_CTL 31 = true → Runs .ppsOutEdge s fun t => t.dtime = (dtSec s.dtime + 1) * tickSec ∧
      (Sent s t fun o => o = .pps ((dtSec s.dtime + 1) * tickSec) (s.fld R.TMB_PPS_CTL 18 0)) ∧ Kept s t (fun _ => False) ∧
      SameMem s t)

/-! Fabric time. -/

/-- Time over links: the caller's message carries its DTIME, grid, key and hops; a follower of the link takes the grid and enters
FOLLOWING; a retried message is discarded and counted; a key advertised decides the caller; without its upstream a follower
leaves FOLLOWING; a calibration takes the replies that have arrived and sends its requests for the rest, and gives the mean delay or clears
the link's validity. -/
def Obligations.FabricTimeFollowsCaller : Prop :=
  ∀ (s : State) (link : LinkNo),
    (s.bit R.TMB_STAT 6 = true → s.linkUp link = true → (s.linkUnit link).retry.length < 1024 → Runs (.timeMessageSend link) s fun t =>
      (Sent s t fun o => ∃ m : TimeMessage, o = .timeMessage link m ∧ m.departure = s.dtime ∧ m.origin = s.origin ∧
        m.originM = s.originM ∧ m.period = s.rd R.MSR_PERIOD ∧ m.change = s.msr.change ∧ m.key = BitVec.ofNat 32 s.ownKey) ∧
      Kept s t (fun k => k / 0x10000 = pageLnk link ∨ k / 0x10000 = pageAcc) ∧ SameMem s t) ∧
    (∀ msg arrival, Runs (.timeMessageReceive link msg arrival true) s fun t =>
      t.rd R.TMB_DISCARD = min (s.rd R.TMB_DISCARD + 1) 0xFFFFFFFF ∧ t.tmb.neighbours = s.tmb.neighbours ∧ t.msr = s.msr ∧
      Kept s t (fun k => k = R.TMB_DISCARD) ∧ SameMem s t) ∧
    (∀ (msg : TimeMessage) arrival, s.bit R.TMB_CTL 4 = true →
      ((s.until arrival).heard link { s.knownOf link with caller := msg.key.toNat, hops := msg.hops }).rd R.TMB_UP_LINK = link + 0x80 →
      s.running = false → s.tmb.ownGrid = false →
      Runs (.timeMessageReceive link msg arrival false) s fun t => t.tmbState = stFollowing ∧
        t.rd R.MSR_PERIOD = msg.period % 2 ^ 64 ∧ t.originM = msg.originM % 2 ^ 64 ∧ t.rd R.MSR_ORIGIN_NS = dtNs msg.origin ∧
        t.msr.change = msg.change ∧ SameMem s t) ∧
    (∀ (key : BitVec 32) hops, Runs (.callerKeyAdvertise link key hops) s fun t =>
      let n : Neighbour := { s.knownOf link with key := key.toNat, hops := hops }
      kvFind t.tmb.neighbours link = (if n.best = 0 then none else some n) ∧
      (s.bit R.TMB_CTL 4 = true → t.rd R.TMB_CALLER = callerReg (t.reachable.foldl (fun a e => max a e.2.best) s.ownKey)) ∧
      Kept s t (fun k => k / 0x10000 = pageTmb ∨ norReg k) ∧ SameMem s t) ∧
    (s.tmbState = stFollowing → s.bit R.TMB_UP_LINK 7 = true → Runs .upstreamLoss s fun t =>
      t.tmbState = (if s.srcValid && !t.bit R.TMB_UP_LINK 7 then stAcquiring else stHoldover) ∧ t.bit R.TMB_STAT 5 = false ∧
      kvFind t.tmb.neighbours (s.fld R.TMB_UP_LINK 4 0) = none ∧ t.tmb.norLearnt = some s.tmb.learnt ∧
      Kept s t (fun k => k / 0x10000 = pageTmb ∨ norReg k) ∧ SameMem s t) ∧
    (∀ samples : List CalSample, s.bit R.TMB_CTL 4 = true → s.linkState link = lkUp ∨ s.linkState link = lkStandby →
      let exch := s.fld R.TMB_CAL_CTL 23 16
      let had := kvGet [] s.tmb.calReplies link
      let own := (s.exchanges link (samples.take (exch - had.length))).1
      let good := sortInts ((((had ++ own).take exch).filter fun x => !x.retried).map CalSample.twice)
      let wide := decide (8 < good.getD (good.length - 1) 0 - good.getD 0 0)
      let frame := fun t : State => (∀ x ∈ own, Sent s t fun o => o = .calRequest link x.t1) ∧
        (let xs := samples.take (exch - had.length)
         (∀ x ∈ xs, s.dtime ≤ x.t1 ∧ x.t1 ≤ x.t4) → xs.Pairwise (fun x y => x.t4 ≤ y.t1) → (s.linkUnit link).retry.length + xs.length ≤ 1024 →
           own = xs) ∧
        Kept s t (fun k => k / 0x10000 = pageTmb ∨ k / 0x10000 = pageLnk link ∨ k / 0x10000 = pageAcc ∨ norReg k) ∧ SameMem s t
      (2 * good.length < exch ∨ wide = true → Runs (.linkCalibration link samples) s fun t => t.bit (R.TMB_LDLY link) 31 = false ∧ frame t) ∧
      (exch ≤ 2 * good.length → wide = false → Runs (.linkCalibration link samples) s fun t =>
        (∃ d : Int, (4 * d - medianTwice good).natAbs ≤ 3 ∧ t.rd (R.TMB_LDLY link) = d.toNat % 2 ^ 24 + 2 ^ 31) ∧ frame t)) ∧
    (∀ t1 arrival, s.linkState link = lkUp ∨ s.linkState link = lkStandby → (s.linkUnit link).retry.length < 1024 →
      Runs (.calMessageReceive link (.request t1) arrival false) s fun t => (Sent s t fun o => o = .calReply link t1 arrival (max s.dtime arrival)) ∧ t.tmb.neighbours = s.tmb.neighbours ∧ SameMem s t) ∧
    (∀ t1 t2 t3 arrival, Runs (.calMessageReceive link (.reply t1 t2 t3) arrival false) s fun t =>
      kvGet [] t.tmb.calReplies link = kvGet [] s.tmb.calReplies link ++ [⟨t1, t2, t3, arrival, false⟩] ∧ Kept s t (fun _ => False) ∧ SameMem s t)

/-! The measure distributor. -/

/-- RUN and the settings of the grid: RUN numbers the next measure whose announce lies ahead, and its clearing leaves the announced measures
in the queue; MSR_LEAD takes 64 to 1024 and refuses others with 0x8009; a change of period is pending from its submission, and is
refused with 0x800D by a follower and with 0x8009 out of range. -/
def Obligations.MeasuresStartStopAndChange : Prop :=
  ∀ (s : State) (c : Client), Open s c pageMsr →
    (s.running = false → s.msr.queue = [] → s.msr.change = none → 0 < s.rd R.MSR_PERIOD → Runs (.runSet c) s fun t =>
      t.running = true ∧ t.dtime = s.dtime ∧ s.originM ≤ t.msr.nextM ∧ s.dtime + s.lead ≤ s.instant t.msr.nextM ∧
      (t.msr.nextM = s.originM ∨ s.instant (t.msr.nextM - 1) < s.dtime + s.lead) ∧
      (∀ slot : Fin 256, s.armState slot = 1 → s.armTgt slot < t.msr.nextM → t.armState slot = 4) ∧
      (∀ slot : Fin 256, s.armState slot = 1 → t.msr.nextM ≤ s.armTgt slot → t.armState slot = 1) ∧
      Kept s t (fun k => k = R.MSR_CTL ∨ k = R.MSR_MISSED ∨ ∃ slot : Fin 256, k = R.ARM_CMD slot) ∧ SameMem s t) ∧
    (s.running = true → Runs (.runClear c) s fun t => t.running = false ∧ t.msr.queue = s.msr.queue ∧ t.msr.nextM = s.msr.nextM ∧
      (s.msr.queue = [] → t.msr.idleFrom = s.etime) ∧
      (s.msr.queue ≠ [] → Kept s t (fun k => k = R.MSR_CTL)) ∧ t.mem = s.mem) ∧
    (∀ v : BitVec 32,
      let new := (s.rd R.MSR_LEAD &&& 0xFFFFFFFFFFFFF800) ||| (v.toNat &&& 0x7FF)
      (new < 64 ∨ 1024 < new → Runs (.msrLeadWrite c v) s fun t => t.rd (R.PG_ERR pageMsr) % 65536 = 0x8009 ∧ t.msr = s.msr ∧
        Kept s t (fun _ => False) ∧ SameMem s t) ∧
      (64 ≤ new → new ≤ 1024 → s.running = false → Runs (.msrLeadWrite c v) s fun t => t.rd R.MSR_LEAD = new ∧ t.msr = s.msr ∧
        Kept s t (fun k => k = R.MSR_LEAD) ∧ SameMem s t)) ∧
    (∀ at_ : BitVec 64,
      (s.tmbState = stFollowing → Runs (.periodChangeSubmit c at_) s fun t => t.rd (R.PG_ERR pageMsr) % 65536 = 0x800D ∧ t.msr = s.msr ∧
        Kept s t (fun _ => False) ∧ SameMem s t) ∧
      (s.tmbState ≠ stFollowing → s.rd R.MSR_NEXT_PERIOD < 250 ∨ 1000000000 < s.rd R.MSR_NEXT_PERIOD ∨
          at_.toNat < s.rd R.MSR_NOW + 2 ∨ s.announcedM (at_.toNat + 1) = true →
        Runs (.periodChangeSubmit c at_) s fun t => t.rd (R.PG_ERR pageMsr) % 65536 = 0x8009 ∧ t.msr = s.msr ∧
          Kept s t (fun _ => False) ∧ SameMem s t) ∧
      (s.tmbState ≠ stFollowing → s.bit R.TMB_STAT 6 = false → 250 ≤ s.rd R.MSR_NEXT_PERIOD → s.rd R.MSR_NEXT_PERIOD ≤ 1000000000 →
        s.rd R.MSR_NOW + 2 ≤ at_.toNat → s.announcedM (at_.toNat + 1) = false →
        (∀ x, s.msr.change = some x → s.announcedM (x.1 + 1) = false) →
        Runs (.periodChangeSubmit c at_) s fun t => t.msr = { s.msr with change := some (at_.toNat, s.rd R.MSR_NEXT_PERIOD) } ∧
          t.rd R.MSR_CHANGE_AT = at_.toNat ∧ Kept s t (fun k => k = R.MSR_CHANGE_AT) ∧ SameMem s t))

/-- Announce and strike: while measures run the next one is announced with its instant, and its armed slots with it; the oldest
announced measure strikes at its instant, writing MSR_NOW, a change of period that falls on it, and a snapshot of ACC when one is
due; idle ticks count one period of elapsed time when no strike does. -/
def Obligations.MeasuresAnnounceAndStrike : Prop :=
  ∀ s : State,
    (s.running = true → s.msr.queue.length < 4 → (∀ a ∈ s.msr.queue, s.announceAt ≤ a.at_) → Runs .measureAnnounce s fun t =>
      t.msr.nextM = s.msr.nextM + 1 ∧ t.announcedM s.msr.nextM = true ∧
      t.msr.queue = s.msr.queue ++ [⟨s.msr.nextM, s.instant s.msr.nextM⟩] ∧ t.dtime = max s.dtime s.announceAt ∧
      (∀ slot : Fin 256, s.armState slot = 1 → s.armTgt slot = s.msr.nextM →
        t.armState slot = (if s.inService (s.armPage slot) && s.guardInForce (s.armPage slot) (s.armClient slot) then 2 else 7)) ∧
      SameMem s t) ∧
    (∀ a rest, s.msr.queue = a :: rest → Runs .measureStrike s fun t => t.msr.queue = rest ∧ t.msr.count = s.msr.count + 1 ∧
      t.rd R.MSR_NOW = a.m % 2 ^ 64 ∧
      (∀ p, s.msr.change = some (a.m, p) → t.rd R.MSR_PERIOD = p % 2 ^ 64 ∧ t.rd R.MSR_ORIGIN_M = a.m % 2 ^ 64 ∧ t.msr.change = none) ∧
      (s.rd R.ACC_SNAP_EVERY ≠ 0 → a.m % s.rd R.ACC_SNAP_EVERY = 0 → t.rd R.ACC_SNAP_M = a.m % 2 ^ 64)) ∧
    (s.running = false → s.msr.queue = [] → Runs .idleTick s fun t => t.msr.count = s.msr.count + 1 ∧
      t.msr.idleFrom = s.msr.idleFrom + s.period ∧ t.etime = max s.etime (s.msr.idleFrom + s.period) ∧ t.heldSaid = [] ∧
      t.msr.queue = [] ∧ t.mem = s.mem)

/-- ARM arms a free slot for a measure not yet announced, on a page that accepts the action, is in service and open to the client, and on
which no other slot is armed for the measure; else it is missed with 0x8007, or refused with 0x8006 or 0x8005. CANCEL takes an
armed slot back. -/
def Obligations.ArmsAreTakenOrRefused : Prop :=
  ∀ (s : State) (c : Client) (slot : Fin 256), Open s c pageMsr →
    (s.armState slot = 1 → Runs (.cancel c slot) s fun t => t.armState slot = 6 ∧ t.msr = s.msr ∧
      Kept s t (fun k => k = R.ARM_CMD slot) ∧ SameMem s t) ∧
    (s.armState slot ≠ 1 → s.armState slot ≠ 2 →
      let p := s.armPage slot
      let clash := ∃ k : Fin 256, k ≠ slot ∧ (s.armState k = 1 ∨ s.armState k = 2) ∧ s.armPage k = p ∧ s.armTgt k = s.armTgt slot
      let fails := fun (st code : Nat) (t : State) => t.armState slot = st ∧ t.rd (R.PG_ERR pageMsr) % 65536 = code ∧
        t.bit (R.PG_IRQ_STAT pageMsr) 5 = true ∧ Kept s t (fun k => k = R.ARM_CMD slot ∨ k = R.MSR_MISSED) ∧ SameMem s t
      (s.pastAnnounce (s.armTgt slot) = true → Runs (.arm c slot) s (fails 4 0x8007)) ∧
      (s.pastAnnounce (s.armTgt slot) = false →
        ((armable p (s.armCode slot) && s.inService p && s.guardOpen p c) = false → Runs (.arm c slot) s (fails 5 0x8006)) ∧
        ((armable p (s.armCode slot) && s.inService p && s.guardOpen p c) = true →
          (clash → Runs (.arm c slot) s (fails 5 0x8005)) ∧
          (¬ clash → Runs (.arm c slot) s fun t => t.armState slot = 1 ∧ t.armClient slot = c ∧
            Kept s t (fun k => k = R.ARM_CMD slot) ∧ SameMem s t))))

/-- R94: a slot that is armed or announced drops writes of ARM_TGT, ARM_ACT and ARM with 0x8009; a write that sets both ARM and CANCEL is
dropped with 0x8009; CANCEL of any other slot has no effect and raises no event; the arm is its client's, and so is the strike
interrupt. -/
def Obligations.ArmedSlotsDropWrites : Prop :=
  ∀ (s : State) (c : Client) (slot : Fin 256), Open s c pageMsr →
    let dropped := fun t => t.rd (R.PG_ERR pageMsr) % 65536 = 0x8009 ∧ t.msr = s.msr ∧ Kept s t (fun _ => False) ∧ SameMem s t
    (s.armState slot = 1 ∨ s.armState slot = 2 →
      (∀ v : BitVec 64, Runs (.registerWrite c (BitVec.ofNat 24 (R.ARM_TGT slot)) .b64 v) s dropped) ∧
      (∀ v : BitVec 64, Runs (.registerWrite c (BitVec.ofNat 24 (R.ARM_ACT slot)) .b32 v) s dropped) ∧
      Runs (.arm c slot) s dropped) ∧
    (∀ v : BitVec 64, v.getLsbD 0 = true → v.getLsbD 1 = true →
      Runs (.registerWrite c (BitVec.ofNat 24 (R.ARM_CMD slot)) .b32 v) s dropped) ∧
    (s.armState slot ≠ 1 → s.armState slot ≠ 2 → Runs (.cancel c slot) s fun t => t.msr = s.msr ∧
      (∀ k, catReg k = false → t.rd k = s.rd k) ∧ t.err = s.err ∧ SameMem s t) ∧
    (s.armState slot = 0 → ∀ t, exec (.arm c slot) s = .next t → t.armState slot = 1 → t.armClient slot = c) ∧
    (∀ d, kvFind s.msr.held slot = some d → s.busyPage (s.armPage slot) = false → Runs (.heldArmStrike slot) s fun t =>
      t.armState slot = 3 ∧ t.irq.strikeTo.testBit (s.armClient slot) = true ∧ t.bit (R.PG_IRQ_STAT pageMsr) 4 = true ∧
      kvFind t.msr.held slot = none)

/-! Lane rows and steps. -/

/-- Power of a lane row: an idle row outside the reservation is gated after 1,000 cycles and turned off after its delay, when its Leaf goes
to zero and no other Leaf does; a gated row wakes ON, a row that was off starts its clear, and the end of the clear gives the
Leaf to no client. -/
def Obligations.LaneRowsGateWakeAndClear : Prop :=
  ∀ (s : State) (r : RowNo),
    let u := s.rowUnit r
    (s.rowIdle r = true → (s.reservedFor r).isNone = true → u.clearDue = false →
      (s.pwr r = 0 → s.bit (R.ROW_PWR r) 0 = false → u.idleFrom + 1000 * tickCycle ≤ s.etime → Runs (.rowGate r) s fun t =>
        t.pwr r = 1 ∧ t.rows = s.rows ∧ Kept s t (fun k => k = R.ROW_STAT r) ∧ SameMem s t) ∧
      (s.pwr r ≤ 1 → s.fld (R.ROW_PWR r) 15 8 ≠ 0 → s.rowHeld r = false →
        u.idleFrom + s.fld (R.ROW_PWR r) 15 8 * 1000 * tickUs ≤ s.etime → Runs (.rowOff r) s fun t =>
          t.pwr r = 2 ∧ (∀ a, a < leafWords → t.leafWord r a = zeroWord) ∧
          (∀ (q : RowNo) (a : Nat), q ≠ r → a < leafWords → t.leafWord q a = s.leafWord q a) ∧
          Kept s t (fun k => k = R.ROW_STAT r) ∧ t.mem = s.mem)) ∧
    (u.busyUntil ≠ 0 →
      (s.pwr r = 1 → Runs (.rowWakeComplete r) s fun t => t.pwr r = 0 ∧ t.etime = max s.etime u.busyUntil ∧
        (t.rowUnit r).busyUntil = 0 ∧ (t.rowUnit r).idleFrom = t.etime ∧ Kept s t (fun k => k = R.ROW_STAT r) ∧ SameMem s t) ∧
      (s.pwr r = 2 → Runs (.rowWakeComplete r) s fun t => t.pwr r = 3 ∧ t.etime = max s.etime u.busyUntil ∧
        (t.rowUnit r).clearDue = true ∧ (t.rowUnit r).busyUntil = t.etime + clearCycles * tickCycle ∧
        (∀ a, a < leafWords → t.leafWord r a = zeroWord) ∧ Kept s t (fun k => k = R.ROW_STAT r) ∧ t.mem = s.mem)) ∧
    (s.pwr r = 3 → u.clearDue = true → Runs (.leafClearComplete r) s fun t => t.pwr r = 0 ∧
      t.rd (R.ROW_LEAF_CLIENT r) = 0xFF ∧ t.rd (R.ROW_CLR_CNT r) = (s.rd (R.ROW_CLR_CNT r) + 1) % 2 ^ 64 ∧
      t.bit (R.PG_IRQ_STAT (pageRow r)) 7 = true ∧ (t.rowUnit r).clearDue = false ∧
      Kept s t (fun k => k = R.ROW_STAT r ∨ k = R.ROW_LEAF_CLIENT r ∨ k = R.ROW_CLR_CNT r) ∧ SameMem s t)

/-- A tile fed past an integer weight block adds to the accumulator entry of every lane and token of the tile the exact sum of products,
saturating to 48 bits; entries of other tokens, the Leaf and the memories stay. -/
def Obligations.FeedAccumulatesSumOfProducts : Prop :=
  ∀ (s : State) (rn r word tokens : Nat) (x : Run) (fmt : Fmt) (first : Bool), fmt ≠ .bf16 → (s.rowUnit r).fmt = some fmt →
    0 < tokens → tokens ≤ 512 → inLeaf word ((tokens + fmt.slices - 1) / fmt.slices) = true →
    let u := s.rowUnit r
    let ws := (List.range ((tokens + fmt.slices - 1) / fmt.slices)).map fun i => s.leafWord r (word + i)
    let t := s.feedTile rn x r fmt word tokens first
    t.2 = false ∧ SameMem s t.1 ∧
    (∀ l k, l < 256 → k < tokens →
      (kvGet noEntry (t.1.rowUnit r).acc (512 * l + k)).value =
        clampInt (-(2 ^ 47 : Nat)) ((2 ^ 47 : Nat) - 1) ((if first then 0 else (kvGet noEntry u.acc (512 * l + k)).value) +
          intDot u fmt ws k l)) ∧
    (∀ l k, l < 256 → tokens ≤ k → k < 512 → kvGet noEntry (t.1.rowUnit r).acc (512 * l + k) = kvGet noEntry u.acc (512 * l + k)) ∧
    (∀ q, q ≠ r → t.1.rowUnit q = s.rowUnit q)

/-- A formed run is admitted at a measure strike on rows that are ready, a chained one on the core cycle after its boundary, and a held one
when its rows are: it then stages, to strike after G cycles. A chained step that has lost its rights stops its run. -/
def Obligations.StepsAreAdmittedOnReadyRows : Prop :=
  ∀ (s : State) (run : Nat) (x : Run) (rows : List RowNo) (cols : List Nat), s.run run = some x → x.replayOf = none →
    let ps := rows.map Fin.val
    let ready := fun (u : State) => (∀ r ∈ ps, u.rowReady r x.client = true) ∧ u.rowsBusy run ps = false ∧
      u.schQuiet x ps = false ∧ u.heldBack x = false
    let staged := fun (t : State) (from_ : Nat) => t.etime = from_ ∧ (∃ y, t.run run = some y ∧ y.phase = .staging ∧ y.rows = ps ∧
        y.heldFrom = none ∧ y.strikeAt = from_ + (s.stepDef x).g * tickCycle ∧ y.step = x.step) ∧
      (∀ r ∈ ps, t.bit (R.ROW_STAT r) 3 = true ∧ t.rd (R.ROW_LEAF_CLIENT r) = x.client % 2 ^ 64) ∧ SameMem s t
    (x.phase = .formed → x.heldFrom = none → s.msr.struckAt = some s.etime → ready s → s.firstReady x = true →
      s.turn run x ps = true → s.rowSet run x ps = some cols → Runs (.stepAdmit run rows) s fun t => staged t s.etime) ∧
    (x.phase = .boundary → x.heldFrom = none → x.bucketWait = [] → s.layersLanded x = true → ready s → ps = x.rows →
      s.mayGoOn x = true → s.needsRows x = false → s.rowSet run x ps = some cols →
      Runs (.stepAdmit run rows) s fun t => staged t (s.etime + tickCycle)) ∧
    (∀ t0, x.heldFrom = some t0 → x.lentHeld = false → ps = x.rows → ready s → (∀ r ∈ ps, s.rowAllowed x r = true) →
      Runs (.heldAdmission run rows) s fun t => staged t s.etime) ∧
    (x.phase = .boundary → x.heldFrom = none → x.bucketWait = [] → s.layersLanded x = true → s.mayGoOn x = false →
      Runs (.stepAdmit run rows) s fun t => ∃ y, t.run run = some y ∧ y.phase = .done ∧ y.rows = [])

/-- The strike of a step that stages nothing, on a run of Pavane mode: compute starts at admission + G and ends C cycles later, and a COMMIT
puts its Leaf words into the shadow, the context's state untouched; a stage that overruns strikes late, with event 0x2002. -/
def Obligations.StrikeStartsComputeAndShadows : Prop :=
  ∀ (s : State) (run : Nat) (x : Run), s.run run = some x → x.phase = .staging → x.replayDue = false → (s.stepDef x).stage = [] →
    (∀ u ∈ s.tiers.lc ++ s.tiers.be ++ s.tiers.again, u.run ≠ run) →
    (∀ f, s.runCore x = some f → f.galliard = false) → x.pc = 0 →
    ((s.stepDef x).ops = [] →
      (Runs (.stepStrike run [] [] [] []) s fun t => t.etime = max s.etime x.strikeAt ∧ SameMem s t ∧
        ∃ y, t.run run = some y ∧ y.phase = .computing ∧ y.endAt = x.strikeAt + (s.stepDef x).c * tickCycle) ∧
      (∀ late, 0 < late → Runs (.stageOverrunStrike run late [] [] [] []) s fun t =>
        t.etime = max s.etime (x.strikeAt + late * tickCycle) ∧ t.rd (R.PG_ERR pageSch) % 65536 = 0x2002 ∧ SameMem s t ∧
        ∃ y, t.run run = some y ∧ y.phase = .computing ∧ y.lateCyc = x.lateCyc + late ∧ y.flags.testBit 13 = true ∧
          y.endAt = x.strikeAt + late * tickCycle + (s.stepDef x).c * tickCycle)) ∧
    (∀ r word count xi off p, (s.stepDef x).ops = [⟨[], .commit r word count xi off⟩] → x.rows[r]? = some p →
      inLeaf word count = true → s.colWaits run = false →
      Runs (.stepStrike run [] [] [] []) s fun t => SameMem s t ∧ ∃ y, t.run run = some y ∧ y.pc = 1 ∧
        y.shadow = x.shadow ++ (List.range count).map (fun i =>
          ⟨xi, off + 128 * i, (s.leafWord p (word + i)).bytes, (s.leafWord p (word + i)).poison⟩))

/-- The boundary of a chained step of an LC run: the rows end the step, what the step had put into the shadow goes to the context's
region and to no other byte, and the context counts the step; the run waits between steps, one step on. -/
def Obligations.BoundaryCommitsTheShadow : Prop :=
  ∀ (s : State) (run : Nat) (x : Run) (f : FigureCore) (m : RunCmd) (off : Nat) (bs : List Byte),
    s.run run = some x → x.phase = .computing → x.replayDue = false → (s.stepDef x).ops.length ≤ x.pc → s.colWaits run = false →
    x.endAt ≤ x.expireAt → x.replayOf = none → x.journalled = false → x.lc = true → s.runCore x = some f → f.streamed = false →
    f.galliard = false → (s.stepDef x).wave = [] → x.step + 1 < (s.path x).length → x.missPending = none → s.sched.degraded = [] →
    x.rows ≠ [] → (∀ r ∈ x.rows, r < 104 ∧ s.rowAllowed x r = true) → x.cmds = [m] → x.results = [] →
    x.shadow = [⟨0, off, bs, false⟩] → x.client < 16 → off + bs.length ≤ (s.ctx m.ctx).stateLen → off + bs.length ≤ regionSpan →
    Runs (.stepBoundary run []) s fun t => t.etime = max s.etime x.endAt ∧
      (∃ y, t.run run = some y ∧ y.phase = .boundary ∧ y.step = x.step + 1 ∧ y.shadow = [] ∧ y.rows = x.rows) ∧
      (t.ctx m.ctx).state = 2 ∧ (t.ctx m.ctx).stepCtr = (s.ctx m.ctx).stepCtr + 1 ∧
      t.memRead (s.ctx m.ctx).region off bs.length = bs ∧
      (∀ h o, o < regionSpan → (h ≠ (s.ctx m.ctx).region ∨ o < off ∨ off + bs.length ≤ o) → t.memByte h o = s.memByte h o) ∧
      t.leaf = s.leaf ∧ (∀ r ∈ x.rows, t.bit (R.ROW_STAT r) 3 = false) ∧
      t.rd (R.ACC_STEPS x.client) = (s.rd (R.ACC_STEPS x.client) + 1) % 2 ^ 64

/-- What else ends the wait of a run: a wave whose jobs have ended gives its words to the run; a watchdog that expires tears the run down
with 0x2001, its contexts FAULTED; the first expiry of a replayed step restarts it; a dirty line sends the step back to its
admission with its shadow and accumulators discarded. -/
def Obligations.WavesWatchdogsAndReplaysOfSteps : Prop :=
  ∀ (s : State) (run : Nat) (x : Run), s.run run = some x →
    (x.phase = .waitFlash → s.jobsLeft run = false → x.journalled = false → s.layersLanded x = true →
      Runs (.waveLanded run [] false) s fun t => t.mem = s.mem ∧ ∃ y, t.run run = some y ∧ y.phase = .boundary ∧
        y.waveData = ((s.lcLate run x).landReads run x [] 0 0 x.wavePlan).1) ∧
    (x.phase = .staging ∨ (x.phase = .computing ∧ x.expireAt < x.endAt) →
      (x.stepReplayed = true → x.expiries = 0 → Runs (.stepWatchdogExpiry run) s fun t =>
        t.etime = max s.etime x.expireAt ∧ t.run run = some { x with
          expiries := 1
          expireAt := t.etime + ((s.stepDef x).g + (s.stepDef x).c + s.rd R.SCH_WD_SLACK) * tickCycle } ∧
        Kept s t (fun _ => False) ∧ SameMem s t) ∧
      (x.stepReplayed = false → x.replayOf = none → x.journalled = false → x.client < 16 →
        (∀ e ∈ s.sched.runs, e.1 ≠ run → e.2.waitRow = none) → Runs (.stepWatchdogExpiry run) s fun t =>
        (∃ y, t.run run = some y ∧ y.phase = .done ∧ y.rows = []) ∧
        (∀ m ∈ x.cmds, (s.ctx m.ctx).state ≠ 0 → (t.ctx m.ctx).state = 3 ∧ (t.ctx m.ctx).lastEvent = 0x2001) ∧
        t.rd (R.ACC_TEARDOWNS x.client) = (s.rd (R.ACC_TEARDOWNS x.client) + 1) % 2 ^ 64 ∧ t.mem = s.mem)) ∧
    (x.phase = .computing → x.replayDue = true → Runs (.stepReplay run) s fun t =>
      (∃ y, t.run run = some y ∧ y.phase = .staging ∧ y.replayDue = false ∧ y.stepReplayed = true ∧ y.shadow = [] ∧ y.results = [] ∧
        y.pc = 0 ∧ y.recomp = x.recomp + 1 ∧ y.strikeAt = s.etime + (s.stepDef x).g * tickCycle) ∧
      (∀ r ∈ x.rows, (t.rowUnit r).acc = []) ∧ t.rd R.DET_RECOMP = (s.rd R.DET_RECOMP + 1) % 2 ^ 64 ∧
      SameMem s t)

/-- Runs of BE figures are formed once BMAX commands wait or the oldest has waited SCH_BE_WAIT measures: the commands taken make the next
run, in state FORMED. A staged reservation map that passes its tests is in force at once when no strike or hold is awaited, else it waits; a
map that fails one is refused with the cause and 0x2006, and the old one stays; a discard shows the map in force in the stage. -/
def Obligations.BeRunsFormAndReservationsCommit : Prop :=
  ∀ s : State,
    (∀ (handle : Fin 1024) (l : Loaded), kvFind s.sched.figures handle = some l → l.fig.main.lc = false →
      let a := s.pick l.client l.fig.main handle (fun _ => false) s.sched.queue ⟨[], [], none⟩
      let mine := s.sched.queue.filter fun m => m.handle = handle.val
      a.take ≠ [] → l.hasWindow = true →
      (l.fig.main.bmax ≤ mine.length ∨ ∃ m ∈ mine.take 1, m.atCount + s.rd R.SCH_BE_WAIT ≤ s.msr.count) →
      Runs (.beRunFormation handle) s fun t => t.sched.nextRun = s.sched.nextRun + 1 ∧
        (∃ y, t.run s.sched.nextRun = some y ∧ y.phase = .formed ∧ y.cmds = a.take ∧ y.handle = handle ∧ y.lc = false) ∧
        (∀ m ∈ a.take, m ∉ t.sched.queue) ∧ SameMem s t) ∧
    (Open s 0 pageSch →
      (s.mapCause s.stagedMap = 0 → Runs (.schResCommit 0) s fun t => t.rd R.SCH_RES_RESULT = 1 ∧ t.bit R.SCH_STAT 14 = false ∧
        (s.rightsWait = false → t.sched.reserved = s.stagedMap ∧ t.sched.commit = none ∧
          t.rd R.SEC_RIGHTS_GEN = (s.rd R.SEC_RIGHTS_GEN + 1) % 2 ^ 64) ∧
        (s.rightsWait = true → t.sched.reserved = s.sched.reserved ∧ t.sched.commit = some s.stagedMap) ∧ SameMem s t) ∧
      (s.mapCause s.stagedMap ≠ 0 → Runs (.schResCommit 0) s fun t => t.rd R.SCH_RES_RESULT = 1 + 2 * s.mapCause s.stagedMap ∧
        t.rd (R.PG_ERR pageSch) % 65536 = 0x2006 ∧ t.sched = s.sched ∧ Kept s t (fun k => k = R.SCH_RES_RESULT) ∧ SameMem s t) ∧
      ((∀ e ∈ s.sched.reserved, e.2 < 16) → Runs (.schResDiscard 0) s fun t => (∀ r, r < 104 → t.stagedRow r = kvFind s.sched.reserved r) ∧
        t.bit R.SCH_STAT 14 = false ∧ t.sched = s.sched ∧
        Kept s t (fun k => k = R.SCH_STAT ∨ ∃ i : Fin 26, k = R.SCH_RES_STAGE i) ∧ SameMem s t))

/-- Where the phases of bring-up, the fence commands, the requests of the sideband and the sensors' readings complete: each phase that finds
what it needs goes on to the next, up to READY with RB# released, and one that takes 60 s ends FATAL; a fence request is taken or withdrawn;
a unit fenced in service reads so; register reads and writes and sensor requests that pass their checks are answered with status 0; a
reading below the trip temperatures is taken. -/
def Obligations.BringUpAndManagementCommandsComplete : Prop :=
  ∀ s : State,
    (∀ (ms : Nat) (f : RomFacts), s.phase 1 = true → s.sys.tripped = false ∨ f.cool = true → f.norOk = true →
      s.imageFault s.nor.front f.frontSig = none ∨ s.imageFault s.nor.back f.backSig = none →
        Runs (.bringupRom ms f) s fun t => t.rd R.SYS_STATE = 2 ∧ t.etime = s.etime + ms * 1000 * tickUs) ∧
    (∀ (ms : Nat) (f : TinyFails), s.phase 2 = true →
      (∃ i, i < 3 ∧ (∀ k ∈ f.cores, k.val ≠ i) ∧ ∀ n b, s.sys.wdRecord = some (i, n, b) → n < 2) →
      (∃ r : RowNo, r ∉ f.rows) → (∃ d : Fin 8, ∀ k ∈ f.hbm, k.val ≠ d.val) → (∃ n : ChanNo, n ∉ f.chans) →
        Runs (.bringupTiny ms f) s fun t => t.rd R.SYS_STATE = 3 ∧ t.etime = s.etime + ms * 1000 * tickUs) ∧
    (∀ (ms : Nat) (dead : List DevNo), s.phase 3 = true → Runs (.bringupFill ms dead) s fun t => t.rd R.SYS_STATE = 4 ∧
      t.sys.deadDevs = dead.map Fin.val) ∧
    (∀ (ms : Nat) (fails : List (Page × Nat)), s.phase 4 = true → s.nor.spareRows.length ≤ 8 →
      let good := fun (p : Nat) => (∀ e ∈ fails, e.1.val ≠ p) ∧ p ∉ s.nor.fences
      (∃ d : Fin 8, good (pageDev d) ∧ d.val ∉ s.sys.deadDevs) → (∃ r : RowNo, r.val ∉ s.nor.spareRows ∧ good (pageRow r)) →
        Runs (.bringupTest ms fails) s fun t => t.rd R.SYS_STATE = 5 ∧ t.etime = s.etime + ms * 1000 * tickUs) ∧
    (∀ (ms : Nat) (f : GrowFacts), s.phase 5 = true → (∀ e ∈ s.nor.settings, e.1 / 0x10000 ≠ pageSys ∧ 0x100 ≤ e.1 % 0x10000) →
      Runs (.bringupGrow ms f) s fun t => t.rd R.SYS_STATE = 6 ∧ t.released = true ∧ t.sys.low = false) ∧
    (∀ n, 1 ≤ n → n ≤ 5 → s.phase n = true → Runs .bringupTimeout s fun t => t.rd R.SYS_STATE = 7 ∧ t.sys.low = true) ∧
    (∀ c : Client, Open s c pageRst →
      let p := s.fld R.RST_FENCE_SEL 7 0
      (fencible p = true → (s.released = true → s.present p ≠ 0) → p ∉ s.nor.fences → s.nor.fences.length < 64 →
        Runs (.request c) s fun t => t.nor.fences = s.nor.fences ++ [p] ∧ t.rd R.RST_FENCE_RESULT = 1 ∧ SameMem s t) ∧
      (Runs (.withdraw c) s fun t => t.nor.fences = s.nor.fences.filter (fun x => x ≠ p) ∧ t.rd R.RST_FENCE_RESULT = 1 ∧ SameMem s t)) ∧
    (∀ p : Page, s.rd R.SYS_STATE = 6 → s.released = true → fencible p = true → s.present p = 3 ∨ s.present p = 1 →
      Runs (.fencingInService p) s fun t => t.present p = 5 ∧ t.bit R.SYS_ATTN 0 = true) ∧
    (∀ (h : MsgHead) (p : List Byte), s.sys.aux = true → h.len ≤ p.length → h.status = 0 → h.version = 1 → s.rd R.SYS_STATE ≠ 0 →
      let said := fun (t : State) (m : Nat) (d : List Byte) => Sent s t fun o => o = .message .sideband (responseBytes m h.code h.tag 0 d)
      (∀ page o c, h.magic = 0x7AC0 → h.code = 0x11 → regFields h p = some (page, o, c) → page ∈ sidebandPages → o % 4 = 0 →
        0 < c → c ≤ 64 → o + 4 * c ≤ 0x10000 →
          Runs (.regRead h p false) s fun t => said t 0x7AC0 (s.readDwords (page * 0x10000 + o) c).1) ∧
      (∀ page o, h.magic = 0x7AC0 → h.code = 0x12 → 12 ≤ h.len → regFields h p = some (page, o, 1) →
        page * 0x10000 + o ∈ sidebandWrites → (page * 0x10000 + o = R.RST_FENCE_CMD → field p 8 4 % 4 = 2) →
          Runs (.regWrite h p false) s fun t => said t 0x7AC0 []) ∧
      (h.magic = 0x7AD0 → h.code = 0x31 → s.rd R.SYS_STATE ∉ [1, 7, 8, 9] → s.nor.running = false →
        Runs (.sensors h p false) s fun t => said t 0x7AD0 s.sensorBytes)) ∧
    (∀ (temps : List Int) (w1 w100 : Nat), s.up = true → trips temps = false →
      Runs (.sensorReading temps w1 w100) s fun t => t.sys.temps = temps ∧ t.sys.w100 = w100 ∧ t.rd R.SYS_STATE = s.rd R.SYS_STATE ∧
        SameMem s t)

/-! Grids, monitors, the Collator, the tiers. -/

/-- A grid slot that no loaded figure names takes the staged levels when they increase and is then valid, and CLEAR empties it; a refused LOAD
leaves the slot, with its result and event. LATCH copies a monitor's counters and the measure, clearing them when MON_CTL[1] is set;
CLEAR zeroes them; another client's monitor is refused with 0x1002. -/
def Obligations.GridsAndMonitorsObeyTheirCommands : Prop :=
  ∀ s : State,
    (Open s 0 pageQnt → ∀ g : Fin 256,
      (s.gridRefs g = 0 → increasing (s.levelsAt R.QNT_GSTAGE) = true → Runs (.qntGcmdLoad 0 g) s fun t =>
        t.gridValid g = true ∧ (∀ i, i < 4 → t.rd (R.QNT_GRID g i) = s.rd (R.QNT_GSTAGE i)) ∧ t.rd R.QNT_GRESULT = g.val + 0x100 ∧
        t.slotCount 5 = s.slotCount 5 + 1 ∧ SameMem s t ∧ SameWork s t ∧
        Kept s t (fun k => k = R.QNT_GSTAT g ∨ k = R.QNT_GRESULT ∨ k = R.SEC_STAT ∨ ∃ i, i < 4 ∧ k = R.QNT_GRID g i)) ∧
      (s.gridRefs g = 0 → increasing (s.levelsAt R.QNT_GSTAGE) = false → Runs (.qntGcmdLoad 0 g) s fun t =>
        t.rd R.QNT_GRESULT = g.val + 0x300 ∧ t.rd (R.PG_ERR pageQnt) % 65536 = 0x2201 ∧ Kept s t (fun k => k = R.QNT_GRESULT)) ∧
      (s.gridRefs g = 0 → Runs (.qntGcmdClear 0 g) s fun t => t.gridValid g = false ∧ (∀ i, i < 4 → t.rd (R.QNT_GRID g i) = 0) ∧
        t.rd R.QNT_GRESULT = g.val + 0x100 ∧
        Kept s t (fun k => k = R.QNT_GSTAT g ∨ k = R.QNT_GRESULT ∨ ∃ i, i < 4 ∧ k = R.QNT_GRID g i) ∧ SameMem s t ∧ SameWork s t) ∧
      (s.gridRefs g ≠ 0 → (Runs (.qntGcmdLoad 0 g) s fun t => t.rd R.QNT_GRESULT = g.val + 0x500 ∧
          t.rd (R.PG_ERR pageQnt) % 65536 = 0x2202 ∧ Kept s t (fun k => k = R.QNT_GRESULT)) ∧
        Runs (.qntGcmdClear 0 g) s fun t => t.rd R.QNT_GRESULT = g.val + 0x500 ∧
          t.rd (R.PG_ERR pageQnt) % 65536 = 0x2202 ∧ Kept s t (fun k => k = R.QNT_GRESULT))) ∧
    (∀ (c : Client) (m : Fin 64), Open s c pageQnt →
      (c = 0 ∨ s.fld (R.MON_CTL m) 11 8 = c.val →
        (Runs (.qntMonLatch c m) s fun t => t.rd (R.MON_LN m) = s.rd (R.MON_N m) ∧ t.rd (R.MON_LCLIP_LO m) = s.rd (R.MON_CLIP_LO m) ∧
          t.rd (R.MON_LCLIP_HI m) = s.rd (R.MON_CLIP_HI m) ∧ t.rd (R.MON_LSQERR m) = s.rd (R.MON_SQERR m) ∧
          t.rd (R.MON_LATCH_M m) = s.rd R.MSR_NOW ∧
          (∀ k, k = R.MON_N m ∨ k = R.MON_CLIP_LO m ∨ k = R.MON_CLIP_HI m ∨ k = R.MON_SQERR m →
            t.rd k = if s.bit (R.MON_CTL m) 1 then 0 else s.rd k) ∧
          Kept s t (fun k => R.MON_CTL m < k ∧ k ≤ R.MON_LATCH_M m) ∧ SameMem s t ∧ SameWork s t) ∧
        Runs (.qntMonClear c m) s fun t => t.rd (R.MON_N m) = 0 ∧ t.rd (R.MON_CLIP_LO m) = 0 ∧ t.rd (R.MON_CLIP_HI m) = 0 ∧
          t.rd (R.MON_SQERR m) = 0 ∧ t.bit (R.MON_CTL m) 16 = false ∧
          Kept s t (fun k => R.MON_CTL m ≤ k ∧ k ≤ R.MON_SQERR m) ∧ SameMem s t ∧ SameWork s t) ∧
      (c ≠ 0 → s.fld (R.MON_CTL m) 11 8 ≠ c.val →
        (Runs (.qntMonLatch c m) s fun t => t.rd (R.PG_ERR pageHif) % 65536 = 0x1002 ∧
          t.rd R.HIF_ACC_LAST = R.QNT_MON_CMD + c.val * 2 ^ 24 ∧ Kept s t (fun k => k = R.HIF_ACC_LAST)) ∧
        Runs (.qntMonClear c m) s fun t => t.rd (R.PG_ERR pageHif) % 65536 = 0x1002 ∧
          t.rd R.HIF_ACC_LAST = R.QNT_MON_CMD + c.val * 2 ^ 24 ∧ Kept s t (fun k => k = R.HIF_ACC_LAST)))

/-- The Collator executes the descriptor it takes next, of each operation: its list, header first, goes to the words of its destination
and to no other, it leaves its queue and is counted, and its run goes on; one that fails a check ends its run with 0x2301 and its
cause; a BE one with more than 2,048 cycles left yields at a segment boundary; one whose run was torn down writes nothing (R229).
TOPK's list is in rank order and holds the K elements that rank first; SORT's holds every element in rank order, with no padding, and
VALID is their number (R157); MERGE's holds each index once. -/
def Obligations.CollatorsExecuteDescriptors : Prop :=
  (∀ (s : State) (col : ColNo) (q : QDesc) (x : Run), s.colNext col = some q → s.run q.run = some x → x.phase = .computing →
    x.replayDue = false → (s.stepDef x).ops.length ≤ x.pc → x.client < 16 → q.client < 16 → q.void = false →
    (∀ e ∈ s.sched.runs, e.2.waitRow = none) →
    (∀ c ∈ [(1, Instr.thresh col 0), (2, .topk col 0), (3, .sort col 0), (4, .merge col 0)], q.d.op = c.1 → s.colCause q = none →
      let o := s.colRun q
      let bs := o.header q.d ++ o.entries.flatMap ColEntry.bytes ++ (List.replicate o.pad padBytes).flatten
      Runs c.2 s fun t =>
        (∀ i, i < (bs.length + 127) / 128 → t.colWord q.rows q.d.dst i =
          (s.colWord q.rows q.d.dst i).patch 0 ((bs.drop (128 * i)).take 128) (o.poison && i = 0)) ∧
        (∀ r a, a < leafWords → (∀ w, colTarget q.rows q.d.dst = some (some r, w) → a < w ∨ w + (bs.length + 127) / 128 ≤ a) →
          t.leafWord r a = s.leafWord r a) ∧
        (∀ a, (∀ w, colTarget q.rows q.d.dst = some (none, w) → a < w ∨ w + (bs.length + 127) / 128 ≤ a) →
          t.gatherWord a = s.gatherWord a) ∧ t.mem = s.mem ∧
        (q.d.lc = true → (t.colUnit col).lc = (s.colUnit col).lc.drop 1 ∧ (t.colUnit col).be = (s.colUnit col).be) ∧
        (q.d.lc = false → (t.colUnit col).be = (s.colUnit col).be.drop 1 ∧ (t.colUnit col).lc = (s.colUnit col).lc) ∧
        t.rd (R.COL_OPS col) = (s.rd (R.COL_OPS col) + 1) % 2 ^ 64 ∧ ∃ y, t.run q.run = some y ∧ y.phase = .computing) ∧
    (∀ c ∈ [(1, Instr.thresh col 0), (2, .topk col 0), (3, .sort col 0), (4, .merge col 0)], ∀ cause, q.d.op = c.1 →
      s.colCause q = some cause → x.replayOf = none → (∀ r ∈ x.rows, r < 104) → Runs c.2 s fun t => t.rd (R.COL_FAULT col) = cause % 2 ^ 64 ∧
        t.rd (R.PG_ERR (pageCol col)) % 65536 = 0x2301 ∧ SameMem s t) ∧
    (∀ left, left = ((s.colUnit col).begun).getD (colCycles q.d (s.colRun q)) → 2048 < left → q.d.lc = false → s.colCause q = none →
      Runs (.collatorSegmentBoundary col) s fun t => t.colUnit col = { s.colUnit col with begun := some (left - 2048) } ∧
        t.rd (R.COL_CYC_BUSY col) = (s.rd (R.COL_CYC_BUSY col) + 2048) % 2 ^ 64 ∧ SameMem s t)) ∧
  (∀ (s : State) (col : ColNo) (q : QDesc), s.colNext col = some q → q.void = true → q.d.lc = false → q.client < 16 →
    (∀ e ∈ s.sched.runs, e.2.waitRow = none) →
    ∀ c ∈ [(1, Instr.thresh col 0), (2, .topk col 0), (3, .sort col 0), (4, .merge col 0)], q.d.op = c.1 →
      Runs c.2 s fun t => SameMem s t ∧
        t.colUnit col = { s.colUnit col with be := (s.colUnit col).be.drop 1, begun := none } ∧
        t.rd (R.COL_CYC_BUSY col) = (s.rd (R.COL_CYC_BUSY col) + ((s.colUnit col).begun).getD 0) % 2 ^ 64) ∧
  (∀ (d : Desc) (es : List ColEntry), let kt := ktypeOf d.etype.val
    let o := runTopk d es
    inRank d.dir kt o.entries = true ∧ o.entries.length = min d.k ((es.filter fun e => !keyNaN kt e.key).length) ∧
    ∀ e ∈ o.entries, e ∈ es ∧ keyNaN kt e.key = false ∧
      ∀ y ∈ es, keyNaN kt y.key = false → y ∉ o.entries → ranksBefore d.dir kt y e = false) ∧
  (∀ (d : Desc) (es : List ColEntry), let kt := ktypeOf d.etype.val
    inRank d.dir kt (runSort d es).entries = true ∧ (runSort d es).entries.Perm (es.filter fun e => !keyNaN kt e.key) ∧
    (runSort d es).pad = 0 ∧ (runSort d es).valid = (es.filter fun e => !keyNaN kt e.key).length) ∧
  (∀ (d : Desc) (ls : List ListView), let kt := ktypeOf d.etype.val
    let o := runMerge d ls
    inRank d.dir kt o.entries = true ∧ o.entries.length ≤ d.k ∧ (o.entries.map ColEntry.index).Nodup ∧
    ∀ e ∈ o.entries, (∃ l ∈ ls, e ∈ l.entries) ∧ ∀ l ∈ ls, ∀ y ∈ l.entries, y.index ≠ sentinel → keyNaN kt y.key = false →
      y.index ∉ o.entries.map ColEntry.index → ranksBefore d.dir kt y e = false)

/-- STREAM of a layer of one frame stored raw: its bytes land in the layer's slot of the run's window and nowhere else, or, when the check
fails, poisoned with 0x3003; the layer has then landed. A layer issued and no longer queued has landed. An engine takes a chunk of the
first transfer of the LC queue that has one to take, and of one in the BE queue only when the LC queue has none. -/
def Obligations.LayersStreamLandAndShare : Prop :=
  ∀ (s : State),
    (∀ (run layer : Nat) (x : Run) (f : FigureCore) (l : Loaded) (w : Nat) (y : Layer) (p : PressFrame) (tr : Transfer),
      s.headTransfer (fun t => t.kind = trStream && t.run = run && t.layer = layer) = some tr → s.run run = some x →
      s.runCore x = some f → kvFind s.sched.figures x.handle = some l → x.window = some w → f.layers[layer]? = some y → x.client < 16 →
      y.frames = [p] → malformed p = false → p.raw = true → p.poison = false → layerOffset f layer + p.ulen ≤ regionSpan →
      s.memReadPoison l.image (imageOffset f layer) (p.slen * 128) = false →
      (crc32c (p.payload.take p.ulen) = p.check.toNat → Runs (.stream run layer 0 []) s fun t =>
        t.memRead w (layerOffset f layer) p.ulen = p.payload.take p.ulen ∧
        (∀ h o, o < regionSpan → (h ≠ w ∨ o < layerOffset f layer ∨ layerOffset f layer + p.ulen ≤ o) →
          t.memByte h o = s.memByte h o) ∧ t.leaf = s.leaf ∧
        (∀ v, kvFind x.layers layer = some v →
          t.run run = some { x with layers := kvPut x.layers layer { v with landed := true } }) ∧ (∀ n, n ≠ run → t.run n = s.run n) ∧
        (∀ u ∈ t.tiers.lc ++ t.tiers.be, ¬ (u.kind = trStream ∧ u.run = run ∧ u.layer = layer))) ∧
      (crc32c (p.payload.take p.ulen) ≠ p.check.toNat → 0 < p.ulen → Runs (.stream run layer 0 []) s fun t =>
        t.memPoisoned w (layerOffset f layer) = true ∧ t.rd (R.PG_ERR pageTier) % 65536 = 0x3003 ∧ t.leaf = s.leaf)) ∧
    (∀ (run layer : Nat) (x : Run) (l : LayerState), s.run run = some x → kvFind x.layers layer = some l → l.issued = true →
      (∀ u ∈ s.tiers.lc ++ s.tiers.be, ¬ (u.kind = trStream ∧ u.run = run ∧ u.layer = layer)) →
      Runs (.layerLanded run layer) s fun t => t.run run = some { x with layers := kvPut x.layers layer { l with landed := true } } ∧
        Kept s t (fun _ => False) ∧ SameMem s t ∧ t.tiers = s.tiers) ∧
    (∀ u, s.nextChunk = some u → (u.job = none ∨ 1 < u.chunks) →
      (∀ v ∈ s.tiers.lc, v.unfinished = true → s.goes v = true → u ∈ s.tiers.lc) ∧
      Runs .binderChunkBoundary s fun t => let v : Transfer := { u with chunks := u.chunks - 1, begun := true }
        t.tiers = (if u.lc then { s.tiers with lc := s.tiers.lc.replace u v } else { s.tiers with be := s.tiers.be.replace u v }) ∧
        Kept s t (fun k => k = R.TIER_STAT) ∧ SameMem s t ∧ t.sched = s.sched) ∧
    (s.nextChunk = none → Runs .binderChunkBoundary s fun t => SameWork s t ∧ SameMem s t ∧ Kept s t fun _ => False)

/-- A context that is due moves to T2, at once or behind the transfers that wait, and a fill brings it back to T1: its region
changes tier with its charge, and its bytes stay; a spill that would break T2's quotas leaves it. The end of a zero fill: the region reads zero without poison and is filled, every other
byte stays, and a CXL.mem window is then ready. -/
def Obligations.ContextStateMovesBetweenTiers : Prop :=
  ∀ s : State,
    (∀ (x : Fin 262144) (r : Region), s.region (s.ctx x).region = some r → r.client = (s.ctx x).client → r.client < 16 →
      (r.tier = 1 → (s.ctx x).state ≠ 0 → (s.ctx x).inRun = false → (s.ctx x).pinned = false → (s.ctx x).spilled = false →
        (s.ctx x).resetBy = [] → 0 < (s.ctx x).stepCtr → (s.ctx x).touchedAt + s.rd R.SCH_HOT ≤ s.msr.count →
        (s.binderFree = true → s.allocTest r.client 2 (chargeOf 2 r.bytes) = 0 → Runs (.contextSpill x 0 []) s fun t =>
          t.ctx x = { s.ctx x with spilled := true } ∧ t.region (s.ctx x).region = some { r with tier := 2 } ∧
          t.rd (tqUse r.client 1) = s.rd (tqUse r.client 1) - chargeOf 1 r.bytes ∧
          t.rd (tqUse r.client 2) = (s.rd (tqUse r.client 2) + chargeOf 1 r.bytes) % 2 ^ 64 ∧ SameMem s t ∧ t.sched = s.sched) ∧
        (s.binderFree = true → s.allocTest r.client 2 (chargeOf 2 r.bytes) ≠ 0 → Runs (.contextSpill x 0 []) s fun t =>
          SameWork s t ∧ SameMem s t ∧ Kept s t (fun _ => False)) ∧
        (s.binderFree = false → (∀ u ∈ s.tiers.be, u.job = none) → Runs (.contextSpill x 0 []) s fun t =>
          (∃ u ∈ t.tiers.be, u.job = some (.spill x 0 [])) ∧ t.tiers.lc = s.tiers.lc ∧ t.ctxs = s.ctxs ∧
          t.tiers.regions = s.tiers.regions ∧ SameMem s t)) ∧
      (∀ tr, r.tier = 2 → (s.ctx x).state ≠ 0 → (s.ctx x).spilled = true →
        s.headTransfer (fun t => t.kind = trFill && t.ctx = x.val) = some tr →
        s.allocTest r.client 1 (chargeOf 1 r.bytes) = 0 → Runs (.fill x 0 []) s fun t =>
          t.ctx x = { s.ctx x with spilled := false } ∧ t.region (s.ctx x).region = some { r with tier := 1 } ∧
          t.rd (tqUse r.client 2) = s.rd (tqUse r.client 2) - chargeOf 1 r.bytes ∧
          t.rd (tqUse r.client 1) = (s.rd (tqUse r.client 1) + chargeOf 1 r.bytes) % 2 ^ 64 ∧ SameMem s t ∧ t.sched = s.sched ∧
          (∀ u ∈ t.tiers.lc ++ t.tiers.be, ¬ (u.kind = trFill ∧ u.ctx = x.val)))) ∧
    (∀ (h : Nat) (r : Region), s.region h = some r → r.filled = false → Runs (.zeroFillComplete h) s fun t =>
      (∀ o, o < regionSpan → t.memByte h o = 0 ∧ t.memPoisoned h o = false) ∧
      (∀ g o, g ≠ h → o < regionSpan → t.memByte g o = s.memByte g o ∧ t.memPoisoned g o = s.memPoisoned g o) ∧
      t.region h = some { r with filled := true } ∧ (∀ e ∈ t.tiers.pendingFills, e.1 ≠ h) ∧ t.leaf = s.leaf ∧
      (r.use = useCxlm → r.client < 16 → t.bit (R.TQ_CXLM_STAT r.client) 1 = true))

/-- QMIN and QMAX take a value that R194 allows, in force at once when neither a hold nor a strike is awaited, and are refused otherwise with
0x3005; a QMAX below the use raises 0x3004. A CXL.mem window of an allowed size is allocated in T2 and not ready until filled; one beyond
256 GiB in all is refused with 0x3007. -/
def Obligations.QuotasAndWindowsAreChecked : Prop :=
  ∀ (s : State) (n : Client), Open s 0 pageTier →
    (∀ (k : Fin 3) (max : Bool) (v : BitVec 64),
      let t0 := k.val + 1
      let key := if max then tqMax n t0 else tqMin n t0
      let fits := (t0 = 3 ∨ v.toNat % twoMiB = 0) ∧ (max = true → s.rd (tqMin n t0) ≤ v.toNat) ∧ (max = false → v.toNat ≤ s.rd (tqMax n t0) ∧
        (s.rd key < v.toNat → sumClients (fun d => if d = n.val then v.toNat else s.rd (tqMin d t0)) ≤ s.rd (tierCap t0)))
      (fits → Runs (.quotaWrite 0 n k max v) s fun t => t.rd key = v.toNat ∧ (s.rightsWait = false → t.force key = v.toNat) ∧
        (s.rightsWait = true → t.force key = s.force key) ∧ SameMem s t ∧
        (max = true → v.toNat < s.rd (tqUse n t0) → s.rd (tqUse n t0) ≤ s.rd key → t.rd (R.PG_ERR pageTier) % 65536 = 0x3004)) ∧
      (¬ fits → Runs (.quotaWrite 0 n k max v) s fun t => t.rd (R.PG_ERR pageTier) % 65536 = 0x3005 ∧ Kept s t (fun _ => False) ∧
        SameMem s t ∧ SameWork s t)) ∧
    (∀ v : BitVec 32, 0 < v.toNat → v.toNat ≤ 1024 → s.rd (R.TQ_CXLM n) = 0 → kvFind s.tiers.cxlm n = none →
      s.bit (R.TQ_CXLM_STAT n) 0 = false →
      (s.cxlmTotal + v.toNat ≤ 1024 → s.allocStatus n 2 (v.toNat * 2 ^ 28) = 0 → Runs (.tqCxlmWrite 0 n v) s fun t =>
        t.rd (R.TQ_CXLM n) = v.toNat ∧ t.bit (R.TQ_CXLM_STAT n) 1 = false ∧ t.rd R.TIER_CXLM_TOTAL = s.cxlmTotal + v.toNat ∧
        kvFind t.tiers.cxlm n = some s.tiers.nextHandle ∧
        t.region s.tiers.nextHandle = some ⟨n.val, 2, v.toNat * 2 ^ 28, useCxlm, false, 0, false, 0, 0⟩ ∧
        t.rd (tqUse n 2) = (s.rd (tqUse n 2) + v.toNat * 2 ^ 28) % 2 ^ 64 ∧ SameMem s t) ∧
      (1024 < s.cxlmTotal + v.toNat → Runs (.tqCxlmWrite 0 n v) s fun t => t.rd (R.PG_ERR pageTier) % 65536 = 0x3007 ∧
        Kept s t (fun _ => False) ∧ SameMem s t ∧ SameWork s t))

/-- REGION_ALLOC makes a region charged to its client: of T3 at once, of T1 or T2 answered when its fill ends; one beyond the quota or the
tier is refused with the status of R192 and counted. REGION_FREE gives a client's region back, whose bytes are gone while all
others stay. MOVE between T1 and T2 and COPY within a tier write the bytes read, poison with them, to the destination and nowhere
else, at once or behind the transfers that wait; T3 that refuses writes answers a MOVE into it with NOT_READY. -/
def Obligations.RegionsComeAndGoAndMove : Prop :=
  ∀ (s : State) (cid : Cid) (e : Sqe),
    (s.paused pageTier = true → ∀ i ∈ [Instr.regionAlloc cid e, .regionFree cid e], Runs i s fun t => t = s) ∧
    (s.paused pageTier = false → GonumReady s cid e allocMasks → ∀ t0 size, t0 = e.cdw10.toNat % 4 → size = dword2 e.cdw12 e.cdw13 → e.cdw10.toNat.testBit 2 = false →
      t0 ≠ 0 → 0 < size → size ≤ s.capBytes t0 → (t0 = 3 → s.t3Absent = false) → cid.c.val < 16 →
      (s.allocStatus cid.c t0 size = 0 → Runs (.regionAlloc cid e) s fun t =>
        t.region s.tiers.nextHandle = some ⟨cid.c, t0, size, useClient, true, bits e.cdw10.toNat 7 3, t0 = 3, 0, 0⟩ ∧
        t.tiers.nextHandle = s.tiers.nextHandle + 1 ∧ t.rd (tqUse cid.c t0) = (s.rd (tqUse cid.c t0) + chargeOf t0 size) % 2 ^ 64 ∧
        SameMem s t ∧ (t0 = 3 → Answered s t cid 0 0 (s.tiers.nextHandle % 2 ^ 32)) ∧
        (t0 ≠ 3 → t.tiers.pendingFills = s.tiers.pendingFills ++
          [(s.tiers.nextHandle, cid, s.tiers.nextHandle % 2 ^ 32, s.tiers.nextHandle / 2 ^ 32)])) ∧
      (∀ st, s.allocStatus cid.c t0 size = st → st ≠ 0 → Runs (.regionAlloc cid e) s fun t => Answered s t cid 7 st 0 ∧
        t.rd (R.TQ_REFUSE cid.c) = min (s.rd (R.TQ_REFUSE cid.c) + 1) 0xFFFFFFFF ∧ t.tiers = s.tiers ∧ SameMem s t)) ∧
    (s.paused pageTier = false → GonumReady s cid e freeMasks → ∀ h r, h = dword2 e.cdw12 e.cdw13 → s.ownRegion cid.c h = some r →
      r.tier = 3 → s.t3Absent = false → s.readOnly = true → Runs (.regionFree cid e) s fun t => Answered s t cid 7 7 0 ∧
        t.tiers = s.tiers ∧ t.ftl.map = s.ftl.map ∧ SameMem s t) ∧
    (s.paused pageTier = false → GonumReady s cid e freeMasks → ∀ h r, h = dword2 e.cdw12 e.cdw13 → s.ownRegion cid.c h = some r →
      (r.tier = 3 → s.t3Absent = false ∧ s.readOnly = false) →
      r.pins = 0 → r.use = useClient → s.figureUses cid.c h = false → (∀ u ∈ s.devs.due, u.2 ≠ h) →
      Runs (.regionFree cid e) s fun t => Answered s t cid 0 0 0 ∧ t.region h = none ∧ (∀ g, g ≠ h → t.region g = s.region g) ∧ (∀ o, o < regionSpan → t.memByte h o = 0) ∧
        (∀ g o, g ≠ h → o < regionSpan → t.memByte g o = s.memByte g o) ∧
        (r.tier = 3 → ∀ u, u < 2 ^ 40 → kvFind t.ftl.map (h * 2 ^ 40 + u) = none) ∧
        (r.tier = 1 ∨ r.tier = 2 → t.rd (tqUse cid.c r.tier) = s.rd (tqUse cid.c r.tier) - chargeOf r.tier r.bytes)) ∧
    (s.paused pageTier = false → GonumReady s cid e freeMasks → s.ownRegion cid.c (dword2 e.cdw12 e.cdw13) = none → Runs (.regionFree cid e) s fun t =>
      Answered s t cid 7 5 0 ∧ t.tiers = s.tiers ∧ SameMem s t) ∧
    (GonumReady s cid e (0, 0, 0, 0, 0, 0) → ∀ (d : MoveDesc) (a b : Region), d.rsv = 0 → s.ownRegion cid.c d.src.toNat = some a →
      s.ownRegion cid.c d.dst.toNat = some b → d.flags = 0 → 0 < d.len.toNat → d.srcOff.toNat + d.len.toNat ≤ a.bytes →
      d.dstOff.toNat + d.len.toNat ≤ b.bytes → b.bytes ≤ regionSpan →
      (∀ c ∈ [Instr.move cid e d [] [] 0, .copy cid e d [] 0], (c = .move cid e d [] [] 0 → a.tier + b.tier = 3 ∧ a.tier ≠ 0 ∧ b.tier ≠ 0) →
        (c = .copy cid e d [] 0 → a.tier = b.tier ∧ a.tier < 3) → s.binderFree = true → Runs c s fun t => Answered s t cid 0 0 0 ∧
          t.memRead d.dst.toNat d.dstOff.toNat d.len.toNat = s.memRead d.src.toNat d.srcOff.toNat d.len.toNat ∧
          (∀ i, i < d.len.toNat → s.memPoisoned d.src.toNat (d.srcOff.toNat + i) = true →
            t.memPoisoned d.dst.toNat (d.dstOff.toNat + i) = true) ∧
          (∀ h o, o < regionSpan → (h ≠ d.dst.toNat ∨ o < d.dstOff.toNat ∨ d.dstOff.toNat + d.len.toNat ≤ o) →
            t.memByte h o = s.memByte h o) ∧ t.leaf = s.leaf ∧ t.tiers = s.tiers) ∧
      (a.tier = b.tier → a.tier < 3 → s.binderFree = false → Runs (.copy cid e d [] 0) s fun t =>
        (∃ u ∈ t.tiers.be, u.job = some (.copy cid d [] 0)) ∧ t.tiers.lc = s.tiers.lc ∧ SameMem s t) ∧
      (a.tier = 2 → b.tier = 3 → s.noT3 = false → s.noWrite = true → Runs (.move cid e d [] [] 0) s fun t =>
        Answered s t cid 0 scNotReady 0 ∧ t.ftl = s.ftl ∧ SameMem s t))

/-! Figures and contexts. -/

/-- FIG_LOAD checks in the order of R206 and answers with the first failure's status; a figure that passes is loaded at the lowest free handle,
its grids gain a reference and measurement slot 4 takes it. FIG_UNLOAD of an idle figure frees its regions and references, a busy one
stays. RUN queues its command with what it names, and no context changes. -/
def Obligations.FiguresLoadRunAndUnload : Prop :=
  ∀ (s : State) (cid : Cid) (e : Sqe),
    (∀ fig : Figure, GonumReady s cid e figLoadMasks → e.cdw10.toNat.testBit 0 = false →
      let bad := fun (st ev : Nat) => Runs (.figLoad cid e fig ⟨true, []⟩) s fun t => Answered s t cid 7 st ev ∧
        t.sched.figures = s.sched.figures ∧ t.tiers = s.tiers ∧ SameMem s t
      (kvFirstFree s.sched.figures 0 1024 = none → bad stFigTableFull 0) ∧
      (∀ h, kvFirstFree s.sched.figures 0 1024 = some h →
        (fig.cores.all FigureCore.ok = false → bad stFigInvalid 0) ∧
        (fig.cores.all FigureCore.ok = true → fig.cores.all s.shapeOk = false → bad stFigShape 0) ∧
        (fig.cores.all FigureCore.ok = true → fig.cores.all s.shapeOk = true → fig.cores.all (s.envelopeOk cid.c) = false →
          bad stFigEnvelope 0) ∧
        (fig.cores.all FigureCore.ok = true → fig.cores.all s.shapeOk = true → fig.cores.all (s.envelopeOk cid.c) = true →
          ((fig.cores.flatMap FigureCore.grids).all s.gridFits = false → bad stFigGrid 0x2204) ∧
          ((fig.cores.flatMap FigureCore.grids).all s.gridFits = true → fig.reserveBad = false →
            (s.allocAll cid.c (figureRegions fig)).1 = 0 → Runs (.figLoad cid e fig ⟨true, []⟩) s fun t =>
              Answered s t cid 0 0 h ∧ (∃ l, kvFind t.sched.figures h = some l ∧ l.client = cid.c.val ∧ l.fig = fig) ∧
              (∀ g, g ≠ h → kvFind t.sched.figures g = kvFind s.sched.figures g) ∧
              (∀ g ∈ fig.slots, t.gridRefs g = s.gridRefs g + 1) ∧ t.slotCount 4 = s.slotCount 4 + 1 ∧
              t.rd R.SCH_FIG_LOADED = t.sched.figures.length % 2 ^ 64 ∧ t.ctxs = s.ctxs ∧ t.leaf = s.leaf)))) ∧
    (GonumReady s cid e (0x3FF, 0, 0, 0, 0, 0) →
      (∀ l, s.ownFigure cid.c e.cdw10.toNat = some l → s.figBusy e.cdw10.toNat = false → s.devs.due = [] →
        (∀ g r, s.region g = some r → r.client < 16 ∧ r.tier ≤ 3) → Runs (.figUnload cid e) s fun t => Answered s t cid 0 0 0 ∧
          kvFind t.sched.figures e.cdw10.toNat = none ∧ (∀ g ∈ (l.image :: l.reserveImage.toList) ++ l.windows, t.region g = none) ∧
          (∀ g ∈ l.fig.slots, t.gridRefs g = s.gridRefs g - 1) ∧ t.leaf = s.leaf ∧ t.ctxs = s.ctxs) ∧
      (∀ l, s.ownFigure cid.c e.cdw10.toNat = some l → s.figBusy e.cdw10.toNat = true → Runs (.figUnload cid e) s fun t =>
        Answered s t cid 7 stFigBusy 0 ∧ t.sched = s.sched ∧ SameMem s t) ∧
      (s.ownFigure cid.c e.cdw10.toNat = none → Runs (.figUnload cid e) s fun t =>
        Answered s t cid 7 stFigUnknown 0 ∧ t.sched = s.sched ∧ SameMem s t)) ∧
    (GonumReady s cid e runMasks → cid.q ≠ pmbQ → e.cdw13.toNat ≤ 2 ^ 24 → dword2 e.cdw14 e.cdw15 % 128 = 0 →
      ∀ (l : Loaded) (input : List Byte), let x := bits e.cdw10.toNat 17 0
        let h := bits e.cdw10.toNat 27 18
        s.ownFigure cid.c h = some l →
        (s.runStatus cid.c l.fig.main x = 0 → s.probeFigure h = false → l.fig.main.resultSize ≤ e.cdw12.toNat →
          Runs (.run cid e input true) s fun t => (∃ m, t.sched.queue = s.sched.queue ++ [m] ∧ m.cid = cid ∧ m.ctx = x ∧ m.handle = h ∧
            m.bufAddr = dword2 e.cdw14 e.cdw15 ∧ m.bufLen = e.cdw12.toNat ∧ m.at_ = s.dtime ∧ m.atCount = s.msr.count ∧
            (input.length = e.cdw13.toNat → m.input = input) ∧ (l.fig.main.lc = false → m.bound = 0)) ∧
            t.sched.runs = s.sched.runs ∧ t.ctxs = s.ctxs ∧ SameMem s t) ∧
        (∀ st, s.runStatus cid.c l.fig.main x = st → st ≠ 0 → Runs (.run cid e input true) s fun t => Answered s t cid 7 st 0 ∧
          t.sched = s.sched ∧ t.ctxs = s.ctxs ∧ SameMem s t))

/-- CTX_CREATE takes the lowest free entry, COLD, with the seed and a state region to be filled with zeros; RESET of a context in no run puts it back
to COLD without poison, filling again; RELEASE frees entry and region; another's context is unknown. By register the same, with
CTX_RESULT; READ shows the entry, and a foreign context is refused with 0x1002. -/
def Obligations.ContextsAreCreatedResetAndReleased : Prop :=
  ∀ s : State,
    (s.paused pageCtx = true → ∀ (cid : Cid) (e : Sqe), ∀ i ∈ [Instr.ctxCreate cid e, .ctxReset cid e, .ctxRelease cid e],
      Runs i s fun t => t = s) ∧
    (s.paused pageCtx = false → ∀ (cid : Cid) (e : Sqe),
      (GonumReady s cid e (0x7FFF, 0, 0xFFFFFFFF, 0xFFFFFFFF, 0xFFFFFFFF, 0xFFFFFFFF) → ∀ n, n = e.cdw10.toNat → 0 < n → n ≤ 16384 →
        (∀ x, kvFirstFree s.ctxs 0 262144 = some x → s.ctxUse cid.c < s.force (R.CTX_MAX cid.c) →
          s.allocStatus cid.c 1 (n * 4096) = 0 → Runs (.ctxCreate cid e) s fun t =>
            t.ctx x = { freeCtx with
              state := 1, client := cid.c, seed := e.cdw15 ++ e.cdw14 ++ e.cdw13 ++ e.cdw12, region := s.tiers.nextHandle,
              stateLen := n * 4096, counters := List.replicate 6 0 } ∧
            (∀ y, y ≠ x → t.ctx y = s.ctx y) ∧
            t.region s.tiers.nextHandle = some ⟨cid.c, 1, n * 4096, useCtx, false, 0, false, 0, 0⟩ ∧
            t.tiers.pendingFills = s.tiers.pendingFills ++ [(s.tiers.nextHandle, cid, x, 0)] ∧ SameMem s t) ∧
        (kvFirstFree s.ctxs 0 262144 = none ∨ s.force (R.CTX_MAX cid.c) ≤ s.ctxUse cid.c → Runs (.ctxCreate cid e) s fun t =>
          Answered s t cid 7 stCtxTableFull 0 ∧ t.ctxs = s.ctxs ∧ t.tiers = s.tiers ∧ SameMem s t)) ∧
      (GonumReady s cid e ctxMasks → ∀ (x : Nat) (r : Region), x = e.cdw10.toNat →
        (s.idleCtx cid.c x = true → s.region (s.ctx x).region = some r →
          (Runs (.ctxReset cid e) s fun t => t.ctx x = { s.ctx x with state := 1, poison := false } ∧
            t.region (s.ctx x).region = some { r with filled := false } ∧ (∀ y, y ≠ x → t.ctx y = s.ctx y) ∧
            t.tiers.pendingFills = s.tiers.pendingFills ++ [((s.ctx x).region, cid, 0, 0)] ∧ SameMem s t) ∧
          Runs (.ctxRelease cid e) s fun t => t.ctx x = freeCtx ∧ (∀ y, y ≠ x → t.ctx y = s.ctx y) ∧
            t.region (s.ctx x).region = none ∧
            ((∀ u ∈ s.tiers.pendingFills, u.1 ≠ (s.ctx x).region) → s.devs.due = [] → Answered s t cid 0 0 0)) ∧
        (s.idleCtx cid.c x = false →
          (Runs (.ctxReset cid e) s fun t => Answered s t cid 7 stCtxUnknown 0 ∧ t.ctxs = s.ctxs ∧ t.tiers = s.tiers ∧ SameMem s t) ∧
          Runs (.ctxRelease cid e) s fun t => Answered s t cid 7 stCtxUnknown 0 ∧ t.ctxs = s.ctxs ∧ t.tiers = s.tiers ∧
            SameMem s t))) ∧
    (∀ c : Client, Open s c pageCtx → (∀ y ∈ s.ctxs, c.val ∉ y.2.resetBy) →
      let x := s.fld (banked c R.CTX_SEL) 17 0
      (s.ctx x).state ≠ 0 →
      (c = 0 ∨ (s.ctx x).client = c.val →
        (Runs (.ctxCmdRead c) s fun t => (∀ i, i < 32 → t.rd (banked c (R.CTX_ENTRY 0 + 4 * i)) = ofLe (((s.ctxBytes x).drop (4 * i)).take 4)) ∧
          t.rd (banked c R.CTX_RESULT) = 1 ∧ t.ctxs = s.ctxs ∧ SameMem s t ∧
          Kept s t (fun k => k = banked c R.CTX_RESULT ∨ ∃ i, i < 32 ∧ k = banked c (R.CTX_ENTRY 0 + 4 * i))) ∧
        ((s.ctx x).inRun = false → s.paused pageCtx = false → ∀ r, s.region (s.ctx x).region = some r →
          (Runs (.ctxCmdReset c) s fun t =>
            t.ctx x = { s.ctx x with state := 1, poison := false, resetBy := (s.ctx x).resetBy ++ [c.val] } ∧
            t.region (s.ctx x).region = some { r with filled := false } ∧ t.rd (banked c R.CTX_RESULT) = 0 ∧ SameMem s t ∧
            Kept s t (fun k => k = banked c R.CTX_RESULT)) ∧
          Runs (.ctxCmdRelease c) s fun t => t.ctx x = freeCtx ∧ t.region (s.ctx x).region = none ∧
            t.rd (banked c R.CTX_RESULT) = 1) ∧
        ((s.ctx x).inRun = true → s.paused pageCtx = false → ∀ i ∈ [Instr.ctxCmdReset c, .ctxCmdRelease c], Runs i s fun t =>
          t.rd (banked c R.CTX_RESULT) = 5 ∧ t.ctxs = s.ctxs ∧ Kept s t (fun k => k = banked c R.CTX_RESULT))) ∧
      (c ≠ 0 → (s.ctx x).client ≠ c.val → s.paused pageCtx = false → ∀ i ∈ [Instr.ctxCmdRead c, .ctxCmdReset c, .ctxCmdRelease c], Runs i s fun t =>
        t.rd (R.PG_ERR pageHif) % 65536 = 0x1002 ∧ t.rd (banked c R.CTX_RESULT) = 3 ∧ t.ctxs = s.ctxs ∧ SameMem s t))

/-! Vector indexes and channel engines. -/

/-- The index commands: an index is created at the lowest number with its lists empty; INSERT appends an entry at the next epoch, DELETE marks an item, a
compaction rewrites a list with what is visible, MERGE moves a list's entries to another, DROP ends a list, EDGES replaces its
edges, DESTROY ends an index that no run uses. Each takes one epoch more where it changes what is visible, and an index of another
client is unknown. -/
def Obligations.IndexCommandsKeepVersions : Prop :=
  ∀ (s : State) (cid : Cid) (e : Sqe), s.t3Absent = false → s.paused pageVsx = false →
    (GonumReady s cid e (0x1FFFFF, 0x7F, 0xFFFFFFFF, 0xFFFFFFFF, 0, 0) → ∀ i l del, l = bits e.cdw11.toNat 6 2 → del = dword2 e.cdw12 e.cdw13 →
      0 < e.cdw10.toNat → e.cdw10.toNat ≤ 2 ^ 20 → 2 ≤ l → l ≤ 16 → del % twoMiB = 0 → kvFirstFree s.search.indexes 0 256 = some i →
      s.allocStatus cid.c 2 (64 * e.cdw10.toNat + del) = 0 → Runs (.idxCreate cid e) s fun t =>
        t.index i = some ⟨cid.c, e.cdw10.toNat, e.cdw11.toNat % 2, e.cdw11.toNat / 2 % 2, 8 * l, del, 0, s.tiers.nextHandle, [], [], []⟩ ∧
        (∀ j, j ≠ i → t.index j = s.index j) ∧
        t.region s.tiers.nextHandle = some ⟨cid.c, 2, 64 * e.cdw10.toNat + del, useIdx, false, 0, false, 0, 0⟩ ∧
        t.tiers.pendingFills = s.tiers.pendingFills ++ [(s.tiers.nextHandle, cid, i, 0)] ∧ SameMem s t) ∧
    ∀ (i : Nat) (x : Index), i = e.cdw10.toNat → s.index i = some x →
      (x.client = cid.c.val → ∀ l, l < x.lists → (x.list l).live = true →
        let ep := x.epoch + 1
        let entries := fun (z : Index) (k : Nat) => (z.list k).current.chain.flatMap Folio.entries
        (GonumReady s cid e (0xFF, 0x1FFFF, 0, 0, 0, 0) → e.cdw11.toNat = 1 → ∀ it : IdxItem, it.list.toNat % 2 ^ 20 = l →
          it.item.toNat < 2 ^ 38 →
          (∀ dies, (∀ k, k ≤ 1 → s.folioStatus x.client k = 0) → ((s.fetch cid).idxInsert cid e [it] dies).isSome = true →
            Runs (.idxInsert cid e [it] dies) s fun t => Answered s t cid 0 0 (ep % 2 ^ 32) ∧ SameMem s t ∧
              ∃ z, t.index i = some z ∧ z.epoch = ep ∧ entries z l = entries x l ++ [⟨it.item.toNat, ep, slice it.code 0 x.l⟩] ∧
                ∀ k, k ≠ l → z.list k = x.list k) ∧
          (let y := x.setList l { x.list l with deletes := (x.list l).deletes ++ [(it.item.toNat, ep)] }
           (x.list l).deletes.length < 4096 → y.pendingDeletes * Config.deleteBytes ≤ x.delSpace →
            Runs (.idxDelete cid e [it]) s fun t => Answered s t cid 0 0 (ep % 2 ^ 32) ∧ SameMem s t ∧
              t.index i = some { y with epoch := ep })) ∧
        (GonumReady s cid e (0xFF, 0xFFFFF, 0, 0, 0, 0) → e.cdw11.toNat = l →
          (∀ dies, s.folioStatus x.client (x.compactSize l) = 0 → ((s.fetch cid).idxCompact cid e dies).isSome = true →
            Runs (.idxCompact cid e dies) s fun t => Answered s t cid 0 0 (ep % 2 ^ 32) ∧ SameMem s t ∧
              ((∀ g r, s.region g = some r → r.client < 16) →
                t.rd R.VSX_COMPACTIONS = (s.rd R.VSX_COMPACTIONS + 1) % 2 ^ 64) ∧
              ∃ z, t.index i = some z ∧ z.epoch = ep ∧ entries z l = (x.list l).visible ep ∧ (z.list l).deletes = [] ∧
                (z.list l).live = true ∧ (z.list l).current.epoch = ep ∧ ∀ k, k ≠ l → z.list k = x.list k) ∧
          Runs (.idxDrop cid e) s fun t => Answered s t cid 0 0 (ep % 2 ^ 32) ∧ SameMem s t ∧
            ∃ z, t.index i = some z ∧ z.epoch = ep ∧ (z.list l).current = ⟨ep, 2, 0, []⟩ ∧ (z.list l).deletes = [] ∧
              ∀ k, k ≠ l → z.list k = x.list k) ∧
        (∀ b dies, GonumReady s cid e (0xFF, 0xFFFFF, 0xFFFFF, 0, 0, 0) → e.cdw11.toNat = l → b = e.cdw12.toNat → b < x.lists → b ≠ l →
          (x.list b).live = true → (∀ k, k ≤ ((x.list l).visible ep).length → s.folioStatus x.client k = 0) →
          ((s.fetch cid).idxMerge cid e dies).isSome = true → Runs (.idxMerge cid e dies) s fun t =>
            Answered s t cid 0 0 (ep % 2 ^ 32) ∧ SameMem s t ∧ ∃ z, t.index i = some z ∧ z.epoch = ep ∧
              (z.list l).current = ⟨ep, 1, b, []⟩ ∧
              entries z b = entries x b ++ ((x.list l).visible ep).map (fun f => { f with epoch := ep }) ∧
              ∀ k, k ≠ l → k ≠ b → z.list k = x.list k) ∧
        (∀ targets : List (BitVec 32), GonumReady s cid e (0xFF, 0xFFFFF, 0xF, 0, 0, 0) → e.cdw11.toNat = l → targets.length ≤ 8 →
          e.cdw12.toNat = targets.length → (∀ g ∈ targets, g.toNat < x.lists) → Runs (.idxEdges cid e targets) s fun t =>
            Answered s t cid 0 0 0 ∧ SameMem s t ∧
            t.index i = some (x.setList l { x.list l with edges := targets.map fun g => (g.toNat, 0) })) ∧
        (∀ (fi : Fin 256) (li : Fin 1048576) dies, fi.val = i → li.val = l → s.vsxCtl R.VSX_COMPACT_AT ≤ (x.list l).deletes.length →
          s.rank5Held = false → s.inService pageVsx = true → s.quiescing pageVsx = false →
          (s.folioStatus x.client (x.compactSize l) = 0 → (s.compactList i l x dies).isSome = true →
            Runs (.compaction fi li dies) s fun t => SameMem s t ∧ ∃ z, t.index i = some z ∧ z.epoch = ep ∧
              entries z l = (x.list l).visible ep ∧ (z.list l).deletes = []) ∧
          (s.folioStatus x.client (x.compactSize l) ≠ 0 → Runs (.compaction fi li dies) s fun t =>
            t.rd (R.PG_ERR pageVsx) % 65536 = 0x6004 ∧ t.search = s.search ∧ t.ftl = s.ftl ∧ Kept s t (fun _ => False)))) ∧
      (GonumReady s cid e (0xFF, 0, 0, 0, 0, 0) → x.client = cid.c.val →
        (s.indexInUse i = false → s.readOnly = true → x.folios ≠ [] → Runs (.idxDestroy cid e) s fun t => Answered s t cid 7 7 0 ∧
          t.search = s.search ∧ t.ftl.map = s.ftl.map ∧ SameMem s t) ∧
        (s.indexInUse i = false → (s.readOnly = false ∨ x.folios = []) → s.devs.due = [] → Runs (.idxDestroy cid e) s fun t => Answered s t cid 0 0 0 ∧ t.index i = none ∧
          t.region x.table = none ∧ (∀ p ∈ x.folios, t.region p.2 = none) ∧ ∀ j, j ≠ i → t.index j = s.index j) ∧
        (s.indexInUse i = true → Runs (.idxDestroy cid e) s fun t => Answered s t cid 7 stIdxBusy 0 ∧ t.search = s.search ∧ SameMem s t)) ∧
      (GonumReady s cid e (0xFF, 0, 0, 0, 0, 0) → x.client ≠ cid.c.val → Runs (.idxDestroy cid e) s fun t =>
        Answered s t cid 7 stIdxUnknown 0 ∧ t.search = s.search ∧ SameMem s t) ∧
      (∀ fi : Fin 256, fi.val = i → s.readOnly = true → Runs (.oldFolioRelease fi) s fun t => t = s) ∧
      (∀ fi : Fin 256, fi.val = i → s.readOnly = false → kvSorted x.entries = true → Runs (.oldFolioRelease fi) s fun t => SameMem s t ∧
        ∃ z, t.index i = some z ∧ z.epoch = x.epoch ∧ ∀ l y, kvFind x.entries l = some y →
          (z.list l).versions = keptVersions (s.oldSnap i x) y.versions ∧ (z.list l).deletes = y.deletes ∧
          (z.list l).edges = y.edges)

/-- The first job waiting at a channel in service takes the lowest free slot with a new read hold; one that names what it may not ends its run with
0x6001. A page of a job is read: an unmapped unit is skipped, a poisoned one skips its records, a clean one has every record
tested; a folio that fails its checks is left out with 0x6002. READ_INDEX and READ_LIST show an index's or a list's registers to its
owner, and refuse others with 0x1002. -/
def Obligations.ChannelJobsReadPages : Prop :=
  ∀ s : State,
    (∀ (ch : ChanNo) (j : Job) (rest : List Job) (k : Nat), (s.chan ch).queue = j :: rest →
      ((List.range 4).find? fun k => (kvFind (s.chan ch).slots k).isNone) = some k → s.chanUp ch = true →
      s.quiescing (pageChn ch) = false →
      (s.jobCause j = none → (j.folios ≠ [] ∨ j.units ≠ []) → Runs (.channelJobStart ch) s fun t => (t.chan ch).queue = rest ∧
        kvFind (t.chan ch).slots k = some { j with hold := s.ftl.holds * 4 + ch.val / 8 } ∧
        t.ftl.active = (s.ftl.holds * 4 + ch.val / 8) :: s.ftl.active ∧ t.ftl.holds = s.ftl.holds + 1 ∧ SameMem s t ∧
        Kept s t (fun k => k = R.CHN_STAT ch)) ∧
      (∀ cause x, s.jobCause j = some cause → s.run j.run = some x → x.replayOf = none → x.client < 16 → (∀ r ∈ x.rows, r < 104) →
        Runs (.channelJobStart ch) s fun t => t.rd (R.CHN_FAULT ch) % 256 = cause ∧ t.rd (R.PG_ERR (pageChn ch)) % 65536 = 0x6001 ∧
          SameMem s t)) ∧
    (∀ (ch : ChanNo) (slot : Fin 4) (j : Job), (s.chan ch).next = some slot.val → kvFind (s.chan ch).slots slot = some j →
      s.chanUp ch = true → s.quiescing (pageChn ch) = false → j.client < 16 →
      (∀ (f : FilterJob) (u v : Nat) (us : List Nat), j.filter = some f → j.units = u :: v :: us →
        (s.mapEntry f.region u = none → Runs (.filterJobPage ch slot none 0) s fun t =>
          kvFind (t.chan ch).slots slot = some { j with units := v :: us, unmapped := j.unmapped + 1 } ∧
          t.rd (R.CHN_UNMAPPED ch) = min (s.rd (R.CHN_UNMAPPED ch) + 1) 0xFFFFFFFF ∧ t.ftl = s.ftl ∧ SameMem s t) ∧
        ((s.mapEntry f.region u).isSome = true → (s.unitData (ch.val / 8) f.region u).2 = [] →
          Runs (.filterJobPage ch slot none 0) s fun t =>
            kvFind (t.chan ch).slots slot = some ((List.range (recordsPer f)).foldl (fun a p =>
              a.test f (u * recordsPer f + p) (slice (s.unitData (ch.val / 8) f.region u).1 (p * f.r) f.r))
              { j with units := v :: us, nread := j.nread + 1 }) ∧
            t.rd (R.CHN_ENTRIES ch) = (s.rd (R.CHN_ENTRIES ch) + recordsPer f) % 2 ^ 64 ∧ SameMem s t) ∧
        ((s.unitData (ch.val / 8) f.region u).2 ≠ [] → Runs (.filterJobPage ch slot none 0) s fun t =>
          kvFind (t.chan ch).slots slot = some { j with
            units := v :: us, nread := j.nread + 1, poisoned := j.poisoned + 1, poison := true } ∧
          t.bit (R.PG_STAT (pageChn ch)) 3 = true ∧ SameMem s t)) ∧
      (∀ (l f : Nat) (g : Nat × Nat) (fs : List (Nat × Nat)) (x : Index), j.folios = (l, f) :: g :: fs → s.index j.index = some x →
        let d := s.unitData (ch.val / 8) (kvGet 0 x.folios ch) ((((x.list l).at_ j.snap).chain[f]?).map Folio.unit |>.getD 0)
        (x.folioOk j.index l f d.1 d.2 = true → Runs (.scanJobPage ch slot none 0 0) s fun t =>
          kvFind (t.chan ch).slots slot = some ((List.range (fieldOf d.1 4 2)).foldl (fun a k => a.meet x l d.1 d.2 k)
            { j with folios := g :: fs, nread := j.nread + 1 }) ∧ SameMem s t) ∧
        (x.folioOk j.index l f d.1 d.2 = false → Runs (.scanJobPage ch slot none 0 0) s fun t =>
          kvFind (t.chan ch).slots slot = some { j with folios := g :: fs, nread := j.nread + 1, failed := j.failed + 1, poison := true } ∧
          t.rd (R.PG_ERR (pageChn ch)) % 65536 = 0x6002 ∧
          t.rd (R.CHN_HDR_ERR ch) = min (s.rd (R.CHN_HDR_ERR ch) + 1) 0xFFFFFFFF ∧ SameMem s t))) ∧
    (∀ (c : Client) (x : Index), Open s c pageVsx → s.index (s.rd (banked c R.VSX_SEL) % 256) = some x →
      (c = 0 ∨ x.client = c.val →
        (Runs (.readIndex c) s fun t => t.rd (banked c R.VSX_RESULT) = 1 ∧ t.rd (banked c R.VSX_I_LISTS) = x.lists % 2 ^ 64 ∧
          t.rd (banked c R.VSX_I_EPOCH) = x.epoch % 2 ^ 64 ∧ t.rd (banked c R.VSX_I_ITEMS) = x.items % 2 ^ 64 ∧
          t.search = s.search ∧ SameMem s t) ∧
        (bits (s.rd (banked c R.VSX_SEL)) 27 8 < x.lists → Runs (.readList c) s fun t =>
          let y := x.list (bits (s.rd (banked c R.VSX_SEL)) 27 8)
          t.rd (banked c R.VSX_RESULT) = 1 ∧ t.rd (banked c R.VSX_L_STAT) = (y.current.state + y.deletes.length * 2 ^ 16) % 2 ^ 64 ∧
          t.rd (banked c R.VSX_L_FOLIOS) = y.current.chain.length % 2 ^ 64 ∧
          t.rd (banked c R.VSX_L_EPOCH) = y.current.epoch % 2 ^ 64 ∧ t.search = s.search ∧ SameMem s t)) ∧
      (c ≠ 0 → x.client ≠ c.val → ∀ i ∈ [Instr.readIndex c, .readList c], Runs i s fun t =>
        t.rd (R.PG_ERR pageHif) % 65536 = 0x1002 ∧ t.rd (banked c R.VSX_RESULT) = 3 ∧ t.search = s.search ∧ SameMem s t))

/-! Namespaces, the mailbox, the journal. -/

/-- NS_CREATE of client 0 gives the lowest free identifier a namespace in a new striped T3 region of the named client, and NS_DELETE takes both away;
other clients are not permitted. PMB_GO runs the mailbox entry as such a command and completes it there; a second GO while one runs is
refused with 0x100B. -/
def Obligations.NamespacesAndTheMailbox : Prop :=
  ∀ s : State,
    (∀ (cid : Cid) (e : Sqe), s.t3Absent = false → s.paused pageFtl = false →
      (GonumReady s cid e nsCreateMasks → cid.c = 0 → ∀ id c blocks, kvFirstFree s.namespaces 2 256 = some id →
        c = e.cdw10.toNat % 16 → blocks = dword2 e.cdw12 e.cdw13 →
        (s.allocStatus c 3 (blocks * 4096) = 0 → Runs (.nsCreate cid e) s fun t => Answered s t cid 0 0 id ∧
          kvFind t.namespaces id = some ⟨c, s.tiers.nextHandle, blocks⟩ ∧
          (∀ n, n ≠ id → kvFind t.namespaces n = kvFind s.namespaces n) ∧
          t.region s.tiers.nextHandle = some ⟨c, 3, blocks * 4096, useNs, true, 0, true, 0, 0⟩ ∧ SameMem s t) ∧
        (∀ st, s.allocStatus c 3 (blocks * 4096) = st → st ≠ 0 → Runs (.nsCreate cid e) s fun t => Answered s t cid 7 st 0 ∧
          t.namespaces = s.namespaces ∧ t.tiers = s.tiers ∧ SameMem s t)) ∧
      (GonumReady s cid e nsDeleteMasks → cid.c = 0 → s.readOnly = true → (kvFind s.namespaces e.cdw10.toNat).isSome = true →
        Runs (.nsDelete cid e) s fun t => Answered s t cid 7 7 0 ∧ t.namespaces = s.namespaces ∧ t.ftl.map = s.ftl.map ∧ SameMem s t) ∧
      (GonumReady s cid e nsDeleteMasks → cid.c = 0 → s.readOnly = false → ∀ ns, kvFind s.namespaces e.cdw10.toNat = some ns → s.devs.due = [] →
        Runs (.nsDelete cid e) s fun t => Answered s t cid 0 0 0 ∧ kvFind t.namespaces e.cdw10.toNat = none ∧
          t.region ns.region = none ∧ ∀ n, n ≠ e.cdw10.toNat → kvFind t.namespaces n = kvFind s.namespaces n) ∧
      (cid.c ≠ 0 →
        (GonumReady s cid e nsCreateMasks → Runs (.nsCreate cid e) s fun t => Answered s t cid 7 stUnpermitted 0 ∧
          t.namespaces = s.namespaces ∧ t.tiers = s.tiers ∧ SameMem s t) ∧
        (GonumReady s cid e nsDeleteMasks → Runs (.nsDelete cid e) s fun t => Answered s t cid 7 stUnpermitted 0 ∧
          t.namespaces = s.namespaces ∧ t.tiers = s.tiers ∧ SameMem s t))) ∧
    (∀ (v : BitVec 32) (d : DptrData) (dies : List GroupDie), Open s 0 pageHif → v.toNat.testBit 0 = true → s.quiescing pageHif = false →
      (s.bit R.HIF_PMB_STAT 0 = true → Runs (.pmbGo 0 v d dies) s fun t => t.rd (R.PG_ERR pageHif) % 65536 = 0x100B ∧
        Kept s t (fun _ => False) ∧ SameMem s t ∧ SameWork s t) ∧
      (s.bit R.HIF_PMB_STAT 0 = false → ∀ id, (s.pmbDword 0).toNat % 65536 = 0x9C → s.t3Absent = false → s.paused pageFtl = false →
        GonumReady (s.wr R.HIF_PMB_STAT 1) ⟨0, pmbQ, bits (s.pmbDword 0).toNat 31 16⟩ s.pmbEntry nsCreateMasks →
        kvFirstFree s.namespaces 2 256 = some id →
        s.allocStatus ((s.pmbDword 10).toNat % 16) 3 (dword2 (s.pmbDword 12) (s.pmbDword 13) * 4096) = 0 →
        Runs (.pmbGo 0 v d dies) s fun t => t.rd R.HIF_PMB_STAT = 2 ∧ t.rd (R.HIF_PMB_CQE 0) = id ∧
          t.fld (R.HIF_PMB_CQE 3) 15 0 = bits (s.pmbDword 0).toNat 31 16 ∧ t.fld (R.HIF_PMB_CQE 3) 31 17 = 0 ∧
          kvFind t.namespaces id = some ⟨(s.pmbDword 10).toNat % 16, s.tiers.nextHandle,
            dword2 (s.pmbDword 12) (s.pmbDword 13)⟩) ∧
      (s.bit R.HIF_PMB_STAT 0 = false → (s.pmbDword 0).toNat % 65536 = 0x10 → Runs (.pmbGo 0 v d dies) s fun t =>
        t.rd R.HIF_PMB_STAT = 2 ∧ t.fld (R.HIF_PMB_CQE 3) 31 17 = scOpcode + 0x4000 ∧ SameMem s t ∧ SameWork s t))

/-- The colophon record shows the last colophon of a context to its client, says when there is none, and refuses another's. DJ_CTL takes its value,
and journalling that starts clears FULL. A buffered record goes to the region's next bytes, or stops a full journal without WRAP with
0x2402; below half full the stalled runs go on. START makes a run of the first journalled one, a warm one with its STATE loaded and
unavailable without; ABORT ends a replay that has no step under way and lets a running step end first. -/
def Obligations.JournalWritesAndReplays : Prop :=
  ∀ (s : State) (n : Client),
    (∀ c : Client, Open s c pageDet →
      (let x := s.fld (banked c R.DET_CSEL) 17 0
       (s.ctx x).state ≠ 0 →
        (c = 0 ∨ (s.ctx x).client = c.val →
          (∀ bs, (s.ctx x).colophon = some bs → Runs (.detCcmdRead c) s fun t => t.rd (banked c R.DET_CRESULT) = 1 ∧
            (∀ i, i < 32 → t.rd (banked c (R.DET_COLO 0 + 4 * i)) = ofLe ((bs.drop (4 * i)).take 4)) ∧
            Kept s t (fun k => k = banked c R.DET_CRESULT ∨ ∃ i, i < 32 ∧ k = banked c (R.DET_COLO 0 + 4 * i)) ∧ SameMem s t ∧
            SameWork s t) ∧
          ((s.ctx x).colophon = none → Runs (.detCcmdRead c) s fun t => t.rd (banked c R.DET_CRESULT) = 5 ∧ SameWork s t)) ∧
        (c ≠ 0 → (s.ctx x).client ≠ c.val → Runs (.detCcmdRead c) s fun t => t.rd (banked c R.DET_CRESULT) = 3 ∧
          t.rd (R.PG_ERR pageHif) % 65536 = 0x1002 ∧ SameWork s t)) ∧
      (c = 0 ∨ c = n →
        (∀ v : BitVec 32, v.toNat < 2 ^ 15 → s.rd (R.DJ_CTL n) < 2 ^ 15 → Runs (.djCtlWrite c n v) s fun t =>
          t.rd (R.DJ_CTL n) = v.toNat ∧
          (v.toNat.testBit 0 = true → s.bit (R.DJ_CTL n) 0 = false → t.bit (R.DJ_STAT n) 1 = false ∧ (t.journal n).hadState = []) ∧
          Kept s t (fun k => k = R.DJ_CTL n ∨ k = R.DJ_STAT n) ∧ SameMem s t ∧ SameWork s t) ∧
        (∀ st r rest h l region, let dst := s.rd (R.DR_DST_CTX n)
          (s.journal n).replay = none → (s.ctx dst).state ≠ 0 → (s.ctx dst).client = n.val → (s.ctx dst).inRun = false →
          (s.ctx dst).spilled = false → s.region (s.ctx dst).region = some region → region.filled = true →
          r.type = jRunStart → r.poison = false →
          (s.sched.figures.find? fun f => f.2.client = n.val && f.2.fig.main.hash.toNat = fieldOf r.payload 0 32) = some (h, l) →
          let formed := fun t : State => t.rd (R.DR_STAT n) = 1 ∧ (t.ctx dst).inRun = true ∧ (t.ctx dst).stepCtr = r.stepCtr ∧
            (t.journal n).replay = some rest ∧
            ∃ y, t.run s.sched.nextRun = some y ∧ y.replayOf = some n.val ∧ y.handle = h ∧ y.lc = false ∧ y.phase = .formed
          (s.drRecords n = r :: rest → r.cold = true → (s.ctx dst).state = 1 → Runs (.drStart c n) s fun t => formed t ∧ SameMem s t) ∧
          (s.drRecords n = st :: r :: rest → st.type = jState → st.poison = false → st.payload.length ≤ (s.ctx dst).stateLen →
            st.payload.length ≤ regionSpan → r.cold = false → Runs (.drStart c n) s fun t => formed t ∧ (t.ctx dst).state = 2 ∧
              t.memRead (s.ctx dst).region 0 st.payload.length = st.payload ∧ t.leaf = s.leaf) ∧
          (s.drRecords n = r :: rest → r.cold = false → Runs (.drStart c n) s fun t => t.rd (R.DR_STAT n) = 5 ∧ SameMem s t)) ∧
        ((s.journal n).replay.isSome = true →
          (Runs (.drStart c n) s fun t => t.journals = s.journals ∧ Kept s t (fun _ => False) ∧ SameWork s t) ∧
          ((∀ e ∈ s.sched.runs, e.2.replayOf = some n.val → e.2.phase.working = false) → Runs (.drAbort c n) s fun t =>
            t.rd (R.DR_STAT n) = 6 ∧ (t.journal n).replay = none ∧ SameMem s t) ∧
          (∀ e ∈ s.sched.runs, e.2.replayOf = some n.val → e.2.phase.working = true → Runs (.drAbort c n) s fun t =>
            (t.journal n).aborting = true ∧ (t.journal n).replay = (s.journal n).replay ∧ t.sched = s.sched ∧ SameMem s t)))) ∧
    (∀ r rest g, let h := s.rd (R.DJ_REGION n)
      let cap := g.bytes / 16 * 16
      (s.journal n).buffer = r :: rest → s.ownRegion n h = some g → g.tier = 3 → g.striped = true → r.size ≤ cap → s.t3Absent = false →
      s.readOnly = false → (∀ k : Client, (s.journal k).lostRecords = 0) →
      (Machine.sizeOf (s.journal n).written + r.size ≤ cap → s.rd (R.DJ_BYTES n) % cap + r.bytes.length ≤ cap →
        s.rd (R.DJ_BYTES n) % cap % 16384 + r.bytes.length ≤ 16384 → (∀ k, k ≤ 1 → s.allocTest n 3 (k + s.stagedNew n) = 0) →
        Runs (.journalRecordWrite n 1) s fun t => (t.journal n).buffer = rest ∧
          (t.journal n).written = (s.journal n).written ++ [{ r with pos := s.rd (R.DJ_BYTES n) % cap }] ∧
          t.rd (R.DJ_BYTES n) = (s.rd (R.DJ_BYTES n) + r.size) % 2 ^ 64 ∧ SameMem s t ∧ t.ftl.map = s.ftl.map ∧
          ∃ key grp, (key, grp) ∈ t.ftl.groups ∧ grp.region = h ∧
            grp.units.map (fun u => (u.1, u.2.1, u.2.2.1)) = [(s.rd (R.DJ_BYTES n) % cap / 16384,
              s.rd (R.DJ_BYTES n) % cap % 16384, r.bytes)]) ∧
      (cap < Machine.sizeOf (s.journal n).written + r.size → r.wrap = false → Runs (.journalRecordWrite n 1) s fun t =>
        (t.journal n).buffer = [] ∧ t.bit (R.DJ_CTL n) 0 = false ∧ t.bit (R.DJ_STAT n) 1 = true ∧
        t.rd (R.PG_ERR pageDet) % 65536 = 0x2402 ∧ t.ftl = s.ftl ∧ SameMem s t)) ∧
    (s.jTotal < jCap / 2 → kvSorted s.sched.runs = true → Runs (.journalBufferDrained n) s fun t => t.bit (R.DJ_STAT n) 2 = false ∧
      (∀ r y, s.run r = some y → t.run r = some (if y.client = n.val ∧ y.phase = .stalled then
        (if s.layersLanded y then { y with phase := .boundary }
         else { y with phase := .waitLayer, flags := if y.lc then y.flags else y.flags ||| 2 ^ 12 }) else y)) ∧
      Kept s t (fun k => k = R.DJ_STAT n) ∧ SameMem s t ∧ t.journals = s.journals)

/-! The NVM command set and the flash below it. -/

/-- WRITE stages its data, and the map is unchanged until its groups are programmed; PROGRAM_COMPLETE then lays the bytes over the unit's old
data and completes the write. READ returns the blocks' data, or fails with Unrecovered Read Error and 0x4009 when one is poisoned.
Whole units that WRITE_ZEROES or a deallocation names become unmapped and no others; FLUSH waits for the earlier writes alone. Without
T3 all are NOT_READY. -/
def Obligations.NvmCommandsReadAndWrite : Prop :=
  ∀ (s : State) (cid : Cid) (nsid : Nat),
    (∀ (slba nlb : Nat) (ns : Namespace) (r : Region),
      (NvmReady s cid nsid slba nlb 512 true ns r → ∀ data : List Byte, data.length = nlb * 4096 →
        let ps := pieces (slba * 4096) data (nlb + 1)
        (s.newUnits ns.region ps = 0 ∨ s.allocTest r.client 3 (s.newUnits ns.region ps + s.stagedNew r.client) = 0 →
          Runs (.write cid nsid slba data false) s fun t =>
            kvFind t.ftl.writes s.ftl.nextWrite = some ⟨some cid, nsid, (grouped ps).length, s.ftl.order⟩ ∧ t.ftl.map = s.ftl.map ∧
            t.ftl.pages = s.ftl.pages ∧ t.ftl.groups.length = s.ftl.groups.length + (grouped ps).length ∧
            t.rd R.FTL_HOST_WR = (s.rd R.FTL_HOST_WR + nlb * 4096) % 2 ^ 64 ∧ SameMem s t) ∧
        (∀ st, s.newUnits ns.region ps ≠ 0 → s.allocTest r.client 3 (s.newUnits ns.region ps + s.stagedNew r.client) = st → st = 1 ∨ st = 2 →
          Runs (.write cid nsid slba data false) s fun t => Answered s t cid 0 scCapacity st ∧ t.ftl = s.ftl ∧ SameMem s t)) ∧
      (NvmReady s cid nsid slba nlb 512 false ns r →
        let marked := fun b => (s.unitData (unitQdi r (b / 4)) ns.region (b / 4)).2.contains (b % 4)
        ((∀ b, slba ≤ b → b < slba + nlb → marked b = false) → Runs (.read cid nsid slba nlb []) s fun t => Answered s t cid 0 0 0 ∧
          Sent s t (fun o => o = .hostData cid.c cid.q cid.id ((List.range nlb).map (fun i =>
            slice (s.unitData (unitQdi r ((slba + i) / 4)) ns.region ((slba + i) / 4)).1 ((slba + i) % 4 * 4096) 4096)).flatten) ∧
          t.ftl.map = s.ftl.map ∧ t.ftl.pages = s.ftl.pages ∧ SameMem s t) ∧
        (∀ b, slba ≤ b → b < slba + nlb → marked b = true → Runs (.read cid nsid slba nlb []) s fun t => Answered s t cid 2 0x81 0 ∧
          t.rd (R.PG_ERR pageErr) % 65536 = 0x4009 ∧ t.ftl.map = s.ftl.map ∧ SameMem s t)) ∧
      (ns.blocks ≤ 2 ^ 42 → slba % 4 = 0 → nlb % 4 = 0 →
        let cleared := fun (t : State) => Answered s t cid 0 0 0 ∧
          (∀ u, slba / 4 ≤ u → u < (slba + nlb) / 4 → t.mapEntry ns.region u = none) ∧
          (∀ h u, u < 2 ^ 40 → (h ≠ ns.region ∨ u < slba / 4 ∨ (slba + nlb) / 4 ≤ u) → t.mapEntry h u = s.mapEntry h u) ∧ SameMem s t
        (NvmReady s cid nsid slba nlb 65536 true ns r → Runs (.writeZeroes cid nsid slba nlb) s cleared) ∧
        (NvmReady s cid nsid 0 1 1 true ns r → 0 < nlb → slba + nlb ≤ ns.blocks →
          Runs (.datasetManagement cid nsid true [(slba, nlb)]) s cleared)) ∧
      (NvmReady s cid nsid 0 1 1 true ns r → slba + nlb ≤ ns.blocks → Runs (.datasetManagement cid nsid false [(slba, nlb)]) s fun t =>
        Answered s t cid 0 0 0 ∧ t.ftl = s.ftl ∧ SameMem s t) ∧
      (NvmReady s cid nsid 0 1 1 false ns r → s.ftl.flushes = [] →
        ((∀ w ∈ s.ftl.writes, ∀ k, w.2.nsid = nsid → w.2.order < s.ftl.order → w.2.cid = some k → k.c ≠ cid.c) →
          Runs (.flush cid nsid) s fun t => Answered s t cid 0 0 0 ∧ t.ftl = s.ftl ∧ SameMem s t) ∧
        (∀ w ∈ s.ftl.writes, ∀ k, w.2.nsid = nsid → w.2.order < s.ftl.order → w.2.cid = some k → k.c = cid.c →
          Runs (.flush cid nsid) s fun t => t.ftl.flushes = [(cid, nsid, s.ftl.order)] ∧ t.ftl.writes = s.ftl.writes ∧ SameMem s t))) ∧
    (s.fetchable cid = true → cid.q ≠ 0 → s.noT3 = true → s.quiescing pageFtl = false → ∀ (slba nlb : Nat) (data : List Byte) (p d : Bool) (rs : List (Nat × Nat)),
      ∀ c ∈ [Instr.write cid nsid slba data p, .read cid nsid slba nlb [], .writeZeroes cid nsid slba nlb,
        .datasetManagement cid nsid d rs, .flush cid nsid],
        Runs c s fun t => Answered s t cid 0 scNotReady 0 ∧ t.ftl = s.ftl ∧ SameMem s t) ∧
    (∀ (group : Nat) (g : StagedGroup) (r : Region) (u o : Nat) (bs : List Byte) (d : GroupDie), kvFind s.ftl.groups group = some g →
      s.region g.region = some r → g.units = [(u, o, bs, [])] → ((s.groupReads g.region r g.units [⟨d, none⟩]).programAll group g.region r g.units
        [d]).isSome = true → (∀ q b, s.blockOf (unitQdi r u) q d = some b → b < 10280) →
      Runs (.programComplete group [⟨d, none⟩]) s fun t =>
        (∀ i, i < 16384 → (t.unitData (unitQdi r u) g.region u).1.getD i 0 =
          if o ≤ i ∧ i < o + bs.length then bs.getD (i - o) 0 else (s.unitData (unitQdi r u) g.region u).1.getD i 0) ∧
        (∀ h v, v < 2 ^ 40 → u < 2 ^ 40 → (h ≠ g.region ∨ v ≠ u) → t.mapEntry h v = s.mapEntry h v) ∧
        kvFind t.ftl.groups group = none ∧ SameMem s t ∧
        (∀ w k, kvFind s.ftl.writes g.write = some w → w.left ≤ 1 → w.cid = some k → k.q ≠ pmbQ →
          (k.q, k.id) ∈ (s.ctrl k.c).fetched → Answered s t k 0 0 0 ∧ kvFind t.ftl.writes g.write = none))

/-- Failures and erases of the medium: a block whose program or erase fails is replaced by a reserve block, or missing when none is left, with its
counts and events; the seventeenth erase failure of a die in an hour is the die's; an erased quire is ERASED, its pages are gone and
its blocks have worn; a failed die's unprotected units are lost and its channel's spare comes into service; a worn die without units
left retires. A suspended operation goes on once no LC read is left at its die, and the warning of retries comes once an hour. -/
def Obligations.FlashFailuresAndErases : Prop :=
  ∀ (s : State) (n : QdiNo),
    (∀ (q : Nat) (d : GroupDie) (ms : List GroupDie), (s.blockOf n q d).isSome = true →
      let replaced := fun (t : State) => (t.die n d).grown = (s.die n d).grown + 1 ∧ (t.die n d).reserve = (s.die n d).reserve - 1 ∧
        ((s.die n d).reserve ≠ 0 → t.blockOf n q d = some (10280 - (s.die n d).reserve)) ∧
        ((s.die n d).reserve = 0 → t.blockOf n q d = none) ∧ SameMem s t
      (∀ st : Fin 4, s.openQuire n st = some q → (s.quire n q).phase = .opened →
        (Runs (.programFailure n st d ms) s fun t => replaced t ∧ t.rd (R.PG_ERR (pageQdi n)) % 65536 = 0x5002 ∧
          t.rd (R.QDI_PFAIL n) = min (s.rd (R.QDI_PFAIL n) + 1) 0xFFFFFFFF)) ∧
      Runs (.eraseFailure n q d) s fun t => replaced t ∧ s.etime ∈ (t.die n d).efails ∧
        t.rd (R.QDI_EFAIL n) = min (s.rd (R.QDI_EFAIL n) + 1) 0xFFFFFFFF ∧
        let hour := (s.die n d).efails.filter fun a => decide (s.etime < a + 3600 * tickSec)
        (t.die n d).status = if (s.die n d).status = 0 ∧ 16 ≤ hour.length then 3 else (s.die n d).status) ∧
    (∀ (q : Nat) (st : Fin 4) (fin : EraseEnd), q < groupQuires → (s.quire n q).phase = .free →
      (∀ e ∈ s.ftl.quires, ¬ (e.1 / 65536 = n.val ∧ e.2.phase = .erased ∧ e.2.stream = st.val)) →
      (∀ h ∈ s.ftl.active, h % 4 = n.val → (s.quire n q).freedAt ≤ h / 4) → s.rank5Held = false → (st = 3 → s.mostWorn n q = true) →
      (∀ d ∈ s.groupDies n, ∀ b, s.blockOf n q d = some b → b < 10280) → Runs (.quireErase n q st fin) s fun t =>
        t.quire n q = ⟨if fin = .cut then .erasing else .erased, (s.quire n q).seq, st.val, false, [], (s.quire n q).freedAt,
          (s.groupDies n).filter fun d => s.takes n d && (s.blockOf n q d).isSome, fin = .blank, 0⟩ ∧
        (∀ d ∈ s.groupDies n, s.takes n d = true → ∀ b pg, s.blockOf n q d = some b → pg < 3072 →
          kvFind t.ftl.pages (pageKey n ((d * 10280 + b) * 3072 + pg)) = none) ∧
        (∀ d ∈ s.groupDies n, s.takes n d = true → ∀ b, s.blockOf n q d = some b →
          kvGet 0 t.ftl.ec (n.val * 2 ^ 24 + (d * 10280 + b)) = kvGet 0 s.ftl.ec (n.val * 2 ^ 24 + (d * 10280 + b)) +
            (if fin = .cut then 0 else if st.val = 0 then 1 else 10)) ∧
        t.ftl.map = s.ftl.map ∧ SameMem s t) ∧
    (∀ (d : GroupDie) (ms : List GroupDie), let sp := d.val / 17 * 17 + 16
      ((s.die n d).status = 0 ∨ (s.die n d).status = 1 → Runs (.dieFailure n d ms) s fun t => (t.die n d).status = 3 ∧
        (sp ≠ d.val → (s.die n sp).status = 1 → (t.die n sp).status = 0) ∧
        (∀ e ∈ s.unitsOn n d, (s.quire n e.2.quire).parity = false → t.mapEntry e.2.region e.2.unit = some mapPoisoned) ∧ SameMem s t) ∧
      (∀ cs : List CopyTo, (s.die n d).status = 0 → (s.die n d).worn = true → s.rank5Held = false →
        Runs (.spareDieMigration n d cs) s fun t => SameMem s t ∧
          (t.die n d).status = (if (t.unitsOn n d).isEmpty then 2 else 0) ∧ t.bit (R.QDI_STAT n) 10 = !(t.unitsOn n d).isEmpty ∧
          (sp ≠ d.val → (s.die n sp).status = 1 → (t.die n sp).status = 0) ∧
          (cs = [] ∨ s.unitsOn n d = [] → t.unitsOn n d = s.unitsOn n d ∧ t.ftl.map = s.ftl.map ∧
            (sp ≠ d.val → (s.die n sp).status = 1 → t.rd (R.PG_ERR (pageQdi n)) % 65536 = 0x5005))) ∧
      (s.lcReads n d = true → Runs (.suspendedOperationResume n d) s fun t => t.ftl = s.ftl ∧ Kept s t (fun _ => False) ∧ SameMem s t) ∧
      (s.lcReads n d = false → Runs (.suspendedOperationResume n d) s fun t => kvFind t.ftl.suspended (n.val * 136 + d.val) = none ∧
        (∀ k, k ≠ n.val * 136 + d.val → kvFind t.ftl.suspended k = kvFind s.ftl.suspended k) ∧ t.ftl.map = s.ftl.map ∧
        t.ftl.dies = s.ftl.dies ∧ Kept s t (fun _ => False) ∧ SameMem s t)) ∧
    (let due := s.fld R.FTL_RETRY_WARN 19 0 * min (kvGet 0 s.ftl.reads n) (2 ^ 20) <
        ((kvGet [] s.ftl.retryAt n).filter fun j => kvGet 0 s.ftl.reads n < j + 2 ^ 20).length * 1000000
      let said := ∃ a, kvFind s.sys.saidAt (0x50080 + n.val) = some a ∧ s.etime < a + 3600 * tickSec
      (due → ¬ said → Runs (.retryRateWarning n) s fun t => t.rd (R.PG_ERR (pageQdi n)) % 65536 = 0x5008 ∧ t.ftl = s.ftl ∧
        kvFind t.sys.saidAt (0x50080 + n.val) = some s.etime ∧ Kept s t (fun _ => False) ∧ SameMem s t) ∧
      (¬ due ∨ said → Runs (.retryRateWarning n) s fun t => t.ftl = s.ftl ∧ t.sys.saidAt = s.sys.saidAt ∧ Kept s t (fun _ => False) ∧
        SameMem s t))

/-- Upkeep of the medium: a closed quire is verified, and FREE when it holds no unit; FOLD and a wear move copy a unit's page to the die
given with its data and poison, and the map follows; garbage collection copies it too, and the map follows when the quire of the copy is
verified; a wear move ends when the spread is low; a checkpoint, once the
journal of a channel die has reached 2 GiB, empties it, renews the roots and sets the SLC capacity. -/
def Obligations.FlashUpkeepKeepsData : Prop :=
  ∀ (s : State) (n : QdiNo),
    (∀ q : Nat, (s.quire n q).phase = .closed → s.rank5Held = false → ∀ c : GcCopy, s.copiesIn n q = [c] →
      s.mapEntry c.region c.unit = some c.src → Runs (.quireVerify n q []) s fun t =>
        t.mapEntry c.region c.unit = some c.dst ∧ c ∉ t.ftl.copies ∧ SameMem s t) ∧
    (∀ q : Nat, (s.quire n q).phase = .closed → s.rank5Held = false → s.copiesIn n q = [] → Runs (.quireVerify n q []) s fun t =>
      (t.quire n q).phase = (if (s.validUnits n q).isEmpty then .free else .verified) ∧ t.ftl.map = s.ftl.map ∧
      t.ftl.pages = s.ftl.pages ∧ SameMem s t) ∧
    (s.rank5Held = false → kvSorted s.ftl.pages = true → ∀ (p p' : Nat) (rec_ : PageRec) (r : Region) (d : GroupDie)
      (v : State), p < 2 ^ 32 → kvFind s.ftl.pages (pageKey n p) = some rec_ → s.mapEntry rec_.region rec_.unit = some p →
      s.region rec_.region = some r → unitQdi r rec_.unit = n → placeOk r d = true →
      let read := fun (u : State) (stream : Nat) => (u.blankCheck n stream).readUnit n rec_.region rec_.unit none
      let copied := fun (t : State) => SameMem s t ∧
        ∃ new, kvFind t.ftl.pages (pageKey n p') = some new ∧ new.data = rec_.data ∧ new.poison = rec_.poison ∧
          new.region = rec_.region ∧ new.unit = rec_.unit
      let moved := fun (t : State) => t.mapEntry rec_.region rec_.unit = some p' ∧ copied t
      ((s.quire n rec_.quire).stream = 0 → (s.quire n rec_.quire).phase = .verified →
        (read s 1).program n 1 d rec_ = some (p', v) → Runs (.fold n [⟨rec_.region, rec_.unit, d, none⟩]) s moved) ∧
      (s.readOnly = false → s.gcSource n = some rec_.quire → s.uncopied n rec_.quire = [(p, rec_)] →
        (read s 2).program n 2 d rec_ = some (p', v) → Runs (.garbageCollection n [⟨d, none⟩]) s fun t => copied t ∧
          t.mapEntry rec_.region rec_.unit = some p ∧ (⟨n.val, rec_.region, rec_.unit, p, p'⟩ : GcCopy) ∈ t.ftl.copies) ∧
      (s.readOnly = false → s.wearSource n = some rec_.quire → s.validUnits n rec_.quire = [(p, rec_)] → s.fld R.FTL_WL_SPREAD 15 0 < s.spread n →
        (read (s.setBit (R.QDI_STAT n) 9 true) 3).program n 3 d rec_ = some (p', v) →
        Runs (.wearLevellingMove n [⟨d, none⟩]) s fun t => moved t ∧ t.bit (R.QDI_STAT n) 9 = true)) ∧
    (∀ q, s.gcSource n = some q → s.validUnits n q = [] → (s.quire n q).phase = .verified → s.rank5Held = false → s.readOnly = false →
      Runs (.garbageCollection n []) s fun t => (t.quire n q).phase = .free ∧ t.ftl.map = s.ftl.map ∧ SameMem s t) ∧
    (s.rank5Held = false → s.readOnly = false → s.bit (R.QDI_STAT n) 9 = true → s.spread n ≤ s.fld R.FTL_WL_SPREAD 15 0 - 16 →
      ∀ ms, Runs (.wearLevellingMove n ms) s fun t => t.bit (R.QDI_STAT n) 9 = false ∧ t.ftl = s.ftl ∧
        Kept s t (fun k => k = R.QDI_STAT n) ∧ SameMem s t) ∧
    (2 ^ 31 ≤ kvGet 0 s.ftl.jbytes n → Runs (.mapCheckpoint n) s fun t => kvGet 0 t.ftl.jbytes n = 0 ∧ kvGet 0 t.ftl.jbuf n = 0 ∧
      (∀ e ∈ t.ftl.dirty, e.1 ≠ n.val) ∧ (∀ r ∈ t.ftl.records, r.die ≠ n.val) ∧
      kvGet (0, 0) t.ftl.roots n = ((kvGet (0, 0) s.ftl.roots n).1 + 1, s.rd R.FTL_JSEQ) ∧
      t.rd R.FTL_SLC_CAP = s.worn (slcTable s.ftl.map.length) % 2 ^ 64 ∧ (100 ≤ s.life → t.bit R.FTL_STAT 3 = true) ∧
      t.ftl.map = s.ftl.map ∧ t.ftl.pages = s.ftl.pages ∧ SameMem s t) ∧
    (kvGet 0 s.ftl.jbytes n < 2 ^ 31 → Runs (.mapCheckpoint n) s fun t => t.ftl = s.ftl ∧ Kept s t (fun _ => False) ∧ SameMem s t)


/-! The Edlux links. -/

/-- A link comes up: TRAIN starts a link that is down and takes any other down; training checks the peer against the plan; authentication refuses
a peer whose signature fails and compares the digest of another with the admitted one; ADMIT keeps the peer's digest in the registers
and in NOR, with a measurement, REFUSE refuses, and FORGET clears the digest. -/
def Obligations.LinksTrainAndAreAdmitted : Prop :=
  ∀ (s : State) (l : LinkNo),
    let up := if s.isSpare l && !s.carries l then lkStandby else lkUp
    let alone := s.spareOf l = none ∧ (s.linkUnit l).outq = []
    (Open s 0 (pageLnk l) →
      (s.linkState l = lkDown → s.uncabled l = true → Runs (.train 0 l true) s fun t => t.linkState l = lkDown ∧ t.bit (R.LNK_CTL l) 0 = true ∧
        t.links = s.links ∧ Kept s t (fun k => k = R.LNK_CTL l) ∧ SameMem s t) ∧
      (s.linkState l = lkDown → s.uncabled l = false → Runs (.train 0 l true) s fun t => t.linkState l = lkTrain ∧ t.bit (R.LNK_CTL l) 0 = true ∧
        t.links = s.links ∧ Kept s t (fun k => k = R.LNK_CTL l ∨ k = R.LNK_STAT l) ∧ SameMem s t) ∧
      (Runs (.train 0 l false) s fun t => t.linkState l = lkDown ∧ t.bit (R.LNK_CTL l) 0 = false ∧ t.bit (R.LNK_STAT l) 5 = false ∧
        t.rd (R.LNK_LAST_DOWN l) = (if s.linkState l = lkUp ∨ s.linkState l = lkStandby then 7 else s.rd (R.LNK_LAST_DOWN l)) ∧
        Kept s t (fun k => k = R.LNK_CTL l ∨ k = R.LNK_STAT l ∨ k = R.LNK_LAST_DOWN l) ∧ SameMem s t) ∧
      (Runs (.forget 0 l) s fun t => (∀ i, i < 8 → t.rd (R.LNK_ADM_ID l i) = 0 ∧ kvFind t.nor.settings (R.LNK_ADM_ID l i) = some 0) ∧
        Kept s t (fun k => norReg k ∨ ∃ i, i < 8 ∧ k = R.LNK_ADM_ID l i) ∧ t.links = s.links ∧ SameMem s t) ∧
      (s.linkState l = lkWait →
        (Runs (.refuse 0 l) s fun t => t.linkState l = lkRefused ∧ t.rd (R.LNK_LAST_DOWN l) = 6 ∧
          Kept s t (fun k => k = R.LNK_STAT l ∨ k = R.LNK_LAST_DOWN l) ∧ t.links = s.links ∧ SameMem s t) ∧
        (alone → (∀ i, i < 8 → s.rd (R.LNK_PEER_ID l i) < 2 ^ 32) → Runs (.lnkAdmit 0 l) s fun t => t.linkState l = up ∧
          (∀ i, i < 8 → t.rd (R.LNK_ADM_ID l i) = s.rd (R.LNK_PEER_ID l i) ∧
            kvFind t.nor.settings (R.LNK_ADM_ID l i) = some (s.rd (R.LNK_PEER_ID l i))) ∧
          t.slotCount 6 = s.slotCount 6 + 1 ∧
          t.slotValue 6 = shake256 (s.slotValue 6 ++
            shake256 (s.fabricData (leBytes 32 (s.digestAt (R.LNK_PEER_ID l)))) 64) 64 ∧
          Kept s t (fun k => norReg k ∨ k = R.LNK_STAT l ∨ k = R.SEC_STAT ∨ ∃ i, i < 8 ∧ k = R.LNK_ADM_ID l i) ∧ SameMem s t))) ∧
    (s.linkState l = lkTrain → ∀ peer : PeerPlan, Runs (.trainingComplete l peer) s fun t =>
      t.rd (R.LNK_PEER l) = peer.rank % 4096 + peer.link % 32 * 2 ^ 12 + peer.tree % 16 * 2 ^ 17 + peer.dir % 4 * 2 ^ 21 + 2 ^ 31 ∧
      (s.planFits l peer = true → t.linkState l = lkAuth ∧ t.bit (R.LNK_STAT l) 6 = true ∧
        t.rd (R.LNK_LAST_DOWN l) = s.rd (R.LNK_LAST_DOWN l)) ∧
      (s.planFits l peer = false → t.linkState l = lkRefused ∧ t.rd (R.LNK_LAST_DOWN l) = 5 ∧
        t.rd (R.PG_ERR (pageLnk l)) % 65536 = 0x7006) ∧
      Kept s t (fun k => k = R.LNK_STAT l ∨ k = R.LNK_PEER l ∨ k = R.LNK_LAST_DOWN l) ∧ t.links = s.links ∧ SameMem s t) ∧
    (s.linkState l = lkAuth → ∀ key : List (BitVec 8),
      let d := peerDigest key
      (s.bit R.SEC_STAT 0 = false → Runs (.auth l key true) s fun t => t.linkState l = lkRefused ∧ t.rd (R.LNK_LAST_DOWN l) = 4 ∧
        Kept s t (fun k => k = R.LNK_STAT l ∨ k = R.LNK_LAST_DOWN l) ∧ SameMem s t) ∧
      (s.bit R.SEC_STAT 0 = true →
        (Runs (.auth l key false) s fun t => t.linkState l = lkRefused ∧ t.rd (R.LNK_LAST_DOWN l) = 4 ∧
          t.rd (R.PG_ERR (pageLnk l)) % 65536 = 0x7005 ∧ Kept s t (fun k => k = R.LNK_STAT l ∨ k = R.LNK_LAST_DOWN l) ∧ SameMem s t) ∧
        (d = s.digestAt (R.LNK_ADM_ID l) → alone → Runs (.auth l key true) s fun t => t.linkState l = up ∧
          t.bit (R.LNK_STAT l) 5 = true ∧ (∀ i, i < 8 → t.rd (R.LNK_PEER_ID l i) = d / 2 ^ (32 * i) % 2 ^ 32) ∧
          Kept s t (fun k => k = R.LNK_STAT l ∨ ∃ i, i < 8 ∧ k = R.LNK_PEER_ID l i) ∧ SameMem s t) ∧
        (d ≠ s.digestAt (R.LNK_ADM_ID l) → Runs (.auth l key true) s fun t => t.linkState l = lkWait ∧
          t.rd (R.PG_ERR (pageLnk l)) % 65536 = 0x7004 ∧ (∀ i, i < 8 → t.rd (R.LNK_PEER_ID l i) = d / 2 ^ (32 * i) % 2 ^ 32) ∧
          Kept s t (fun k => k = R.LNK_STAT l ∨ ∃ i, i < 8 ∧ k = R.LNK_PEER_ID l i) ∧ t.links = s.links ∧ SameMem s t)))

/-- Flits and failures of a link: a flit whose CRC fails or that comes out of order changes no content and makes the link answer NAK, one in
order is taken and counted; a NAK sends every outstanding flit again in order; a link that fails to retrain goes down with 0x7001, else
comes back; a failed link with a spare moves its traffic and its sequence there; peer messages wait for a posting and fill it. -/
def Obligations.LinksCarryReplayAndSwitch : Prop :=
  ∀ (s : State) (l : LinkNo),
    let u := s.linkUnit l
    (s.linkState l = lkUp → u.outq = [] → u.retry = [] → ∀ (f : Flit) (arrival : Nat),
      (f.crcOk = false → Runs (.flitReceive l f arrival) s fun t => t.linkUnit l = { u with naking := true } ∧ t.red = s.red ∧
        t.rd (R.LNK_CRC_ERR l) = min (s.rd (R.LNK_CRC_ERR l) + 1) 0xFFFFFFFF ∧
        Kept s t (fun k => k = R.LNK_FEC_CORR l ∨ k = R.LNK_FEC_UNCORR l ∨ k = R.LNK_CRC_ERR l) ∧ SameMem s t) ∧
      (f.crcOk = true → sequenced f.body = true → u.expect < f.seq → f.seq < u.expect + 2048 → u.expect < 4096 → f.seq < 4096 →
        Runs (.flitReceive l f arrival) s fun t =>
          t.linkUnit l = { u with naking := true, lastAt := s.etime, nakked := u.nakked || f.nak } ∧ t.red = s.red ∧
          t.rd (R.LNK_CRC_ERR l) = (if isReserved f.body then min (s.rd (R.LNK_CRC_ERR l) + 1) 0xFFFFFFFF else s.rd (R.LNK_CRC_ERR l)) ∧
          Kept s t (fun k => k = R.LNK_FEC_CORR l ∨ k = R.LNK_FEC_UNCORR l ∨ k = R.LNK_CRC_ERR l) ∧ SameMem s t) ∧
      (∀ type, f.crcOk = true → f.body = .reserved type → f.seq = u.expect → Runs (.flitReceive l f arrival) s fun t =>
          (t.linkUnit l).expect = (u.expect + 1) % 4096 ∧ (t.linkUnit l).inbox = u.inbox ∧ t.red = s.red ∧
          t.rd (R.LNK_CRC_ERR l) = min (s.rd (R.LNK_CRC_ERR l) + 1) 0xFFFFFFFF ∧ t.rd (R.LNK_FLITS_RX l) = s.rd (R.LNK_FLITS_RX l) % 2 ^ 64 ∧
          Kept s t (fun k => k = R.LNK_FEC_CORR l ∨ k = R.LNK_FEC_UNCORR l ∨ k = R.LNK_CRC_ERR l ∨ k = R.LNK_FLITS_RX l) ∧ SameMem s t) ∧
      (∀ off len bytes poison, f.crcOk = true → f.body = .peer off len bytes poison → f.seq = u.expect →
        Runs (.flitReceive l f arrival) s fun t => (t.linkUnit l).expect = (u.expect + 1) % 4096 ∧ (t.linkUnit l).naking = false ∧
          (let all := (if off = 0 then [] else u.inbox) ++ [(off, bytes, poison)]
           let msg := all.flatMap fun p => p.2.1
           (msg.length < len → (t.linkUnit l).inbox = all ∧ (t.linkUnit l).whole = u.whole) ∧
           (len ≤ msg.length → (t.linkUnit l).inbox = [] ∧
             (t.linkUnit l).whole = u.whole ++ [(msg.take len, all.any fun p => p.2.2, arrival)])) ∧
          t.rd (R.LNK_FLITS_RX l) = (s.rd (R.LNK_FLITS_RX l) + 1) % 2 ^ 64 ∧ t.red = s.red ∧
          Kept s t (fun k => k = R.LNK_FEC_CORR l ∨ k = R.LNK_FEC_UNCORR l ∨ k = R.LNK_FLITS_RX l) ∧ SameMem s t)) ∧
    (s.linkState l = lkUp → u.outq = [] → ∀ (f : Flit) (arrival i : Nat), f.crcOk = true → f.body = .idle →
      u.retry.findIdx? (fun e => e.1 = f.ack) = some i → Runs (.flitReceive l f arrival) s fun t =>
        t.linkUnit l = { u with
          acked := f.ack, retry := u.retry.drop (i + 1), ackAt := s.etime, lastAt := s.etime, nakked := u.nakked || f.nak } ∧ t.red = s.red ∧
        Kept s t (fun k => k = R.LNK_FEC_CORR l ∨ k = R.LNK_FEC_UNCORR l) ∧ SameMem s t) ∧
    (u.nakked = false → Runs (.nakReplay l true) s fun t => t.links = s.links ∧ Kept s t (fun _ => False) ∧ SameMem s t) ∧
    (s.carriesFlits l = true → u.nakked = true → Runs (.nakReplay l true) s fun t => (t.linkUnit l).retry = u.retry ∧ (t.linkUnit l).next = u.next ∧
      t.rd (R.LNK_RETRY l) = (s.rd (R.LNK_RETRY l) + u.retry.length) % 2 ^ 64 ∧
      (∀ e ∈ u.retry,
        Sent s t fun o => o = flitOf l e.1 ((u.expect + 4095) % 4096) u.naking e.2) ∧
      Kept s t (fun k => k = R.LNK_RETRY l ∨ k = R.LNK_FLITS_TX l) ∧ SameMem s t) ∧
    (s.linkState l = lkUp ∨ s.linkState l = lkStandby → s.partner l = none → ∀ (cause : Fin 3) (fails : Nat) (key : List (BitVec 8)),
      (cause = 2 → 64 < s.replaysNow l) →
      let max := s.fld (R.LNK_RT_MAX l) 3 0
      (max ≤ fails → Runs (.retrain l cause fails true key) s fun t => t.linkState l = lkDown ∧ t.rd (R.LNK_LAST_DOWN l) = cause.val + 1 ∧
        t.rd (R.PG_ERR (pageLnk l)) % 65536 = 0x7001 ∧ t.rd (R.LNK_RETRAINS l) = min (s.rd (R.LNK_RETRAINS l) + max) 0xFFFFFFFF ∧
        Kept s t (fun k => k = R.LNK_STAT l ∨ k = R.LNK_LAST_DOWN l ∨ k = R.LNK_RETRAINS l) ∧ t.links = s.links ∧ SameMem s t) ∧
      (fails < max → Runs (.retrain l cause fails false key) s fun t => t.linkState l = lkDown ∧ t.rd (R.LNK_LAST_DOWN l) = 4 ∧
        t.rd (R.PG_ERR (pageLnk l)) % 65536 = 0x7001 ∧ SameMem s t) ∧
      (fails < max → peerDigest key = s.digestAt (R.LNK_ADM_ID l) → u.outq = [] → u.retry = [] →
        Runs (.retrain l cause fails true key) s fun t =>
          t.linkState l = (if s.isSpare l && !s.carries l then lkStandby else lkUp) ∧ t.bit (R.TMB_LDLY l) 31 = false ∧
          t.rd (R.LNK_RETRAINS l) = min (s.rd (R.LNK_RETRAINS l) + fails + 1) 0xFFFFFFFF ∧ SameMem s t)) ∧
    (∀ n, n = ((u.replays.filter fun e => s.etime < e.1 + tickSec).map Prod.snd).sum →
      (s.rd (R.LNK_RETRY_WARN l) < n → u.warnedAt = none → Runs (.linkRetryWarning l) s fun t =>
        t.rd (R.PG_ERR (pageLnk l)) % 65536 = 0x7007 ∧ t.linkUnit l = { u with warnedAt := some s.etime } ∧
        Kept s t (fun _ => False) ∧ SameMem s t) ∧
      (n ≤ s.rd (R.LNK_RETRY_WARN l) → Runs (.linkRetryWarning l) s fun t => t.links = s.links ∧ Kept s t (fun _ => False) ∧
        SameMem s t)) ∧
    (∀ k : Nat, s.partner l = some k → s.carries l = true → s.linkState k = lkStandby →
      s.linkState l = lkRetrain ∨ s.linkState l = lkDown ∨ s.linkState l = lkRefused → u.outq = [] → (s.linkUnit k).outq = [] →
      (s.linkUnit k).retry.length < 1024 → s.quiescing (pageLnk k) = false → Runs (.switch l) s fun t =>
        t.linkState k = lkUp ∧ (s.spareOf l = some k → t.carrier l = k) ∧ t.carries k = true ∧ t.carries l = false ∧ t.linkUnit l = emptyLink ∧ (t.linkUnit k).retry = u.retry ∧
        (t.linkUnit k).next = u.next ∧ (t.linkUnit k).expect = u.expect ∧ t.rd (R.PG_ERR (pageLnk l)) % 65536 = 0x7002 ∧
        t.rd (R.LNK_SWITCHES l) = min (s.rd (R.LNK_SWITCHES l) + 1) 0xFFFFFFFF ∧
        t.rd (R.LNK_SWITCHES k) = min (s.rd (R.LNK_SWITCHES k) + 1) 0xFFFFFFFF ∧
        (Sent s t fun o => ∃ a n, o = flitOf k (s.linkUnit k).next a n (.mgmt .switch)) ∧
        (∀ e ∈ u.retry, Sent s t fun o => ∃ a n, o = flitOf k e.1 a n e.2) ∧ SameMem s t) ∧
    (∀ m : PeerMsg, u.outbox.find? (fun m => m.go) = some m →
      (u.credits = 0 → Runs (.peerMessageSend l) s fun t => t.links = s.links ∧ Kept s t (fun _ => False) ∧ SameMem s t) ∧
      (0 < u.credits → s.linkState l = lkUp → s.quiescing (pageLnk l) = false → u.outq = [] → u.retry.length < 1024 →
        0 < m.bytes.length → m.bytes.length ≤ 240 → Runs (.peerMessageSend l) s fun t => (t.linkUnit l).outbox = u.outbox.erase m ∧
          (t.linkUnit l).credits = u.credits - 1 ∧ (m.timed = true → (t.linkUnit l).sentAt = some s.dtime) ∧ (t.linkUnit l).retry = u.retry ++ [(u.next, .peer 0 m.bytes.length m.bytes m.poison)] ∧
          (Sent s t fun o => ∃ a n, o = flitOf l u.next a n (.peer 0 m.bytes.length m.bytes m.poison)) ∧ SameMem s t)) ∧
    (∀ (p : Posting) (ps : List Posting) (x : Run) (msg : List Byte) (poison : Bool) (at_ : Nat) (rest : List (List Byte × Bool × Nat)),
      u.postings = p :: ps → u.whole = (msg, poison, at_) :: rest → s.run p.run = some x → x.live = true → x.phase ≠ .computing →
      (msg.length ≤ p.len → p.off + p.len ≤ regionSpan → Runs (.peerMessageReceive l) s fun t =>
        t.memRead p.region p.off msg.length = msg ∧
        (∀ h o, o < regionSpan → (h ≠ p.region ∨ o < p.off ∨ p.off + msg.length ≤ o) → t.memByte h o = s.memByte h o) ∧
        (t.linkUnit l).postings = ps ∧ (t.linkUnit l).whole = rest ∧ t.leaf = s.leaf ∧
        ∃ y, t.run p.run = some y ∧ y.arrived.length = x.arrived.length + 1) ∧
      (p.len < msg.length → x.replayOf = none → x.journalled = false → Runs (.peerMessageReceive l) s fun t =>
        (∃ y, t.run p.run = some y ∧ y.phase = .done) ∧ t.mem = s.mem))

/-! The reduction engine. -/

/-- Trees and faults of RED: EN set with a sound plan starts from bucket 0 with no tree in service, and is measured, one with an unsound plan is
dropped with 0x700E; a rank reports a tree whose children have reported, TREE_GO is kept for the next release and passed on, a failed
link takes its tree out with a new generation, 0x7003 and the restart of the buckets in flight, and STOP brings FAULT; a STOP with a code
that RED does not stop with is discarded (log entry 49, the model's choice). -/
def Obligations.TreesEnterAndLeaveService : Prop :=
  ∀ s : State,
    let sends := fun (l : Nat) => s.linkUp l = true ∧ (s.linkUnit l).outq = [] ∧ (s.linkUnit l).retry.length < 1000 ∧
      s.quiescing (pageLnk l) = false
    let idle := ∀ e ∈ s.sched.runs, e.2.waitRow = none
    (Open s 0 pageRed →
      (idle → s.bit R.RED_CTL 0 = false → s.redRefuses = false → Runs (.redEnSet 0) s fun t => t.bit R.RED_CTL 0 = true ∧ t.rd R.RED_SEQ = 0 ∧
        t.rd R.RED_TSET = 0 ∧ t.rd R.RED_FAULT = 0 ∧ t.bit R.RED_STAT 1 = false ∧ t.red.buckets = [] ∧ t.red.reported = [] ∧ t.red.childReady = s.red.childReady ∧
        t.slotCount 6 = s.slotCount 6 + 1 ∧ t.slotValue 6 = shake256 (s.slotValue 6 ++ shake256 (s.fabricData []) 64) 64 ∧
        Kept s t (fun k => k = R.RED_CTL ∨ k = R.RED_SEQ ∨ k = R.RED_TSET ∨ k = R.RED_FAULT ∨ k = R.RED_STAT ∨ k = R.SEC_STAT) ∧
        SameMem s t) ∧
      (idle → s.bit R.RED_CTL 0 = false → s.redRefuses = true → Runs (.redEnSet 0) s fun t => t.bit R.RED_CTL 0 = false ∧ t.red = s.red ∧
        t.rd (R.PG_ERR pageRed) % 65536 = 0x700E ∧ Kept s t (fun _ => False) ∧ SameMem s t) ∧
      Runs (.redEnClear 0) s fun t => t.bit R.RED_CTL 0 = false ∧ t.red = { s.red with childReady := [] } ∧ Kept s t (fun k => k = R.RED_CTL) ∧ SameMem s t) ∧
    (∀ tree : Fin 10, s.bit R.RED_CTL 0 = true → s.inPlan tree = true →
      (s.red.reported.contains tree.val = false →
        (∀ d ∈ s.children tree, s.treeUp tree d = true ∧ (kvFind s.red.childReady (2 * tree.val + d - 1)).isSome = true) →
        (s.treeNeighbour tree 0 = none → Runs (.treeReady tree) s fun t => t.red = { s.red with reported := tree.val :: s.red.reported } ∧
          t.links = s.links ∧ Kept s t (fun _ => False) ∧ SameMem s t) ∧
        (s.treeNeighbour tree 0 ≠ none → ∀ l, s.treeLink tree 0 = some l → sends l → Runs (.treeReady tree) s fun t =>
          t.red = { s.red with reported := tree.val :: s.red.reported } ∧
          (Sent s t fun o => ∃ a n, o = flitOf l (s.linkUnit l).next a n (.mgmt (.treeReady tree))) ∧ SameMem s t)) ∧
      (idle → s.red.reported.contains tree.val = true → s.red.downSeen.contains tree.val = false → s.tset.testBit tree = false →
        (∀ e ∈ s.red.joining, e.1 ≠ tree.val) → ∀ gen : Nat, Runs (.treeGo tree gen) s fun t =>
          let g := if (s.treeNeighbour tree 0).isNone then s.generation else gen
          t.red = { s.red with joining := s.red.joining ++ [(tree.val, g)] } ∧ t.rd R.RED_TSET = s.rd R.RED_TSET ∧ SameMem s t ∧
          ∀ d ∈ s.children tree, ∀ l, s.treeLink tree d = some l → sends l →
            Sent s t fun o => ∃ q a n, o = flitOf l q a n (.mgmt (.treeGo tree g))) ∧
      (s.red.downSeen.contains tree.val = false → kvSorted s.red.buckets = true → (∀ e ∈ s.sched.runs, e.2.bucketWait = []) →
        let down := fun (t : State) (gen : Nat) =>
          t.tset = (if s.tset.testBit tree then s.tset - 2 ^ tree.val else s.tset) ∧ t.generation = gen % 65536 ∧
          tree.val ∈ t.red.downSeen ∧ SameMem s t ∧
          (let last := s.tset = 2 ^ tree.val ∧ s.bit R.RED_STAT 1 = false;
            (last → t.bit R.RED_STAT 1 = true ∧ t.rd R.RED_FAULT = 4 + s.rank * 256 ∧ t.rd (R.PG_ERR pageRed) % 65536 = 0x700C) ∧
            (¬ last → t.rd (R.PG_ERR pageRed) % 65536 = 0x7003)) ∧
          ∀ seq b, s.bucket seq = some b → b.released = true → s.tset.testBit tree = true → b.mask = s.tset →
            ∃ c, t.bucket seq = some c ∧ c.mask = t.tset ∧ c.gen = t.generation ∧ c.restarts = b.restarts + 1 ∧ c.landed = [] ∧
              c.sent = [] ∧ c.children = [] ∧ c.size = b.size ∧ c.own = b.own
        (∀ gen, Runs (.treeDown tree gen none) s fun t => down t (max gen s.generation)) ∧
        (∀ (l : LinkNo) gen, s.linkTree l = tree.val → (s.treeNeighbour tree (s.linkDir l)).isSome = true →
          s.linkState l = lkDown ∨ s.linkState l = lkRefused → s.partner l = none →
          Runs (.treeDown tree gen (some l)) s fun t => down t (s.generation + 1)))) ∧
    (s.bit R.RED_CTL 0 = true → s.bit R.RED_STAT 1 = false → ∀ code cause rank : Nat,
      let free := ∀ e ∈ s.sched.runs, e.2.bucketWait = []
      (isStopCode code = false → Runs (.stop code cause rank true) s fun t => t.red = s.red ∧ Kept s t (fun _ => False) ∧ SameMem s t) ∧
      (free → isStopCode code = true → Runs (.stop code cause rank true) s fun t => t.bit R.RED_STAT 1 = true ∧ t.rd R.RED_FAULT = 5 + rank % 4096 * 256 ∧
        t.rd (R.PG_ERR pageRed) % 65536 = code % 65536 ∧ SameMem s t) ∧
      (Runs (.stop code cause rank false) s fun t => t.red = s.red ∧ t.sched = s.sched ∧ Kept s t (fun _ => False) ∧ SameMem s t) ∧
      (∀ rn x, s.sched.runs = [(rn, x)] → x.bucketWait ≠ [] → x.live = true → x.replayOf = none → x.journalled = false →
        isStopCode code = true → Runs (.stop code cause rank true) s fun t => ∃ y, t.run rn = some y ∧ y.phase = .done))

/-- Buckets: a flit whose children have arrived, after the one before it on its tree, carries the leaf's own blocks up, or the sum of the
children's and its own, which the root lands; a bucket with every block landed puts the values and its record in the destination and no
other byte changes; one that is late stops RED with 0x700F. -/
def Obligations.BucketsReduceAndLand : Prop :=
  ∀ (s : State) (seq : Nat) (b : Bucket), s.bucket seq = some b → b.released = true → s.bit R.RED_STAT 1 = false →
    let n := bucketBlocks b.size
    (∀ fidx t : Nat, treesOf b.mask ≠ [] → (treesOf b.mask)[fidx % (treesOf b.mask).length]? = some t → fidx < bucketFlits b.size →
      b.sent.contains fidx = false → (fidx < (treesOf b.mask).length ∨ b.sent.contains (fidx - (treesOf b.mask).length) = true) →
      let kids := s.children t
      let out := fun k => if kids = [] then b.own.getD k (zeroBlock false) else
        (addBlocks (kids.map (fun d => kvGet (zeroBlock false) b.children (2 * k + d - 1)) ++ [b.own.getD k (zeroBlock false)])).1
      ((∀ d ∈ kids, ∀ i, i < 7 → 7 * fidx + i < n → (kvFind b.children (2 * (7 * fidx + i) + d - 1)).isSome = true) →
        (s.treeNeighbour t 0 ≠ none → ∀ l, s.treeLink t 0 = some l → s.linkUp l = true → (s.linkUnit l).outq = [] →
          (s.linkUnit l).retry.length < 1024 → s.quiescing (pageLnk l) = false → Runs (.redFlitReduce seq fidx) s fun u =>
            (Sent s u fun o => ∃ a k, o = flitOf l (s.linkUnit l).next a k
              (.red false (seq % 65536) fidx b.mask (flitBlocks out n fidx))) ∧
            u.bucket seq = some { b with sent := fidx :: b.sent } ∧ SameMem s u ∧
            u.rd R.RED_BLOCKS = (s.rd R.RED_BLOCKS + min 7 (n - 7 * fidx)) % 2 ^ 64) ∧
        (s.treeNeighbour t 0 = none → Runs (.redFlitReduce seq fidx) s fun u => SameMem s u ∧
          ∃ c, u.bucket seq = some c ∧ c.sent = fidx :: b.sent ∧
            (∀ i, i < 7 → 7 * fidx + i < n → kvFind c.landed (7 * fidx + i) = some (out (7 * fidx + i))) ∧
            (∀ j, (j < 7 * fidx ∨ 7 * fidx + 7 ≤ j) → kvFind c.landed j = kvFind b.landed j))) ∧
      (∀ d ∈ kids, 7 * fidx < n → kvFind b.children (2 * (7 * fidx) + d - 1) = none → Runs (.redFlitReduce seq fidx) s fun u =>
        u.red = s.red ∧ u.links = s.links ∧ Kept s u (fun _ => False) ∧ SameMem s u)) ∧
    (b.landed.length < n → Runs (.bucketLanding seq) s fun t => t.red = s.red ∧ Kept s t (fun _ => False) ∧ SameMem s t) ∧
    (b.landed.length = n → (∀ e ∈ s.sched.runs, e.2.waitRow = none) →
      (b.discard = true → Runs (.bucketLanding seq) s fun t => t.bucket seq = none ∧ SameMem s t) ∧
      (b.discard = false → b.off + b.size + 32 ≤ regionSpan → (∀ x, s.run b.run = some x → x.journalled = false) →
        let blocks := b.landed.map Prod.snd
        let poisoned := (blocks.filter blkPoison).length
        let nonfin := (blocks.filter blkNonfin).length
        Runs (.bucketLanding seq) s fun t => t.bucket seq = none ∧ t.leaf = s.leaf ∧
          (∀ i k, blocks[i]? = some k → t.memRead b.region (b.off + 64 * i) 64 =
            (List.range 16).flatMap (fun j => leBytes 4 (decodeElt k j).toNat)) ∧
          t.memRead b.region (b.off + b.size) 32 = b.record seq poisoned nonfin ∧
          (∀ h o, o < regionSpan → (h ≠ b.region ∨ o < b.off ∨ b.off + b.size + 32 ≤ o) → t.memByte h o = s.memByte h o) ∧
          t.rd R.RED_BUCKETS = (s.rd R.RED_BUCKETS + 1) % 2 ^ 64 ∧
          (0 < poisoned → nonfin = 0 → t.rd (R.PG_ERR pageRed) % 65536 = 0x700A ∧
            t.rd R.RED_POISON = min (s.rd R.RED_POISON + 1) 0xFFFFFFFF) ∧
          (0 < nonfin → t.rd (R.PG_ERR pageRed) % 65536 = 0x700B ∧ t.rd R.RED_NONFIN = min (s.rd R.RED_NONFIN + 1) 0xFFFFFFFF) ∧
          (∀ x, s.run b.run = some x → ∃ y, t.run b.run = some y ∧ y.bucketWait = x.bucketWait.erase seq ∧ y.phase = x.phase))) ∧
    ((∀ e ∈ s.sched.runs, e.2.bucketWait = []) → Runs (.bucketTimeout seq) s fun t => t.bit R.RED_STAT 1 = true ∧ t.rd R.RED_FAULT = 3 + s.rank * 256 ∧
      t.rd (R.PG_ERR pageRed) % 65536 = 0x700F ∧ t.etime = max s.etime (b.at_ + s.rd R.RED_TIMEOUT * 1000 * tickUs) ∧ SameMem s t) ∧
    (∀ rn x, s.sched.runs = [(rn, x)] → x.bucketWait ≠ [] → x.live = true → x.replayOf = none → x.journalled = false →
      Runs (.bucketTimeout seq) s fun t => ∃ y, t.run rn = some y ∧ y.phase = .done)

/-! The setpoint port. -/

/-- A launched frame whose turn it is on its cages, free of the frame before, departs or is withheld: withheld, the entry stays, the cause and the endpoint show in SPT_LAST_WH, and
nothing is sent; sent, it goes to the entry's destination with its setpoints limited, no two in a row further apart than the ramp, and
the entry takes them. The record that waited becomes pending. A PTP message that is ready goes first, and the frame waits. -/
def Obligations.SetpointFramesDepartOrAreWithheld : Prop :=
  ∀ (s : State) (e start : Nat) (r : SetRecord), kvFind s.spt.launched e = some r → r.endpoint = e → e < 65536 →
    r.entry = none → r.gone = [] → r.sent = false → r.held = false → (∀ c, kvGet 0 s.spt.freeAt c ≤ s.etime) →
    let ep := s.endpoint e
    let next := fun (t : State) => kvFind t.spt.launched e = none ∧ kvFind t.spt.waiting e = none ∧
      (∀ w, kvFind s.spt.waiting e = some w → kvFind t.spt.pending e = some w) ∧ t.dtime = max s.dtime start ∧ SameMem s t
    ((∀ c ∈ ep.cages, s.cageTurn e c = true) → s.quiescing pageSpt = false → (s.until start).delayReqReady = false →
      (∀ cause, (s.until start).sptCause ep r start = some cause → Runs (.setpointFrameDepart e start none false) s fun t => next t ∧
        t.rd R.SPT_LAST_WH = cause + e * 256 ∧ t.rd R.SPT_WITHHELD = (s.rd R.SPT_WITHHELD + 1) % 2 ^ 64 ∧ t.endpoint e = ep ∧
        t.bit (R.PG_IRQ_STAT pageSpt) 4 = true ∧
        (∀ code, sptCode cause = some code → s.spt.said.contains code = false → t.rd (R.PG_ERR pageSpt) % 65536 = code) ∧
        (∀ l, t.out = s.out ++ l → ∀ c d bs, Output.frame c d bs ∉ l) ∧
        Kept s t (fun k => k = R.SPT_LAST_WH ∨ k = R.SPT_WITHHELD)) ∧
      ((s.until start).sptCause ep r start = none → ep.cage < 2 →
        let p := ep.continues r.start
        let sp := ep.limit (p.getD ep.dflt) r.sp
        Runs (.setpointFrameDepart e start none false) s fun t => next t ∧
          (Sent s t fun o => o = .frame ep.cage ep.dst (s.frameBytes ep.cage ep.dst (framePayload ep r sp p.isNone))) ∧
          (∀ i x y, sp[i]? = some x → sp[i + 1]? = some y → (y - x).natAbs ≤ ep.ramp) ∧
          t.endpoint e = { ep with
            hasLast := true, lastFseq := fseqOf r.strikeAt, lastStart := r.start, lastSp := sp
            rE := r.start + (16 * ep.step + ep.dfltUs) * tickUs } ∧
          (∀ m, m ≠ e → t.endpoint m = s.endpoint m) ∧ t.rd R.SPT_FRAMES_TX = (s.rd R.SPT_FRAMES_TX + 1) % 2 ^ 64 ∧
          (changed r.sp sp ≠ 0 → t.rd R.SPT_CLAMPED = min (s.rd R.SPT_CLAMPED + changed r.sp sp) 0xFFFFFFFF) ∧
          Kept s t (fun k => k = R.SPT_CLAMPED ∨ k = R.SPT_FRAMES_TX))) ∧
    (ep.cage < 2 → s.cageTurn e ep.cage = true → s.quiescing pageSpt = false → (s.until start).delayReqReady = true →
      s.fld R.TMB_PTP_CTL 9 9 = ep.cage → Runs (.setpointFrameDepart e start none false) s fun t => t.spt = s.spt ∧
        (Sent s t fun o => ∃ b, o = .delayReq ep.cage (max s.dtime start) b) ∧ Kept s t (fun _ => False) ∧ SameMem s t) ∧
    (s.sptTurn e = false ∨ s.quiescing pageSpt = true → Runs (.setpointFrameDepart e start none false) s fun t => t.spt = s.spt ∧
      t.dtime = s.dtime ∧ Kept s t (fun _ => False) ∧ SameMem s t)

/-- The endpoint table and the port's controls: READ shows an entry to client 0 and its own client alone, WRITE by client 0 refuses an impossible
entry with 0xB009, else the entry comes into force with the other rights, and its R_E moves when it is enabled or its step changes;
EN cleared withholds every record; a cage that leaves service shows and is reported. -/
def Obligations.EndpointTableAndCages : Prop :=
  ∀ s : State,
    (∀ c : Client, Open s c pageSpt →
      let n := s.fld (banked c R.SPT_SEL) 15 0
      (c = 0 ∨ (s.endpoint n).client = c.val → Runs (.sptCmdRead c) s fun t => t.rd (banked c R.SPT_RESULT) = 1 ∧
        (∀ i, i < 32 → t.rd (banked c (sptE i)) = fieldOf (s.endpoint n).bytes (4 * i) 4) ∧ t.spt = s.spt ∧
        Kept s t (fun k => k = banked c R.SPT_RESULT ∨ ∃ i, i < 32 ∧ k = banked c (sptE i)) ∧ SameMem s t) ∧
      (c ≠ 0 → (s.endpoint n).client ≠ c.val → Runs (.sptCmdRead c) s fun t => t.rd (banked c R.SPT_RESULT) = 3 ∧
        t.rd (R.PG_ERR pageHif) % 65536 = 0x1002 ∧ t.spt = s.spt ∧
        Kept s t (fun k => k = banked c R.SPT_RESULT ∨ k = R.HIF_ACC_LAST) ∧ SameMem s t) ∧
      (c ≠ 0 → Runs (.sptCmdWrite c) s fun t => t.spt = s.spt ∧ t.rd (R.PG_ERR pageHif) % 65536 = 0x1002 ∧
        Kept s t (fun k => k = R.HIF_ACC_LAST) ∧ SameMem s t)) ∧
    (Open s 0 pageSpt →
      let n := s.fld (banked 0 R.SPT_SEL) 15 0
      let old := s.endpoint n
      let new := endpointOf ((List.range 8).flatMap fun i => leBytes 4 (s.rd (banked 0 (sptE i))))
      (new.refused = true → Runs (.sptCmdWrite 0) s fun t => t.rd (banked 0 R.SPT_RESULT) = 5 ∧ t.spt.table = s.spt.table ∧
        t.spt.staged = s.spt.staged ∧ (s.spt.said.contains 0xB009 = false → t.rd (R.PG_ERR pageSpt) % 65536 = 0xB009) ∧
        Kept s t (fun k => k = banked 0 R.SPT_RESULT) ∧ SameMem s t) ∧
      (new.refused = false →
        (s.rightsWait = true → Runs (.sptCmdWrite 0) s fun t => t.rd (banked 0 R.SPT_RESULT) = 1 ∧
          kvFind t.spt.staged n = some new ∧ t.spt.table = s.spt.table ∧ Kept s t (fun k => k = banked 0 R.SPT_RESULT) ∧ SameMem s t) ∧
        (s.rightsWait = false → s.spt.staged = [] → s.sched.commit = none → Runs (.sptCmdWrite 0) s fun t =>
          let e := t.endpoint n
          t.rd (banked 0 R.SPT_RESULT) = 1 ∧ t.spt.staged = [] ∧ t.rd R.SEC_RIGHTS_GEN = (s.rd R.SEC_RIGHTS_GEN + 1) % 2 ^ 64 ∧
          e.dst = new.dst ∧ e.en = new.en ∧ e.cage = new.cage ∧ e.client = new.client ∧ e.step = new.step ∧ e.ramp = new.ramp ∧
          e.min = new.min ∧ e.max = new.max ∧ e.dflt = new.dflt ∧ e.dfltUs = new.dfltUs ∧
          ((new.en = true ∧ old.en = false) ∨ new.step ≠ old.step → e.hasLast = false ∧
            e.rE = s.dtime + (32 * max old.step new.step + new.dfltUs) * tickUs) ∧
          (∀ m, m ≠ n → t.endpoint m = s.endpoint m) ∧
          Kept s t (fun k => k = banked 0 R.SPT_RESULT ∨ k = R.SEC_RIGHTS_GEN ∨ k = R.SEC_RIGHTS_M) ∧ SameMem s t)) ∧
      (∀ v : BitVec 32,
        (v.toNat.testBit 0 = true → Runs (.sptCtlWrite 0 v) s fun t => (∀ i, i < 5 → t.bit R.SPT_CTL i = v.toNat.testBit i) ∧
          t.spt = s.spt ∧ Kept s t (fun k => k = R.SPT_CTL) ∧ SameMem s t) ∧
        (v.toNat.testBit 0 = false → Runs (.sptCtlWrite 0 v) s fun t => (∀ i, i < 5 → t.bit R.SPT_CTL i = v.toNat.testBit i) ∧
          t.spt.pending = [] ∧ t.spt.waiting = [] ∧ t.spt.launched = [] ∧ t.spt.table = s.spt.table ∧
          t.rd R.SPT_WITHHELD =
            (s.rd R.SPT_WITHHELD + s.spt.launched.length + s.spt.pending.length + s.spt.waiting.length) % 2 ^ 64 ∧
          Kept s t (fun k => k = R.SPT_CTL ∨ k = R.SPT_WITHHELD ∨ k = R.SPT_LAST_WH) ∧ SameMem s t))) ∧
    (∀ (cage : CageNo) (modAbs txFault los lock : Bool), let up := !modAbs && !txFault && !los && lock
      Runs (.cageLinkChange cage modAbs txFault los lock) s fun t => t.bit R.SPT_STAT cage = up ∧
        (s.bit R.SPT_STAT cage = true → up = false → t.bit (R.PG_IRQ_STAT pageSpt) 5 = true ∧
          (s.spt.said.contains 0xB006 = false → t.rd (R.PG_ERR pageSpt) % 65536 = 0xB006)) ∧
        t.spt.table = s.spt.table ∧ t.spt.pending = s.spt.pending ∧ t.spt.launched = s.spt.launched ∧
        Kept s t (fun k => k = R.SPT_STAT) ∧ SameMem s t)

/-! Queues and admin commands. -/

/-- Doorbells, queues and controllers: a doorbell adds its entries to the queue or frees its entries and posts what was held, a wrong one changes
no queue and raises 0x100A; a queue is made with the values given or refused with the status of its first fault, and deleted once no
fetched command of it is left; CC.EN makes the admin queues of 2 to 4,096 entries, or ends the grant. Of a logical device that no host
reaches, nothing comes. -/
def Obligations.QueuesAreMadeRungAndDeleted : Prop :=
  ∀ (s : State) (c : Client),
    let x := s.ctrl c
    (s.reached c = false → ∀ (q n m : Nat) (ids : List (Nat × Bool)) (v : Bool),
      ∀ i ∈ [Instr.submissionDoorbellWrite c q n ids m, .completionDoorbellWrite c q n, .ccEnWrite c v n m], Runs i s fun t => t = s) ∧
    (s.reached c = true →
    (∀ (q tail ns : Nat) (ids : List (Nat × Bool)),
      (∀ sq, kvFind x.sqs q = some sq → sq.deleting = none → tail < sq.size → Runs (.submissionDoorbellWrite c q tail ids ns) s fun t =>
        kvFind (t.ctrl c).sqs q = some { sq with
          tail := tail, ids := sq.ids ++ ids.take ((tail + sq.size - sq.tail) % sq.size) } ∧
        (∀ p, p ≠ q → kvFind (t.ctrl c).sqs p = kvFind x.sqs p) ∧ (t.ctrl c).cqs = x.cqs ∧
        (q ≠ 0 → sq.prio = 0 → t.rd R.HIF_FETCH_MAX = max (s.rd R.HIF_FETCH_MAX) (min ns 0xFFFFFFFF)) ∧
        Kept s t (fun k => q ≠ 0 ∧ sq.prio = 0 ∧ k = R.HIF_FETCH_MAX) ∧ SameMem s t) ∧
      (x.aers = [] → (∀ sq, kvFind x.sqs q = some sq → sq.deleting ≠ none ∨ sq.size ≤ tail) →
        Runs (.submissionDoorbellWrite c q tail ids ns) s fun t => t.rd (R.PG_ERR pageHif) % 65536 = 0x100A ∧
          (t.ctrl c).sqs = x.sqs ∧ (t.ctrl c).cqs = x.cqs ∧ Kept s t (fun _ => False) ∧ SameMem s t)) ∧
    (∀ q head : Nat,
      (∀ cq, kvFind x.cqs q = some cq → head < cq.size →
        (cq.held = [] → Runs (.completionDoorbellWrite c q head) s fun t => kvFind (t.ctrl c).cqs q = some { cq with head := head } ∧
          (t.ctrl c).sqs = x.sqs ∧ ((∀ e ∈ s.sched.runs, e.2.phase ≠ .posting) → Kept s t (fun _ => False)) ∧ SameMem s t) ∧
        (∀ e, cq.held = [e] → (cq.tail + 1) % cq.size ≠ head → Runs (.completionDoorbellWrite c q head) s fun t =>
          (∃ d, kvFind (t.ctrl c).cqs q = some d ∧ d.held = [] ∧ d.head = head ∧ d.tail = (cq.tail + 1) % cq.size) ∧
          (Sent s t fun o => ∃ h dw1, o = .cqe c q e.id h cq.phase e.sct e.sc e.dnr e.dw0 dw1) ∧ SameMem s t)) ∧
      (x.aers = [] → (∀ cq, kvFind x.cqs q = some cq → cq.size ≤ head) → Runs (.completionDoorbellWrite c q head) s fun t =>
        t.rd (R.PG_ERR pageHif) % 65536 = 0x100A ∧ (t.ctrl c).sqs = x.sqs ∧ (t.ctrl c).cqs = x.cqs ∧ Kept s t (fun _ => False) ∧
        SameMem s t)) ∧
    (∀ asqs acqs : Nat,
      (x.en = false → 2 ≤ asqs → asqs ≤ 4096 → 2 ≤ acqs → acqs ≤ 4096 → Runs (.ccEnWrite c true asqs acqs) s fun t => (t.ctrl c).en = true ∧
        (t.ctrl c).sqs = [(0, ⟨asqs, 0, 0, 0, 0, [], none⟩)] ∧ (t.ctrl c).cqs = [(0, ⟨acqs, 0, true, 0, 0, true, []⟩)] ∧
        Kept s t (fun _ => False) ∧ SameMem s t) ∧
      (x.en = true ∨ asqs < 2 ∨ 4096 < asqs ∨ acqs < 2 ∨ 4096 < acqs → Runs (.ccEnWrite c true asqs acqs) s fun t => t.ctrls = s.ctrls ∧ Kept s t (fun _ => False) ∧ SameMem s t) ∧
      Runs (.ccEnWrite c false asqs acqs) s fun t => t.ctrl c = noCtrl ∧ t.rd (R.HIF_QUSE c) = 0 ∧
        t.rd R.HIF_QFREE = (s.rd R.HIF_QFREE + s.rd (R.HIF_QUSE c)) % 2 ^ 64 ∧
        ((∀ e ∈ s.sched.runs, e.2.phase ≠ .posting) → Kept s t (fun k => k = R.HIF_QUSE c ∨ k = R.HIF_QFREE)) ∧ SameMem s t) ∧
    (∀ (cid : Cid) (q size : Nat), cid.c = c → AdminReady s cid → s.cqOf cid = 0 →
      (∀ (prio : Fin 4) (cq : Nat), let made := q ≠ 0 ∧ q ≤ s.rd (R.HIF_QUSE c) ∧ kvFind x.sqs q = none
        let sized := 2 ≤ size ∧ size ≤ 4096
        let known := cq ≠ 0 ∧ (kvFind x.cqs cq).isSome = true
        (made → sized → known → Runs (.createIoSubmissionQueue cid q size prio cq true) s fun t => Answered s t cid 0 0 0 ∧
          kvFind (t.ctrl c).sqs q = some ⟨size, prio.val, cq, 0, 0, [], none⟩ ∧
          (∀ p, p ≠ q → p ≠ 0 → kvFind (t.ctrl c).sqs p = kvFind x.sqs p) ∧ SameMem s t) ∧
        (¬ made → Runs (.createIoSubmissionQueue cid q size prio cq true) s fun t => Answered s t cid 1 1 0 ∧
          (∀ p, p ≠ 0 → kvFind (t.ctrl c).sqs p = kvFind x.sqs p)) ∧
        (made → ¬ sized → Runs (.createIoSubmissionQueue cid q size prio cq true) s fun t => Answered s t cid 1 2 0 ∧
          kvFind (t.ctrl c).sqs q = none) ∧
        (made → sized → ¬ known → Runs (.createIoSubmissionQueue cid q size prio cq true) s fun t => Answered s t cid 1 0 0 ∧
          kvFind (t.ctrl c).sqs q = none) ∧
        (made → sized → known → Runs (.createIoSubmissionQueue cid q size prio cq false) s fun t => Answered s t cid 0 scField 0 ∧
          kvFind (t.ctrl c).sqs q = none)) ∧
      (∀ (vector : Nat) (ien : Bool), q ≠ 0 → q ≤ s.rd (R.HIF_QUSE c) → kvFind x.cqs q = none → 2 ≤ size → size ≤ 4096 →
        (vector < 48 → Runs (.createIoCompletionQueue cid q size vector ien true) s fun t => Answered s t cid 0 0 0 ∧
          kvFind (t.ctrl c).cqs q = some ⟨size, vector, ien, 0, 0, true, []⟩ ∧ SameMem s t) ∧
        (48 ≤ vector → Runs (.createIoCompletionQueue cid q size vector ien true) s fun t => Answered s t cid 1 8 0 ∧
          kvFind (t.ctrl c).cqs q = none)) ∧
      (∀ sq, kvFind x.sqs q = some sq → q ≠ 0 → s.unadmitted (ofQueue c q) = false →
        ((∀ f ∈ x.fetched, f.1 ≠ q) → Runs (.deleteIoSubmissionQueue cid q) s fun t => Answered s t cid 0 0 0 ∧
          kvFind (t.ctrl c).sqs q = none ∧ (∀ p, p ≠ q → p ≠ 0 → kvFind (t.ctrl c).sqs p = kvFind x.sqs p) ∧ SameMem s t) ∧
        (∀ f ∈ x.fetched, f.1 = q → Runs (.deleteIoSubmissionQueue cid q) s fun t =>
          kvFind (t.ctrl c).sqs q = some { sq with deleting := some cid.id } ∧ (t.ctrl c).cqs = x.cqs ∧ SameMem s t)) ∧
      (q ≠ 0 → (kvFind x.cqs q).isSome = true →
        ((∀ e ∈ x.sqs, e.2.cq ≠ q) → Runs (.deleteIoCompletionQueue cid q) s fun t => Answered s t cid 0 0 0 ∧
          kvFind (t.ctrl c).cqs q = none ∧ SameMem s t) ∧
        (∀ e ∈ x.sqs, e.2.cq = q → Runs (.deleteIoCompletionQueue cid q) s fun t => Answered s t cid 1 0xC 0 ∧
          kvFind (t.ctrl c).cqs q = kvFind x.cqs q ∧ SameMem s t))))

/-- Admin commands: Identify and Get Log Page return the data the unit holds, and a log read re-arms its event; features are stored and read, and
Number of Queues grants from the client's room and the pool; Abort takes back a command that is not yet fetched or admitted; an
Asynchronous Event Request waits, or answers with the event that waits. -/
def Obligations.AdminCommandsAnswer : Prop :=
  ∀ (s : State) (cid : Cid), AdminReady s cid →
    let x := s.ctrl cid.c
    (∀ cns nsid : Nat,
      (([0x00, 0x01, 0x02, 0x05, 0x06, 0x08, 0x1C].contains cns) = true →
        (∀ d u, s.identifyData cid.c cns nsid = some (d, u) → Runs (.identify cid cns nsid) s fun t => Answered s t cid 0 0 0 ∧
          (Sent s t fun o => o = .hostData cid.c cid.q cid.id d) ∧ SameMem s t) ∧
        (s.identifyData cid.c cns nsid = none → Runs (.identify cid cns nsid) s fun t => Answered s t cid 0 scNamespace 0)) ∧
      (([0x00, 0x01, 0x02, 0x05, 0x06, 0x08, 0x1C].contains cns) = false → Runs (.identify cid cns nsid) s fun t =>
        Answered s t cid 0 scField 0 ∧ SameMem s t)) ∧
    (∀ (lid off len : Nat) (rae : Bool),
      (∀ d, s.logPage cid.c lid = some d →
        (lid ≠ 0xC1 ∨ cid.c = 0 → Runs (.getLogPage cid lid off len rae) s fun t => Answered s t cid 0 0 0 ∧
          (Sent s t fun o => o = .hostData cid.c cid.q cid.id ((d.drop off).take len)) ∧ SameMem s t ∧
          (rae = true → (t.ctrl cid.c).reported = x.reported) ∧
          (rae = false → lid ≠ 0x05 → lid ≠ 0xC1 → (t.ctrl cid.c).reported = x.reported.filter fun y => y ≠ aerTypeOf lid)) ∧
        (lid = 0xC1 → cid.c ≠ 0 → Runs (.getLogPage cid lid off len rae) s fun t => Answered s t cid 2 0x86 0 ∧
          (t.ctrl cid.c).reported = x.reported)) ∧
      (s.logPage cid.c lid = none → Runs (.getLogPage cid lid off len rae) s fun t => Answered s t cid 1 9 0 ∧ SameMem s t)) ∧
    (∀ (fid : Nat) (v : BitVec 32),
      (featureOk fid = true → fid ≠ 7 →
        (Runs (.setFeatures cid fid v) s fun t => Answered s t cid 0 0 0 ∧ kvFind (t.ctrl cid.c).features fid = some v.toNat ∧
          (∀ f, f ≠ fid → kvFind (t.ctrl cid.c).features f = kvFind x.features f) ∧ SameMem s t) ∧
        Runs (.getFeatures cid fid v) s fun t => Answered s t cid 0 0 (kvGet 0 x.features fid) ∧ (t.ctrl cid.c).features = x.features ∧
          SameMem s t) ∧
      (fid = 7 → let g := s.queueGrant cid.c (max (v.toNat % 65536) (v.toNat / 65536) + 1)
        (g ≠ 0 → Runs (.setFeatures cid fid v) s fun t => Answered s t cid 0 0 ((g - 1) * 65537) ∧
          t.rd (R.HIF_QUSE cid.c) = (s.rd (R.HIF_QUSE cid.c) + g) % 2 ^ 64 ∧ t.rd R.HIF_QFREE = s.rd R.HIF_QFREE - g ∧ SameMem s t) ∧
        (s.rd (R.HIF_QUSE cid.c) ≠ 0 → Runs (.getFeatures cid fid v) s fun t =>
          Answered s t cid 0 0 ((s.rd (R.HIF_QUSE cid.c) - 1) * 65537) ∧ SameMem s t)) ∧
      (featureOk fid = false → (Runs (.setFeatures cid fid v) s fun t => Answered s t cid 0 scField 0 ∧
        (t.ctrl cid.c).features = x.features) ∧ Runs (.getFeatures cid fid v) s fun t => Answered s t cid 0 scField 0)) ∧
    (∀ q id : Nat, q ≠ 0 → let target : Cid := ⟨cid.c, q, id⟩
      (kvFind x.sqs q = none → Runs (.abort cid q id) s fun t => Answered s t cid 0 0 1 ∧ t.sched = s.sched ∧ SameMem s t) ∧
      (∀ sq, kvFind x.sqs q = some sq → sq.deleting = none →
        (sq.ids.contains (id, true) = true → s.cqOf target ≠ s.cqOf cid → q ≠ pmbQ → Runs (.abort cid q id) s fun t =>
          Answered s t cid 0 0 0 ∧ Answered s t target 7 0x4B 0 ∧ t.sched = s.sched ∧ SameMem s t ∧
          ∃ sq', kvFind (t.ctrl cid.c).sqs q = some sq' ∧ sq'.ids = sq.ids.erase (id, true)) ∧
        (sq.ids.contains (id, true) = false →
          (s.unadmitted (fun m => decide (m.cid = target)) = false → Runs (.abort cid q id) s fun t => Answered s t cid 0 0 1 ∧
            t.sched = s.sched ∧ SameMem s t) ∧
          (s.unadmitted (fun m => decide (m.cid = target)) = true → kvSorted s.sched.runs = true → Runs (.abort cid q id) s fun t =>
            (∀ m ∈ t.sched.queue, m.cid ≠ target) ∧
            (∀ e ∈ t.sched.runs, e.2.phase = .formed → ∀ m ∈ e.2.cmds, m.cid ≠ target) ∧ SameMem s t)))) ∧
    ((x.aers.length < 8 → x.events = [] → Runs (.asynchronousEventRequest cid) s fun t => (t.ctrl cid.c).aers = x.aers ++ [cid.id] ∧
        (t.ctrl cid.c).cqs = x.cqs ∧ SameMem s t) ∧
      (∀ type info lid es, x.aers = [] → x.events = (type, info, lid) :: es → Runs (.asynchronousEventRequest cid) s fun t =>
        Answered s t cid 0 0 (type + info * 256 + lid * 65536) ∧ (t.ctrl cid.c).events = es ∧ (t.ctrl cid.c).aers = [] ∧
        type ∈ (t.ctrl cid.c).reported ∧ SameMem s t) ∧
      (8 ≤ x.aers.length → Runs (.asynchronousEventRequest cid) s fun t => Answered s t cid 1 5 0 ∧ (t.ctrl cid.c).aers = x.aers ∧
        SameMem s t))

/-! The firmware store. -/

/-- Download stages a piece or refuses it with 0xA00B; Commit refuses the running endpaper and an image that fails a check, with the event of the
check, and else writes the inactive endpaper with the next SEQ, reads it back and names it in trial in all three selector copies;
select names a stored image; activate also drains, with RB# low. Clients other than 0 may do none of it. -/
def Obligations.FirmwareIsStagedAndCommitted : Prop :=
  ∀ (s : State) (cid : Cid), AdminReady s cid →
    (cid.c = 0 →
      (∀ (off : Nat) (data : List Byte),
        (s.pieceOk off data = true → Runs (.firmwareImageDownload cid off data) s fun t => Answered s t cid 0 0 0 ∧
          t.nor = { s.nor with staged := s.nor.staged ++ [(off, data)] } ∧ SameMem s t) ∧
        (s.pieceOk off data = false → Runs (.firmwareImageDownload cid off data) s fun t => Answered s t cid 0 scField 0 ∧
          t.rd (R.PG_ERR pageNor) % 65536 = 0xA00B ∧ t.nor = s.nor ∧ SameMem s t)) ∧
      (∀ (slot : Nat) (sig rb : Bool), slotBack slot = none ∨ slotBack slot = some s.runsBack →
        ∀ i ∈ [Instr.firmwareCommitReplace cid slot sig rb, .firmwareCommitActivate cid slot sig rb],
          Runs i s fun t => Answered s t cid 1 6 0 ∧ t.nor = s.nor ∧ t.rd R.NOR_CMT_STAT = 0x601 ∧ SameMem s t) ∧
      (∀ (slot : Nat) (b sig : Bool), slotBack slot = some b → b ≠ s.runsBack →
        let im : FwImage := { parseImage s.staged with seq := 0 }
        let seq := (s.endpaper s.runsBack).seq + 1
        let written := fun (t : State) => (t.endpaper b).seq = seq ∧ (t.endpaper b).svn = im.svn ∧
          (t.endpaper b).bodyDigest = im.bodyDigest ∧ t.endpaper s.runsBack = s.endpaper s.runsBack ∧
          t.nor.selectors = List.replicate 3 ⟨b, true, seq⟩ ∧ t.nor.attempts = [] ∧ t.bit R.NOR_STAT 1 = true ∧ t.runsBack = s.runsBack ∧
          SameMem s t
        (∀ code rb, s.imageFault im sig = some code →
          ∀ i ∈ [Instr.firmwareCommitReplace cid slot sig rb, .firmwareCommitActivate cid slot sig rb],
            Runs i s fun t => Answered s t cid 1 7 0 ∧ t.rd (R.PG_ERR pageNor) % 65536 = code ∧ t.nor = s.nor ∧
              t.rd R.NOR_CMT_STAT = 0x701 ∧ SameMem s t) ∧
        (s.imageFault im sig = none →
          (Runs (.firmwareCommitReplace cid slot sig true) s fun t => Answered s t cid 0 0 0 ∧ written t ∧ t.rd R.NOR_CMT_STAT = 1) ∧
          (Runs (.firmwareCommitReplace cid slot sig false) s fun t => Answered s t cid 1 7 0 ∧ t.nor.selectors = s.nor.selectors ∧
            t.bit R.NOR_STAT (if b then 3 else 2) = false ∧ t.rd (R.PG_ERR pageNor) % 65536 = 0xA004 ∧ SameMem s t) ∧
          (Runs (.firmwareCommitActivate cid slot sig true) s fun t => written t ∧ t.nor.running = true ∧ t.nor.activation = some cid ∧
            t.rd R.SYS_STATE = 9 ∧ t.sys.low = true ∧ t.rd (R.PG_ERR pageNor) % 65536 = 0xA005)) ∧
        (∀ code, s.imageFault (s.endpaper b) sig = some code → Runs (.firmwareCommitSelect cid slot sig) s fun t =>
          Answered s t cid 1 7 0 ∧ t.rd (R.PG_ERR pageNor) % 65536 = code ∧ t.nor = s.nor ∧ SameMem s t) ∧
        (s.imageFault (s.endpaper b) sig = none → Runs (.firmwareCommitSelect cid slot sig) s fun t => Answered s t cid 0 0 0 ∧
          t.nor.selectors = List.replicate 3 ⟨b, true, (s.endpaper b).seq⟩ ∧ t.nor.attempts = [] ∧ t.nor.front = s.nor.front ∧
          t.nor.back = s.nor.back ∧ t.nor.settings = s.nor.settings ∧ t.nor.rollback = s.nor.rollback ∧ t.nor.fences = s.nor.fences ∧
          t.bit R.NOR_STAT 1 = true ∧ SameMem s t)) ∧
      (∀ (slot : Nat) (sig : Bool), slotBack slot = some s.runsBack → Runs (.firmwareCommitSelect cid slot sig) s fun t =>
        Answered s t cid 0 0 0 ∧ t.nor = s.nor ∧ SameMem s t)) ∧
    (cid.c ≠ 0 → ∀ (off slot : Nat) (data : List Byte) (sig rb : Bool),
      ∀ i ∈ [Instr.firmwareImageDownload cid off data, .firmwareCommitReplace cid slot sig rb, .firmwareCommitSelect cid slot sig,
        .firmwareCommitActivate cid slot sig rb], Runs i s fun t => Answered s t cid 2 0x86 0 ∧ t.nor = s.nor ∧ SameMem s t)

/-- An activation: once the fetched work is done the boot ROM starts the endpaper that the selector names, with an attempt and its measurement,
or finds none valid; after 1 s without, it gives up. A trial that reaches READY is confirmed, and RAISE moves the rollback counter; 3 s
without bring the old endpaper back, unless it was found invalid. ROM recovery writes and boots a valid image. -/
def Obligations.ActivationsConfirmOrReturn : Prop :=
  ∀ s : State,
    (s.nor.running = true → s.nor.drained = false → ∀ front back : Bool,
      let fault := fun (b : Bool) => s.imageFault (s.endpaper b) (if b then back else front)
      (∀ (sel : Selector) (d : Bool), s.workDone = true → s.nor.selectors = [sel, sel, sel] → fault sel.active = none →
        (s.nor.attempts.filter fun q => q = sel.seq).length < 2 → Runs (.activationDrainEnd d front back) s fun t =>
          t.runsBack = sel.active ∧ t.nor.drained = true ∧ t.nor.running = true ∧ t.nor.selectors = s.nor.selectors ∧
          t.nor.attempts = (if sel.trial then s.nor.attempts ++ [sel.seq] else s.nor.attempts) ∧ t.slotCount 1 = s.slotCount 1 + 1 ∧
          t.slotCount 2 = s.slotCount 2 + 1 ∧ SameMem s t) ∧
      (∀ d, s.workDone = true → (fault true).isSome = true → (fault false).isSome = true → Runs (.activationDrainEnd d front back) s fun t =>
        t.rd R.SYS_STATE = 8 ∧ t.rd (R.PG_ERR pageNor) % 65536 = 0xA008 ∧ t.nor.running = false ∧ t.bit R.NOR_STAT 6 = true ∧
        t.sys.low = true ∧ SameMem s t) ∧
      (s.workDone = false → s.sys.low = true → ∀ cid : Cid, s.nor.activation = some cid → cid.q = 0 →
        (cid.q, cid.id) ∈ (s.ctrl cid.c).fetched → Runs (.activationDrainEnd false front back) s fun t => Answered s t cid 1 0x0B 0 ∧
          t.nor.running = false ∧ t.rd R.SYS_STATE = 6 ∧ t.sys.low = false ∧ s.sys.lowAt + tickSec ≤ t.etime ∧
          t.nor.selectors = s.nor.selectors ∧ t.rd R.NOR_CMT_STAT = 0xB01 ∧ SameMem s t)) ∧
    (s.inTrial = true →
      let b := s.runsBack
      let im := s.endpaper b
      let v := min im.svn 1024
      let confirmed := fun (t : State) => t.nor.selectors = List.replicate 3 ⟨b, false, im.seq⟩ ∧ t.bit R.NOR_STAT 1 = false ∧
        (im.raise = true → t.nor.rollback = s.nor.rollback.map fun x => max x v) ∧
        (im.raise = false → t.nor.rollback = s.nor.rollback) ∧ SameMem s t
      (s.nor.drained = false → s.rd R.SYS_STATE = 6 → s.sys.low = false → s.released = true → Runs (.trialConfirmation) s fun t =>
        confirmed t ∧ (im.raise = true → ∀ x ∈ s.nor.rollback, x < v → t.rd (R.PG_ERR pageNor) % 65536 = 0xA009)) ∧
      (s.nor.drained = true → s.sys.low = true → ∀ cid : Cid, s.nor.activation = some cid → cid.q = 0 →
        (cid.q, cid.id) ∈ (s.ctrl cid.c).fetched →
        (Runs (.trialConfirmation) s fun t => confirmed t ∧ Answered s t cid 0 0 0 ∧ t.nor.running = false ∧ t.rd R.SYS_STATE = 6 ∧
          t.sys.low = false) ∧
        (let old := if s.bit R.NOR_STAT (if !b then 3 else 2) then !b else b
         Runs (.activationConfirmTimeout) s fun t => Answered s t cid 1 7 0 ∧ t.runsBack = old ∧ t.nor.running = false ∧
          t.nor.selectors = List.replicate 3 ⟨old, false, (s.endpaper old).seq⟩ ∧ t.rd (R.PG_ERR pageNor) % 65536 = 0xA006 ∧
          t.rd R.SYS_STATE = 6 ∧ s.sys.bringupFrom + 3 * tickSec ≤ t.etime ∧ SameMem s t))) ∧
    (s.inTrial = false → Runs (.trialConfirmation) s fun t => t.nor = s.nor ∧ Kept s t (fun _ => False) ∧ SameMem s t) ∧
    (∀ (h : MsgHead) (image : List Byte) (sig : Bool), let im : FwImage := { parseImage image with seq := 0 }
      (s.rd R.SYS_STATE = 8 → h.magic = 0x7A90 → h.len ≤ image.length → h.status = 0 → h.version = 1 →
        (s.imageFault im sig = none → Runs (.romRecoveryImage h image sig true) s fun t =>
          t.nor.front.seq = (s.endpaper s.runsBack).seq + 1 ∧ t.nor.front.svn = im.svn ∧ t.nor.back = s.nor.back ∧
          t.nor.selectors = List.replicate 3 ⟨false, true, (s.endpaper s.runsBack).seq + 1⟩ ∧ t.runsBack = false ∧ t.rd R.SYS_STATE = 2 ∧
          (Sent s t fun o => o = .message .sideband (responseBytes 0x7A90 h.code h.tag 0 [])) ∧ SameMem s t) ∧
        (∀ code, s.imageFault im sig = some code → Runs (.romRecoveryImage h image sig true) s fun t => t.nor = s.nor ∧
          t.rd (R.PG_ERR pageNor) % 65536 = code ∧ t.rd R.SYS_STATE = 8 ∧ SameMem s t)) ∧
      (s.rd R.SYS_STATE ≠ 8 → Runs (.romRecoveryImage h image sig true) s fun t => t.nor = s.nor ∧ Kept s t (fun _ => False) ∧
        SameMem s t))

/-! The host interface. -/

/-- The host link, the fabric manager, DOE, CXL.mem and the attention pattern: each report and response carries what the unit holds; a device reset
ends the device's queues and its waiting commands and nothing of its contexts and regions; CXL.mem reads and writes the client's window,
with poison; the pattern leaves once, and again only after the cause was read. -/
def Obligations.HostInterfaceAndCxlMem : Prop :=
  ∀ (s : State) (c : Client),
    (s.reached c = true → Runs (.hdmDecoderCommit c none) s fun t => t.bit (R.TQ_CXLM_STAT c) 0 = false ∧
      Kept s t (fun k => k = R.TQ_CXLM_STAT c) ∧ SameMem s t ∧ SameWork s t) ∧
    (s.reached c = false → ∀ i ∈ [Instr.hdmDecoderCommit c none, .doeDiscovery c 0, .cxlTableAccess c 0, .cxlMemRead c 0 1 []],
      Runs i s fun t => t = s) ∧
    (∀ d : Hdm, s.reached c = true →
      (s.bit (R.TQ_CXLM_STAT c) 0 = true → Runs (.hdmDecoderCommit c (some d)) s fun t => Kept s t (fun _ => False) ∧ SameMem s t ∧
        SameWork s t) ∧
      (s.bit (R.TQ_CXLM_STAT c) 0 = false → Runs (.hdmDecoderCommit c (some d)) s fun t => kvFind t.tiers.hdm c = some d ∧
        t.bit (R.TQ_CXLM_STAT c) 0 = decide (d.ways = 1) ∧ t.tiers.regions = s.tiers.regions ∧
        Kept s t (fun k => k = R.TQ_CXLM_STAT c) ∧ SameMem s t)) ∧
    (∀ (width rate : Nat) (low again : Bool), width ∉ [1, 2, 4, 8] ∨ rate ∉ [8, 16, 32, 64] →
      Runs (.hostLinkTraining width rate low again) s fun t => Kept s t (fun _ => False) ∧ SameMem s t ∧ SameWork s t) ∧
    (∀ width ∈ [1, 2, 4, 8], ∀ rate ∈ [8, 16, 32, 64], ∀ low again : Bool, Runs (.hostLinkTraining width rate low again) s fun t =>
      t.fld R.HIF_LINK 3 0 = width ∧ t.fld R.HIF_LINK 10 4 = rate ∧ t.bit R.HIF_LINK 11 = true ∧
      t.bit R.HIF_LINK 12 = true ∧ t.bit R.HIF_LINK 13 = low ∧ t.bit (R.PG_IRQ_STAT pageHif) 4 = true ∧
      (again = true → t.rd R.HIF_RETRAIN = min (s.rd R.HIF_RETRAIN + 1) 0xFFFFFFFF) ∧
      (width < 8 ∨ rate < 64 → t.rd (R.PG_ERR pageHif) % 65536 = 0x1006) ∧
      (8 ≤ width → 64 ≤ rate → again = true → t.rd (R.PG_ERR pageHif) % 65536 = 0x1005) ∧
      Kept s t (fun k => k = R.HIF_LINK ∨ (again = true ∧ k = R.HIF_RETRAIN)) ∧ SameMem s t) ∧
    (Runs (.hostLinkLoss) s fun t => t.fld R.HIF_LINK 12 11 = 0 ∧ t.rd (R.PG_ERR pageHif) % 65536 = 0x1005 ∧
      Kept s t (fun k => k = R.HIF_LINK) ∧ SameMem s t ∧ SameWork s t) ∧
    (Runs (.getLdInfo) s fun t => (Sent s t fun o => ∃ a b : List Byte, a.length = 8 ∧ b.length = 1 ∧
      o = .response 0x5400 0 (a ++ [16, 0] ++ b)) ∧ Kept s t (fun _ => False) ∧ SameMem s t ∧ SameWork s t) ∧
    (∀ first count : Nat, Runs (.getLdAllocations first count) s fun t =>
      (Sent s t fun o => o = .response 0x5401 0 ((List.range (min count (16 - first))).map fun i =>
        if s.bit R.HIF_LD_EN (first + i) then 1 else 0)) ∧ Kept s t (fun _ => False) ∧ SameMem s t ∧ SameWork s t) ∧
    (∀ (first : Nat) (bound : List Bool), Runs (.setLdAllocations first bound) s fun t =>
      (∀ i, i < 16 → t.bit R.HIF_LD_EN i = if first ≤ i ∧ i < first + bound.length then bound.getD (i - first) false
        else s.bit R.HIF_LD_EN i) ∧ Kept s t (fun k => k = R.HIF_LD_EN) ∧ SameMem s t ∧ SameWork s t) ∧
    (∀ (i : Nat) (bs : List Byte), (i, bs) ∈ [(0, [0x01, 0x00, 0x00, 1]), (1, [0x98, 0x1E, 0x02, 2])] → s.reached c = true →
      Runs (.doeDiscovery c i) s fun t =>
      (Sent s t fun o => o = .hostData c 0 0 bs) ∧ Kept s t (fun _ => False) ∧ SameMem s t ∧ SameWork s t) ∧
    (∀ entry : Nat, s.reached c = true → Runs (.cxlTableAccess c entry) s fun t => (Sent s t fun o => o = .hostData c 0 0 (Config.cdat (s.rangeSize c) entry)) ∧
      (Sent s t fun o => o = .cxlRange c (s.rd (R.TQ_CXLM c) * 2 ^ 28)) ∧
      Kept s t (fun _ => False) ∧ SameMem s t ∧ SameWork s t) ∧
    (let x := s.ctrl c
     Runs (.logicalDeviceReset c) s fun t => t.ctrl c = noCtrl ∧ t.rd (R.HIF_QUSE c) = 0 ∧
      t.rd R.HIF_QFREE = (s.rd R.HIF_QFREE + s.rd (R.HIF_QUSE c)) % 2 ^ 64 ∧ (∀ m ∈ t.sched.queue, m.cid.c = c → m.cid.q = pmbQ) ∧
      (∀ d : Client, d ≠ c → (t.ctrl d).sqs = (s.ctrl d).sqs ∧ (t.ctrl d).cqs = (s.ctrl d).cqs) ∧
      (∀ g, (t.region g).map (fun r => { r with pins := 0 }) = (s.region g).map fun r => { r with pins := 0 }) ∧
      t.namespaces = s.namespaces ∧ SameMem s t ∧
      (∀ f ∈ x.fetched, (f.1 ≠ 0 ∨ x.aers.contains f.2 = false) → t.rd (R.PG_ERR pageHif) % 65536 = 0x1008) ∧
      (∀ rn y, s.run rn = some y → kvSorted s.sched.runs = true → y.phase ≠ .formed → y.phase ≠ .posting →
        ∃ z, t.run rn = some z ∧ z.phase = y.phase ∧ z.rows = y.rows ∧ z.cmds.length = y.cmds.length)) ∧
    (s.window c = none → ∀ (addr len : Nat) (data : List Byte) (p : Bool) (d : DevNo) (b : Nat),
      (Runs (.cxlMemRead c addr len []) s fun t => Kept s t (fun _ => False) ∧ SameMem s t) ∧
      Runs (.cxlMemWrite c addr data p d b) s fun t => Kept s t (fun _ => False) ∧ SameMem s t) ∧
    (∀ h r, s.window c = some h → s.region h = some r →
      (∀ addr len : Nat, addr + len ≤ r.bytes →
        (s.memReadPoison h addr len = false → Runs (.cxlMemRead c addr len []) s fun t =>
          (Sent s t fun o => o = .cxlMem c (s.memRead h addr len) false) ∧ Kept s t (fun _ => False) ∧ SameMem s t) ∧
        (s.memReadPoison h addr len = true → Runs (.cxlMemRead c addr len []) s fun t =>
          (Sent s t fun o => o = .cxlMem c (List.replicate len 0xFF) true) ∧ t.rd (R.PG_ERR pageErr) % 65536 = 0x4009 ∧
          Kept s t (fun _ => False) ∧ SameMem s t)) ∧
      (∀ (addr : Nat) (data : List Byte) (p : Bool) (d : DevNo) (b : Nat), addr + data.length ≤ r.bytes → r.bytes ≤ regionSpan →
        addr % 64 + data.length ≤ 64 → Runs (.cxlMemWrite c addr data p d b) s fun t =>
          t.memRead h addr data.length = data ∧ (Sent s t fun o => o = .cxlMem c [] false) ∧
          (∀ g o, o < regionSpan → (g ≠ h ∨ o < addr ∨ addr + data.length ≤ o) → t.memByte g o = s.memByte g o) ∧
          (p = true → t.rd (R.PG_ERR pageErr) % 65536 = 0x400A ∧ ∀ o, addr ≤ o → o < addr + data.length → t.memPoisoned h o = true) ∧
          (p = false → addr % 8 = 0 → data.length % 8 = 0 → kvFind s.devs.merge (d.val * 2 ^ 34 + b) = none →
            ∀ o, addr ≤ o → o < addr + data.length → t.memPoisoned h o = false) ∧ t.leaf = s.leaf ∧ t.gather = s.gather)) ∧
    (s.rbReady = true →
      let leaves (t : State) (at_ : Nat) : Prop := (Sent s t fun o => o = .attention) ∧ t.attnWanted = .no ∧ t.etime = at_ ∧
        t.sys.patternEnd = some (at_ + 10 * tickUs) ∧ t.rd R.HIF_ATTN_CNT = min (s.rd R.HIF_ATTN_CNT + 1) 0xFFFFFFFF ∧
        Kept s t (fun k => k = R.HIF_ATTN_CNT) ∧ SameMem s t
      (s.attnWanted = .ready → s.sys.patternEnd = none → Runs (.attentionPattern) s fun t => leaves t s.etime) ∧
      (s.attnWanted = .ready → ∀ p, s.sys.patternEnd = some p →
        (s.sys.attnRead = true → Runs (.attentionReemit) s fun t => leaves t (max s.etime (p + 1000 * tickUs))) ∧
        (s.sys.attnRead = false → Runs (.attentionReemit) s fun t => t.attnWanted = .ready ∧ t.etime = s.etime ∧
          Kept s t (fun _ => False) ∧ SameMem s t)) ∧
      (s.attnWanted = .busy → Runs (.attentionReemit) s fun t => leaves t (max s.etime (s.sys.releasedAt + 100 * tickUs)))) ∧
    (s.attnWanted = .no → ∀ i ∈ [Instr.attentionPattern, .attentionReemit], Runs i s fun t => t.etime = s.etime ∧
      t.attnWanted = .no ∧ Kept s t (fun _ => False) ∧ SameMem s t)

/-! Attestation, the diagnostic unlock and holds of rights. -/

/-- Attestation requests answer on their path in the order of the table of statuses: BUSY, malformed, unsupported, no identity, then what the request
returns: version, digest, certificates, measurements, a quote signed over what it reports, the log, a nonce. A status that is an error
counts, and raises 0x9003 once in a measure; only the supervisor's paths may ask for a nonce or unlock. -/
def Obligations.AttestationAnswersInOrder : Prop :=
  ∀ (s : State) (path : AttPath) (h : MsgHead) (p : List Byte),
    s.sys.aux = true → s.rd R.SYS_STATE ≠ 0 → s.nor.running = false → AttPath.arrives path s = true →
    let said := fun (t : State) (st : Nat) (d : List Byte) => Sent s t fun o => o = .message path (responseBytes 0x7A90 h.code h.tag st d)
    let failed := fun (t : State) => t.rd R.SEC_ATT_ERR = min (s.rd R.SEC_ATT_ERR + 1) 0xFFFFFFFF ∧ t.sec.attSaid = true ∧
      (s.sec.attSaid = false → t.rd (R.PG_ERR pageSec) % 65536 = 0x9003)
    let all := fun b : Bool => [(1, Instr.getVersion path h p b), (2, .getDigest path h p b), (3, .getCert path h p b),
      (4, .getMeas path h p b), (5, .quote path h p b), (6, .getLog path h p b), (7, .diagNonce path h p b), (8, .diagUnlock path h p b true)]
    let wrong := h.magic ≠ 0x7A90 ∨ p.length < h.len ∨ h.status ≠ 0
    (∀ e ∈ all true, Runs e.2 s fun t => said t 3 [] ∧ t.sec = s.sec ∧ Kept s t (fun _ => False) ∧ SameMem s t) ∧
    (∀ e ∈ all false,
      (wrong → Runs e.2 s fun t => said t 1 [] ∧ failed t ∧ Kept s t (fun k => k = R.SEC_ATT_ERR) ∧ SameMem s t) ∧
      (¬ wrong → h.version ≠ 1 ∨ h.code ≠ e.1 → Runs e.2 s fun t => said t 2 [] ∧ failed t ∧ Kept s t (fun k => k = R.SEC_ATT_ERR) ∧
        SameMem s t) ∧
      (¬ wrong → h.version = 1 → h.code = e.1 → s.bit R.SEC_STAT 0 = false → Runs e.2 s fun t => said t 4 [] ∧ failed t ∧
        Kept s t (fun k => k = R.SEC_ATT_ERR) ∧ SameMem s t)) ∧
    (¬ wrong → h.version = 1 → s.bit R.SEC_STAT 0 = true →
      (h.code = 1 → Runs (.getVersion path h p false) s fun t => said t 0 [1] ∧ Kept s t (fun _ => False) ∧ SameMem s t) ∧
      (h.code = 2 → Runs (.getDigest path h p false) s fun t => said t 0 (digestOf s.sec.dik ++ leBytes 4 (s.rd R.SEC_STAT)) ∧
        Kept s t (fun _ => False) ∧ SameMem s t) ∧
      (h.code = 3 → 8 ≤ h.len → let off := field p 0 4
        let n := field p 4 4
        (0 < n → n ≤ 4096 → off + n ≤ s.certChain.length → Runs (.getCert path h p false) s fun t =>
          said t 0 (leBytes 4 s.certChain.length ++ (s.certChain.drop off).take n) ∧ Kept s t (fun _ => False) ∧ SameMem s t) ∧
        (n = 0 ∨ 4096 < n ∨ s.certChain.length < off + n → Runs (.getCert path h p false) s fun t => said t 5 [] ∧ failed t)) ∧
      (h.code = 4 → 2 ≤ h.len → 0 < field p 0 2 → field p 0 2 < 256 → Runs (.getMeas path h p false) s fun t =>
        said t 0 (((List.range 8).filter fun i => (field p 0 2).testBit i).flatMap fun i => s.slotValue i ++ leBytes 8 (s.slotCount i)) ∧
        t.sec = s.sec ∧ Kept s t (fun _ => False) ∧ SameMem s t) ∧
      (h.code = 5 → 34 ≤ h.len → 0 < field p 32 2 → field p 32 2 < 256 → Runs (.quote path h p false) s fun t =>
        let body := s.quoteBody path (p.take 32) (field p 32 2)
        said t 0 (body ++ signature s.sec.ak (ascii "Lanrin-quote" ++ body)) ∧
        t.rd R.SEC_QUOTES = (s.rd R.SEC_QUOTES + 1) % 2 ^ 64 ∧ Kept s t (fun k => k = R.SEC_QUOTES) ∧ SameMem s t) ∧
      (h.code = 6 → 8 ≤ h.len → 0 < field p 4 4 → field p 4 4 ≤ 32 → field p 0 4 + field p 4 4 ≤ s.sec.log.length →
        Runs (.getLog path h p false) s fun t =>
          said t 0 (((s.sec.log.drop (field p 0 4)).take (field p 4 4)).flatMap MeasLog.bytes) ∧ t.sec = s.sec ∧
          Kept s t (fun _ => False) ∧ SameMem s t) ∧
      (h.code = 7 →
        (AttPath.supervisor path = true → Runs (.diagNonce path h p false) s fun t => SameMem s t ∧ Kept s t (fun _ => False) ∧
          ∃ n, n.length = 32 ∧ said t 0 n ∧ t.sec = { s.sec with nonce := some n }) ∧
        (AttPath.supervisor path = false → Runs (.diagNonce path h p false) s fun t => said t 7 [] ∧ failed t ∧ t.sec.nonce = s.sec.nonce)) ∧
      (h.code = 8 →
        (AttPath.supervisor path = false → ∀ sig, Runs (.diagUnlock path h p false sig) s fun t => said t 7 [] ∧ failed t ∧
          t.sec.nonce = s.sec.nonce ∧ t.bit R.SEC_STAT 2 = s.bit R.SEC_STAT 2) ∧
        (AttPath.supervisor path = true →
          let expiry := field p 64 8
          let good := h.len = 3405 ∧ s.sec.nonce = some (p.take 32) ∧ digestOf s.sec.dik = (p.drop 32).take 32 ∧ 1 ≤ expiry ∧
            expiry ≤ 0x100000000 ∧ field p 74 22 = 0
          (good → Runs (.diagUnlock path h p false true) s fun t => said t 0 [] ∧ t.bit R.SEC_STAT 2 = true ∧
            t.sec.pages = field p 72 2 ∧ t.sec.endsAt = s.msr.count + expiry ∧ t.sec.nonce = none ∧
            t.slotCount 7 = s.slotCount 7 + 1 ∧ t.rd (R.PG_ERR pageSec) % 65536 = 0x9005 ∧
            Kept s t (fun k => k = R.SEC_STAT) ∧ SameMem s t) ∧
          (∀ sig, ¬ good ∨ sig = false → Runs (.diagUnlock path h p false sig) s fun t => said t 6 [] ∧ failed t ∧ t.sec.nonce = none ∧
            t.bit R.SEC_STAT 2 = s.bit R.SEC_STAT 2 ∧ (s.sec.attSaid = true → t.rd (R.PG_ERR pageSec) % 65536 = 0x9004) ∧
            SameMem s t))))

/-- An unlock ends at its time or by LOCK, with 0x9005. While it lasts, a read by client 0 of a page it names returns some value and
changes no register, and a write to it stops by name, since the spec gives those pages no registers (the model's choice, log entry
19). A hold starts with its limit as it then is, a second start changes nothing; its end lets
the changes wait for the strike, or takes effect at once when none will come, and at its limit they take effect with 0x9007. -/
def Obligations.UnlocksAndHoldsEnd : Prop :=
  ∀ s : State,
    let locked := fun (t : State) => t.bit R.SEC_STAT 2 = false ∧ t.sec.pages = 0 ∧ t.sec.endsAt = 0 ∧
      t.rd (R.PG_ERR pageSec) % 65536 = 0x9005 ∧ Kept s t (fun k => k = R.SEC_STAT) ∧ SameMem s t
    (∀ (addr : BitVec 24) (w : Width) (v : BitVec 64), s.reached 0 = true → s.diagOpen 0 (addr.toNat / 0x10000) = true →
      exec (.registerWrite 0 addr w v) s = .refused .diagnosticPage ∧
      Runs (.readClearAccess 0 addr w) s fun t => (∀ k, catReg k = false → t.rd k = s.rd k) ∧ t.err = s.err ∧ SameMem s t ∧
        ∃ x, Sent s t fun o => o = .readData 0 addr.toNat x) ∧
    (s.bit R.SEC_STAT 2 = true → (s.sec.endsAt ≤ s.msr.count → Runs (.diagUnlockExpiry) s locked) ∧
      (Open s 0 pageSec → Runs (.lock 0) s locked)) ∧
    (s.msr.count < s.sec.endsAt ∨ s.bit R.SEC_STAT 2 = false → Runs (.diagUnlockExpiry) s fun t => t.sec = s.sec ∧
      Kept s t (fun _ => False) ∧ SameMem s t) ∧
    (Open s 0 pageSec →
      (s.bit R.SEC_RIGHTS_CTL 0 = false → Runs (.holdSet 0) s fun t => t.bit R.SEC_RIGHTS_CTL 0 = true ∧ t.bit R.SEC_STAT 4 = true ∧
        t.sec = { s.sec with holdFrom := s.msr.count, holdLimit := s.rd R.SEC_HOLD_MAX } ∧ t.inForce = s.inForce ∧
        Kept s t (fun k => k = R.SEC_RIGHTS_CTL ∨ k = R.SEC_STAT) ∧ SameMem s t) ∧
      (s.bit R.SEC_RIGHTS_CTL 0 = true →
        (Runs (.holdSet 0) s fun t => t.sec = s.sec ∧ t.inForce = s.inForce ∧ Kept s t (fun _ => False) ∧ SameMem s t) ∧
        (s.bit R.MSR_CTL 0 = true ∨ s.msr.queue ≠ [] → Runs (.holdClear 0) s fun t => t.bit R.SEC_RIGHTS_CTL 0 = false ∧
          t.bit R.SEC_STAT 4 = false ∧ t.inForce = s.inForce ∧ Kept s t (fun k => k = R.SEC_RIGHTS_CTL ∨ k = R.SEC_STAT) ∧
          SameMem s t) ∧
        (s.bit R.MSR_CTL 0 = false → s.msr.queue = [] → Runs (.holdClear 0) s fun t => t.bit R.SEC_RIGHTS_CTL 0 = false ∧
          t.inForce = [] ∧ (∀ k, t.force k = t.rd k) ∧ t.spt.staged = [] ∧ t.sched.commit = none ∧
          (s.rightsPending = true → t.rd R.SEC_RIGHTS_GEN = (s.rd R.SEC_RIGHTS_GEN + 1) % 2 ^ 64)))) ∧
    (s.bit R.SEC_RIGHTS_CTL 0 = true →
      (s.sec.holdFrom + s.sec.holdLimit ≤ s.msr.count → Runs (.holdMaxExpiry) s fun t => t.bit R.SEC_RIGHTS_CTL 0 = false ∧
        t.bit R.SEC_STAT 4 = false ∧ t.rd (R.PG_ERR pageSec) % 65536 = 0x9007 ∧ t.inForce = [] ∧ t.spt.staged = [] ∧
        t.sched.commit = none ∧ (s.rightsPending = true → t.rd R.SEC_RIGHTS_GEN = (s.rd R.SEC_RIGHTS_GEN + 1) % 2 ^ 64)) ∧
      (s.msr.count < s.sec.holdFrom + s.sec.holdLimit → Runs (.holdMaxExpiry) s fun t => t.inForce = s.inForce ∧
        Kept s t (fun _ => False) ∧ SameMem s t))

/-! Memory integrity. -/

/-- A flushed merge entry writes its whole words fresh, merges its partial words with what was stored, and touches no other word; the scrubber
reads the next word, corrects one error, poisons what it cannot correct, and moves on; votes are repaired or fail, with what R444 gives
each word; retirements are recorded, reported, and take their frame from the tier. -/
def Obligations.MemoryWordsAreKeptSound : Prop :=
  ∀ (s : State) (d : DevNo),
    (∀ (block : Nat) (e : MergeEntry), block < 2 ^ 34 → kvFind s.devs.merge (d.val * 2 ^ 34 + block) = some e →
      Runs (.mergeBufferFlush d block []) s fun t => t.etime = max s.etime (e.openedAt + 256 * tickCycle) ∧
        kvFind t.devs.merge (d.val * 2 ^ 34 + block) = none ∧ t.mem = s.mem ∧ t.leaf = s.leaf ∧
        (∀ k, k < 8 → let a := block * 64 + 8 * k
          let on := fun i => e.enables.getD (8 * k + i) false
          let w := s.devWord d a
          ((∀ i, i < 8 → on i = true) → t.devWord d a =
            bchEncode (ofLe ((List.range 8).map fun i => e.bytes.getD (8 * k + i) 0)) false a) ∧
          ((∀ i, i < 8 → on i = false) → t.devWord d a = w) ∧
          (∀ i j, i < 8 → j < 8 → on i = true → on j = false → bchClassify (bchSyndrome w a) = .clean → t.devWord d a =
            bchEncode (ofLe ((List.range 8).map fun n => if on n then e.bytes.getD (8 * k + n) 0 else (leBytes 8 (codeData w)).getD n 0))
              (codePoison w) a)) ∧
        (∀ (c : DevNo) (a : Nat), a < 2 ^ 40 → (c ≠ d ∨ a / 64 ≠ block) → t.devWord c a = s.devWord c a)) ∧
    (∀ block, kvFind s.devs.merge (d.val * 2 ^ 34 + block) = none → Runs (.mergeBufferFlush d block []) s fun t => t.devs = s.devs ∧
      t.etime = s.etime ∧ Kept s t (fun _ => False) ∧ SameMem s t) ∧
    (s.bit R.SCR_CTL 0 = true → s.sys.level = 0 → s.devInService d = true → s.fld R.SCR_STAT 5 1 = d.val →
      let pos := s.rd R.SCR_POS
      let charged := fun (k : Nat) => k = R.ACC_ENERGY_UJ 16 ∨ (d.val < 8 ∧ k = R.ACC_T1_RD 16) ∨ (8 ≤ d.val ∧ k = R.ACC_T2_RD 16)
      ∀ (f : WordFault), f.dead = false → pos < 2 ^ 40 → pos % 8 = 0 →
        let w := s.delivered d pos f
        (pos + 8 < devBytes d →
          (bchClassify (bchSyndrome w pos) = .clean → Runs (.scrubRead f) s fun t => t.rd R.SCR_POS = pos + 8 ∧ t.devs = s.devs ∧
            t.bit R.SCR_STAT 0 = true ∧ (d.val < 8 → t.rd (R.ACC_T1_RD 16) = (s.rd (R.ACC_T1_RD 16) + 8) % 2 ^ 64) ∧
            (8 ≤ d.val → t.rd (R.ACC_T2_RD 16) = (s.rd (R.ACC_T2_RD 16) + 8) % 2 ^ 64) ∧
            Kept s t (fun k => k = R.SCR_POS ∨ k = R.SCR_STAT ∨ charged k) ∧ SameMem s t) ∧
          (∀ i, bchClassify (bchSyndrome w pos) = .single i → kvFind s.devs.merge (d.val * 2 ^ 34 + pos / 64) = none →
            Runs (.scrubRead f) s fun t => t.rd R.SCR_POS = pos + 8 ∧ t.devWord d pos = bchCorrect w (.single i) ∧
              t.rd R.SCR_CORR = (s.rd R.SCR_CORR + 1) % 2 ^ 64 ∧
              t.rd (R.MEM_CORR1 (pageDev d)) = (s.rd (R.MEM_CORR1 (pageDev d)) + 1) % 2 ^ 64 ∧
              t.rd (R.PG_ERR (pageDev d)) % 65536 = 0x4001 ∧
              Kept s t (fun k => k = R.SCR_POS ∨ k = R.SCR_STAT ∨ k = R.SCR_CORR ∨ k = R.MEM_CORR1 (pageDev d) ∨ charged k) ∧ SameMem s t) ∧
          (bchClassify (bchSyndrome w pos) = .uncorrectable → kvFind s.devs.merge (d.val * 2 ^ 34 + pos / 64) = none →
            Runs (.scrubRead f) s fun t => t.rd R.SCR_POS = pos + 8 ∧ t.devWord d pos = bchEncode (codeData w) true pos ∧
              t.rd R.SCR_UNCORR = min (s.rd R.SCR_UNCORR + 1) 0xFFFFFFFF ∧ t.rd (R.PG_ERR (pageDev d)) % 65536 = 0x4002 ∧ SameMem s t)) ∧
        (devBytes d ≤ pos + 8 → bchClassify (bchSyndrome w pos) = .clean → (∀ e, d.val < e → e < 24 → s.devInService e = false) →
          Runs (.scrubRead f) s fun t => t.rd R.SCR_POS = 0 ∧ t.fld R.SCR_STAT 5 1 = 0 ∧
            t.rd R.SCR_PASSES = (s.rd R.SCR_PASSES + 1) % 2 ^ 64 ∧ t.devs = s.devs ∧ SameMem s t)) ∧
    (s.bit R.SCR_CTL 0 = false ∨ s.sys.level ≠ 0 → ∀ f, Runs (.scrubRead f) s fun t => t.bit R.SCR_STAT 0 = false ∧ t.devs = s.devs ∧
      Kept s t (fun k => k = R.SCR_STAT) ∧ SameMem s t) ∧
    (∀ ws : List Nat, ws ≠ [] → (∀ w ∈ ws, walked w = true) → Runs (.triplicateWalk ws []) s fun t => t.rd (R.PG_ERR pageErr) % 65536 = 0x4007 ∧
      Kept s t (fun _ => False) ∧ SameMem s t) ∧
    (Runs (.triplicateWalk [] [0]) s fun t => t.rd R.SYS_STATE = 7 ∧ t.rd R.SYS_FATAL = 1 + pageCtx * 256 ∧ t.sys.low = true ∧
      t.rd (R.PG_ERR pageErr) % 65536 = 0x4008 ∧ t.rd (R.PG_ERR pageSys) % 65536 = 0xC008 ∧ SameMem s t) ∧
    (Runs (.triplicateWalk [] [33]) s fun t => t.fld R.TMB_STAT 3 0 = 0 ∧ t.rd (R.PG_ERR pageErr) % 65536 = 0x4008 ∧
      (s.fld R.TMB_STAT 2 0 ≠ 0 → t.rd R.TMB_FREQ_ADJ = (s.tmb.norLearnt.getD 0).toNat) ∧
      Kept s t (fun k => k = R.TMB_STAT ∨ k = R.TMB_FREQ_ADJ) ∧ SameMem s t) ∧
    (∀ c : Client, ∀ tier ∈ [1, 2], Runs (.triplicateWalk [] [1 + 16 * (tier - 1) + c.val]) s fun t => t.rd (tqMin c tier) = 0 ∧
      t.rd (tqMax c tier) = 0 ∧ Kept s t (fun k => k = tqMin c tier ∨ k = tqMax c tier) ∧ SameMem s t) ∧
    (∀ p : Page, Runs (.triplicateWalk [] [256 + p.val]) s fun t => t.fld (R.PG_OWNER p) 7 0 = 0xFF ∧ t.rd (R.PG_GUARD p) = 1 ∧
      t.bit (R.PG_CTL p) 31 = true ∧ kvFind t.inForce (R.PG_OWNER p) = none ∧ kvFind t.inForce (R.PG_GUARD p) = none ∧
      Kept s t (fun _ => False) ∧ SameMem s t) ∧
    (Open s 0 (pageDev d) →
      let p := pageDev d
      let f := s.fld (R.MEM_RET_ARG p) 19 0
      let said := fun (t : State) (r : Nat) => t.rd (R.MEM_RET_RESULT p) = 1 + 2 * r
      let none_ := fun (t : State) (r : Nat) => said t r ∧ t.nor = s.nor ∧ Kept s t (fun k => k = R.MEM_RET_RESULT p) ∧ SameMem s t
      let put := fun (t : State) (key v : Nat) => t.rd key = v ∧ kvFind t.nor.settings key = some v
      (devFrames d ≤ f → ∀ h r, Runs (.retireFrame 0 d h r) s fun t => none_ t 4) ∧
      (f < devFrames d → (∃ i, i < 256 ∧ s.bit (R.MEM_RET_FRAME p i) 31 = true ∧ s.fld (R.MEM_RET_FRAME p i) 19 0 = f) →
        ∀ h r, Runs (.retireFrame 0 d h r) s fun t => none_ t 5) ∧
      (f < devFrames d → (∀ i, i < 256 → s.bit (R.MEM_RET_FRAME p i) 31 = true → s.fld (R.MEM_RET_FRAME p i) 19 0 ≠ f) →
        ((∀ i, i < 256 → s.bit (R.MEM_RET_FRAME p i) 31 = true) → ∀ h r, Runs (.retireFrame 0 d h r) s fun t => none_ t 3) ∧
        (∀ i, (List.range 256).find? (fun i => !s.bit (R.MEM_RET_FRAME p i) 31) = some i →
          (∀ h, Runs (.retireFrame 0 d h true) s fun t => said t 2 ∧ put t (R.MEM_RET_FRAME p i) (f + 2 ^ 30 + 2 ^ 31) ∧ SameMem s t) ∧
          (f ≠ 19660 → Runs (.retireFrame 0 d none false) s fun t => said t 0 ∧ t.bit (R.MEM_RET_FRAME p i) 31 = true ∧
            t.fld (R.MEM_RET_FRAME p i) 19 0 = f ∧ t.bit (R.MEM_RET_FRAME p i) 30 = false ∧
            t.rd (tierCap (devTier d)) = s.rd (tierCap (devTier d)) - twoMiB ∧ SameMem s t) ∧
          (f ≠ 19660 → ∀ h r, s.region h = some r → Runs (.retireFrame 0 d (some h) false) s fun t => said t 1 ∧
            put t (R.MEM_RET_FRAME p i) (f + 2 ^ 30 + 2 ^ 31) ∧ t.devs.due = s.devs.due ++ [(d.val * 2 ^ 20 + f, h)] ∧ SameMem s t))) ∧
      (devBanks d ≤ f → Runs (.retireBank 0 d) s fun t => none_ t 4) ∧
      (f < devBanks d →
        ((∃ i, i < 8 ∧ s.bit (R.MEM_RET_BANK p i) 31 = true ∧ s.fld (R.MEM_RET_BANK p i) 10 0 = f) →
          Runs (.retireBank 0 d) s fun t => none_ t 5) ∧
        ((∀ i, i < 8 → s.bit (R.MEM_RET_BANK p i) 31 = true → s.fld (R.MEM_RET_BANK p i) 10 0 ≠ f) →
          ∀ i, (List.range 8).find? (fun i => !s.bit (R.MEM_RET_BANK p i) 31) = some i → Runs (.retireBank 0 d) s fun t =>
            said t 2 ∧ put t (R.MEM_RET_BANK p i) (f + 2 ^ 30 + 2 ^ 31) ∧ SameMem s t)))

/-! Resets and supplies. -/

/-- The resets of the whole module, each with its boot cause, keep time, T3 and what R505 names and put every other register at its reset
value; what does not reset changes nothing. The watchdog restarts by its own core alone. -/
def Obligations.ResetsSpareAndRestart : Prop :=
  ∀ s : State, (∀ e ∈ s.tiers.regions, e.2.client < 16 ∧ 1 ≤ e.2.tier ∧ e.2.tier ≤ 3) →
    let same := fun (t : State) => t.sys = s.sys ∧ t.etime = s.etime ∧ t.dtime = s.dtime ∧ Kept s t (fun _ => False) ∧ SameMem s t
    let restarted := fun (u : State) (cause : Nat) (t : State) =>
      t.rd R.SYS_STATE = 1 ∧ t.rd R.SYS_BOOT_CAUSE = cause ∧ t.rd R.SYS_RESETS = min (s.rd R.SYS_RESETS + 1) 0xFFFFFFFF ∧
      t.sys.low = true ∧ t.released = false ∧ t.sys.bringupFrom = u.etime ∧ t.etime = u.etime ∧ t.dtime = u.dtime ∧ t.tmb = u.tmb ∧
      t.namespaces = s.namespaces ∧ t.ftl = { s.ftl with mounted := false } ∧ t.ctxs = [] ∧ t.sched = State.reset.sched ∧
      t.mem = [] ∧ t.memPoison = [] ∧ t.leaf = [] ∧ t.inForce = [] ∧ t.sec.seed = s.sec.seed ∧ t.sec.dik = s.sec.dik ∧
      t.nor.settings = s.nor.settings ∧ t.nor.fences = s.nor.fences ∧ t.nor.staged = [] ∧ t.nor.activation = none ∧
      (∀ k, pageOfKey k = pageTmb → t.rd k = s.rd k) ∧
      (∀ k, regKept k = false → k ≠ R.SYS_BOOT_CAUSE → k ≠ R.SEC_STAT → k ≠ R.SYS_FLAGS → k ≠ R.RST_FENCE_CNT →
        (∀ i, i < 64 → k ≠ R.RST_FENCE i) → (∀ c t, k ≠ tqUse c t) → t.rd k = (regDefault k).toNat)
    (s.up = true → Runs .hotReset s (restarted s 2)) ∧
    (s.up = false → Runs .hotReset s same) ∧
    (∀ c : Client, Open s c pageRst →
      Runs (.moduleReset c 0xC0DE) s (restarted s 3) ∧
      ∀ v : BitVec 32, v ≠ 0xC0DE → Runs (.moduleReset c v) s same) ∧
    (∀ ns resets, 1000 ≤ ns → (100000 ≤ ns ∨ resets = true) →
      (s.sys.p54 = true → s.sys.aux = true →
        (s.sys.flushing = false → Runs (.perstAssert ns resets) s fun t => restarted s 1 t ∧ t.sys.perst = true) ∧
        (s.sys.flushing = true → Runs (.perstAssert ns resets) s fun t => t.sys = { s.sys with perst := true, afterFlush := 2 } ∧
          Kept s t (fun _ => False) ∧ SameMem s t)) ∧
      (s.sys.p54 = false ∨ s.sys.aux = false → Runs (.perstAssert ns resets) s fun t => t.sys = { s.sys with perst := true } ∧
        Kept s t (fun _ => False) ∧ SameMem s t)) ∧
    (∀ ns resets, ns < 1000 ∨ (ns < 100000 ∧ resets = false) → Runs (.perstAssert ns resets) s same) ∧
    (s.sys.perst = true → Runs .perstDeassert s fun t => t.sys = { s.sys with perst := false, bringupFrom := s.etime } ∧
      Kept s t (fun _ => False) ∧ SameMem s t) ∧
    (s.sys.perst = false → Runs .perstDeassert s same) ∧
    (∀ core : Fin 4,
      (s.fld R.SYS_TINY 1 0 = core.val → Runs (.rstWdKick core) s fun t => t.sys = { s.sys with kickAt := s.etime } ∧
        Kept s t (fun _ => False) ∧ SameMem s t) ∧
      (s.fld R.SYS_TINY 1 0 ≠ core.val → Runs (.rstWdKick core) s same)) ∧
    (s.bit R.RST_WD_CTL 0 = true → s.up = true → s.rd R.SYS_STATE ≠ 7 → s.rd R.SYS_STATE ≠ 8 →
      Runs .managementWatchdogExpiry s fun t =>
        restarted (s.elapse (s.sys.kickAt + s.fld R.RST_WD_LIMIT 15 0 * 1000 * tickUs - s.etime)) 5 t ∧
        t.sys.wdEvent = some (s.fld R.SYS_TINY 1 0)) ∧
    (s.bit R.RST_WD_CTL 0 = false ∨ s.up = false ∨ s.rd R.SYS_STATE = 7 ∨ s.rd R.SYS_STATE = 8 →
      Runs .managementWatchdogExpiry s same) ∧
    (s.rd R.SYS_STATE = 6 → Runs .watchdogRecordClear s fun t => t.sys = { s.sys with wdRecord := none } ∧
      t.etime = max s.etime (s.sys.readyAt + 600 * tickSec) ∧ Kept s t (fun _ => False) ∧ SameMem s t) ∧
    (s.rd R.SYS_STATE ≠ 6 → Runs .watchdogRecordClear s same) ∧
    (∀ (h : MsgHead) (p : List Byte), s.sys.aux = true → h.magic = 0x7AC0 → h.len = 4 → 4 ≤ p.length → h.status = 0 → h.version = 1 →
      h.code = 0x13 → s.rd R.SYS_STATE ≠ 0 → s.sys.flushing = false → field p 0 4 = 0xC0DE →
        Runs (.sidebandReset h p false) s fun t => restarted s 4 t ∧
          Sent s t fun o => o = .message .sideband (responseBytes 0x7AC0 h.code h.tag 0 []))

/-- Power-on begins a bring-up with boot cause 0, DTIME 0 and the learnt frequency; a power loss, declared or by the loss of the auxiliary
supply, puts RB# low with the module in AUX and, when the FTL had mounted, a flush on the way, after which comes what waited for it; the
error log and the seed go when the flush ends without the auxiliary supply; the power monitor's samples start and end the time out of
range. -/
def Obligations.SuppliesComeAndGo : Prop :=
  ∀ s : State,
    let quiet := fun (t : State) => Kept s t (fun _ => False) ∧ SameMem s t
    let started := fun (t : State) => t.rd R.SYS_STATE = 1 ∧ t.rd R.SYS_BOOT_CAUSE = 0 ∧ t.rd R.SYS_RESETS = 0 ∧ t.dtime = 0 ∧
      t.sys.low = true ∧ t.released = false ∧ t.rd R.TMB_FREQ_ADJ = (s.tmb.norLearnt.getD 0).toNat ∧ t.fld R.TMB_STAT 3 0 = 0 ∧
      t.tmb.norLearnt = s.tmb.norLearnt ∧ t.sys.bringupFrom = s.etime ∧ t.mem = [] ∧ t.leaf = [] ∧ t.namespaces = s.namespaces
    let lost := fun (t : State) => t.rd R.SYS_STATE = 0 ∧ t.sys.low = true ∧ t.released = false ∧ t.sys.flushing = s.ftl.mounted ∧
      t.ftl.marker = none ∧ t.ftl.map = s.ftl.map ∧ t.mem = [] ∧ t.leaf = [] ∧ t.ctxs = [] ∧ t.namespaces = s.namespaces
    ((∀ e ∈ s.tiers.regions, e.2.client < 16 ∧ 1 ≤ e.2.tier ∧ e.2.tier ≤ 3) →
      (s.sys.flushing = false →
        (s.sys.aux = true → ∀ aux, Runs (.powerOn aux) s fun t => started t ∧ t.sys.p54 = true) ∧
        (s.sys.aux = false → ∀ aux, Runs (.powerOn aux) s fun t => t.sys.p54 = true ∧ t.rd R.SYS_STATE = 0 ∧ t.mem = []) ∧
        (s.sys.aux = false → s.sys.p54 = true → Runs .auxPowerRise s fun t => started t ∧ t.sys.aux = true) ∧
        (s.sys.aux = false → s.sys.p54 = false → Runs .auxPowerRise s fun t => t.sys.aux = true ∧ t.rd R.SYS_STATE = 0 ∧
          t.sys.low = true ∧ Kept s t (fun k => k = R.SYS_STATE) ∧ SameMem s t)) ∧
      (s.sys.flushing = true → s.sys.p54 = true → s.sys.aux = true → s.sys.afterFlush = 1 → ∀ e, Runs (.powerLossFlush e) s fun t =>
        started t ∧ t.sys.flushing = false ∧ t.ftl.marker = some e.complete)) ∧
    (s.sys.flushing = true → (∀ aux, Runs (.powerOn aux) s fun t =>
        t.sys = { s.sys with p54 := true, lowFrom := none, afterFlush := 1 } ∧ quiet t) ∧
      (s.sys.aux = false → ∀ e, Runs (.powerLossFlush e) s fun t => t.sys.flushing = false ∧ t.ftl.marker = some e.complete ∧
        t.err.ring = [] ∧ t.sec.seed = none ∧ t.rd R.SYS_STATE = s.rd R.SYS_STATE) ∧
      (s.sys.afterFlush = 0 → s.sys.aux = true → ∀ ok, Runs (.powerLossFlush ⟨ok, []⟩) s fun t =>
        t.sys = { s.sys with flushing := false } ∧
        t.ftl = { s.ftl with marker := some ok, jbuf := [], area := some (if ok then s.flushArea else ⟨[], [], []⟩) } ∧
        t.rd R.FTL_MEDIA_WR = (s.rd R.FTL_MEDIA_WR + s.flushArea.bytes) % 2 ^ 64 ∧
        Kept s t (fun k => k = R.FTL_MEDIA_WR) ∧ SameMem s t)) ∧
    (s.sys.flushing = false → ∀ e, Runs (.powerLossFlush e) s fun t => t.sys = s.sys ∧ t.ftl = s.ftl ∧ quiet t) ∧
    (s.sys.aux = true → Runs .auxPowerRise s fun t => t.sys = s.sys ∧ quiet t) ∧
    (s.sys.lowFrom = none → Runs .powerLossDeclared s fun t => t.sys = s.sys ∧ quiet t) ∧
    (∀ from_, s.sys.lowFrom = some from_ →
      (s.up = true → Runs .powerLossDeclared s fun t => lost t ∧ t.sys.p54 = false ∧ t.sys.lowFrom = none ∧
        t.etime = max s.etime (from_ + 2 * tickUs)) ∧
      (s.up = false → (s.sys.aux = true ∨ s.sys.flushing = true) → Runs .powerLossDeclared s fun t =>
        t.sys = { s.sys with p54 := false, lowFrom := none, afterFlush := 0 } ∧ t.ftl = s.ftl ∧ quiet t)) ∧
    (s.sys.aux = true → s.up = true → Runs .p3v3AuxLoss s fun t => lost t ∧ t.sys.aux = false) ∧
    (s.sys.aux = false → Runs .p3v3AuxLoss s fun t => t.sys = s.sys ∧ quiet t) ∧
    (∀ mv, s.sys.p54 = true →
      (48000 ≤ mv → mv ≤ 60000 → Runs (.powerMonitorSample mv) s fun t => t.sys = { s.sys with p54mv := mv, lowFrom := none } ∧ quiet t) ∧
      (mv < 44000 ∨ 62000 < mv → s.sys.lowFrom = none → Runs (.powerMonitorSample mv) s fun t =>
        t.sys = { s.sys with p54mv := mv, lowFrom := some s.etime } ∧ quiet t) ∧
      (mv < 44000 ∨ 62000 < mv → s.sys.lowFrom ≠ none → Runs (.powerMonitorSample mv) s fun t =>
        t.sys = { s.sys with p54mv := mv } ∧ quiet t) ∧
      (44000 ≤ mv → mv ≤ 62000 → (mv < 48000 ∨ 60000 < mv) → kvFind s.sys.saidAt 0x0106 = none → Runs (.powerMonitorSample mv) s fun t =>
        t.rd (R.PG_ERR pageSys) % 65536 = 0x0106 ∧ t.sys.lowFrom = none ∧ t.sys.p54mv = mv ∧ quiet t)) ∧
    (∀ mv, s.sys.p54 = false → Runs (.powerMonitorSample mv) s fun t => t.sys = { s.sys with p54mv := mv } ∧ quiet t)

/-! Fencing, the sideband, the sensors. -/

/-- Fence requests are taken into NOR, refused or withdrawn, and RST shows them; a unit fenced in service leaves the directory and its tier;
the sideband reads, writes and answers by the order of R474; the sensors set the throttle level, or trip the module. -/
def Obligations.FencesSidebandAndSensors : Prop :=
  ∀ s : State,
    let shown := fun (t : State) => t.rd R.RST_FENCE_CNT = t.nor.fences.length % 2 ^ 64 ∧
      t.bit R.SYS_FLAGS 5 = decide (0 < t.nor.fences.length) ∧
      (∀ i, i < 64 → t.rd (R.RST_FENCE i) = ((t.nor.fences[i]?).map fun p => (p + 2 ^ 31) % 2 ^ 64).getD 0) ∧
      Kept s t (fun k => k = R.RST_FENCE_RESULT ∨ k = R.RST_FENCE_CNT ∨ k = R.SYS_FLAGS ∨ norReg k ∨ ∃ i, i < 64 ∧ k = R.RST_FENCE i) ∧
      SameMem s t
    (∀ c : Client, Open s c pageRst →
      let p := s.fld R.RST_FENCE_SEL 7 0
      let refused := fun (r : Nat) => Runs (.request c) s fun t => t.nor.fences = s.nor.fences ∧ t.rd R.RST_FENCE_RESULT = r ∧
        t.rd (R.PG_ERR pageRst) % 65536 = 0xC00A ∧ shown t
      (fencible p = false ∨ (s.released = true ∧ s.present p = 0) → refused 3) ∧
      (fencible p = true → (s.released = true → s.present p ≠ 0) →
        (p ∈ s.nor.fences → Runs (.request c) s fun t => t.nor.fences = s.nor.fences ∧ t.rd R.RST_FENCE_RESULT = 1 ∧ shown t) ∧
        (p ∉ s.nor.fences → 64 ≤ s.nor.fences.length → refused 5) ∧
        (p ∉ s.nor.fences → s.nor.fences.length < 64 → Runs (.request c) s fun t => t.nor.fences = s.nor.fences ++ [p] ∧
          t.rd R.RST_FENCE_RESULT = 1 ∧ shown t)) ∧
      (Runs (.withdraw c) s fun t => t.nor.fences = s.nor.fences.filter (fun x => x ≠ p) ∧ t.rd R.RST_FENCE_RESULT = 1 ∧ shown t)) ∧
    (∀ p : Page, s.rd R.SYS_STATE = 6 → s.released = true → fencible p = true → s.present p = 3 ∨ s.present p = 1 →
      Runs (.fencingInService p) s fun t => t.present p = 5 ∧ t.fld (R.PG_CTL p) 1 0 = 0 ∧ t.bit R.SYS_ATTN 0 = true ∧
        t.rd (R.DIR_ENTRY p) = typeCode p * 65536 + instanceNo p * 256 + 5 * 16 ∧
        t.rd R.DIR_GEN = (s.rd R.DIR_GEN + 1) % 2 ^ 32 ∧
        (∀ d : DevNo, p.val = pageDev d → t.rd (tierCap (devTier d)) = t.tierBytes (devTier d) ∧
          t.rd (R.PG_ERR pageSys) % 65536 = 0xC005) ∧
        (∀ n : ChanNo, p.val = pageChn n → t.rd (tierCap 3) =
          t3Units ((List.range 32).filter fun i => decide (i ≠ n.val) && s.inService (pageChn i)).length ∧
          t.rd (R.PG_ERR pageSys) % 65536 = 0xC006) ∧
        (∀ l : LinkNo, p.val = pageLnk l → t.linkState l = lkDown ∧ t.rd (R.PG_ERR (pageLnk l)) % 65536 = 0x7001) ∧
        (∀ (r : RowNo) (c : Nat), p.val = pageRow r → s.present p = 3 → kvFind s.sched.reserved r.val = some c →
          (c, r.val, false) ∈ t.sched.degraded ∧ t.rd (R.PG_ERR pageSch) % 65536 = 0x2005)) ∧
    (∀ p : Page, s.rd R.SYS_STATE ≠ 6 ∨ fencible p = false ∨ (s.present p ≠ 3 ∧ s.present p ≠ 1) →
      Runs (.fencingInService p) s fun t => t.sys = s.sys ∧ t.tiers = s.tiers ∧ Kept s t (fun _ => False) ∧ SameMem s t) ∧
    (∀ (h : MsgHead) (p : List Byte), s.sys.aux = true →
      let said := fun (t : State) (m st : Nat) (d : List Byte) => Sent s t fun o => o = .message .sideband (responseBytes m h.code h.tag st d)
      let same := fun (t : State) => t.sys = s.sys ∧ t.nor = s.nor ∧ Kept s t (fun _ => False) ∧ SameMem s t
      let n := s.rd R.SYS_STATE
      let off := n = 1 ∨ n = 7 ∨ n = 8 ∨ n = 9 ∨ s.nor.running = true
      let all := fun b : Bool => [(0x7AC0, 0x11, Instr.regRead h p b), (0x7AC0, 0x12, .regWrite h p b), (0x7AC0, 0x13, .sidebandReset h p b)] ++
        (if n = 0 ∨ off then [] else [(0x7AD0, 0x31, .sensors h p b)])
      (∀ e ∈ all true, Runs e.2.2 s fun t => said t e.1 3 [] ∧ same t) ∧
      (off → n ≠ 0 → ∀ b, Runs (.sensors h p b) s fun t => said t 0x7AD0 3 [] ∧ same t) ∧
      (∀ e ∈ all false,
        (h.magic ≠ e.1 ∨ p.length < h.len ∨ h.status ≠ 0 → Runs e.2.2 s fun t => said t e.1 1 [] ∧ same t) ∧
        (h.magic = e.1 → h.len ≤ p.length → h.status = 0 → h.version ≠ 1 ∨ h.code ≠ e.2.1 → Runs e.2.2 s fun t =>
          said t e.1 2 [] ∧ same t)) ∧
      (h.len ≤ p.length → h.status = 0 → h.version = 1 → n ≠ 0 →
        (¬ off → h.magic = 0x7AD0 → h.code = 0x31 → Runs (.sensors h p false) s fun t => said t 0x7AD0 0 s.sensorBytes ∧ same t) ∧
        (h.magic = 0x7AC0 →
          (h.code = 0x13 → h.len ≠ 4 ∨ field p 0 4 ≠ 0xC0DE → Runs (.sidebandReset h p false) s fun t => said t 0x7AC0 1 [] ∧ same t) ∧
          (∀ page o c, regFields h p = some (page, o, c) →
            let bad := page ∉ sidebandPages ∨ o % 4 ≠ 0 ∨ c = 0 ∨ 64 < c ∨ 0x10000 < o + 4 * c
            (h.code = 0x11 → bad → Runs (.regRead h p false) s fun t => said t 0x7AC0 5 [] ∧ same t) ∧
            (h.code = 0x11 → ¬ bad → c = 1 → Runs (.regRead h p false) s fun t =>
              said t 0x7AC0 0 (leBytes 4 (s.read32 0 (page * 0x10000 + o)).1) ∧
              (page = pageSys → o = 0x120 → t.sys.attnRead = true) ∧ SameMem s t) ∧
            (h.code = 0x12 → 12 ≤ h.len →
              let v := field p 8 4
              let a := page * 0x10000 + o
              (c ≠ 1 ∨ a ∉ sidebandWrites ∨ (a = R.RST_FENCE_CMD ∧ v % 4 ≠ 2) → Runs (.regWrite h p false) s fun t =>
                said t 0x7AC0 5 [] ∧ same t) ∧
              (c = 1 → a = R.RST_FENCE_CMD → v % 4 = 2 → Runs (.regWrite h p false) s fun t => said t 0x7AC0 0 [] ∧
                s.fld R.RST_FENCE_SEL 7 0 ∈ t.sys.withdrawn ∧ t.nor = s.nor ∧ Kept s t (fun _ => False) ∧ SameMem s t) ∧
              (c = 1 → a = R.SYS_ATTN_EN → Open s 0 pageSys → Runs (.regWrite h p false) s fun t => said t 0x7AC0 0 [] ∧
                t.rd R.SYS_ATTN_EN = (s.rd R.SYS_ATTN_EN &&& (0xFFFFFFFFFFFFFFFF ^^^ 0xFFF)) ||| (v &&& 0xFFF) ∧ t.nor = s.nor ∧
                Kept s t (fun k => k = R.SYS_ATTN_EN) ∧ SameMem s t)))))) ∧
    (∀ (temps : List Int) (w1 w100 : Nat),
      (s.up = false → Runs (.sensorReading temps w1 w100) s fun t => t.sys = s.sys ∧ Kept s t (fun _ => False) ∧ SameMem s t) ∧
      (s.up = true → trips temps = true → Runs (.sensorReading temps w1 w100) s fun t => t.rd R.SYS_STATE = 0 ∧ t.sys.low = true ∧
        t.sys.tripped = true ∧ t.sys.temps = temps ∧ t.sys.flushing = s.ftl.mounted ∧ t.ctxs = [] ∧ t.mem = []) ∧
      (s.up = true → trips temps = false → Runs (.sensorReading temps w1 w100) s fun t =>
        let drawn := 1000 < w1 ∨ 990 < w100
        let eased := w1 < 950 ∧ w100 < 980
        t.sys.temps = temps ∧ t.sys.w100 = w100 ∧ SameMem s t ∧ t.rd R.SYS_STATE = s.rd R.SYS_STATE ∧
        t.sys.level = (if t.sys.hot.isSome then 2 else if t.sys.drawing.isSome then 1 else 0) ∧
        (holds temps = true → t.sys.hot = some none ∧ (s.sys.hot = none → t.bit R.SYS_ATTN 4 = true)) ∧
        (holds temps = false →
          (s.sys.hot = none → t.sys.hot = none) ∧
          (∀ f, s.sys.hot = some f → cooled temps = false → t.sys.hot = some none) ∧
          (s.sys.hot = some none → cooled temps = true → t.sys.hot = some (some s.etime)) ∧
          (∀ f, s.sys.hot = some (some f) → cooled temps = true → t.sys.hot = if f + tickSec ≤ s.etime then none else some (some f))) ∧
        (drawn → t.sys.drawing = some none ∧ (s.sys.drawing = none → t.bit R.SYS_ATTN 4 = true)) ∧
        (¬ drawn →
          (s.sys.drawing = none → t.sys.drawing = none) ∧
          (∀ f, s.sys.drawing = some f → ¬ eased → t.sys.drawing = some none) ∧
          (s.sys.drawing = some none → eased → t.sys.drawing = some (some s.etime)) ∧
          (∀ f, s.sys.drawing = some (some f) → eased →
            t.sys.drawing = if f + 1000 * tickUs ≤ s.etime then none else some (some f)))))

/-! Bring-up. -/

/-- The phases of bring-up follow one another, each in its own state: ROM chooses an endpaper and measures it, TINY takes the lowest units
that pass, FILL writes every device clean, TEST fences what fails and puts spares in, GROW sets the capacities, mounts T3 and releases RB#.
What finds nothing to go on with, or takes 60 s, is fatal. -/
def Obligations.BringUpClimbsPhaseByPhase : Prop :=
  ∀ (s : State) (ms : Nat),
    let kept := fun (t : State) => Kept s t (fun _ => False) ∧ SameMem s t
    let fatal := fun (t : State) (cause page : Nat) => t.rd R.SYS_STATE = 7 ∧ t.rd R.SYS_FATAL = cause + page * 256 ∧
      t.sys.low = true ∧ t.rd (R.PG_ERR pageSys) % 65536 = 0xC008 ∧ SameMem s t
    let later := s.etime + ms * 1000 * tickUs
    (∀ (a : RomFacts) (b : TinyFails) (dead : List DevNo) (fails : List (Page × Nat)) (g : GrowFacts),
      ∀ e ∈ [(1, Instr.bringupRom ms a), (2, .bringupTiny ms b), (3, .bringupFill ms dead), (4, .bringupTest ms fails),
        (5, .bringupGrow ms g)], s.phase e.1 = false → Runs e.2 s fun t => t.sys = s.sys ∧ t.etime = s.etime ∧ kept t) ∧
    ((∀ n, 1 ≤ n → n ≤ 5 → s.phase n = false) → Runs .bringupTimeout s fun t => t.sys = s.sys ∧ t.etime = s.etime ∧ kept t) ∧
    (∀ n, 1 ≤ n → n ≤ 5 → s.phase n = true → Runs .bringupTimeout s fun t => fatal t 6 pageSys ∧
      t.etime = max s.etime (s.sys.bringupFrom + 60 * tickSec)) ∧
    (s.phase 1 = true → ∀ f : RomFacts,
      (s.sys.tripped = true → f.cool = false → Runs (.bringupRom ms f) s fun t => t.sys = s.sys ∧ t.etime = later ∧ kept t) ∧
      (s.sys.tripped = false ∨ f.cool = true →
        (f.norOk = false → Runs (.bringupRom ms f) s fun t => fatal t 3 pageNor ∧ t.sys.tripped = false) ∧
        (f.norOk = true →
          let front := s.imageFault s.nor.front f.frontSig
          let back := s.imageFault s.nor.back f.backSig
          let rom := fun (t : State) => t.sys.tripped = false ∧ t.sys.withdrawn = [] ∧ SameMem s t ∧ t.etime = later ∧
            t.nor.fences = s.nor.fences.filter (fun p => !s.sys.withdrawn.contains p) ∧ t.slotCount 0 = s.slotCount 0 + 1 ∧
            t.bit R.NOR_STAT 2 = front.isNone ∧ t.bit R.NOR_STAT 3 = back.isNone ∧
            (s.sec.pufDue = true → t.sec.pufDue = false ∧ t.rd R.SEC_PUF_ERR = f.puf.1 % 2 ^ 64 ∧
              (t.bit R.SEC_STAT 0 = true ↔ f.chainOk = true ∧ f.puf.1 ≤ 983 ∧ ∃ seed, f.puf.2 = some seed ∧ shake256 seed 32 = s.nor.pufCheck))
          (front = none ∨ back = none → Runs (.bringupRom ms f) s fun t => rom t ∧ t.rd R.SYS_STATE = 2 ∧ t.rd R.RST_WD_CTL = 1 ∧
            t.sys.kickAt = later ∧ t.bit R.NOR_STAT 6 = false ∧ (∀ i, 1 ≤ i → i ≤ 3 → t.slotCount i = s.slotCount i + 1) ∧
            (front ≠ none → t.bit R.NOR_STAT 0 = true) ∧ (back ≠ none → t.bit R.NOR_STAT 0 = false)) ∧
          (front ≠ none → back ≠ none → Runs (.bringupRom ms f) s fun t => rom t ∧ t.rd R.SYS_STATE = 8 ∧ t.sys.low = true ∧
            t.bit R.NOR_STAT 6 = true ∧ t.rd (R.PG_ERR pageNor) % 65536 = 0xA008)))) ∧
    (s.phase 2 = true → ∀ f : TinyFails,
      let lowest := fun (n : Nat) (fails named : Nat → Prop) (i : Nat) => i < n ∧ ¬ fails i ∧
        ((¬ named i ∧ ∀ j, j < i → fails j ∨ named j) ∨ ((∀ j, j < n → fails j ∨ named j) ∧ ∀ j, j < i → fails j))
      let named := fun (p i : Nat) => p + i ∈ s.nor.fences
      let core := fun (i : Nat) => (∃ k ∈ f.cores, k.val = i) ∨ ∃ n b, s.sys.wdRecord = some (i, n, b) ∧ 2 ≤ n
      let row := fun (i : Nat) => ∃ k ∈ f.rows, k.val = i
      let hbm := fun (i : Nat) => ∃ k ∈ f.hbm, k.val = i
      let chan := fun (i : Nat) => ∃ k ∈ f.chans, k.val = i
      (∀ a b c d, lowest 3 core (fun _ => False) a → lowest 104 row (named 0x28) b → lowest 8 hbm (named 0x10) c →
        lowest 32 chan (named 0x98) d → Runs (.bringupTiny ms f) s fun t => t.rd R.SYS_STATE = 3 ∧
          t.rd R.SYS_TINY = a + b * 2 ^ 2 + c * 2 ^ 9 + d * 2 ^ 12 ∧ t.bit R.SYS_FLAGS 4 = decide (a + b + c + d ≠ 0) ∧ t.etime = later ∧
          Kept s t (fun k => k = R.SYS_STATE ∨ k = R.SYS_TINY ∨ k = R.SYS_FLAGS) ∧ SameMem s t) ∧
      ((∀ i, i < 3 → core i) → Runs (.bringupTiny ms f) s fun t => fatal t 2 pageSys) ∧
      ((∃ i, i < 3 ∧ ¬ core i) →
        ((∀ i, i < 104 → row i) → Runs (.bringupTiny ms f) s fun t => fatal t 2 0x28) ∧
        ((∃ i, i < 104 ∧ ¬ row i) →
          ((∀ i, i < 8 → hbm i) → Runs (.bringupTiny ms f) s fun t => fatal t 2 0x10) ∧
          ((∃ i, i < 8 ∧ ¬ hbm i) → (∀ i, i < 32 → chan i) → Runs (.bringupTiny ms f) s fun t => fatal t 2 0x98)))) ∧
    (s.phase 3 = true → ∀ dead : List DevNo, Runs (.bringupFill ms dead) s fun t => t.rd R.SYS_STATE = 4 ∧ t.etime = later ∧
      t.devs.words = [] ∧ t.devs.merge = [] ∧ t.sys.deadDevs = dead.map Fin.val ∧
      (∀ d : DevNo, t.rd (R.MEM_STAT (pageDev d)) = if d ∈ dead then 0 else 3) ∧
      Kept s t (fun k => k = R.SYS_STATE ∨ ∃ d : DevNo, k = R.MEM_STAT (pageDev d)) ∧ SameMem s t) ∧
    (s.phase 4 = true → s.nor.spareRows.length ≤ 8 → ∀ fails : List (Page × Nat),
      let bad := fun (p : Nat) => (fencible p = true ∨ p = pageSpt) ∧ ((∃ e ∈ fails, e.1.val = p) ∨ p ∈ s.nor.fences ∨
        (0x10 ≤ p ∧ p < 0x28 ∧ p - 0x10 ∈ s.sys.deadDevs))
      let placed := fun (t : State) => t.etime = later ∧
        (∀ p : Page, typeCode p ≠ 0 → bad p → t.present p = 5 ∧ t.bit (R.PG_CTL p) 0 = false) ∧
        (∀ p : Page, typeCode p ≠ 0 → ¬ bad p → (p.val < 0x28 ∨ 0x90 ≤ p.val ∨ p.val - 0x28 ∉ s.nor.spareRows) →
          t.present p = 3 ∧ t.bit (R.PG_CTL p) 0 = true) ∧
        (∀ r : RowNo, r.val ∈ s.nor.spareRows → ¬ bad (pageRow r) →
          ((∃ l : RowNo, l.val / 13 = r.val / 13 ∧ l.val ∉ s.nor.spareRows ∧ bad (pageRow l)) → t.present (pageRow r) = 3) ∧
          ((∀ l : RowNo, l.val ∉ s.nor.spareRows → ¬ bad (pageRow l)) → t.present (pageRow r) = 9))
      ((∀ d : Fin 8, bad (pageDev d)) → Runs (.bringupTest ms fails) s fun t => placed t ∧ fatal t 4 0x10) ∧
      ((∃ d : Fin 8, ¬ bad (pageDev d)) →
        ((∀ r : RowNo, bad (pageRow r)) → Runs (.bringupTest ms fails) s fun t => placed t ∧ fatal t 5 0x28) ∧
        ((∃ r : RowNo, r.val ∉ s.nor.spareRows ∧ ¬ bad (pageRow r)) → Runs (.bringupTest ms fails) s fun t => placed t ∧
          t.rd R.SYS_STATE = 5 ∧ t.fld R.SYS_SHAPE 14 11 = ((List.range 8).filter fun d => t.inService (pageDev d)).length ∧
          t.fld R.SYS_SHAPE 6 0 = ((List.range 104).filter fun r => t.inService (pageRow r)).length ∧ SameMem s t))) ∧
    (s.phase 5 = true → (∀ e ∈ s.nor.settings, e.1 / 0x10000 ≠ pageSys ∧ 0x100 ≤ e.1 % 0x10000) → ∀ f : GrowFacts, Runs (.bringupGrow ms f) s fun t =>
      t.rd R.SYS_STATE = 6 ∧ t.released = true ∧ t.sys.low = false ∧ t.sys.readyAt = t.etime ∧ t.sys.bankMj = f.bankMj ∧
      t.rd R.SYS_BRINGUP_MS = min ((later - s.sys.bringupFrom) / (1000 * tickUs)) 65535 ∧
      (f.bankMj < 14000 → t.bit R.SYS_FLAGS 3 = true) ∧ (f.rootOk = false → t.bit R.SYS_FLAGS 2 = true) ∧
      (f.rootOk = true → t.ftl.mounted = true) ∧
      (∀ p : Page, typeCode p ≠ 0 → t.rd (R.DIR_ENTRY p) = typeCode p * 65536 + instanceNo p * 256 + s.present p * 16) ∧
      (f.coefsOk = true → t.bit R.ACC_STAT 0 = true ∧ ∀ i, i < 12 → t.rd (R.ACC_COEF i) = s.nor.coefs.getD i 0 % 2 ^ 32) ∧
      (f.coefsOk = false → t.bit R.ACC_STAT 0 = false ∧ t.rd (R.PG_ERR pageAcc) % 65536 = 0x2009) ∧
      t.sched.reserved = (((List.range 104).filter fun r => s.inService (pageRow r)).take 16).map (fun r => (r, 0)) ∧
      (s.fld R.SYS_FLAGS 3 0 ≠ 0 → t.bit R.SYS_ATTN 11 = true) ∧
      (∀ m i, (m, i) ∈ [(0, R.SPT_MAC0_LO), (1, R.SPT_MAC1_LO)] → t.rd i = s.nor.macs.getD m 0 % 2 ^ 32 ∧
        t.rd (i + 4) = s.nor.macs.getD m 0 / 2 ^ 32 % 2 ^ 16) ∧
      ((∀ e ∈ s.nor.settings, e.1 / 0x10000 < 0x10 ∨ 0x28 ≤ e.1 / 0x10000) → (∀ (d : DevNo) (i : Nat), (i < 256 → s.bit (R.MEM_RET_FRAME (pageDev d) i) 31 = false) ∧
          (i < 8 → s.bit (R.MEM_RET_BANK (pageDev d) i) 31 = false)) →
        t.rd (tierCap 1) = ((List.range 8).filter fun d => s.devInService d).length * 38654705664 - 8589934592 ∧
        t.rd (tierCap 3) = t3Units ((List.range 32).filter fun i => s.inService (pageChn i)).length ∧
        t.rd (tqMax 0 1) = t.rd (tierCap 1) ∧ t.rd (tqMax 0 2) = t.rd (tierCap 2)) ∧ SameMem s t)
end

