-- ==== Sys2Proof/Laws/State.lean ====
section
/-! SUPPORT. One lemma per field of State for each plain update of it: what the update leaves as it was, true by unfolding, so
that no proof unfolds a record update. The updates of one register in part are updates of the whole register. -/

namespace Sys2Proof.Machine

/-! A register changed in part is the register written whole. -/

theorem State.setFld_eq (s : State) (key hi lo v : Nat) : s.setFld key hi lo v = s.wr key (putBits (s.rd key) hi lo v) := rfl

theorem State.setBit_eq (s : State) (key i : Nat) (b : Bool) : s.setBit key i b = s.wr key (putBits (s.rd key) i i b.toNat) := rfl

theorem State.count_eq (s : State) (key n : Nat) : s.count key n = s.wr key (s.rd key + n) := rfl

theorem State.countSat_eq (s : State) (key n : Nat) : s.countSat key n = s.wr key (min (s.rd key + n) 0xFFFFFFFF) := rfl

theorem State.countWrap_eq (s : State) (key n : Nat) : s.countWrap key n = s.wr key ((s.rd key + n) % 0x100000000) := rfl

theorem State.raiseTo_eq (s : State) (key v : Nat) : s.raiseTo key v = s.wr key (max (s.rd key) v) := rfl

/-! wr -/

@[simp] theorem State.wr_pending (s : State) (key v : Nat) : (s.wr key v).pending = s.pending := rfl
@[simp] theorem State.wr_inForce (s : State) (key v : Nat) : (s.wr key v).inForce = s.inForce := rfl
@[simp] theorem State.wr_out (s : State) (key v : Nat) : (s.wr key v).out = s.out := rfl
@[simp] theorem State.wr_fresh (s : State) (key v : Nat) : (s.wr key v).fresh = s.fresh := rfl
@[simp] theorem State.wr_dtime (s : State) (key v : Nat) : (s.wr key v).dtime = s.dtime := rfl
@[simp] theorem State.wr_etime (s : State) (key v : Nat) : (s.wr key v).etime = s.etime := rfl
@[simp] theorem State.wr_released (s : State) (key v : Nat) : (s.wr key v).released = s.released := rfl
@[simp] theorem State.wr_rdHold (s : State) (key v : Nat) : (s.wr key v).rdHold = s.rdHold := rfl
@[simp] theorem State.wr_wrHold (s : State) (key v : Nat) : (s.wr key v).wrHold = s.wrHold := rfl
@[simp] theorem State.wr_nowHold (s : State) (key v : Nat) : (s.wr key v).nowHold = s.nowHold := rfl
@[simp] theorem State.wr_ppsHold (s : State) (key v : Nat) : (s.wr key v).ppsHold = s.ppsHold := rfl
@[simp] theorem State.wr_measHold (s : State) (key v : Nat) : (s.wr key v).measHold = s.measHold := rfl
@[simp] theorem State.wr_irq (s : State) (key v : Nat) : (s.wr key v).irq = s.irq := rfl
@[simp] theorem State.wr_err (s : State) (key v : Nat) : (s.wr key v).err = s.err := rfl
@[simp] theorem State.wr_tmb (s : State) (key v : Nat) : (s.wr key v).tmb = s.tmb := rfl
@[simp] theorem State.wr_msr (s : State) (key v : Nat) : (s.wr key v).msr = s.msr := rfl
@[simp] theorem State.wr_rows (s : State) (key v : Nat) : (s.wr key v).rows = s.rows := rfl
@[simp] theorem State.wr_leaf (s : State) (key v : Nat) : (s.wr key v).leaf = s.leaf := rfl
@[simp] theorem State.wr_gather (s : State) (key v : Nat) : (s.wr key v).gather = s.gather := rfl
@[simp] theorem State.wr_cols (s : State) (key v : Nat) : (s.wr key v).cols = s.cols := rfl
@[simp] theorem State.wr_mem (s : State) (key v : Nat) : (s.wr key v).mem = s.mem := rfl
@[simp] theorem State.wr_memPoison (s : State) (key v : Nat) : (s.wr key v).memPoison = s.memPoison := rfl
@[simp] theorem State.wr_tiers (s : State) (key v : Nat) : (s.wr key v).tiers = s.tiers := rfl
@[simp] theorem State.wr_ctxs (s : State) (key v : Nat) : (s.wr key v).ctxs = s.ctxs := rfl
@[simp] theorem State.wr_sched (s : State) (key v : Nat) : (s.wr key v).sched = s.sched := rfl
@[simp] theorem State.wr_accRem (s : State) (key v : Nat) : (s.wr key v).accRem = s.accRem := rfl
@[simp] theorem State.wr_journals (s : State) (key v : Nat) : (s.wr key v).journals = s.journals := rfl
@[simp] theorem State.wr_spt (s : State) (key v : Nat) : (s.wr key v).spt = s.spt := rfl
@[simp] theorem State.wr_attnWanted (s : State) (key v : Nat) : (s.wr key v).attnWanted = s.attnWanted := rfl
@[simp] theorem State.wr_ftl (s : State) (key v : Nat) : (s.wr key v).ftl = s.ftl := rfl
@[simp] theorem State.wr_namespaces (s : State) (key v : Nat) : (s.wr key v).namespaces = s.namespaces := rfl
@[simp] theorem State.wr_search (s : State) (key v : Nat) : (s.wr key v).search = s.search := rfl
@[simp] theorem State.wr_links (s : State) (key v : Nat) : (s.wr key v).links = s.links := rfl
@[simp] theorem State.wr_red (s : State) (key v : Nat) : (s.wr key v).red = s.red := rfl
@[simp] theorem State.wr_ctrls (s : State) (key v : Nat) : (s.wr key v).ctrls = s.ctrls := rfl
@[simp] theorem State.wr_heldSaid (s : State) (key v : Nat) : (s.wr key v).heldSaid = s.heldSaid := rfl
@[simp] theorem State.wr_fns (s : State) (key v : Nat) : (s.wr key v).fns = s.fns := rfl
@[simp] theorem State.wr_linkL1 (s : State) (key v : Nat) : (s.wr key v).linkL1 = s.linkL1 := rfl
@[simp] theorem State.wr_devs (s : State) (key v : Nat) : (s.wr key v).devs = s.devs := rfl
@[simp] theorem State.wr_sec (s : State) (key v : Nat) : (s.wr key v).sec = s.sec := rfl
@[simp] theorem State.wr_nor (s : State) (key v : Nat) : (s.wr key v).nor = s.nor := rfl
@[simp] theorem State.wr_sys (s : State) (key v : Nat) : (s.wr key v).sys = s.sys := rfl

/-! emit -/

@[simp] theorem State.emit_pending (s : State) (o : Output) : (s.emit o).pending = s.pending := rfl
@[simp] theorem State.emit_regs (s : State) (o : Output) : (s.emit o).regs = s.regs := rfl
@[simp] theorem State.emit_inForce (s : State) (o : Output) : (s.emit o).inForce = s.inForce := rfl
@[simp] theorem State.emit_fresh (s : State) (o : Output) : (s.emit o).fresh = s.fresh := rfl
@[simp] theorem State.emit_dtime (s : State) (o : Output) : (s.emit o).dtime = s.dtime := rfl
@[simp] theorem State.emit_etime (s : State) (o : Output) : (s.emit o).etime = s.etime := rfl
@[simp] theorem State.emit_released (s : State) (o : Output) : (s.emit o).released = s.released := rfl
@[simp] theorem State.emit_rdHold (s : State) (o : Output) : (s.emit o).rdHold = s.rdHold := rfl
@[simp] theorem State.emit_wrHold (s : State) (o : Output) : (s.emit o).wrHold = s.wrHold := rfl
@[simp] theorem State.emit_nowHold (s : State) (o : Output) : (s.emit o).nowHold = s.nowHold := rfl
@[simp] theorem State.emit_ppsHold (s : State) (o : Output) : (s.emit o).ppsHold = s.ppsHold := rfl
@[simp] theorem State.emit_measHold (s : State) (o : Output) : (s.emit o).measHold = s.measHold := rfl
@[simp] theorem State.emit_irq (s : State) (o : Output) : (s.emit o).irq = s.irq := rfl
@[simp] theorem State.emit_err (s : State) (o : Output) : (s.emit o).err = s.err := rfl
@[simp] theorem State.emit_tmb (s : State) (o : Output) : (s.emit o).tmb = s.tmb := rfl
@[simp] theorem State.emit_msr (s : State) (o : Output) : (s.emit o).msr = s.msr := rfl
@[simp] theorem State.emit_rows (s : State) (o : Output) : (s.emit o).rows = s.rows := rfl
@[simp] theorem State.emit_leaf (s : State) (o : Output) : (s.emit o).leaf = s.leaf := rfl
@[simp] theorem State.emit_gather (s : State) (o : Output) : (s.emit o).gather = s.gather := rfl
@[simp] theorem State.emit_cols (s : State) (o : Output) : (s.emit o).cols = s.cols := rfl
@[simp] theorem State.emit_mem (s : State) (o : Output) : (s.emit o).mem = s.mem := rfl
@[simp] theorem State.emit_memPoison (s : State) (o : Output) : (s.emit o).memPoison = s.memPoison := rfl
@[simp] theorem State.emit_tiers (s : State) (o : Output) : (s.emit o).tiers = s.tiers := rfl
@[simp] theorem State.emit_ctxs (s : State) (o : Output) : (s.emit o).ctxs = s.ctxs := rfl
@[simp] theorem State.emit_sched (s : State) (o : Output) : (s.emit o).sched = s.sched := rfl
@[simp] theorem State.emit_accRem (s : State) (o : Output) : (s.emit o).accRem = s.accRem := rfl
@[simp] theorem State.emit_journals (s : State) (o : Output) : (s.emit o).journals = s.journals := rfl
@[simp] theorem State.emit_spt (s : State) (o : Output) : (s.emit o).spt = s.spt := rfl
@[simp] theorem State.emit_attnWanted (s : State) (o : Output) : (s.emit o).attnWanted = s.attnWanted := rfl
@[simp] theorem State.emit_ftl (s : State) (o : Output) : (s.emit o).ftl = s.ftl := rfl
@[simp] theorem State.emit_namespaces (s : State) (o : Output) : (s.emit o).namespaces = s.namespaces := rfl
@[simp] theorem State.emit_search (s : State) (o : Output) : (s.emit o).search = s.search := rfl
@[simp] theorem State.emit_links (s : State) (o : Output) : (s.emit o).links = s.links := rfl
@[simp] theorem State.emit_red (s : State) (o : Output) : (s.emit o).red = s.red := rfl
@[simp] theorem State.emit_ctrls (s : State) (o : Output) : (s.emit o).ctrls = s.ctrls := rfl
@[simp] theorem State.emit_heldSaid (s : State) (o : Output) : (s.emit o).heldSaid = s.heldSaid := rfl
@[simp] theorem State.emit_fns (s : State) (o : Output) : (s.emit o).fns = s.fns := rfl
@[simp] theorem State.emit_linkL1 (s : State) (o : Output) : (s.emit o).linkL1 = s.linkL1 := rfl
@[simp] theorem State.emit_devs (s : State) (o : Output) : (s.emit o).devs = s.devs := rfl
@[simp] theorem State.emit_sec (s : State) (o : Output) : (s.emit o).sec = s.sec := rfl
@[simp] theorem State.emit_nor (s : State) (o : Output) : (s.emit o).nor = s.nor := rfl
@[simp] theorem State.emit_sys (s : State) (o : Output) : (s.emit o).sys = s.sys := rfl

/-! setCtrl -/

@[simp] theorem State.setCtrl_pending (s : State) (c : Nat) (x : Ctrl) : (s.setCtrl c x).pending = s.pending := rfl
@[simp] theorem State.setCtrl_regs (s : State) (c : Nat) (x : Ctrl) : (s.setCtrl c x).regs = s.regs := rfl
@[simp] theorem State.setCtrl_inForce (s : State) (c : Nat) (x : Ctrl) : (s.setCtrl c x).inForce = s.inForce := rfl
@[simp] theorem State.setCtrl_out (s : State) (c : Nat) (x : Ctrl) : (s.setCtrl c x).out = s.out := rfl
@[simp] theorem State.setCtrl_fresh (s : State) (c : Nat) (x : Ctrl) : (s.setCtrl c x).fresh = s.fresh := rfl
@[simp] theorem State.setCtrl_dtime (s : State) (c : Nat) (x : Ctrl) : (s.setCtrl c x).dtime = s.dtime := rfl
@[simp] theorem State.setCtrl_etime (s : State) (c : Nat) (x : Ctrl) : (s.setCtrl c x).etime = s.etime := rfl
@[simp] theorem State.setCtrl_released (s : State) (c : Nat) (x : Ctrl) : (s.setCtrl c x).released = s.released := rfl
@[simp] theorem State.setCtrl_rdHold (s : State) (c : Nat) (x : Ctrl) : (s.setCtrl c x).rdHold = s.rdHold := rfl
@[simp] theorem State.setCtrl_wrHold (s : State) (c : Nat) (x : Ctrl) : (s.setCtrl c x).wrHold = s.wrHold := rfl
@[simp] theorem State.setCtrl_nowHold (s : State) (c : Nat) (x : Ctrl) : (s.setCtrl c x).nowHold = s.nowHold := rfl
@[simp] theorem State.setCtrl_ppsHold (s : State) (c : Nat) (x : Ctrl) : (s.setCtrl c x).ppsHold = s.ppsHold := rfl
@[simp] theorem State.setCtrl_measHold (s : State) (c : Nat) (x : Ctrl) : (s.setCtrl c x).measHold = s.measHold := rfl
@[simp] theorem State.setCtrl_irq (s : State) (c : Nat) (x : Ctrl) : (s.setCtrl c x).irq = s.irq := rfl
@[simp] theorem State.setCtrl_err (s : State) (c : Nat) (x : Ctrl) : (s.setCtrl c x).err = s.err := rfl
@[simp] theorem State.setCtrl_tmb (s : State) (c : Nat) (x : Ctrl) : (s.setCtrl c x).tmb = s.tmb := rfl
@[simp] theorem State.setCtrl_msr (s : State) (c : Nat) (x : Ctrl) : (s.setCtrl c x).msr = s.msr := rfl
@[simp] theorem State.setCtrl_rows (s : State) (c : Nat) (x : Ctrl) : (s.setCtrl c x).rows = s.rows := rfl
@[simp] theorem State.setCtrl_leaf (s : State) (c : Nat) (x : Ctrl) : (s.setCtrl c x).leaf = s.leaf := rfl
@[simp] theorem State.setCtrl_gather (s : State) (c : Nat) (x : Ctrl) : (s.setCtrl c x).gather = s.gather := rfl
@[simp] theorem State.setCtrl_cols (s : State) (c : Nat) (x : Ctrl) : (s.setCtrl c x).cols = s.cols := rfl
@[simp] theorem State.setCtrl_mem (s : State) (c : Nat) (x : Ctrl) : (s.setCtrl c x).mem = s.mem := rfl
@[simp] theorem State.setCtrl_memPoison (s : State) (c : Nat) (x : Ctrl) : (s.setCtrl c x).memPoison = s.memPoison := rfl
@[simp] theorem State.setCtrl_tiers (s : State) (c : Nat) (x : Ctrl) : (s.setCtrl c x).tiers = s.tiers := rfl
@[simp] theorem State.setCtrl_ctxs (s : State) (c : Nat) (x : Ctrl) : (s.setCtrl c x).ctxs = s.ctxs := rfl
@[simp] theorem State.setCtrl_sched (s : State) (c : Nat) (x : Ctrl) : (s.setCtrl c x).sched = s.sched := rfl
@[simp] theorem State.setCtrl_accRem (s : State) (c : Nat) (x : Ctrl) : (s.setCtrl c x).accRem = s.accRem := rfl
@[simp] theorem State.setCtrl_journals (s : State) (c : Nat) (x : Ctrl) : (s.setCtrl c x).journals = s.journals := rfl
@[simp] theorem State.setCtrl_spt (s : State) (c : Nat) (x : Ctrl) : (s.setCtrl c x).spt = s.spt := rfl
@[simp] theorem State.setCtrl_attnWanted (s : State) (c : Nat) (x : Ctrl) : (s.setCtrl c x).attnWanted = s.attnWanted := rfl
@[simp] theorem State.setCtrl_ftl (s : State) (c : Nat) (x : Ctrl) : (s.setCtrl c x).ftl = s.ftl := rfl
@[simp] theorem State.setCtrl_namespaces (s : State) (c : Nat) (x : Ctrl) : (s.setCtrl c x).namespaces = s.namespaces := rfl
@[simp] theorem State.setCtrl_search (s : State) (c : Nat) (x : Ctrl) : (s.setCtrl c x).search = s.search := rfl
@[simp] theorem State.setCtrl_links (s : State) (c : Nat) (x : Ctrl) : (s.setCtrl c x).links = s.links := rfl
@[simp] theorem State.setCtrl_red (s : State) (c : Nat) (x : Ctrl) : (s.setCtrl c x).red = s.red := rfl
@[simp] theorem State.setCtrl_heldSaid (s : State) (c : Nat) (x : Ctrl) : (s.setCtrl c x).heldSaid = s.heldSaid := rfl
@[simp] theorem State.setCtrl_fns (s : State) (c : Nat) (x : Ctrl) : (s.setCtrl c x).fns = s.fns := rfl
@[simp] theorem State.setCtrl_linkL1 (s : State) (c : Nat) (x : Ctrl) : (s.setCtrl c x).linkL1 = s.linkL1 := rfl
@[simp] theorem State.setCtrl_devs (s : State) (c : Nat) (x : Ctrl) : (s.setCtrl c x).devs = s.devs := rfl
@[simp] theorem State.setCtrl_sec (s : State) (c : Nat) (x : Ctrl) : (s.setCtrl c x).sec = s.sec := rfl
@[simp] theorem State.setCtrl_nor (s : State) (c : Nat) (x : Ctrl) : (s.setCtrl c x).nor = s.nor := rfl
@[simp] theorem State.setCtrl_sys (s : State) (c : Nat) (x : Ctrl) : (s.setCtrl c x).sys = s.sys := rfl

/-! setRun -/

@[simp] theorem State.setRun_pending (s : State) (r : Nat) (x : Run) : (s.setRun r x).pending = s.pending := rfl
@[simp] theorem State.setRun_regs (s : State) (r : Nat) (x : Run) : (s.setRun r x).regs = s.regs := rfl
@[simp] theorem State.setRun_inForce (s : State) (r : Nat) (x : Run) : (s.setRun r x).inForce = s.inForce := rfl
@[simp] theorem State.setRun_out (s : State) (r : Nat) (x : Run) : (s.setRun r x).out = s.out := rfl
@[simp] theorem State.setRun_fresh (s : State) (r : Nat) (x : Run) : (s.setRun r x).fresh = s.fresh := rfl
@[simp] theorem State.setRun_dtime (s : State) (r : Nat) (x : Run) : (s.setRun r x).dtime = s.dtime := rfl
@[simp] theorem State.setRun_etime (s : State) (r : Nat) (x : Run) : (s.setRun r x).etime = s.etime := rfl
@[simp] theorem State.setRun_released (s : State) (r : Nat) (x : Run) : (s.setRun r x).released = s.released := rfl
@[simp] theorem State.setRun_rdHold (s : State) (r : Nat) (x : Run) : (s.setRun r x).rdHold = s.rdHold := rfl
@[simp] theorem State.setRun_wrHold (s : State) (r : Nat) (x : Run) : (s.setRun r x).wrHold = s.wrHold := rfl
@[simp] theorem State.setRun_nowHold (s : State) (r : Nat) (x : Run) : (s.setRun r x).nowHold = s.nowHold := rfl
@[simp] theorem State.setRun_ppsHold (s : State) (r : Nat) (x : Run) : (s.setRun r x).ppsHold = s.ppsHold := rfl
@[simp] theorem State.setRun_measHold (s : State) (r : Nat) (x : Run) : (s.setRun r x).measHold = s.measHold := rfl
@[simp] theorem State.setRun_irq (s : State) (r : Nat) (x : Run) : (s.setRun r x).irq = s.irq := rfl
@[simp] theorem State.setRun_err (s : State) (r : Nat) (x : Run) : (s.setRun r x).err = s.err := rfl
@[simp] theorem State.setRun_tmb (s : State) (r : Nat) (x : Run) : (s.setRun r x).tmb = s.tmb := rfl
@[simp] theorem State.setRun_msr (s : State) (r : Nat) (x : Run) : (s.setRun r x).msr = s.msr := rfl
@[simp] theorem State.setRun_rows (s : State) (r : Nat) (x : Run) : (s.setRun r x).rows = s.rows := rfl
@[simp] theorem State.setRun_leaf (s : State) (r : Nat) (x : Run) : (s.setRun r x).leaf = s.leaf := rfl
@[simp] theorem State.setRun_gather (s : State) (r : Nat) (x : Run) : (s.setRun r x).gather = s.gather := rfl
@[simp] theorem State.setRun_cols (s : State) (r : Nat) (x : Run) : (s.setRun r x).cols = s.cols := rfl
@[simp] theorem State.setRun_mem (s : State) (r : Nat) (x : Run) : (s.setRun r x).mem = s.mem := rfl
@[simp] theorem State.setRun_memPoison (s : State) (r : Nat) (x : Run) : (s.setRun r x).memPoison = s.memPoison := rfl
@[simp] theorem State.setRun_tiers (s : State) (r : Nat) (x : Run) : (s.setRun r x).tiers = s.tiers := rfl
@[simp] theorem State.setRun_ctxs (s : State) (r : Nat) (x : Run) : (s.setRun r x).ctxs = s.ctxs := rfl
@[simp] theorem State.setRun_accRem (s : State) (r : Nat) (x : Run) : (s.setRun r x).accRem = s.accRem := rfl
@[simp] theorem State.setRun_journals (s : State) (r : Nat) (x : Run) : (s.setRun r x).journals = s.journals := rfl
@[simp] theorem State.setRun_spt (s : State) (r : Nat) (x : Run) : (s.setRun r x).spt = s.spt := rfl
@[simp] theorem State.setRun_attnWanted (s : State) (r : Nat) (x : Run) : (s.setRun r x).attnWanted = s.attnWanted := rfl
@[simp] theorem State.setRun_ftl (s : State) (r : Nat) (x : Run) : (s.setRun r x).ftl = s.ftl := rfl
@[simp] theorem State.setRun_namespaces (s : State) (r : Nat) (x : Run) : (s.setRun r x).namespaces = s.namespaces := rfl
@[simp] theorem State.setRun_search (s : State) (r : Nat) (x : Run) : (s.setRun r x).search = s.search := rfl
@[simp] theorem State.setRun_links (s : State) (r : Nat) (x : Run) : (s.setRun r x).links = s.links := rfl
@[simp] theorem State.setRun_red (s : State) (r : Nat) (x : Run) : (s.setRun r x).red = s.red := rfl
@[simp] theorem State.setRun_ctrls (s : State) (r : Nat) (x : Run) : (s.setRun r x).ctrls = s.ctrls := rfl
@[simp] theorem State.setRun_heldSaid (s : State) (r : Nat) (x : Run) : (s.setRun r x).heldSaid = s.heldSaid := rfl
@[simp] theorem State.setRun_fns (s : State) (r : Nat) (x : Run) : (s.setRun r x).fns = s.fns := rfl
@[simp] theorem State.setRun_linkL1 (s : State) (r : Nat) (x : Run) : (s.setRun r x).linkL1 = s.linkL1 := rfl
@[simp] theorem State.setRun_devs (s : State) (r : Nat) (x : Run) : (s.setRun r x).devs = s.devs := rfl
@[simp] theorem State.setRun_sec (s : State) (r : Nat) (x : Run) : (s.setRun r x).sec = s.sec := rfl
@[simp] theorem State.setRun_nor (s : State) (r : Nat) (x : Run) : (s.setRun r x).nor = s.nor := rfl
@[simp] theorem State.setRun_sys (s : State) (r : Nat) (x : Run) : (s.setRun r x).sys = s.sys := rfl

/-! setRow -/

@[simp] theorem State.setRow_pending (s : State) (r : Nat) (x : RowUnit) : (s.setRow r x).pending = s.pending := rfl
@[simp] theorem State.setRow_regs (s : State) (r : Nat) (x : RowUnit) : (s.setRow r x).regs = s.regs := rfl
@[simp] theorem State.setRow_inForce (s : State) (r : Nat) (x : RowUnit) : (s.setRow r x).inForce = s.inForce := rfl
@[simp] theorem State.setRow_out (s : State) (r : Nat) (x : RowUnit) : (s.setRow r x).out = s.out := rfl
@[simp] theorem State.setRow_fresh (s : State) (r : Nat) (x : RowUnit) : (s.setRow r x).fresh = s.fresh := rfl
@[simp] theorem State.setRow_dtime (s : State) (r : Nat) (x : RowUnit) : (s.setRow r x).dtime = s.dtime := rfl
@[simp] theorem State.setRow_etime (s : State) (r : Nat) (x : RowUnit) : (s.setRow r x).etime = s.etime := rfl
@[simp] theorem State.setRow_released (s : State) (r : Nat) (x : RowUnit) : (s.setRow r x).released = s.released := rfl
@[simp] theorem State.setRow_rdHold (s : State) (r : Nat) (x : RowUnit) : (s.setRow r x).rdHold = s.rdHold := rfl
@[simp] theorem State.setRow_wrHold (s : State) (r : Nat) (x : RowUnit) : (s.setRow r x).wrHold = s.wrHold := rfl
@[simp] theorem State.setRow_nowHold (s : State) (r : Nat) (x : RowUnit) : (s.setRow r x).nowHold = s.nowHold := rfl
@[simp] theorem State.setRow_ppsHold (s : State) (r : Nat) (x : RowUnit) : (s.setRow r x).ppsHold = s.ppsHold := rfl
@[simp] theorem State.setRow_measHold (s : State) (r : Nat) (x : RowUnit) : (s.setRow r x).measHold = s.measHold := rfl
@[simp] theorem State.setRow_irq (s : State) (r : Nat) (x : RowUnit) : (s.setRow r x).irq = s.irq := rfl
@[simp] theorem State.setRow_err (s : State) (r : Nat) (x : RowUnit) : (s.setRow r x).err = s.err := rfl
@[simp] theorem State.setRow_tmb (s : State) (r : Nat) (x : RowUnit) : (s.setRow r x).tmb = s.tmb := rfl
@[simp] theorem State.setRow_msr (s : State) (r : Nat) (x : RowUnit) : (s.setRow r x).msr = s.msr := rfl
@[simp] theorem State.setRow_leaf (s : State) (r : Nat) (x : RowUnit) : (s.setRow r x).leaf = s.leaf := rfl
@[simp] theorem State.setRow_gather (s : State) (r : Nat) (x : RowUnit) : (s.setRow r x).gather = s.gather := rfl
@[simp] theorem State.setRow_cols (s : State) (r : Nat) (x : RowUnit) : (s.setRow r x).cols = s.cols := rfl
@[simp] theorem State.setRow_mem (s : State) (r : Nat) (x : RowUnit) : (s.setRow r x).mem = s.mem := rfl
@[simp] theorem State.setRow_memPoison (s : State) (r : Nat) (x : RowUnit) : (s.setRow r x).memPoison = s.memPoison := rfl
@[simp] theorem State.setRow_tiers (s : State) (r : Nat) (x : RowUnit) : (s.setRow r x).tiers = s.tiers := rfl
@[simp] theorem State.setRow_ctxs (s : State) (r : Nat) (x : RowUnit) : (s.setRow r x).ctxs = s.ctxs := rfl
@[simp] theorem State.setRow_sched (s : State) (r : Nat) (x : RowUnit) : (s.setRow r x).sched = s.sched := rfl
@[simp] theorem State.setRow_accRem (s : State) (r : Nat) (x : RowUnit) : (s.setRow r x).accRem = s.accRem := rfl
@[simp] theorem State.setRow_journals (s : State) (r : Nat) (x : RowUnit) : (s.setRow r x).journals = s.journals := rfl
@[simp] theorem State.setRow_spt (s : State) (r : Nat) (x : RowUnit) : (s.setRow r x).spt = s.spt := rfl
@[simp] theorem State.setRow_attnWanted (s : State) (r : Nat) (x : RowUnit) : (s.setRow r x).attnWanted = s.attnWanted := rfl
@[simp] theorem State.setRow_ftl (s : State) (r : Nat) (x : RowUnit) : (s.setRow r x).ftl = s.ftl := rfl
@[simp] theorem State.setRow_namespaces (s : State) (r : Nat) (x : RowUnit) : (s.setRow r x).namespaces = s.namespaces := rfl
@[simp] theorem State.setRow_search (s : State) (r : Nat) (x : RowUnit) : (s.setRow r x).search = s.search := rfl
@[simp] theorem State.setRow_links (s : State) (r : Nat) (x : RowUnit) : (s.setRow r x).links = s.links := rfl
@[simp] theorem State.setRow_red (s : State) (r : Nat) (x : RowUnit) : (s.setRow r x).red = s.red := rfl
@[simp] theorem State.setRow_ctrls (s : State) (r : Nat) (x : RowUnit) : (s.setRow r x).ctrls = s.ctrls := rfl
@[simp] theorem State.setRow_heldSaid (s : State) (r : Nat) (x : RowUnit) : (s.setRow r x).heldSaid = s.heldSaid := rfl
@[simp] theorem State.setRow_fns (s : State) (r : Nat) (x : RowUnit) : (s.setRow r x).fns = s.fns := rfl
@[simp] theorem State.setRow_linkL1 (s : State) (r : Nat) (x : RowUnit) : (s.setRow r x).linkL1 = s.linkL1 := rfl
@[simp] theorem State.setRow_devs (s : State) (r : Nat) (x : RowUnit) : (s.setRow r x).devs = s.devs := rfl
@[simp] theorem State.setRow_sec (s : State) (r : Nat) (x : RowUnit) : (s.setRow r x).sec = s.sec := rfl
@[simp] theorem State.setRow_nor (s : State) (r : Nat) (x : RowUnit) : (s.setRow r x).nor = s.nor := rfl
@[simp] theorem State.setRow_sys (s : State) (r : Nat) (x : RowUnit) : (s.setRow r x).sys = s.sys := rfl

/-! setLink -/

@[simp] theorem State.setLink_pending (s : State) (l : Nat) (u : LinkUnit) : (s.setLink l u).pending = s.pending := rfl
@[simp] theorem State.setLink_regs (s : State) (l : Nat) (u : LinkUnit) : (s.setLink l u).regs = s.regs := rfl
@[simp] theorem State.setLink_inForce (s : State) (l : Nat) (u : LinkUnit) : (s.setLink l u).inForce = s.inForce := rfl
@[simp] theorem State.setLink_out (s : State) (l : Nat) (u : LinkUnit) : (s.setLink l u).out = s.out := rfl
@[simp] theorem State.setLink_fresh (s : State) (l : Nat) (u : LinkUnit) : (s.setLink l u).fresh = s.fresh := rfl
@[simp] theorem State.setLink_dtime (s : State) (l : Nat) (u : LinkUnit) : (s.setLink l u).dtime = s.dtime := rfl
@[simp] theorem State.setLink_etime (s : State) (l : Nat) (u : LinkUnit) : (s.setLink l u).etime = s.etime := rfl
@[simp] theorem State.setLink_released (s : State) (l : Nat) (u : LinkUnit) : (s.setLink l u).released = s.released := rfl
@[simp] theorem State.setLink_rdHold (s : State) (l : Nat) (u : LinkUnit) : (s.setLink l u).rdHold = s.rdHold := rfl
@[simp] theorem State.setLink_wrHold (s : State) (l : Nat) (u : LinkUnit) : (s.setLink l u).wrHold = s.wrHold := rfl
@[simp] theorem State.setLink_nowHold (s : State) (l : Nat) (u : LinkUnit) : (s.setLink l u).nowHold = s.nowHold := rfl
@[simp] theorem State.setLink_ppsHold (s : State) (l : Nat) (u : LinkUnit) : (s.setLink l u).ppsHold = s.ppsHold := rfl
@[simp] theorem State.setLink_measHold (s : State) (l : Nat) (u : LinkUnit) : (s.setLink l u).measHold = s.measHold := rfl
@[simp] theorem State.setLink_irq (s : State) (l : Nat) (u : LinkUnit) : (s.setLink l u).irq = s.irq := rfl
@[simp] theorem State.setLink_err (s : State) (l : Nat) (u : LinkUnit) : (s.setLink l u).err = s.err := rfl
@[simp] theorem State.setLink_tmb (s : State) (l : Nat) (u : LinkUnit) : (s.setLink l u).tmb = s.tmb := rfl
@[simp] theorem State.setLink_msr (s : State) (l : Nat) (u : LinkUnit) : (s.setLink l u).msr = s.msr := rfl
@[simp] theorem State.setLink_rows (s : State) (l : Nat) (u : LinkUnit) : (s.setLink l u).rows = s.rows := rfl
@[simp] theorem State.setLink_leaf (s : State) (l : Nat) (u : LinkUnit) : (s.setLink l u).leaf = s.leaf := rfl
@[simp] theorem State.setLink_gather (s : State) (l : Nat) (u : LinkUnit) : (s.setLink l u).gather = s.gather := rfl
@[simp] theorem State.setLink_cols (s : State) (l : Nat) (u : LinkUnit) : (s.setLink l u).cols = s.cols := rfl
@[simp] theorem State.setLink_mem (s : State) (l : Nat) (u : LinkUnit) : (s.setLink l u).mem = s.mem := rfl
@[simp] theorem State.setLink_memPoison (s : State) (l : Nat) (u : LinkUnit) : (s.setLink l u).memPoison = s.memPoison := rfl
@[simp] theorem State.setLink_tiers (s : State) (l : Nat) (u : LinkUnit) : (s.setLink l u).tiers = s.tiers := rfl
@[simp] theorem State.setLink_ctxs (s : State) (l : Nat) (u : LinkUnit) : (s.setLink l u).ctxs = s.ctxs := rfl
@[simp] theorem State.setLink_sched (s : State) (l : Nat) (u : LinkUnit) : (s.setLink l u).sched = s.sched := rfl
@[simp] theorem State.setLink_accRem (s : State) (l : Nat) (u : LinkUnit) : (s.setLink l u).accRem = s.accRem := rfl
@[simp] theorem State.setLink_journals (s : State) (l : Nat) (u : LinkUnit) : (s.setLink l u).journals = s.journals := rfl
@[simp] theorem State.setLink_spt (s : State) (l : Nat) (u : LinkUnit) : (s.setLink l u).spt = s.spt := rfl
@[simp] theorem State.setLink_attnWanted (s : State) (l : Nat) (u : LinkUnit) : (s.setLink l u).attnWanted = s.attnWanted := rfl
@[simp] theorem State.setLink_ftl (s : State) (l : Nat) (u : LinkUnit) : (s.setLink l u).ftl = s.ftl := rfl
@[simp] theorem State.setLink_namespaces (s : State) (l : Nat) (u : LinkUnit) : (s.setLink l u).namespaces = s.namespaces := rfl
@[simp] theorem State.setLink_search (s : State) (l : Nat) (u : LinkUnit) : (s.setLink l u).search = s.search := rfl
@[simp] theorem State.setLink_red (s : State) (l : Nat) (u : LinkUnit) : (s.setLink l u).red = s.red := rfl
@[simp] theorem State.setLink_ctrls (s : State) (l : Nat) (u : LinkUnit) : (s.setLink l u).ctrls = s.ctrls := rfl
@[simp] theorem State.setLink_heldSaid (s : State) (l : Nat) (u : LinkUnit) : (s.setLink l u).heldSaid = s.heldSaid := rfl
@[simp] theorem State.setLink_fns (s : State) (l : Nat) (u : LinkUnit) : (s.setLink l u).fns = s.fns := rfl
@[simp] theorem State.setLink_linkL1 (s : State) (l : Nat) (u : LinkUnit) : (s.setLink l u).linkL1 = s.linkL1 := rfl
@[simp] theorem State.setLink_devs (s : State) (l : Nat) (u : LinkUnit) : (s.setLink l u).devs = s.devs := rfl
@[simp] theorem State.setLink_sec (s : State) (l : Nat) (u : LinkUnit) : (s.setLink l u).sec = s.sec := rfl
@[simp] theorem State.setLink_nor (s : State) (l : Nat) (u : LinkUnit) : (s.setLink l u).nor = s.nor := rfl
@[simp] theorem State.setLink_sys (s : State) (l : Nat) (u : LinkUnit) : (s.setLink l u).sys = s.sys := rfl

/-! setBucket -/

@[simp] theorem State.setBucket_pending (s : State) (seq : Nat) (b : Bucket) : (s.setBucket seq b).pending = s.pending := rfl
@[simp] theorem State.setBucket_regs (s : State) (seq : Nat) (b : Bucket) : (s.setBucket seq b).regs = s.regs := rfl
@[simp] theorem State.setBucket_inForce (s : State) (seq : Nat) (b : Bucket) : (s.setBucket seq b).inForce = s.inForce := rfl
@[simp] theorem State.setBucket_out (s : State) (seq : Nat) (b : Bucket) : (s.setBucket seq b).out = s.out := rfl
@[simp] theorem State.setBucket_fresh (s : State) (seq : Nat) (b : Bucket) : (s.setBucket seq b).fresh = s.fresh := rfl
@[simp] theorem State.setBucket_dtime (s : State) (seq : Nat) (b : Bucket) : (s.setBucket seq b).dtime = s.dtime := rfl
@[simp] theorem State.setBucket_etime (s : State) (seq : Nat) (b : Bucket) : (s.setBucket seq b).etime = s.etime := rfl
@[simp] theorem State.setBucket_released (s : State) (seq : Nat) (b : Bucket) : (s.setBucket seq b).released = s.released := rfl
@[simp] theorem State.setBucket_rdHold (s : State) (seq : Nat) (b : Bucket) : (s.setBucket seq b).rdHold = s.rdHold := rfl
@[simp] theorem State.setBucket_wrHold (s : State) (seq : Nat) (b : Bucket) : (s.setBucket seq b).wrHold = s.wrHold := rfl
@[simp] theorem State.setBucket_nowHold (s : State) (seq : Nat) (b : Bucket) : (s.setBucket seq b).nowHold = s.nowHold := rfl
@[simp] theorem State.setBucket_ppsHold (s : State) (seq : Nat) (b : Bucket) : (s.setBucket seq b).ppsHold = s.ppsHold := rfl
@[simp] theorem State.setBucket_measHold (s : State) (seq : Nat) (b : Bucket) : (s.setBucket seq b).measHold = s.measHold := rfl
@[simp] theorem State.setBucket_irq (s : State) (seq : Nat) (b : Bucket) : (s.setBucket seq b).irq = s.irq := rfl
@[simp] theorem State.setBucket_err (s : State) (seq : Nat) (b : Bucket) : (s.setBucket seq b).err = s.err := rfl
@[simp] theorem State.setBucket_tmb (s : State) (seq : Nat) (b : Bucket) : (s.setBucket seq b).tmb = s.tmb := rfl
@[simp] theorem State.setBucket_msr (s : State) (seq : Nat) (b : Bucket) : (s.setBucket seq b).msr = s.msr := rfl
@[simp] theorem State.setBucket_rows (s : State) (seq : Nat) (b : Bucket) : (s.setBucket seq b).rows = s.rows := rfl
@[simp] theorem State.setBucket_leaf (s : State) (seq : Nat) (b : Bucket) : (s.setBucket seq b).leaf = s.leaf := rfl
@[simp] theorem State.setBucket_gather (s : State) (seq : Nat) (b : Bucket) : (s.setBucket seq b).gather = s.gather := rfl
@[simp] theorem State.setBucket_cols (s : State) (seq : Nat) (b : Bucket) : (s.setBucket seq b).cols = s.cols := rfl
@[simp] theorem State.setBucket_mem (s : State) (seq : Nat) (b : Bucket) : (s.setBucket seq b).mem = s.mem := rfl
@[simp] theorem State.setBucket_memPoison (s : State) (seq : Nat) (b : Bucket) : (s.setBucket seq b).memPoison = s.memPoison := rfl
@[simp] theorem State.setBucket_tiers (s : State) (seq : Nat) (b : Bucket) : (s.setBucket seq b).tiers = s.tiers := rfl
@[simp] theorem State.setBucket_ctxs (s : State) (seq : Nat) (b : Bucket) : (s.setBucket seq b).ctxs = s.ctxs := rfl
@[simp] theorem State.setBucket_sched (s : State) (seq : Nat) (b : Bucket) : (s.setBucket seq b).sched = s.sched := rfl
@[simp] theorem State.setBucket_accRem (s : State) (seq : Nat) (b : Bucket) : (s.setBucket seq b).accRem = s.accRem := rfl
@[simp] theorem State.setBucket_journals (s : State) (seq : Nat) (b : Bucket) : (s.setBucket seq b).journals = s.journals := rfl
@[simp] theorem State.setBucket_spt (s : State) (seq : Nat) (b : Bucket) : (s.setBucket seq b).spt = s.spt := rfl
@[simp] theorem State.setBucket_attnWanted (s : State) (seq : Nat) (b : Bucket) : (s.setBucket seq b).attnWanted = s.attnWanted := rfl
@[simp] theorem State.setBucket_ftl (s : State) (seq : Nat) (b : Bucket) : (s.setBucket seq b).ftl = s.ftl := rfl
@[simp] theorem State.setBucket_namespaces (s : State) (seq : Nat) (b : Bucket) : (s.setBucket seq b).namespaces = s.namespaces := rfl
@[simp] theorem State.setBucket_search (s : State) (seq : Nat) (b : Bucket) : (s.setBucket seq b).search = s.search := rfl
@[simp] theorem State.setBucket_links (s : State) (seq : Nat) (b : Bucket) : (s.setBucket seq b).links = s.links := rfl
@[simp] theorem State.setBucket_ctrls (s : State) (seq : Nat) (b : Bucket) : (s.setBucket seq b).ctrls = s.ctrls := rfl
@[simp] theorem State.setBucket_heldSaid (s : State) (seq : Nat) (b : Bucket) : (s.setBucket seq b).heldSaid = s.heldSaid := rfl
@[simp] theorem State.setBucket_fns (s : State) (seq : Nat) (b : Bucket) : (s.setBucket seq b).fns = s.fns := rfl
@[simp] theorem State.setBucket_linkL1 (s : State) (seq : Nat) (b : Bucket) : (s.setBucket seq b).linkL1 = s.linkL1 := rfl
@[simp] theorem State.setBucket_devs (s : State) (seq : Nat) (b : Bucket) : (s.setBucket seq b).devs = s.devs := rfl
@[simp] theorem State.setBucket_sec (s : State) (seq : Nat) (b : Bucket) : (s.setBucket seq b).sec = s.sec := rfl
@[simp] theorem State.setBucket_nor (s : State) (seq : Nat) (b : Bucket) : (s.setBucket seq b).nor = s.nor := rfl
@[simp] theorem State.setBucket_sys (s : State) (seq : Nat) (b : Bucket) : (s.setBucket seq b).sys = s.sys := rfl

/-! setEndpoint -/

@[simp] theorem State.setEndpoint_pending (s : State) (e : Nat) (x : Endpoint) : (s.setEndpoint e x).pending = s.pending := rfl
@[simp] theorem State.setEndpoint_regs (s : State) (e : Nat) (x : Endpoint) : (s.setEndpoint e x).regs = s.regs := rfl
@[simp] theorem State.setEndpoint_inForce (s : State) (e : Nat) (x : Endpoint) : (s.setEndpoint e x).inForce = s.inForce := rfl
@[simp] theorem State.setEndpoint_out (s : State) (e : Nat) (x : Endpoint) : (s.setEndpoint e x).out = s.out := rfl
@[simp] theorem State.setEndpoint_fresh (s : State) (e : Nat) (x : Endpoint) : (s.setEndpoint e x).fresh = s.fresh := rfl
@[simp] theorem State.setEndpoint_dtime (s : State) (e : Nat) (x : Endpoint) : (s.setEndpoint e x).dtime = s.dtime := rfl
@[simp] theorem State.setEndpoint_etime (s : State) (e : Nat) (x : Endpoint) : (s.setEndpoint e x).etime = s.etime := rfl
@[simp] theorem State.setEndpoint_released (s : State) (e : Nat) (x : Endpoint) : (s.setEndpoint e x).released = s.released := rfl
@[simp] theorem State.setEndpoint_rdHold (s : State) (e : Nat) (x : Endpoint) : (s.setEndpoint e x).rdHold = s.rdHold := rfl
@[simp] theorem State.setEndpoint_wrHold (s : State) (e : Nat) (x : Endpoint) : (s.setEndpoint e x).wrHold = s.wrHold := rfl
@[simp] theorem State.setEndpoint_nowHold (s : State) (e : Nat) (x : Endpoint) : (s.setEndpoint e x).nowHold = s.nowHold := rfl
@[simp] theorem State.setEndpoint_ppsHold (s : State) (e : Nat) (x : Endpoint) : (s.setEndpoint e x).ppsHold = s.ppsHold := rfl
@[simp] theorem State.setEndpoint_measHold (s : State) (e : Nat) (x : Endpoint) : (s.setEndpoint e x).measHold = s.measHold := rfl
@[simp] theorem State.setEndpoint_irq (s : State) (e : Nat) (x : Endpoint) : (s.setEndpoint e x).irq = s.irq := rfl
@[simp] theorem State.setEndpoint_err (s : State) (e : Nat) (x : Endpoint) : (s.setEndpoint e x).err = s.err := rfl
@[simp] theorem State.setEndpoint_tmb (s : State) (e : Nat) (x : Endpoint) : (s.setEndpoint e x).tmb = s.tmb := rfl
@[simp] theorem State.setEndpoint_msr (s : State) (e : Nat) (x : Endpoint) : (s.setEndpoint e x).msr = s.msr := rfl
@[simp] theorem State.setEndpoint_rows (s : State) (e : Nat) (x : Endpoint) : (s.setEndpoint e x).rows = s.rows := rfl
@[simp] theorem State.setEndpoint_leaf (s : State) (e : Nat) (x : Endpoint) : (s.setEndpoint e x).leaf = s.leaf := rfl
@[simp] theorem State.setEndpoint_gather (s : State) (e : Nat) (x : Endpoint) : (s.setEndpoint e x).gather = s.gather := rfl
@[simp] theorem State.setEndpoint_cols (s : State) (e : Nat) (x : Endpoint) : (s.setEndpoint e x).cols = s.cols := rfl
@[simp] theorem State.setEndpoint_mem (s : State) (e : Nat) (x : Endpoint) : (s.setEndpoint e x).mem = s.mem := rfl
@[simp] theorem State.setEndpoint_memPoison (s : State) (e : Nat) (x : Endpoint) : (s.setEndpoint e x).memPoison = s.memPoison := rfl
@[simp] theorem State.setEndpoint_tiers (s : State) (e : Nat) (x : Endpoint) : (s.setEndpoint e x).tiers = s.tiers := rfl
@[simp] theorem State.setEndpoint_ctxs (s : State) (e : Nat) (x : Endpoint) : (s.setEndpoint e x).ctxs = s.ctxs := rfl
@[simp] theorem State.setEndpoint_sched (s : State) (e : Nat) (x : Endpoint) : (s.setEndpoint e x).sched = s.sched := rfl
@[simp] theorem State.setEndpoint_accRem (s : State) (e : Nat) (x : Endpoint) : (s.setEndpoint e x).accRem = s.accRem := rfl
@[simp] theorem State.setEndpoint_journals (s : State) (e : Nat) (x : Endpoint) : (s.setEndpoint e x).journals = s.journals := rfl
@[simp] theorem State.setEndpoint_attnWanted (s : State) (e : Nat) (x : Endpoint) : (s.setEndpoint e x).attnWanted = s.attnWanted := rfl
@[simp] theorem State.setEndpoint_ftl (s : State) (e : Nat) (x : Endpoint) : (s.setEndpoint e x).ftl = s.ftl := rfl
@[simp] theorem State.setEndpoint_namespaces (s : State) (e : Nat) (x : Endpoint) : (s.setEndpoint e x).namespaces = s.namespaces := rfl
@[simp] theorem State.setEndpoint_search (s : State) (e : Nat) (x : Endpoint) : (s.setEndpoint e x).search = s.search := rfl
@[simp] theorem State.setEndpoint_links (s : State) (e : Nat) (x : Endpoint) : (s.setEndpoint e x).links = s.links := rfl
@[simp] theorem State.setEndpoint_red (s : State) (e : Nat) (x : Endpoint) : (s.setEndpoint e x).red = s.red := rfl
@[simp] theorem State.setEndpoint_ctrls (s : State) (e : Nat) (x : Endpoint) : (s.setEndpoint e x).ctrls = s.ctrls := rfl
@[simp] theorem State.setEndpoint_heldSaid (s : State) (e : Nat) (x : Endpoint) : (s.setEndpoint e x).heldSaid = s.heldSaid := rfl
@[simp] theorem State.setEndpoint_fns (s : State) (e : Nat) (x : Endpoint) : (s.setEndpoint e x).fns = s.fns := rfl
@[simp] theorem State.setEndpoint_linkL1 (s : State) (e : Nat) (x : Endpoint) : (s.setEndpoint e x).linkL1 = s.linkL1 := rfl
@[simp] theorem State.setEndpoint_devs (s : State) (e : Nat) (x : Endpoint) : (s.setEndpoint e x).devs = s.devs := rfl
@[simp] theorem State.setEndpoint_sec (s : State) (e : Nat) (x : Endpoint) : (s.setEndpoint e x).sec = s.sec := rfl
@[simp] theorem State.setEndpoint_nor (s : State) (e : Nat) (x : Endpoint) : (s.setEndpoint e x).nor = s.nor := rfl
@[simp] theorem State.setEndpoint_sys (s : State) (e : Nat) (x : Endpoint) : (s.setEndpoint e x).sys = s.sys := rfl

/-! setPtp -/

@[simp] theorem State.setPtp_pending (s : State) (p : PtpState) : (s.setPtp p).pending = s.pending := rfl
@[simp] theorem State.setPtp_regs (s : State) (p : PtpState) : (s.setPtp p).regs = s.regs := rfl
@[simp] theorem State.setPtp_inForce (s : State) (p : PtpState) : (s.setPtp p).inForce = s.inForce := rfl
@[simp] theorem State.setPtp_out (s : State) (p : PtpState) : (s.setPtp p).out = s.out := rfl
@[simp] theorem State.setPtp_fresh (s : State) (p : PtpState) : (s.setPtp p).fresh = s.fresh := rfl
@[simp] theorem State.setPtp_dtime (s : State) (p : PtpState) : (s.setPtp p).dtime = s.dtime := rfl
@[simp] theorem State.setPtp_etime (s : State) (p : PtpState) : (s.setPtp p).etime = s.etime := rfl
@[simp] theorem State.setPtp_released (s : State) (p : PtpState) : (s.setPtp p).released = s.released := rfl
@[simp] theorem State.setPtp_rdHold (s : State) (p : PtpState) : (s.setPtp p).rdHold = s.rdHold := rfl
@[simp] theorem State.setPtp_wrHold (s : State) (p : PtpState) : (s.setPtp p).wrHold = s.wrHold := rfl
@[simp] theorem State.setPtp_nowHold (s : State) (p : PtpState) : (s.setPtp p).nowHold = s.nowHold := rfl
@[simp] theorem State.setPtp_ppsHold (s : State) (p : PtpState) : (s.setPtp p).ppsHold = s.ppsHold := rfl
@[simp] theorem State.setPtp_measHold (s : State) (p : PtpState) : (s.setPtp p).measHold = s.measHold := rfl
@[simp] theorem State.setPtp_irq (s : State) (p : PtpState) : (s.setPtp p).irq = s.irq := rfl
@[simp] theorem State.setPtp_err (s : State) (p : PtpState) : (s.setPtp p).err = s.err := rfl
@[simp] theorem State.setPtp_msr (s : State) (p : PtpState) : (s.setPtp p).msr = s.msr := rfl
@[simp] theorem State.setPtp_rows (s : State) (p : PtpState) : (s.setPtp p).rows = s.rows := rfl
@[simp] theorem State.setPtp_leaf (s : State) (p : PtpState) : (s.setPtp p).leaf = s.leaf := rfl
@[simp] theorem State.setPtp_gather (s : State) (p : PtpState) : (s.setPtp p).gather = s.gather := rfl
@[simp] theorem State.setPtp_cols (s : State) (p : PtpState) : (s.setPtp p).cols = s.cols := rfl
@[simp] theorem State.setPtp_mem (s : State) (p : PtpState) : (s.setPtp p).mem = s.mem := rfl
@[simp] theorem State.setPtp_memPoison (s : State) (p : PtpState) : (s.setPtp p).memPoison = s.memPoison := rfl
@[simp] theorem State.setPtp_tiers (s : State) (p : PtpState) : (s.setPtp p).tiers = s.tiers := rfl
@[simp] theorem State.setPtp_ctxs (s : State) (p : PtpState) : (s.setPtp p).ctxs = s.ctxs := rfl
@[simp] theorem State.setPtp_sched (s : State) (p : PtpState) : (s.setPtp p).sched = s.sched := rfl
@[simp] theorem State.setPtp_accRem (s : State) (p : PtpState) : (s.setPtp p).accRem = s.accRem := rfl
@[simp] theorem State.setPtp_journals (s : State) (p : PtpState) : (s.setPtp p).journals = s.journals := rfl
@[simp] theorem State.setPtp_spt (s : State) (p : PtpState) : (s.setPtp p).spt = s.spt := rfl
@[simp] theorem State.setPtp_attnWanted (s : State) (p : PtpState) : (s.setPtp p).attnWanted = s.attnWanted := rfl
@[simp] theorem State.setPtp_ftl (s : State) (p : PtpState) : (s.setPtp p).ftl = s.ftl := rfl
@[simp] theorem State.setPtp_namespaces (s : State) (p : PtpState) : (s.setPtp p).namespaces = s.namespaces := rfl
@[simp] theorem State.setPtp_search (s : State) (p : PtpState) : (s.setPtp p).search = s.search := rfl
@[simp] theorem State.setPtp_links (s : State) (p : PtpState) : (s.setPtp p).links = s.links := rfl
@[simp] theorem State.setPtp_red (s : State) (p : PtpState) : (s.setPtp p).red = s.red := rfl
@[simp] theorem State.setPtp_ctrls (s : State) (p : PtpState) : (s.setPtp p).ctrls = s.ctrls := rfl
@[simp] theorem State.setPtp_heldSaid (s : State) (p : PtpState) : (s.setPtp p).heldSaid = s.heldSaid := rfl
@[simp] theorem State.setPtp_fns (s : State) (p : PtpState) : (s.setPtp p).fns = s.fns := rfl
@[simp] theorem State.setPtp_linkL1 (s : State) (p : PtpState) : (s.setPtp p).linkL1 = s.linkL1 := rfl
@[simp] theorem State.setPtp_devs (s : State) (p : PtpState) : (s.setPtp p).devs = s.devs := rfl
@[simp] theorem State.setPtp_sec (s : State) (p : PtpState) : (s.setPtp p).sec = s.sec := rfl
@[simp] theorem State.setPtp_nor (s : State) (p : PtpState) : (s.setPtp p).nor = s.nor := rfl
@[simp] theorem State.setPtp_sys (s : State) (p : PtpState) : (s.setPtp p).sys = s.sys := rfl

end Sys2Proof.Machine
end

