-- ==== Sys2Proof/Laws/Store.lean ====
section
/-! SUPPORT. The laws of the sparse stores: what a find gives after a put, an erase, a set or a dropped range, and that each of
these keeps the canonical form. -/

namespace Sys2Proof.Machine

variable {α : Type}

@[simp] theorem kvFind_nil (k : Nat) : kvFind ([] : KV α) k = none := rfl

theorem kvFind_kvPut (m : KV α) (k k' : Nat) (v : α) :
    kvFind (kvPut m k v) k' = if k = k' then some v else kvFind m k' := by
  induction m with
  | nil => simp [kvPut, kvFind]
  | cons e m ih =>
    obtain ⟨a, w⟩ := e
    simp only [kvPut]
    split
    · simp [kvFind]
    · split
      · subst_vars
        by_cases h : a = k' <;> simp [kvFind, h]
      · simp only [kvFind, ih]
        by_cases h : a = k'
        · subst h
          have : k ≠ a := by omega
          simp [this]
        · simp [h]

theorem kvFind_filter (m : KV α) (p : Nat → Bool) (k : Nat) :
    kvFind (m.filter fun e => p e.1) k = if p k then kvFind m k else none := by
  induction m with
  | nil => simp
  | cons e m ih =>
    obtain ⟨a, w⟩ := e
    simp only [List.filter_cons]
    by_cases h : p a
    · simp only [h, if_true, kvFind, ih]
      by_cases hk : a = k
      · subst hk; simp [h]
      · simp [hk]
    · simp only [Bool.not_eq_true] at h
      simp only [h, Bool.false_eq_true, if_false, ih, kvFind]
      by_cases hk : a = k
      · subst hk; simp [h]
      · simp [hk]

theorem kvFind_kvErase (m : KV α) (k k' : Nat) :
    kvFind (kvErase m k) k' = if k = k' then none else kvFind m k' := by
  rw [kvErase, kvFind_filter m (fun a => a != k) k']
  by_cases h : k = k'
  · simp [h]
  · have : k' ≠ k := fun e => h e.symm
    simp [h, this]

theorem kvFind_kvDropRange (m : KV α) (lo hi k : Nat) :
    kvFind (kvDropRange m lo hi) k = if lo ≤ k ∧ k < hi then none else kvFind m k := by
  rw [kvDropRange, kvFind_filter m (fun a => !(decide (lo ≤ a) && decide (a < hi))) k]
  by_cases h : lo ≤ k ∧ k < hi
  · simp [h]
  · simp only [h, if_false]
    have h' : ¬ (lo ≤ k) ∨ ¬ (k < hi) := by omega
    rcases h' with h' | h' <;> simp [h']

theorem kvFind_kvRange (m : KV α) (lo hi k : Nat) :
    kvFind (kvRange m lo hi) k = if lo ≤ k ∧ k < hi then kvFind m k else none := by
  rw [kvRange, kvFind_filter m (fun a => decide (lo ≤ a) && decide (a < hi)) k]
  by_cases h : lo ≤ k ∧ k < hi
  · simp [h]
  · have h' : ¬ (lo ≤ k) ∨ ¬ (k < hi) := by omega
    rcases h' with h' | h' <;> simp [h']

theorem kvGet_kvPut (d : α) (m : KV α) (k k' : Nat) (v : α) :
    kvGet d (kvPut m k v) k' = if k = k' then v else kvGet d m k' := by
  simp only [kvGet, kvFind_kvPut]
  split <;> rfl

theorem kvGet_kvSet [DecidableEq α] (d : α) (m : KV α) (k k' : Nat) (v : α) :
    kvGet d (kvSet d m k v) k' = if k = k' then v else kvGet d m k' := by
  by_cases h : v = d
  · simp only [kvSet, h, if_true, kvGet, kvFind_kvErase]
    split <;> rfl
  · simp only [kvSet, h, if_false, kvGet_kvPut]

/-! The canonical form. -/

theorem kvSorted_cons (e : Nat × α) (m : KV α) :
    kvSorted (e :: m) = true ↔ (∀ x ∈ m, e.1 < x.1) ∧ kvSorted m = true := by
  induction m generalizing e with
  | nil => simp [kvSorted]
  | cons x m ih =>
    obtain ⟨a, w⟩ := e
    obtain ⟨b, v⟩ := x
    simp only [kvSorted, Bool.and_eq_true, decide_eq_true_eq, List.mem_cons, forall_eq_or_imp]
    constructor
    · rintro ⟨h, hs⟩
      exact ⟨⟨h, fun y hy => Nat.lt_trans h (((ih (b, v)).mp hs).1 y hy)⟩, hs⟩
    · rintro ⟨⟨h, _⟩, hs⟩
      exact ⟨h, hs⟩

theorem kvSorted_filter (m : KV α) (p : Nat × α → Bool) (h : kvSorted m = true) : kvSorted (m.filter p) = true := by
  induction m with
  | nil => simp [kvSorted]
  | cons e m ih =>
    obtain ⟨h1, h2⟩ := (kvSorted_cons e m).mp h
    simp only [List.filter_cons]
    split
    · exact (kvSorted_cons _ _).mpr ⟨fun x hx => h1 x (List.mem_filter.mp hx).1, ih h2⟩
    · exact ih h2

theorem mem_kvPut {m : KV α} {k : Nat} {v : α} {x : Nat × α} (h : x ∈ kvPut m k v) : x = (k, v) ∨ x ∈ m := by
  induction m with
  | nil => simpa [kvPut] using h
  | cons e m ih =>
    obtain ⟨a, w⟩ := e
    simp only [kvPut] at h
    split at h
    · rcases List.mem_cons.mp h with h | h
      · exact .inl h
      · exact .inr h
    · split at h
      · rcases List.mem_cons.mp h with h | h
        · exact .inl h
        · exact .inr (List.mem_cons_of_mem _ h)
      · rcases List.mem_cons.mp h with h | h
        · exact .inr (h ▸ List.mem_cons_self)
        · exact (ih h).imp id (List.mem_cons_of_mem _)

theorem kvSorted_kvPut (m : KV α) (k : Nat) (v : α) (h : kvSorted m = true) : kvSorted (kvPut m k v) = true := by
  induction m with
  | nil => simp [kvPut, kvSorted]
  | cons e m ih =>
    obtain ⟨a, w⟩ := e
    obtain ⟨h1, h2⟩ := (kvSorted_cons _ m).mp h
    simp only [kvPut]
    split
    · rename_i hk
      refine (kvSorted_cons _ _).mpr ⟨fun x hx => ?_, h⟩
      rcases List.mem_cons.mp hx with rfl | hx
      · exact hk
      · exact Nat.lt_trans hk (h1 x hx)
    · split
      · rename_i hk hk'
        subst hk'
        exact (kvSorted_cons _ _).mpr ⟨h1, h2⟩
      · rename_i hk hk'
        refine (kvSorted_cons _ _).mpr ⟨fun x hx => ?_, ih h2⟩
        rcases mem_kvPut hx with rfl | hx
        · show a < k
          omega
        · exact h1 x hx

/-- Setting a value keeps the canonical form. -/
theorem kvWf_kvSet [DecidableEq α] (d : α) (m : KV α) (k : Nat) (v : α) (h : kvWf (fun _ => d) m = true) :
    kvWf (fun _ => d) (kvSet d m k v) = true := by
  simp only [kvWf, Bool.and_eq_true, List.all_eq_true, decide_eq_true_eq] at h ⊢
  obtain ⟨hs, hv⟩ := h
  by_cases e : v = d
  · simp only [kvSet, e, if_true, kvErase]
    exact ⟨kvSorted_filter _ _ hs, fun x hx => hv x (List.mem_filter.mp hx).1⟩
  · simp only [kvSet, e, if_false]
    refine ⟨kvSorted_kvPut m k v hs, fun x hx => ?_⟩
    rcases mem_kvPut hx with rfl | hx
    · exact e
    · exact hv x hx

/-- Dropping a range of keys keeps the canonical form. -/
theorem kvWf_kvDropRange [DecidableEq α] (d : Nat → α) (m : KV α) (lo hi : Nat) (h : kvWf d m = true) :
    kvWf d (kvDropRange m lo hi) = true := by
  simp only [kvWf, Bool.and_eq_true, List.all_eq_true, decide_eq_true_eq] at h ⊢
  exact ⟨kvSorted_filter _ _ h.1, fun x hx => h.2 x (List.mem_filter.mp hx).1⟩

end Sys2Proof.Machine
end

