-- ==== Sys2Proof/Laws/Registers.lean ====
section
/-! SUPPORT. The laws of the registers: what a read gives after a write, and the bits and fields of a register written in part. -/

namespace Sys2Proof.Machine

/-- Reading a register after a write of one gives the value written, of which a register keeps 64 bits, or what stood there. -/
theorem State.rd_wr (s : State) (k v k' : Nat) : (s.wr k v).rd k' = if k = k' then v % 2 ^ 64 else s.rd k' := by
  unfold State.rd State.wr
  by_cases h2 : BitVec.ofNat 64 v = regDefault k
  · rw [if_pos h2, kvFind_kvErase]
    by_cases h : k = k'
    · subst h
      rw [if_pos rfl, if_pos rfl, Option.getD_none, ← h2]
      exact BitVec.toNat_ofNat v 64
    · rw [if_neg h, if_neg h]
  · rw [if_neg h2, kvFind_kvPut]
    by_cases h : k = k'
    · subst h
      rw [if_pos rfl, if_pos rfl, Option.getD_some]
      exact BitVec.toNat_ofNat v 64
    · rw [if_neg h, if_neg h]

theorem State.rd_wr_same (s : State) (k v : Nat) (h : v < 2 ^ 64) : (s.wr k v).rd k = v := by
  rw [State.rd_wr, if_pos rfl, Nat.mod_eq_of_lt h]

theorem State.rd_wr_ne (s : State) {k k' : Nat} (v : Nat) (h : k ≠ k') : (s.wr k v).rd k' = s.rd k' := by
  rw [State.rd_wr, if_neg h]

/-- Every register holds 64 bits at most. -/
theorem State.rd_lt (s : State) (k : Nat) : s.rd k < 2 ^ 64 := (kvFind s.regs k |>.getD (regDefault k)).isLt

/-- Only the register store says what a register reads. -/
theorem State.rd_congr {s t : State} (h : t.regs = s.regs) (k : Nat) : t.rd k = s.rd k := by
  simp only [State.rd, h]

theorem State.bit_congr {s t : State} {k : Nat} (h : t.rd k = s.rd k) (i : Nat) : t.bit k i = s.bit k i := by
  simp only [State.bit, h]

theorem State.fld_congr {s t : State} {k : Nat} (h : t.rd k = s.rd k) (hi lo : Nat) : t.fld k hi lo = s.fld k hi lo := by
  simp only [State.fld, h]

/-! Bits and fields of numbers. -/

theorem bits_lt (v hi lo : Nat) : bits v hi lo < 2 ^ (hi + 1 - lo) := Nat.mod_lt _ (Nat.two_pow_pos _)

/-- A field replaced reads as what replaced it. -/
theorem bits_putBits (v hi lo x : Nat) (h : lo ≤ hi) : bits (putBits v hi lo x) hi lo = x % 2 ^ (hi + 1 - lo) := by
  have e : 2 ^ (hi + 1) = 2 ^ (hi + 1 - lo) * 2 ^ lo := by rw [← Nat.pow_add]; congr 1; omega
  have p := Nat.two_pow_pos lo
  have q := Nat.two_pow_pos (hi + 1 - lo)
  simp only [bits, putBits]
  rw [e, ← Nat.mul_assoc, ← Nat.add_mul, Nat.add_comm (_ * 2 ^ lo), Nat.add_mul_div_right _ _ p,
    Nat.div_eq_of_lt (Nat.mod_lt _ p), Nat.zero_add, Nat.add_comm (_ * _), Nat.add_mul_mod_self_right, Nat.mod_mod]

theorem testBit_lt_two_pow {x i : Nat} (h : x < 2 ^ i) : x.testBit i = false :=
  Nat.testBit_lt_two_pow h

/-- The bits of a number with a field replaced. -/
theorem testBit_putBits (v hi lo x i : Nat) (h : lo ≤ hi) :
    (putBits v hi lo x).testBit i = if lo ≤ i ∧ i ≤ hi then x.testBit (i - lo) else v.testBit i := by
  have ml : v % 2 ^ lo < 2 ^ lo := Nat.mod_lt _ (Nat.two_pow_pos lo)
  have xl : x % 2 ^ (hi + 1 - lo) < 2 ^ (hi + 1 - lo) := Nat.mod_lt _ (Nat.two_pow_pos _)
  have e : putBits v hi lo x = 2 ^ lo * (2 ^ (hi + 1 - lo) * (v / 2 ^ (hi + 1)) + x % 2 ^ (hi + 1 - lo)) + v % 2 ^ lo := by
    have e2 : 2 ^ (hi + 1) = 2 ^ lo * 2 ^ (hi + 1 - lo) := by rw [← Nat.pow_add]; congr 1; omega
    simp only [putBits, Nat.mul_add]
    rw [← Nat.mul_assoc (2 ^ lo), ← e2, Nat.mul_comm (v / 2 ^ (hi + 1)), Nat.mul_comm (x % _)]
  rw [e, Nat.testBit_two_pow_mul_add _ ml]
  by_cases h1 : i < lo
  · have : ¬ (lo ≤ i ∧ i ≤ hi) := by omega
    simp only [h1, if_true, this, if_false, Nat.testBit_mod_two_pow, decide_true, Bool.true_and]
  · simp only [h1, if_false]
    rw [Nat.testBit_two_pow_mul_add _ xl]
    by_cases h2 : i ≤ hi
    · have a : i - lo < hi + 1 - lo := by omega
      have b : lo ≤ i ∧ i ≤ hi := by omega
      simp [a, b, Nat.testBit_mod_two_pow]
    · have a : ¬ i - lo < hi + 1 - lo := by omega
      have b : ¬ (lo ≤ i ∧ i ≤ hi) := by omega
      simp only [a, if_false, b, Nat.testBit_div_two_pow]
      congr 1
      omega

theorem putBits_lt (v hi lo x n : Nat) (h : lo ≤ hi) (hn : hi < n) (hv : v < 2 ^ n) : putBits v hi lo x < 2 ^ n := by
  refine Nat.lt_pow_two_of_testBit _ fun i hi' => ?_
  rw [testBit_putBits _ _ _ _ _ h]
  have : ¬ (lo ≤ i ∧ i ≤ hi) := by omega
  simp only [this, if_false]
  exact Nat.testBit_lt_two_pow (Nat.lt_of_lt_of_le hv (Nat.pow_le_pow_right (by omega) hi'))

/-- Reading a register after bit i of one was replaced. -/
theorem State.bit_setBit (s : State) (k i k' j : Nat) (b : Bool) (h : i < 64) :
    (s.setBit k i b).bit k' j = if k = k' ∧ i = j then b else s.bit k' j := by
  simp only [State.bit, State.setBit, State.setFld, State.rd_wr]
  by_cases hk : k = k'
  · subst hk
    simp only [if_true, true_and]
    rw [Nat.mod_eq_of_lt (putBits_lt _ _ _ _ 64 (Nat.le_refl i) h (s.rd_lt k)), testBit_putBits _ _ _ _ _ (Nat.le_refl i)]
    by_cases hj : i = j
    · subst hj
      cases b <;> simp [Bool.toNat]
    · have : ¬ (i ≤ j ∧ j ≤ i) := by omega
      simp [hj, this]
  · simp [hk]

/-- A register with bit i replaced reads the same at every other address. -/
theorem State.rd_setBit_ne (s : State) {k k' : Nat} (i : Nat) (b : Bool) (h : k ≠ k') : (s.setBit k i b).rd k' = s.rd k' :=
  State.rd_wr_ne s _ h

theorem State.rd_setFld_ne (s : State) {k k' : Nat} (hi lo v : Nat) (h : k ≠ k') : (s.setFld k hi lo v).rd k' = s.rd k' :=
  State.rd_wr_ne s _ h

/-- A field replaced reads as what replaced it. -/
theorem State.fld_setFld (s : State) (k hi lo v : Nat) (h : lo ≤ hi) (h64 : hi < 64) :
    (s.setFld k hi lo v).fld k hi lo = v % 2 ^ (hi + 1 - lo) := by
  simp only [State.fld, State.setFld, State.rd_wr, if_true]
  rw [Nat.mod_eq_of_lt (putBits_lt _ _ _ _ 64 h h64 (s.rd_lt k)), bits_putBits _ _ _ _ h]

end Sys2Proof.Machine
end

