-- ==== Sys2Proof/Laws/Flags.lean ====
section
/-! SUPPORT. What raising an interrupt, an event or a report can change, said once: the header registers, IRQ, the error log,
SYS_ATTN and what waits for a controller's event requests; and that every command ends with IRQ_CAT_STAT in step with the
pending bits. -/

namespace Sys2Proof.Machine

open Sys2Proof.Safety

theorem catReg_iff (k : Nat) : catReg k = true ↔ ∃ n, n < 16 ∧ k = R.IRQ_CAT_STAT n := by
  simp only [catReg, Bool.and_eq_true, decide_eq_true_eq]
  constructor
  · rintro ⟨⟨h1, h2⟩, h3⟩
    exact ⟨(k - 0x58000) / 0x800, by omega, by show k = 0x58000 + 0x800 * _; omega⟩
  · rintro ⟨n, h, rfl⟩
    show (0x58000 ≤ 0x58000 + 0x800 * n ∧ 0x58000 + 0x800 * n < 0x60000) ∧ (0x58000 + 0x800 * n) % 0x800 = 0
    omega

theorem catReg_flagReg {k : Nat} (h : flagReg k = false) : catReg k = false := by
  simp only [flagReg, Bool.or_eq_false_iff, decide_eq_false_iff_not] at h
  simp only [catReg, Bool.and_eq_false_iff, decide_eq_false_iff_not]
  omega

/-- All that can follow from interrupts being routed: IRQ_CAT_STAT, the bookkeeping of messages, and messages sent. -/
def SettleOnly (s t : State) : Prop :=
  ∃ rg q o, t = { s with regs := rg, irq := q, out := s.out ++ o } ∧ (∀ k, catReg k = false → t.rd k = s.rd k) ∧
    q.cats = s.irq.cats ∧ q.strikeTo = s.irq.strikeTo

theorem SettleOnly.refl (s : State) : SettleOnly s s := ⟨s.regs, s.irq, [], by simp, fun _ _ => rfl, rfl, rfl⟩

theorem SettleOnly.trans {s t u : State} (h1 : SettleOnly s t) (h2 : SettleOnly t u) : SettleOnly s u := by
  obtain ⟨rg, q, o, rfl, e1, c1, d1⟩ := h1
  obtain ⟨rg', q', o', rfl, e2, c2, d2⟩ := h2
  exact ⟨rg', q', o ++ o', by simp, fun k hk => (e2 k hk).trans (e1 k hk), c2.trans c1, d2.trans d1⟩

theorem SettleOnly.foldl {β : Type} (f : State → β → State) (h : ∀ s b, SettleOnly s (f s b)) (l : List β) (s : State) :
    SettleOnly s (l.foldl f s) := by
  induction l generalizing s with
  | nil => exact .refl s
  | cons b l ih => exact (h s b).trans (ih _)

theorem State.sendCat_only (s : State) (n c : Nat) : SettleOnly s (s.sendCat n c) :=
  by
  unfold State.sendCat State.sendMsix
  split
  · exact ⟨s.regs, { s.irq with
      pba := kvPut s.irq.pba n (kvGet 0 s.irq.pba n ||| 2 ^ (48 + c))
      last := kvPut s.irq.last (16 * n + c) (s.msr.count + 1) }, [], by simp, fun _ _ => rfl, rfl, rfl⟩
  · exact ⟨s.regs, { s.irq with last := kvPut s.irq.last (16 * n + c) (s.msr.count + 1) }, [.msix n (48 + c)], rfl, fun _ _ => rfl, rfl, rfl⟩

theorem State.catRose_only (s : State) (n c : Nat) : SettleOnly s (s.catRose n c) := by
  unfold State.catRose
  split
  · split
    · exact s.sendCat_only n c
    · exact ⟨s.regs, { s.irq with deferred := kvPut s.irq.deferred (16 * n + c) 1 }, [], by simp, fun _ _ => rfl, rfl, rfl⟩
  · exact .refl s

theorem State.wr_only (s : State) {k : Nat} (v : Nat) (h : catReg k = true) : SettleOnly s (s.wr k v) := by
  refine ⟨(s.wr k v).regs, s.irq, [], by simp [State.wr], fun k' hk => ?_, rfl, rfl⟩
  exact State.rd_wr_ne s v fun e => by rw [← e, h] at hk; cases hk

theorem State.settleClient_only (s : State) {n : Nat} (hn : n < 16) : SettleOnly s (s.settleClient n) := by
  unfold State.settleClient
  extract_lets old new
  split
  · exact .refl s
  · exact (s.wr_only new ((catReg_iff _).mpr ⟨n, hn, rfl⟩)).trans (.foldl _ (fun t c => t.catRose_only n c) _ _)

/-- Settling changes IRQ_CAT_STAT, the bookkeeping of messages and the messages sent, and nothing else. -/
theorem State.settle_only (s : State) : SettleOnly s s.settle := by
  unfold State.settle
  split
  · have : ∀ (l : List Nat) (t : State), (∀ n ∈ l, n < 16) → SettleOnly t (l.foldl State.settleClient t) := by
      intro l
      induction l with
      | nil => exact fun t _ => .refl t
      | cons n l ih =>
        exact fun t h => (t.settleClient_only (h n List.mem_cons_self)).trans
          (ih _ fun m hm => h m (List.mem_cons_of_mem _ hm))
    exact this _ s fun n hn => List.mem_range.mp hn
  · exact .refl s

@[simp] theorem State.settle_rd (s : State) {k : Nat} (h : catReg k = false) : s.settle.rd k = s.rd k := by
  obtain ⟨_, _, _, _, e, _⟩ := s.settle_only
  exact e k h

@[simp] theorem State.settle_bit (s : State) {k : Nat} (h : catReg k = false) (i : Nat) : s.settle.bit k i = s.bit k i :=
  State.bit_congr (s.settle_rd h) i

@[simp] theorem State.settle_fld (s : State) {k : Nat} (h : catReg k = false) (hi lo : Nat) :
    s.settle.fld k hi lo = s.fld k hi lo := State.fld_congr (s.settle_rd h) hi lo

/-- What has left the module is only added to. -/
theorem State.settle_out (s : State) : ∃ o, s.settle.out = s.out ++ o := by
  obtain ⟨_, _, o, e, _⟩ := s.settle_only
  exact ⟨o, by rw [e]⟩

theorem State.mem_settle_out {s : State} {o : Output} (h : o ∈ s.out) : o ∈ s.settle.out := by
  obtain ⟨l, e⟩ := s.settle_out
  rw [e]
  exact List.mem_append_left _ h

@[simp] theorem State.settle_pending (s : State) : s.settle.pending = s.pending := by
  obtain ⟨_, _, _, e, _⟩ := s.settle_only
  rw [e]

@[simp] theorem State.settle_inForce (s : State) : s.settle.inForce = s.inForce := by
  obtain ⟨_, _, _, e, _⟩ := s.settle_only
  rw [e]

@[simp] theorem State.settle_fresh (s : State) : s.settle.fresh = s.fresh := by
  obtain ⟨_, _, _, e, _⟩ := s.settle_only
  rw [e]

@[simp] theorem State.settle_dtime (s : State) : s.settle.dtime = s.dtime := by
  obtain ⟨_, _, _, e, _⟩ := s.settle_only
  rw [e]

@[simp] theorem State.settle_etime (s : State) : s.settle.etime = s.etime := by
  obtain ⟨_, _, _, e, _⟩ := s.settle_only
  rw [e]

@[simp] theorem State.settle_released (s : State) : s.settle.released = s.released := by
  obtain ⟨_, _, _, e, _⟩ := s.settle_only
  rw [e]

@[simp] theorem State.settle_rdHold (s : State) : s.settle.rdHold = s.rdHold := by
  obtain ⟨_, _, _, e, _⟩ := s.settle_only
  rw [e]

@[simp] theorem State.settle_wrHold (s : State) : s.settle.wrHold = s.wrHold := by
  obtain ⟨_, _, _, e, _⟩ := s.settle_only
  rw [e]

@[simp] theorem State.settle_nowHold (s : State) : s.settle.nowHold = s.nowHold := by
  obtain ⟨_, _, _, e, _⟩ := s.settle_only
  rw [e]

@[simp] theorem State.settle_ppsHold (s : State) : s.settle.ppsHold = s.ppsHold := by
  obtain ⟨_, _, _, e, _⟩ := s.settle_only
  rw [e]

@[simp] theorem State.settle_measHold (s : State) : s.settle.measHold = s.measHold := by
  obtain ⟨_, _, _, e, _⟩ := s.settle_only
  rw [e]

@[simp] theorem State.settle_err (s : State) : s.settle.err = s.err := by
  obtain ⟨_, _, _, e, _⟩ := s.settle_only
  rw [e]

@[simp] theorem State.settle_tmb (s : State) : s.settle.tmb = s.tmb := by
  obtain ⟨_, _, _, e, _⟩ := s.settle_only
  rw [e]

@[simp] theorem State.settle_msr (s : State) : s.settle.msr = s.msr := by
  obtain ⟨_, _, _, e, _⟩ := s.settle_only
  rw [e]

@[simp] theorem State.settle_rows (s : State) : s.settle.rows = s.rows := by
  obtain ⟨_, _, _, e, _⟩ := s.settle_only
  rw [e]

@[simp] theorem State.settle_leaf (s : State) : s.settle.leaf = s.leaf := by
  obtain ⟨_, _, _, e, _⟩ := s.settle_only
  rw [e]

@[simp] theorem State.settle_gather (s : State) : s.settle.gather = s.gather := by
  obtain ⟨_, _, _, e, _⟩ := s.settle_only
  rw [e]

@[simp] theorem State.settle_cols (s : State) : s.settle.cols = s.cols := by
  obtain ⟨_, _, _, e, _⟩ := s.settle_only
  rw [e]

@[simp] theorem State.settle_mem (s : State) : s.settle.mem = s.mem := by
  obtain ⟨_, _, _, e, _⟩ := s.settle_only
  rw [e]

@[simp] theorem State.settle_memPoison (s : State) : s.settle.memPoison = s.memPoison := by
  obtain ⟨_, _, _, e, _⟩ := s.settle_only
  rw [e]

@[simp] theorem State.settle_tiers (s : State) : s.settle.tiers = s.tiers := by
  obtain ⟨_, _, _, e, _⟩ := s.settle_only
  rw [e]

@[simp] theorem State.settle_ctxs (s : State) : s.settle.ctxs = s.ctxs := by
  obtain ⟨_, _, _, e, _⟩ := s.settle_only
  rw [e]

@[simp] theorem State.settle_sched (s : State) : s.settle.sched = s.sched := by
  obtain ⟨_, _, _, e, _⟩ := s.settle_only
  rw [e]

@[simp] theorem State.settle_accRem (s : State) : s.settle.accRem = s.accRem := by
  obtain ⟨_, _, _, e, _⟩ := s.settle_only
  rw [e]

@[simp] theorem State.settle_journals (s : State) : s.settle.journals = s.journals := by
  obtain ⟨_, _, _, e, _⟩ := s.settle_only
  rw [e]

@[simp] theorem State.settle_spt (s : State) : s.settle.spt = s.spt := by
  obtain ⟨_, _, _, e, _⟩ := s.settle_only
  rw [e]

@[simp] theorem State.settle_attnWanted (s : State) : s.settle.attnWanted = s.attnWanted := by
  obtain ⟨_, _, _, e, _⟩ := s.settle_only
  rw [e]

@[simp] theorem State.settle_ftl (s : State) : s.settle.ftl = s.ftl := by
  obtain ⟨_, _, _, e, _⟩ := s.settle_only
  rw [e]

@[simp] theorem State.settle_namespaces (s : State) : s.settle.namespaces = s.namespaces := by
  obtain ⟨_, _, _, e, _⟩ := s.settle_only
  rw [e]

@[simp] theorem State.settle_search (s : State) : s.settle.search = s.search := by
  obtain ⟨_, _, _, e, _⟩ := s.settle_only
  rw [e]

@[simp] theorem State.settle_links (s : State) : s.settle.links = s.links := by
  obtain ⟨_, _, _, e, _⟩ := s.settle_only
  rw [e]

@[simp] theorem State.settle_red (s : State) : s.settle.red = s.red := by
  obtain ⟨_, _, _, e, _⟩ := s.settle_only
  rw [e]

@[simp] theorem State.settle_ctrls (s : State) : s.settle.ctrls = s.ctrls := by
  obtain ⟨_, _, _, e, _⟩ := s.settle_only
  rw [e]

@[simp] theorem State.settle_heldSaid (s : State) : s.settle.heldSaid = s.heldSaid := by
  obtain ⟨_, _, _, e, _⟩ := s.settle_only
  rw [e]

@[simp] theorem State.settle_devs (s : State) : s.settle.devs = s.devs := by
  obtain ⟨_, _, _, e, _⟩ := s.settle_only
  rw [e]

@[simp] theorem State.settle_sec (s : State) : s.settle.sec = s.sec := by
  obtain ⟨_, _, _, e, _⟩ := s.settle_only
  rw [e]

@[simp] theorem State.settle_nor (s : State) : s.settle.nor = s.nor := by
  obtain ⟨_, _, _, e, _⟩ := s.settle_only
  rw [e]

@[simp] theorem State.settle_sys (s : State) : s.settle.sys = s.sys := by
  obtain ⟨_, _, _, e, _⟩ := s.settle_only
  rw [e]

/-! Events. -/

/-- All that can follow from an event being raised. -/
def FlagsOnly (s t : State) : Prop :=
  ∃ rg q o e cs w, t = { s with regs := rg, irq := q, out := s.out ++ o, err := e, ctrls := cs, attnWanted := w } ∧
    (∀ k, flagReg k = false → t.rd k = s.rd k) ∧ ∀ c, ∃ ev, t.ctrl c = { s.ctrl c with events := ev }

theorem FlagsOnly.refl (s : State) : FlagsOnly s s :=
  ⟨s.regs, s.irq, [], s.err, s.ctrls, s.attnWanted, by simp, fun _ _ => rfl, fun c => ⟨(s.ctrl c).events, rfl⟩⟩

theorem FlagsOnly.trans {s t u : State} (h1 : FlagsOnly s t) (h2 : FlagsOnly t u) : FlagsOnly s u := by
  obtain ⟨rg, q, o, e, cs, w, rfl, r1, c1⟩ := h1
  obtain ⟨rg', q', o', e', cs', w', rfl, r2, c2⟩ := h2
  refine ⟨rg', q', o ++ o', e', cs', w', by simp, fun k hk => (r2 k hk).trans (r1 k hk), fun c => ?_⟩
  obtain ⟨ev, a⟩ := c1 c
  obtain ⟨ev', b⟩ := c2 c
  exact ⟨ev', by rw [b, a]⟩

theorem FlagsOnly.foldl {β : Type} (f : State → β → State) (h : ∀ s b, FlagsOnly s (f s b)) (l : List β) (s : State) :
    FlagsOnly s (l.foldl f s) := by
  induction l generalizing s with
  | nil => exact .refl s
  | cons b l ih => exact (h s b).trans (ih _)

theorem SettleOnly.flags {s t : State} (h : SettleOnly s t) : FlagsOnly s t := by
  obtain ⟨rg, q, o, e, r, _⟩ := h
  exact ⟨rg, q, o, s.err, s.ctrls, s.attnWanted, e, fun k hk => r k (catReg_flagReg hk),
    fun c => ⟨(s.ctrl c).events, by rw [e]; rfl⟩⟩

theorem State.wr_flags (s : State) {k : Nat} (v : Nat) (h : flagReg k = true) : FlagsOnly s (s.wr k v) := by
  refine ⟨(s.wr k v).regs, s.irq, [], s.err, s.ctrls, s.attnWanted, by simp [State.wr], fun k' hk => ?_,
    fun c => ⟨(s.ctrl c).events, rfl⟩⟩
  exact State.rd_wr_ne s v fun e => by rw [← e, h] at hk; cases hk

theorem flagReg_header (p : Nat) {o : Nat} (h : o < 0x100) : flagReg (p * 0x10000 + o) = true := by
  simp only [flagReg, Bool.or_eq_true, decide_eq_true_eq]
  omega

theorem State.err_flags (s : State) (e : ErrLog) : FlagsOnly s { s with err := e } :=
  ⟨s.regs, s.irq, [], e, s.ctrls, s.attnWanted, by simp, fun _ _ => rfl, fun c => ⟨(s.ctrl c).events, rfl⟩⟩

theorem State.irq_flags (s : State) (q : Irq) : FlagsOnly s { s with irq := q } :=
  ⟨s.regs, q, [], s.err, s.ctrls, s.attnWanted, by simp, fun _ _ => rfl, fun c => ⟨(s.ctrl c).events, rfl⟩⟩

theorem State.irqBit_flags (s : State) (p b c : Nat) : FlagsOnly s (s.irqBit p b c) :=
  (s.wr_flags _ (flagReg_header p (o := 0x1c) (by omega))).trans (State.irq_flags _ _)

theorem State.joinPoison_flags (s : State) (p c : Nat) : FlagsOnly s (s.joinPoison p c) := by
  unfold State.joinPoison
  split
  · exact s.irqBit_flags p 1 c
  · exact .refl s

theorem State.setIrq_flags (s : State) (p b c : Nat) : FlagsOnly s (s.setIrq p b c) :=
  (s.irqBit_flags p b c).trans (State.settle_only _).flags

theorem State.setIdle_flags (s : State) (p : Nat) (idle : Bool) : FlagsOnly s (s.setIdle p idle) := by
  have e : flagReg (R.PG_STAT p) = true := flagReg_header p (o := 0x10) (by omega)
  unfold State.setIdle
  extract_lets s1
  split
  · exact .refl s
  · split
    · exact (s.wr_flags _ e).trans (State.setIrq_flags _ _ _ _)
    · exact s.wr_flags _ e

theorem State.attend_flags (s : State) (b : Nat) : FlagsOnly s (s.attend b) := by
  unfold State.attend
  extract_lets was s1
  have h : FlagsOnly s s1 := (s.wr_flags _ (by decide)).trans (State.setIrq_flags _ _ _ _)
  split
  · exact h.trans ⟨s1.regs, s1.irq, [], s1.err, s1.ctrls, _, by simp; rfl, fun _ _ => rfl, fun c => ⟨(s1.ctrl c).events, rfl⟩⟩
  · exact h

theorem State.flagEvent_flags (s : State) (p code : Nat) : FlagsOnly s (s.flagEvent p code) := by
  unfold State.flagEvent
  extract_lets s1
  have h : FlagsOnly s s1 := by
    refine FlagsOnly.trans ?_ (State.settle_only _).flags
    refine FlagsOnly.trans ?_ (State.joinPoison_flags _ _ _)
    refine FlagsOnly.trans ?_ (State.irqBit_flags _ _ _ _)
    refine FlagsOnly.trans ?_ (State.wr_flags _ _ (flagReg_header p (o := 0x10) (by omega)))
    exact s.wr_flags _ (flagReg_header p (o := 0x14) (by omega))
  split
  · exact h.trans (State.attend_flags _ _)
  · exact h

theorem State.aerEvent_flags (s : State) (c type info lid : Nat) : FlagsOnly s (s.aerEvent c type info lid) := by
  unfold State.aerEvent
  extract_lets x
  split
  · exact .refl s
  · refine ⟨s.regs, s.irq, [], s.err, kvPut s.ctrls c { x with events := x.events ++ [(type, info, lid)] }, s.attnWanted, by simp [State.setCtrl], fun _ _ => rfl, fun k => ?_⟩
    simp only [State.ctrl, State.setCtrl, kvGet_kvPut]
    split
    · rename_i h
      subst h
      exact ⟨_, rfl⟩
    · exact ⟨_, rfl⟩

theorem State.logClients_flags (s : State) (r : Report) : FlagsOnly s (s.logClients r) := by
  refine FlagsOnly.foldl _ (fun t n => ?_) _ s
  extract_lets old new e t1
  have h : FlagsOnly t t1 := State.err_flags _ _
  split
  · exact h
  · exact h.trans (State.aerEvent_flags _ _ _ _ _)

theorem flagReg_err {o : Nat} (h : o < 0x10000) : flagReg (0xc0000 + o) = true := by
  simp only [flagReg, Bool.or_eq_true, decide_eq_true_eq]
  omega

theorem catOf_lt (code : Nat) : catOf code < 16 := Nat.mod_lt _ (by omega)

theorem flagReg_ovf (code : Nat) : flagReg (R.ERR_OVF (catOf code)) = true := by
  have := catOf_lt code
  show flagReg (0xc01c0 + 4 * catOf code) = true
  simp only [flagReg, Bool.or_eq_true, decide_eq_true_eq]
  omega

theorem flagReg_cnt (code : Nat) : flagReg (R.ERR_CNT (catOf code)) = true := by
  have := catOf_lt code
  show flagReg (0xc0140 + 8 * catOf code) = true
  simp only [flagReg, Bool.or_eq_true, decide_eq_true_eq]
  omega

theorem State.coalesce_flags {s t : State} {r : Report} (h : s.coalesce r = some t) : FlagsOnly s t := by
  unfold State.coalesce at h
  split at h
  · cases h
  · split at h
    · cases h
    · simp only [Option.some.injEq] at h
      subst h
      refine FlagsOnly.trans ?_ (State.logClients_flags _ _)
      exact (State.err_flags _ _).trans (State.wr_flags _ _ (by decide))

theorem State.dropReport_flags (s : State) (r : Report) : FlagsOnly s (s.dropReport r) := by
  unfold State.dropReport
  extract_lets s1 e s2
  have h : FlagsOnly s s1 := (s.wr_flags _ (flagReg_ovf _)).trans (State.wr_flags _ _ (by decide))
  exact ((h.trans (State.err_flags _ _)).trans (State.logClients_flags _ _)).trans (State.setIrq_flags _ _ _ _)

theorem State.report_flags (s : State) (r : Report) : FlagsOnly s (s.report r) := by
  unfold State.report
  extract_lets s0
  have h : FlagsOnly s s0 := s.wr_flags _ (flagReg_cnt _)
  split
  · exact h.trans (State.coalesce_flags ‹_›)
  · split
    · exact h.trans (State.err_flags _ _)
    · split
      · exact h.trans (State.err_flags _ _)
      · exact h.trans (State.dropReport_flags _ _)

/-- Raising an event changes the page headers, IRQ, ERR, SYS_ATTN, the error log and what waits for event requests, and nothing
else. -/
theorem State.raise_flags (s : State) (p code : Nat) (client : Option Nat) (addr aux : Nat) :
    FlagsOnly s (s.raise p code client addr aux) := (s.flagEvent_flags p code).trans (State.report_flags _ _)

theorem State.poisonAs_flags (s : State) (p c : Nat) : FlagsOnly s (s.poisonAs p c) := by
  refine FlagsOnly.trans ?_ (State.settle_only _).flags
  exact (s.wr_flags _ (flagReg_header p (o := 0x10) (by omega))).trans (State.irqBit_flags _ _ _ _)

theorem State.poisonSeen_flags (s : State) (p : Nat) : FlagsOnly s (s.poisonSeen p) := s.poisonAs_flags p 4

theorem State.poisonEvent_flags (s : State) (p code : Nat) : FlagsOnly s (s.poisonEvent p code) := s.poisonAs_flags p (catOf code)

theorem State.writeEntry_flags (s : State) (r : Report) : FlagsOnly s (s.writeEntry r) := by
  unfold State.writeEntry
  extract_lets h s1 e x s2 s3 s4 s5
  have a1 : FlagsOnly s s1 := by
    show FlagsOnly s (if _ then _ else _)
    split
    · exact s.wr_flags _ (by decide)
    · exact .refl s
  have a3 : FlagsOnly s s3 :=
    ((a1.trans (State.err_flags _ _)).trans (State.wr_flags _ _ (by decide))).trans (State.logClients_flags _ _)
  have a4 : FlagsOnly s s4 := by
    show FlagsOnly s (if _ then _ else _)
    split
    · exact a3
    · exact a3.trans (State.wr_flags _ _ (by decide))
  have a5 : FlagsOnly s s5 := a4.trans (State.setIrq_flags _ _ _ _)
  split
  · exact a5.trans (State.setIrq_flags _ _ _ _)
  · exact a5

theorem State.writeDropNote_flags (s : State) : FlagsOnly s s.writeDropNote := by
  unfold State.writeDropNote
  split
  · exact .refl s
  · extract_lets s1 s2
    have a1 : FlagsOnly s s1 := (s.flagEvent_flags _ _).trans (State.wr_flags _ _ (by decide))
    exact (a1.trans (State.writeEntry_flags _ _)).trans (State.err_flags _ _)

/-- The writer's work changes no more than an event can. -/
theorem State.writerTake_flags (s : State) : FlagsOnly s s.writerTake := by
  unfold State.writerTake
  extract_lets s0
  have a0 : FlagsOnly s s0 := s.writeDropNote_flags
  split
  · exact a0
  · rename_i r rest _
    extract_lets s1
    have a1 : FlagsOnly s s1 := a0.trans (State.err_flags _ _)
    split
    · exact a1.trans (State.coalesce_flags ‹_›)
    · split
      · exact a1.trans (State.writeEntry_flags _ _)
      · exact a1.trans (State.dropReport_flags _ _)

theorem FlagsOnly.rd {s t : State} (h : FlagsOnly s t) {k : Nat} (hk : flagReg k = false) : t.rd k = s.rd k := by
  obtain ⟨_, _, _, _, _, _, _, r, _⟩ := h
  exact r k hk

theorem FlagsOnly.bit {s t : State} (h : FlagsOnly s t) {k : Nat} (hk : flagReg k = false) (i : Nat) : t.bit k i = s.bit k i :=
  State.bit_congr (h.rd hk) i

theorem FlagsOnly.out {s t : State} (h : FlagsOnly s t) {o : Output} (ho : o ∈ s.out) : o ∈ t.out := by
  obtain ⟨_, _, _, _, _, _, e, _⟩ := h
  rw [e]
  exact List.mem_append_left _ ho

theorem State.raise_rd (s : State) (p code : Nat) (client : Option Nat) (addr aux : Nat) {k : Nat} (h : flagReg k = false) :
    (s.raise p code client addr aux).rd k = s.rd k := (s.raise_flags p code client addr aux).rd h

theorem State.setIrq_rd (s : State) (p b c : Nat) {k : Nat} (h : flagReg k = false) : (s.setIrq p b c).rd k = s.rd k :=
  (s.setIrq_flags p b c).rd h

theorem FlagsOnly.pending {s t : State} (h : FlagsOnly s t) : t.pending = s.pending := by
  obtain ⟨_, _, _, _, _, _, e, _⟩ := h
  rw [e]

theorem FlagsOnly.inForce {s t : State} (h : FlagsOnly s t) : t.inForce = s.inForce := by
  obtain ⟨_, _, _, _, _, _, e, _⟩ := h
  rw [e]

theorem FlagsOnly.fresh {s t : State} (h : FlagsOnly s t) : t.fresh = s.fresh := by
  obtain ⟨_, _, _, _, _, _, e, _⟩ := h
  rw [e]

theorem FlagsOnly.dtime {s t : State} (h : FlagsOnly s t) : t.dtime = s.dtime := by
  obtain ⟨_, _, _, _, _, _, e, _⟩ := h
  rw [e]

theorem FlagsOnly.etime {s t : State} (h : FlagsOnly s t) : t.etime = s.etime := by
  obtain ⟨_, _, _, _, _, _, e, _⟩ := h
  rw [e]

theorem FlagsOnly.released {s t : State} (h : FlagsOnly s t) : t.released = s.released := by
  obtain ⟨_, _, _, _, _, _, e, _⟩ := h
  rw [e]

theorem FlagsOnly.rdHold {s t : State} (h : FlagsOnly s t) : t.rdHold = s.rdHold := by
  obtain ⟨_, _, _, _, _, _, e, _⟩ := h
  rw [e]

theorem FlagsOnly.wrHold {s t : State} (h : FlagsOnly s t) : t.wrHold = s.wrHold := by
  obtain ⟨_, _, _, _, _, _, e, _⟩ := h
  rw [e]

theorem FlagsOnly.nowHold {s t : State} (h : FlagsOnly s t) : t.nowHold = s.nowHold := by
  obtain ⟨_, _, _, _, _, _, e, _⟩ := h
  rw [e]

theorem FlagsOnly.ppsHold {s t : State} (h : FlagsOnly s t) : t.ppsHold = s.ppsHold := by
  obtain ⟨_, _, _, _, _, _, e, _⟩ := h
  rw [e]

theorem FlagsOnly.measHold {s t : State} (h : FlagsOnly s t) : t.measHold = s.measHold := by
  obtain ⟨_, _, _, _, _, _, e, _⟩ := h
  rw [e]

theorem FlagsOnly.tmb {s t : State} (h : FlagsOnly s t) : t.tmb = s.tmb := by
  obtain ⟨_, _, _, _, _, _, e, _⟩ := h
  rw [e]

theorem FlagsOnly.msr {s t : State} (h : FlagsOnly s t) : t.msr = s.msr := by
  obtain ⟨_, _, _, _, _, _, e, _⟩ := h
  rw [e]

theorem FlagsOnly.rows {s t : State} (h : FlagsOnly s t) : t.rows = s.rows := by
  obtain ⟨_, _, _, _, _, _, e, _⟩ := h
  rw [e]

theorem FlagsOnly.leaf {s t : State} (h : FlagsOnly s t) : t.leaf = s.leaf := by
  obtain ⟨_, _, _, _, _, _, e, _⟩ := h
  rw [e]

theorem FlagsOnly.gather {s t : State} (h : FlagsOnly s t) : t.gather = s.gather := by
  obtain ⟨_, _, _, _, _, _, e, _⟩ := h
  rw [e]

theorem FlagsOnly.cols {s t : State} (h : FlagsOnly s t) : t.cols = s.cols := by
  obtain ⟨_, _, _, _, _, _, e, _⟩ := h
  rw [e]

theorem FlagsOnly.mem {s t : State} (h : FlagsOnly s t) : t.mem = s.mem := by
  obtain ⟨_, _, _, _, _, _, e, _⟩ := h
  rw [e]

theorem FlagsOnly.memPoison {s t : State} (h : FlagsOnly s t) : t.memPoison = s.memPoison := by
  obtain ⟨_, _, _, _, _, _, e, _⟩ := h
  rw [e]

theorem FlagsOnly.tiers {s t : State} (h : FlagsOnly s t) : t.tiers = s.tiers := by
  obtain ⟨_, _, _, _, _, _, e, _⟩ := h
  rw [e]

theorem FlagsOnly.ctxs {s t : State} (h : FlagsOnly s t) : t.ctxs = s.ctxs := by
  obtain ⟨_, _, _, _, _, _, e, _⟩ := h
  rw [e]

theorem FlagsOnly.sched {s t : State} (h : FlagsOnly s t) : t.sched = s.sched := by
  obtain ⟨_, _, _, _, _, _, e, _⟩ := h
  rw [e]

theorem FlagsOnly.accRem {s t : State} (h : FlagsOnly s t) : t.accRem = s.accRem := by
  obtain ⟨_, _, _, _, _, _, e, _⟩ := h
  rw [e]

theorem FlagsOnly.journals {s t : State} (h : FlagsOnly s t) : t.journals = s.journals := by
  obtain ⟨_, _, _, _, _, _, e, _⟩ := h
  rw [e]

theorem FlagsOnly.spt {s t : State} (h : FlagsOnly s t) : t.spt = s.spt := by
  obtain ⟨_, _, _, _, _, _, e, _⟩ := h
  rw [e]

theorem FlagsOnly.ftl {s t : State} (h : FlagsOnly s t) : t.ftl = s.ftl := by
  obtain ⟨_, _, _, _, _, _, e, _⟩ := h
  rw [e]

theorem FlagsOnly.namespaces {s t : State} (h : FlagsOnly s t) : t.namespaces = s.namespaces := by
  obtain ⟨_, _, _, _, _, _, e, _⟩ := h
  rw [e]

theorem FlagsOnly.search {s t : State} (h : FlagsOnly s t) : t.search = s.search := by
  obtain ⟨_, _, _, _, _, _, e, _⟩ := h
  rw [e]

theorem FlagsOnly.links {s t : State} (h : FlagsOnly s t) : t.links = s.links := by
  obtain ⟨_, _, _, _, _, _, e, _⟩ := h
  rw [e]

theorem FlagsOnly.red {s t : State} (h : FlagsOnly s t) : t.red = s.red := by
  obtain ⟨_, _, _, _, _, _, e, _⟩ := h
  rw [e]

theorem FlagsOnly.heldSaid {s t : State} (h : FlagsOnly s t) : t.heldSaid = s.heldSaid := by
  obtain ⟨_, _, _, _, _, _, e, _⟩ := h
  rw [e]

theorem FlagsOnly.devs {s t : State} (h : FlagsOnly s t) : t.devs = s.devs := by
  obtain ⟨_, _, _, _, _, _, e, _⟩ := h
  rw [e]

theorem FlagsOnly.sec {s t : State} (h : FlagsOnly s t) : t.sec = s.sec := by
  obtain ⟨_, _, _, _, _, _, e, _⟩ := h
  rw [e]

theorem FlagsOnly.nor {s t : State} (h : FlagsOnly s t) : t.nor = s.nor := by
  obtain ⟨_, _, _, _, _, _, e, _⟩ := h
  rw [e]

theorem FlagsOnly.sys {s t : State} (h : FlagsOnly s t) : t.sys = s.sys := by
  obtain ⟨_, _, _, _, _, _, e, _⟩ := h
  rw [e]

@[simp] theorem State.raise_pending (s : State) (p code : Nat) (client : Option Nat) (addr aux : Nat) :
    (s.raise p code client addr aux).pending = s.pending := (s.raise_flags p code client addr aux).pending

@[simp] theorem State.setIrq_pending (s : State) (p b c : Nat) : (s.setIrq p b c).pending = s.pending := (s.setIrq_flags p b c).pending

@[simp] theorem State.raise_inForce (s : State) (p code : Nat) (client : Option Nat) (addr aux : Nat) :
    (s.raise p code client addr aux).inForce = s.inForce := (s.raise_flags p code client addr aux).inForce

@[simp] theorem State.setIrq_inForce (s : State) (p b c : Nat) : (s.setIrq p b c).inForce = s.inForce := (s.setIrq_flags p b c).inForce

@[simp] theorem State.raise_fresh (s : State) (p code : Nat) (client : Option Nat) (addr aux : Nat) :
    (s.raise p code client addr aux).fresh = s.fresh := (s.raise_flags p code client addr aux).fresh

@[simp] theorem State.setIrq_fresh (s : State) (p b c : Nat) : (s.setIrq p b c).fresh = s.fresh := (s.setIrq_flags p b c).fresh

@[simp] theorem State.raise_dtime (s : State) (p code : Nat) (client : Option Nat) (addr aux : Nat) :
    (s.raise p code client addr aux).dtime = s.dtime := (s.raise_flags p code client addr aux).dtime

@[simp] theorem State.setIrq_dtime (s : State) (p b c : Nat) : (s.setIrq p b c).dtime = s.dtime := (s.setIrq_flags p b c).dtime

@[simp] theorem State.raise_etime (s : State) (p code : Nat) (client : Option Nat) (addr aux : Nat) :
    (s.raise p code client addr aux).etime = s.etime := (s.raise_flags p code client addr aux).etime

@[simp] theorem State.setIrq_etime (s : State) (p b c : Nat) : (s.setIrq p b c).etime = s.etime := (s.setIrq_flags p b c).etime

@[simp] theorem State.raise_released (s : State) (p code : Nat) (client : Option Nat) (addr aux : Nat) :
    (s.raise p code client addr aux).released = s.released := (s.raise_flags p code client addr aux).released

@[simp] theorem State.setIrq_released (s : State) (p b c : Nat) : (s.setIrq p b c).released = s.released := (s.setIrq_flags p b c).released

@[simp] theorem State.raise_rdHold (s : State) (p code : Nat) (client : Option Nat) (addr aux : Nat) :
    (s.raise p code client addr aux).rdHold = s.rdHold := (s.raise_flags p code client addr aux).rdHold

@[simp] theorem State.setIrq_rdHold (s : State) (p b c : Nat) : (s.setIrq p b c).rdHold = s.rdHold := (s.setIrq_flags p b c).rdHold

@[simp] theorem State.raise_wrHold (s : State) (p code : Nat) (client : Option Nat) (addr aux : Nat) :
    (s.raise p code client addr aux).wrHold = s.wrHold := (s.raise_flags p code client addr aux).wrHold

@[simp] theorem State.setIrq_wrHold (s : State) (p b c : Nat) : (s.setIrq p b c).wrHold = s.wrHold := (s.setIrq_flags p b c).wrHold

@[simp] theorem State.raise_nowHold (s : State) (p code : Nat) (client : Option Nat) (addr aux : Nat) :
    (s.raise p code client addr aux).nowHold = s.nowHold := (s.raise_flags p code client addr aux).nowHold

@[simp] theorem State.setIrq_nowHold (s : State) (p b c : Nat) : (s.setIrq p b c).nowHold = s.nowHold := (s.setIrq_flags p b c).nowHold

@[simp] theorem State.raise_ppsHold (s : State) (p code : Nat) (client : Option Nat) (addr aux : Nat) :
    (s.raise p code client addr aux).ppsHold = s.ppsHold := (s.raise_flags p code client addr aux).ppsHold

@[simp] theorem State.setIrq_ppsHold (s : State) (p b c : Nat) : (s.setIrq p b c).ppsHold = s.ppsHold := (s.setIrq_flags p b c).ppsHold

@[simp] theorem State.raise_measHold (s : State) (p code : Nat) (client : Option Nat) (addr aux : Nat) :
    (s.raise p code client addr aux).measHold = s.measHold := (s.raise_flags p code client addr aux).measHold

@[simp] theorem State.setIrq_measHold (s : State) (p b c : Nat) : (s.setIrq p b c).measHold = s.measHold := (s.setIrq_flags p b c).measHold

@[simp] theorem State.raise_tmb (s : State) (p code : Nat) (client : Option Nat) (addr aux : Nat) :
    (s.raise p code client addr aux).tmb = s.tmb := (s.raise_flags p code client addr aux).tmb

@[simp] theorem State.setIrq_tmb (s : State) (p b c : Nat) : (s.setIrq p b c).tmb = s.tmb := (s.setIrq_flags p b c).tmb

@[simp] theorem State.raise_msr (s : State) (p code : Nat) (client : Option Nat) (addr aux : Nat) :
    (s.raise p code client addr aux).msr = s.msr := (s.raise_flags p code client addr aux).msr

@[simp] theorem State.setIrq_msr (s : State) (p b c : Nat) : (s.setIrq p b c).msr = s.msr := (s.setIrq_flags p b c).msr

@[simp] theorem State.raise_rows (s : State) (p code : Nat) (client : Option Nat) (addr aux : Nat) :
    (s.raise p code client addr aux).rows = s.rows := (s.raise_flags p code client addr aux).rows

@[simp] theorem State.setIrq_rows (s : State) (p b c : Nat) : (s.setIrq p b c).rows = s.rows := (s.setIrq_flags p b c).rows

@[simp] theorem State.raise_leaf (s : State) (p code : Nat) (client : Option Nat) (addr aux : Nat) :
    (s.raise p code client addr aux).leaf = s.leaf := (s.raise_flags p code client addr aux).leaf

@[simp] theorem State.setIrq_leaf (s : State) (p b c : Nat) : (s.setIrq p b c).leaf = s.leaf := (s.setIrq_flags p b c).leaf

@[simp] theorem State.raise_gather (s : State) (p code : Nat) (client : Option Nat) (addr aux : Nat) :
    (s.raise p code client addr aux).gather = s.gather := (s.raise_flags p code client addr aux).gather

@[simp] theorem State.setIrq_gather (s : State) (p b c : Nat) : (s.setIrq p b c).gather = s.gather := (s.setIrq_flags p b c).gather

@[simp] theorem State.raise_cols (s : State) (p code : Nat) (client : Option Nat) (addr aux : Nat) :
    (s.raise p code client addr aux).cols = s.cols := (s.raise_flags p code client addr aux).cols

@[simp] theorem State.setIrq_cols (s : State) (p b c : Nat) : (s.setIrq p b c).cols = s.cols := (s.setIrq_flags p b c).cols

@[simp] theorem State.raise_mem (s : State) (p code : Nat) (client : Option Nat) (addr aux : Nat) :
    (s.raise p code client addr aux).mem = s.mem := (s.raise_flags p code client addr aux).mem

@[simp] theorem State.setIrq_mem (s : State) (p b c : Nat) : (s.setIrq p b c).mem = s.mem := (s.setIrq_flags p b c).mem

@[simp] theorem State.raise_memPoison (s : State) (p code : Nat) (client : Option Nat) (addr aux : Nat) :
    (s.raise p code client addr aux).memPoison = s.memPoison := (s.raise_flags p code client addr aux).memPoison

@[simp] theorem State.setIrq_memPoison (s : State) (p b c : Nat) : (s.setIrq p b c).memPoison = s.memPoison := (s.setIrq_flags p b c).memPoison

@[simp] theorem State.raise_tiers (s : State) (p code : Nat) (client : Option Nat) (addr aux : Nat) :
    (s.raise p code client addr aux).tiers = s.tiers := (s.raise_flags p code client addr aux).tiers

@[simp] theorem State.setIrq_tiers (s : State) (p b c : Nat) : (s.setIrq p b c).tiers = s.tiers := (s.setIrq_flags p b c).tiers

@[simp] theorem State.raise_ctxs (s : State) (p code : Nat) (client : Option Nat) (addr aux : Nat) :
    (s.raise p code client addr aux).ctxs = s.ctxs := (s.raise_flags p code client addr aux).ctxs

@[simp] theorem State.setIrq_ctxs (s : State) (p b c : Nat) : (s.setIrq p b c).ctxs = s.ctxs := (s.setIrq_flags p b c).ctxs

@[simp] theorem State.raise_sched (s : State) (p code : Nat) (client : Option Nat) (addr aux : Nat) :
    (s.raise p code client addr aux).sched = s.sched := (s.raise_flags p code client addr aux).sched

@[simp] theorem State.setIrq_sched (s : State) (p b c : Nat) : (s.setIrq p b c).sched = s.sched := (s.setIrq_flags p b c).sched

@[simp] theorem State.raise_accRem (s : State) (p code : Nat) (client : Option Nat) (addr aux : Nat) :
    (s.raise p code client addr aux).accRem = s.accRem := (s.raise_flags p code client addr aux).accRem

@[simp] theorem State.setIrq_accRem (s : State) (p b c : Nat) : (s.setIrq p b c).accRem = s.accRem := (s.setIrq_flags p b c).accRem

@[simp] theorem State.raise_journals (s : State) (p code : Nat) (client : Option Nat) (addr aux : Nat) :
    (s.raise p code client addr aux).journals = s.journals := (s.raise_flags p code client addr aux).journals

@[simp] theorem State.setIrq_journals (s : State) (p b c : Nat) : (s.setIrq p b c).journals = s.journals := (s.setIrq_flags p b c).journals

@[simp] theorem State.raise_spt (s : State) (p code : Nat) (client : Option Nat) (addr aux : Nat) :
    (s.raise p code client addr aux).spt = s.spt := (s.raise_flags p code client addr aux).spt

@[simp] theorem State.setIrq_spt (s : State) (p b c : Nat) : (s.setIrq p b c).spt = s.spt := (s.setIrq_flags p b c).spt

@[simp] theorem State.raise_ftl (s : State) (p code : Nat) (client : Option Nat) (addr aux : Nat) :
    (s.raise p code client addr aux).ftl = s.ftl := (s.raise_flags p code client addr aux).ftl

@[simp] theorem State.setIrq_ftl (s : State) (p b c : Nat) : (s.setIrq p b c).ftl = s.ftl := (s.setIrq_flags p b c).ftl

@[simp] theorem State.raise_namespaces (s : State) (p code : Nat) (client : Option Nat) (addr aux : Nat) :
    (s.raise p code client addr aux).namespaces = s.namespaces := (s.raise_flags p code client addr aux).namespaces

@[simp] theorem State.setIrq_namespaces (s : State) (p b c : Nat) : (s.setIrq p b c).namespaces = s.namespaces := (s.setIrq_flags p b c).namespaces

@[simp] theorem State.raise_search (s : State) (p code : Nat) (client : Option Nat) (addr aux : Nat) :
    (s.raise p code client addr aux).search = s.search := (s.raise_flags p code client addr aux).search

@[simp] theorem State.setIrq_search (s : State) (p b c : Nat) : (s.setIrq p b c).search = s.search := (s.setIrq_flags p b c).search

@[simp] theorem State.raise_links (s : State) (p code : Nat) (client : Option Nat) (addr aux : Nat) :
    (s.raise p code client addr aux).links = s.links := (s.raise_flags p code client addr aux).links

@[simp] theorem State.setIrq_links (s : State) (p b c : Nat) : (s.setIrq p b c).links = s.links := (s.setIrq_flags p b c).links

@[simp] theorem State.raise_red (s : State) (p code : Nat) (client : Option Nat) (addr aux : Nat) :
    (s.raise p code client addr aux).red = s.red := (s.raise_flags p code client addr aux).red

@[simp] theorem State.setIrq_red (s : State) (p b c : Nat) : (s.setIrq p b c).red = s.red := (s.setIrq_flags p b c).red

@[simp] theorem State.raise_heldSaid (s : State) (p code : Nat) (client : Option Nat) (addr aux : Nat) :
    (s.raise p code client addr aux).heldSaid = s.heldSaid := (s.raise_flags p code client addr aux).heldSaid

@[simp] theorem State.setIrq_heldSaid (s : State) (p b c : Nat) : (s.setIrq p b c).heldSaid = s.heldSaid := (s.setIrq_flags p b c).heldSaid

@[simp] theorem State.raise_devs (s : State) (p code : Nat) (client : Option Nat) (addr aux : Nat) :
    (s.raise p code client addr aux).devs = s.devs := (s.raise_flags p code client addr aux).devs

@[simp] theorem State.setIrq_devs (s : State) (p b c : Nat) : (s.setIrq p b c).devs = s.devs := (s.setIrq_flags p b c).devs

@[simp] theorem State.raise_sec (s : State) (p code : Nat) (client : Option Nat) (addr aux : Nat) :
    (s.raise p code client addr aux).sec = s.sec := (s.raise_flags p code client addr aux).sec

@[simp] theorem State.setIrq_sec (s : State) (p b c : Nat) : (s.setIrq p b c).sec = s.sec := (s.setIrq_flags p b c).sec

@[simp] theorem State.raise_nor (s : State) (p code : Nat) (client : Option Nat) (addr aux : Nat) :
    (s.raise p code client addr aux).nor = s.nor := (s.raise_flags p code client addr aux).nor

@[simp] theorem State.setIrq_nor (s : State) (p b c : Nat) : (s.setIrq p b c).nor = s.nor := (s.setIrq_flags p b c).nor

@[simp] theorem State.raise_sys (s : State) (p code : Nat) (client : Option Nat) (addr aux : Nat) :
    (s.raise p code client addr aux).sys = s.sys := (s.raise_flags p code client addr aux).sys

@[simp] theorem State.setIrq_sys (s : State) (p b c : Nat) : (s.setIrq p b c).sys = s.sys := (s.setIrq_flags p b c).sys

/-! A command ends with the interrupts routed (R53). -/

theorem State.pendCats_congr {s t : State} (hr : ∀ k, catReg k = false → t.rd k = s.rd k) (hc : t.irq.cats = s.irq.cats)
    (hs : t.irq.strikeTo = s.irq.strikeTo) (n : Nat) : t.pendCats n = s.pendCats n := by
  have hk (p : Nat) {o : Nat} (h : o < 0x100 ∧ 0 < o) : catReg (p * 0x10000 + o) = false := by
    simp only [catReg, Bool.and_eq_false_iff, decide_eq_false_iff_not]
    omega
  have hp (p b : Nat) : t.irqPending p b = s.irqPending p b := by
    simp only [State.irqPending, State.bit, hr _ (hk p (o := 0x1c) (by omega)), hr _ (hk p (o := 0x18) (by omega))]
  have hg (p m : Nat) : t.bit (R.PG_GUARD p) m = s.bit (R.PG_GUARD p) m := by
    simp only [State.bit, hr _ (hk p (o := 0x24) (by omega))]
  have hroute (p b : Nat) : t.routes p b = s.routes p b := by
    simp only [State.routes, hs, hr _ (hk p (o := 0x20) (by omega)), hg]
  simp only [State.pendCats, hc, hp, hroute]

theorem SettleOnly.cats {s t : State} (h : SettleOnly s t) : t.irq.cats = s.irq.cats ∧ t.irq.strikeTo = s.irq.strikeTo := by
  obtain ⟨_, _, _, rfl, _, a, b⟩ := h
  exact ⟨a, b⟩

theorem SettleOnly.pendCats {s t : State} (h : SettleOnly s t) (n : Nat) : t.pendCats n = s.pendCats n := by
  obtain ⟨a, b⟩ := h.cats
  obtain ⟨_, _, _, _, r, _⟩ := h
  exact State.pendCats_congr r a b n

/-- A message sent or deferred changes no register. -/
theorem State.catRose_regs (s : State) (n c : Nat) : (s.catRose n c).regs = s.regs := by
  unfold State.catRose
  split
  · split
    · unfold State.sendCat State.sendMsix
      split <;> rfl
    · rfl
  · rfl

theorem State.catRose_fold_regs (n : Nat) (l : List Nat) (s : State) : (l.foldl (fun t c => t.catRose n c) s).regs = s.regs := by
  induction l generalizing s with
  | nil => rfl
  | cons c l ih => exact (ih _).trans (s.catRose_regs n c)

/-- Settling a client shows every category pending for it, and leaves what another client is shown. -/
theorem State.settleClient_cat (s : State) (n m c : Nat) (hc : c < 13) :
    (s.settleClient n).bit (R.IRQ_CAT_STAT m) c =
      (s.bit (R.IRQ_CAT_STAT m) c || (decide (n = m) && (s.pendCats n).testBit c)) := by
  have hk : R.IRQ_CAT_STAT n = R.IRQ_CAT_STAT m ↔ n = m := by
    show 0x58000 + 0x800 * n = 0x58000 + 0x800 * m ↔ n = m
    omega
  unfold State.settleClient
  extract_lets old new
  split
  · rename_i e
    by_cases h : n = m
    · subst h
      have : (s.rd (R.IRQ_CAT_STAT n)).testBit c = (new).testBit c := by rw [e]
      simp only [State.bit, decide_true, Bool.true_and]
      rw [this]
      simp only [new, old, Nat.testBit_or, Bool.or_assoc, Bool.or_self]
    · simp [h]
  · rw [State.bit_congr (State.rd_congr (State.catRose_fold_regs n _ _) _)]
    simp only [State.bit, State.rd_wr, hk]
    by_cases h : n = m
    · subst h
      have : c < 64 := by omega
      simp only [if_true, Nat.testBit_mod_two_pow, this, decide_true, Bool.true_and, new, old, Nat.testBit_or]
    · simp [h]

/-- Every command ends with the pending categories shown (R53). -/
theorem State.settle_shown (s : State) : IrqShown s.settle := by
  intro hrel n hn c hc hp
  rw [State.settle_released] at hrel
  rw [s.settle_only.pendCats] at hp
  have key : ∀ (l : List Nat) (t : State), (∀ m ∈ l, m < 16) → (t.pendCats n).testBit c = true →
      (n ∈ l ∨ t.bit (R.IRQ_CAT_STAT n) c = true) → (l.foldl State.settleClient t).bit (R.IRQ_CAT_STAT n) c = true := by
    intro l
    induction l with
    | nil => rintro t _ _ (h | h)
             · cases h
             · exact h
    | cons m l ih =>
      intro t hl hpt h
      refine ih _ (fun k hk => hl k (List.mem_cons_of_mem _ hk)) ?_ ?_
      · rw [(t.settleClient_only (hl m List.mem_cons_self)).pendCats]
        exact hpt
      · rw [State.settleClient_cat _ _ _ _ hc]
        by_cases e : m = n
        · subst e
          exact .inr (by simp [hpt])
        · rcases h with h | h
          · rcases List.mem_cons.mp h with h | h
            · exact absurd h.symm e
            · exact .inl h
          · exact .inr (by simp [h])
  unfold State.settle
  rw [if_pos hrel]
  exact key _ s (fun m hm => List.mem_range.mp hm) hp (.inl (List.mem_range.mpr hn))

end Sys2Proof.Machine
end

