-- ==== Sys2Proof/Laws/Memory.lean ====
section
/-! SUPPORT. The laws of memory: what a byte and a word's poison read after a write, and that every operation on T1, T2, the Leaves and
the gathering buffer keeps the canonical form. -/

namespace Sys2Proof

open Machine Safety

theorem Safety.Memory.wf_iff (s : State) : Memory.wf s = true ↔
    kvWf (fun _ => 0) s.mem = true ∧ kvWf (fun _ => false) s.memPoison = true ∧ kvWf (fun _ => zeroWord) s.leaf = true ∧
      kvWf (fun _ => zeroWord) s.gather = true := by
  simp [Memory.wf, Bool.and_eq_true, and_assoc]

/-- What changes none of the four stores keeps their form. -/
theorem Safety.Memory.wf_congr {s t : State} (h : SameMem s t) : Memory.wf t = Memory.wf s := by
  obtain ⟨h1, h2, h3, h4⟩ := h
  simp only [Memory.wf, h1, h2, h3, h4]

/-- A command's end keeps the memories. -/
theorem Machine.State.settle_sameMem (s : State) : SameMem s s.settle := ⟨by simp, by simp, by simp, by simp⟩

/-! Bytes. -/

theorem Machine.State.memByte_memSet (s : State) (h o h' o' : Nat) (b : Byte) :
    (s.memSet h o b).memByte h' o' = if h * regionSpan + o = h' * regionSpan + o' then b else s.memByte h' o' := by
  simp only [State.memByte, State.memSet, kvGet_kvSet]

theorem Machine.State.memPoisoned_poisonSet (s : State) (h w h' o' : Nat) (p : Bool) :
    (s.poisonSet h w p).memPoisoned h' o' = if h * regionSpan + w = h' * regionSpan + o' / 8 then p else s.memPoisoned h' o' := by
  simp only [State.memPoisoned, State.poisonSet, kvGet_kvSet]

@[simp] theorem Machine.State.poisonSet_mem (s : State) (h w : Nat) (p : Bool) : (s.poisonSet h w p).mem = s.mem := rfl
@[simp] theorem Machine.State.memSet_memPoison (s : State) (h o : Nat) (b : Byte) : (s.memSet h o b).memPoison = s.memPoison := rfl

/-- Writing bytes changes those bytes alone. -/
theorem Machine.State.memByte_memBytes (s : State) (h o o' : Nat) (bs : List Byte) :
    (s.memBytes h o bs).memByte h o' = if o ≤ o' ∧ o' < o + bs.length then bs.getD (o' - o) 0 else s.memByte h o' := by
  induction bs generalizing s o with
  | nil =>
    have : ¬ (o ≤ o' ∧ o' < o) := by omega
    simp [State.memBytes, this]
  | cons b bs ih =>
    rw [State.memBytes, ih, State.memByte_memSet]
    by_cases e : o = o'
    · subst e
      simp
    · have e' : ¬ h * regionSpan + o = h * regionSpan + o' := by omega
      rw [if_neg e']
      by_cases hr : o + 1 ≤ o' ∧ o' < o + 1 + bs.length
      · have h2 : o ≤ o' ∧ o' < o + (b :: bs).length := by simp only [List.length_cons]; omega
        have h3 : o' - o = o' - (o + 1) + 1 := by omega
        rw [if_pos hr, if_pos h2, h3, List.getD_cons_succ]
      · have h2 : ¬ (o ≤ o' ∧ o' < o + (b :: bs).length) := by simp only [List.length_cons]; omega
        rw [if_neg hr, if_neg h2]

/-! The canonical form. -/

theorem Safety.Memory.wf_memSet {s : State} (hs : Memory.wf s = true) (h o : Nat) (b : Byte) : Memory.wf (s.memSet h o b) = true := by
  obtain ⟨h1, h2, h3, h4⟩ := (Memory.wf_iff s).mp hs
  exact (Memory.wf_iff _).mpr ⟨kvWf_kvSet 0 _ _ _ h1, h2, h3, h4⟩

theorem Safety.Memory.wf_poisonSet {s : State} (hs : Memory.wf s = true) (h w : Nat) (p : Bool) :
    Memory.wf (s.poisonSet h w p) = true := by
  obtain ⟨h1, h2, h3, h4⟩ := (Memory.wf_iff s).mp hs
  exact (Memory.wf_iff _).mpr ⟨h1, kvWf_kvSet false _ _ _ h2, h3, h4⟩

theorem Safety.Memory.wf_memBytes {s : State} (hs : Memory.wf s = true) (h o : Nat) (bs : List Byte) :
    Memory.wf (s.memBytes h o bs) = true := by
  induction bs generalizing s o with
  | nil => exact hs
  | cons b bs ih => exact ih (wf_memSet hs h o b) (o + 1)

/-- A fold of steps that each keep the form keeps it. -/
theorem Safety.Memory.wf_foldl {α : Type} (l : List α) (f : State → α → State)
    (hf : ∀ t a, Memory.wf t = true → Memory.wf (f t a) = true) {s : State} (hs : Memory.wf s = true) :
    Memory.wf (l.foldl f s) = true := by
  induction l generalizing s with
  | nil => exact hs
  | cons a l ih => exact ih (hf s a hs)

theorem Safety.Memory.wf_memWrite {s : State} (hs : Memory.wf s = true) (h o : Nat) (bs : List Byte) (p : Bool) :
    Memory.wf (s.memWrite h o bs p) = true := by
  unfold State.memWrite
  extract_lets s1 w0 w1
  have h1 : Memory.wf s1 = true := wf_memBytes hs h o bs
  split
  · exact h1
  · refine wf_foldl _ _ (fun t i ht => ?_) h1
    dsimp only
    split
    · exact wf_poisonSet ht _ _ _
    · split
      · exact wf_poisonSet ht _ _ _
      · exact ht

theorem Safety.Memory.wf_memCopy {s : State} (hs : Memory.wf s = true) (h o h' o' n : Nat) :
    Memory.wf (s.memCopy h o h' o' n) = true := by
  unfold State.memCopy
  refine wf_foldl _ _ (fun t e ht => ?_) (wf_memWrite hs _ _ _ _)
  split
  · exact wf_poisonSet ht _ _ _
  · exact ht

theorem Safety.Memory.wf_memZero {s : State} (hs : Memory.wf s = true) (h : Nat) : Memory.wf (s.memZero h) = true := by
  obtain ⟨h1, h2, h3, h4⟩ := (Memory.wf_iff s).mp hs
  exact (Memory.wf_iff _).mpr ⟨kvWf_kvDropRange _ _ _ _ h1, kvWf_kvDropRange _ _ _ _ h2, h3, h4⟩

/-! What a region's end does beside its bytes. -/

theorem Machine.State.capCheck_sameMem (s : State) (t : Nat) : SameMem s (s.capCheck t) := by
  unfold State.capCheck
  extract_lets short was
  split
  · exact ⟨by simp, by simp, by simp, by simp⟩
  · split <;> exact ⟨rfl, rfl, rfl, rfl⟩

theorem Safety.SameMem.trans {s t u : State} (h : SameMem s t) (h' : SameMem t u) : SameMem s u :=
  ⟨h'.1.trans h.1, h'.2.1.trans h.2.1, h'.2.2.1.trans h.2.2.1, h'.2.2.2.trans h.2.2.2⟩

theorem Safety.SameMem.refl (s : State) : SameMem s s := ⟨rfl, rfl, rfl, rfl⟩

theorem Safety.SameMem.foldl {α : Type} (l : List α) (f : State → α → State) (hf : ∀ t a, SameMem t (f t a)) (s : State) :
    SameMem s (l.foldl f s) := by
  induction l generalizing s with
  | nil => exact SameMem.refl s
  | cons a l ih => exact (hf s a).trans (ih _)

theorem Machine.State.wr_sameMem (s : State) (k v : Nat) : SameMem s (s.wr k v) := ⟨by simp, by simp, by simp, by simp⟩

theorem Machine.State.loseCapacity_sameMem (s : State) (t n : Nat) : SameMem s (s.loseCapacity t n) := by
  unfold State.loseCapacity
  exact (s.wr_sameMem _ _).trans (State.capCheck_sameMem _ _)

theorem Machine.State.frameRetired_sameMem (s : State) (d f : Nat) : SameMem s (s.frameRetired d f) := by
  unfold State.frameRetired
  extract_lets p s1 s2
  have h1 : SameMem s s1 := SameMem.foldl _ _ (fun t i => by
    dsimp only
    split
    · exact t.wr_sameMem _ _
    · exact SameMem.refl t) s
  have h2 : SameMem s1 s2 := s1.wr_sameMem _ _
  exact (h1.trans h2).trans (s2.loseCapacity_sameMem _ _)

theorem Machine.State.retireDue_sameMem (s : State) (h : Nat) : SameMem s (s.retireDue h) := by
  unfold State.retireDue
  exact SameMem.trans ⟨rfl, rfl, rfl, rfl⟩ (SameMem.foldl _ _ (fun t e => t.frameRetired_sameMem _ _) _)

/-! What unmapping a region's units does beside the map. -/

theorem Machine.State.setBit_sameMem (s : State) (k i : Nat) (b : Bool) : SameMem s (s.setBit k i b) := s.wr_sameMem _ _

theorem Machine.State.raise_sameMem (s : State) (p code : Nat) (client : Option Nat) (addr aux : Nat) :
    SameMem s (s.raise p code client addr aux) := ⟨by simp, by simp, by simp, by simp⟩

theorem Machine.State.ftlShow_sameMem (s : State) : SameMem s s.ftlShow := by
  unfold State.ftlShow
  exact (s.wr_sameMem _ _).trans (State.wr_sameMem _ _ _)

theorem Machine.State.fgcCheck_sameMem (s : State) (n : Nat) : SameMem s (s.fgcCheck n) := by
  unfold State.fgcCheck State.qdiEvent
  dsimp only
  split
  · exact ⟨by simp [State.setBit_eq], by simp [State.setBit_eq], by simp [State.setBit_eq], by simp [State.setBit_eq]⟩
  · split
    · exact ⟨rfl, rfl, rfl, rfl⟩
    · exact SameMem.refl s

theorem Machine.State.freeIfEmpty_sameMem (s : State) (n q : Nat) : SameMem s (s.freeIfEmpty n q) := by
  unfold State.freeIfEmpty
  extract_lets x
  split
  · exact SameMem.trans ⟨rfl, rfl, rfl, rfl⟩ (State.fgcCheck_sameMem _ _)
  · exact SameMem.refl s

theorem Machine.State.journalUnit_sameMem (s : State) (n h u : Nat) : SameMem s (s.journalUnit n h u) := by
  have h1 : SameMem s (s.journalRec n 1) := ⟨rfl, rfl, rfl, rfl⟩
  unfold State.journalUnit
  extract_lets s1 k
  split
  · exact h1
  · exact h1.trans ⟨rfl, rfl, rfl, rfl⟩

theorem Machine.State.unmapRegion_sameMem (s : State) (h : Nat) (r : Region) : SameMem s (s.unmapRegion h r) := by
  unfold State.unmapRegion
  dsimp only
  refine SameMem.trans ?_ (State.ftlShow_sameMem _)
  refine SameMem.trans ?_ (SameMem.foldl _ _ (fun t e => t.freeIfEmpty_sameMem _ _) _)
  refine SameMem.trans ?_ (SameMem.foldl _ _ (fun t e => t.journalUnit_sameMem _ _ _) _)
  exact ⟨rfl, rfl, rfl, rfl⟩

theorem Safety.Memory.wf_freeRegion {s : State} (hs : Memory.wf s = true) (h : Nat) : Memory.wf (s.freeRegion h) = true := by
  unfold State.freeRegion
  split
  · exact hs
  · rename_i r _
    dsimp only
    rw [Memory.wf_congr (State.retireDue_sameMem _ h)]
    obtain ⟨h1, h2, h3, h4⟩ := (Memory.wf_iff s).mp hs
    split
    · rw [Memory.wf_congr (State.unmapRegion_sameMem _ h r)]
      exact (Memory.wf_iff _).mpr ⟨kvWf_kvDropRange _ _ _ _ h1, kvWf_kvDropRange _ _ _ _ h2, h3, h4⟩
    · exact (Memory.wf_iff _).mpr ⟨kvWf_kvDropRange _ _ _ _ h1, kvWf_kvDropRange _ _ _ _ h2, h3, h4⟩

/-! The Leaves and the gathering buffer. -/

theorem Machine.State.poisonSeen_sameMem (s : State) (p : Nat) : SameMem s (s.poisonSeen p) := by
  unfold State.poisonSeen State.poisonAs
  refine SameMem.trans ?_ (State.settle_sameMem _)
  unfold State.irqBit
  exact ⟨by simp [State.setBit_eq], by simp [State.setBit_eq], by simp [State.setBit_eq],
    by simp [State.setBit_eq]⟩

theorem Safety.Memory.wf_leafPut {s : State} (hs : Memory.wf s = true) (r a : Nat) (w : LeafWord) : Memory.wf (s.leafPut r a w) = true := by
  obtain ⟨h1, h2, h3, h4⟩ := (Memory.wf_iff s).mp hs
  unfold State.leafPut
  extract_lets s1
  have hw : Memory.wf s1 = true := (Memory.wf_iff _).mpr ⟨h1, h2, kvWf_kvSet zeroWord _ _ _ h3, h4⟩
  split
  · exact (Memory.wf_congr (SameMem.trans (s1.wr_sameMem _ _) (State.poisonSeen_sameMem _ (pageRow r)))).trans hw
  · exact hw

theorem Safety.Memory.wf_gatherPut {s : State} (hs : Memory.wf s = true) (g : Nat) (w : LeafWord) : Memory.wf (s.gatherPut g w) = true := by
  obtain ⟨h1, h2, h3, h4⟩ := (Memory.wf_iff s).mp hs
  unfold State.gatherPut
  split
  · exact (Memory.wf_iff _).mpr ⟨h1, h2, h3, kvWf_kvSet zeroWord _ _ _ h4⟩
  · exact hs

theorem Safety.Memory.wf_emptyLeaf {s : State} (hs : Memory.wf s = true) (r : Nat) : Memory.wf (s.emptyLeaf r) = true := by
  obtain ⟨h1, h2, h3, h4⟩ := (Memory.wf_iff s).mp hs
  unfold State.emptyLeaf
  extract_lets x s1
  have hw : Memory.wf s1 = true := (Memory.wf_iff _).mpr ⟨h1, h2, kvWf_kvDropRange _ _ _ _ h3, h4⟩
  exact (Memory.wf_congr (SameMem.trans (State.wr_sameMem (s1.setRow r _) _ _) (State.setBit_sameMem _ _ _ _))).trans hw

/-- The memories of the module after reset are in canonical form. -/
theorem Safety.Memory.wf_reset : Memory.wf State.reset = true := by decide

end Sys2Proof
end

