-- ==== Sys2Proof/Laws/Operands.lean ====
section
/-! SUPPORT. What a checked write comes to: for an open page the value is taken, and what stands in the way of it when it is not. -/

namespace Sys2Proof

open Machine Safety

/-- The pages that carry a block lie below the diagnostic pages (R30). -/
theorem typeCode_low {p : Nat} (h : typeCode p ≠ 0) : p < 0xF0 := by
  have hb : ∀ b ∈ regBlocks, b.page + b.count ≤ 0xF0 := by decide
  unfold typeCode at h
  split at h
  · next b e =>
    have hm := hb b (List.mem_of_find?_eq_some e)
    have hp := List.find?_some e
    simp only [Bool.and_eq_true, decide_eq_true_eq] at hp
    omega
  · exact absurd rfl h

/-- A page that answers is no diagnostic page. -/
theorem Machine.State.diagOpen_of_answers (s : State) (c : Nat) {p : Nat} (h : s.answers p = true) : s.diagOpen c p = false := by
  have ht : typeCode p ≠ 0 := by
    intro e
    simp [State.answers, e] at h
  have hf : decide (0xF0 ≤ p) = false := decide_eq_false (Nat.not_le.mpr (typeCode_low ht))
  simp only [State.diagOpen, hf, Bool.and_false, Bool.false_and]

/-- A write to a page that answers does what the write does. -/
theorem Machine.State.writePage_of_answers (s : State) (c : Nat) {p : Nat} (o : Host.Outcome State Fault Refusal)
    (h : s.answers p = true) : s.writePage c p o = o := by
  rw [State.writePage, s.diagOpen_of_answers c h, Bool.and_false]
  rfl

/-- Dropping a held half changes nothing else. -/
theorem Machine.State.dropHeld_eq (s : State) (c p key : Nat) : ∃ w, s.dropHeld c p key = { s with wrHold := w } := by
  unfold State.dropHeld
  split
  · split
    · exact ⟨_, rfl⟩
    · exact ⟨s.wrHold, rfl⟩
  · exact ⟨s.wrHold, rfl⟩

/-- A command whose write is taken has the effect of its register, on a state that differs in the held halves alone. -/
theorem Machine.State.command_take (s : State) (c addr v : Nat) (eff : State → Nat → Nat → State) {h : RegHit} {new raw : Nat}
    (hb : s.reached c = true) (ha : s.answers (addr / 0x10000) = true) (hr : regHit (addr / 0x10000) (addr % 0x10000) = some h)
    (hv : s.verdict c (addr / 0x10000) h v = .take new raw) (hraw : raw < 2 ^ 64) :
    ∃ w, s.command c addr v eff = eff { s with wrHold := w } new raw := by
  obtain ⟨w, e⟩ := s.dropHeld_eq c (addr / 0x10000) addr
  refine ⟨w, ?_⟩
  have ha' : ({ s with wrHold := w } : State).answers (addr / 0x10000) = true := ha
  have hv' : ({ s with wrHold := w } : State).verdict c (addr / 0x10000) h v = .take new raw := hv
  unfold State.command State.writeBy
  rw [if_pos hb, e]
  simp only [ha', Bool.not_true, Bool.false_eq_true, if_false, hr, hv', hraw, if_true]

theorem Safety.Open.shut {s : State} {c p : Nat} (h : Open s c p) : (decide (s.present p = 0x5) || decide (s.present p = 0x9)) = false := by
  simp [h.2.2.1, h.2.2.2.1]

theorem Safety.Open.locked {s : State} {c p : Nat} (h : Open s c p) : (s.bit (R.PG_CTL p) 31 && decide (c ≠ 0)) = false := by
  rcases h.2.2.2.2 with h | ⟨_, h⟩
  · simp [h]
  · simp [h]

theorem Safety.Open.guard {s : State} {c p : Nat} (h : Open s c p) : s.guardOpen p c = true := by
  rcases h.2.2.2.2 with h | ⟨h, _⟩
  · simp [State.guardOpen, h]
  · exact h

/-- On a page that belongs to no client's block, an open page is within reach. -/
theorem Safety.Open.reach {s : State} {c p o : Nat} (h : Open s c p) (hb : blockClient p o = none) (hp : p ≠ 5)
    (hm : p ≠ pageHif ∨ o < 0x2000) : s.mayReach c p o = true := by
  unfold State.mayReach
  split
  · rfl
  · have hm' : (decide (p = pageHif) && decide (0x2000 ≤ o)) = false := by
      rcases hm with e | e
      · simp [e]
      · simp [Nat.not_le.mpr e]
    simp only [hm', hb, h.guard, pageIrq, hp, decide_false, Bool.false_and, Bool.false_eq_true, if_false, Bool.and_self]

theorem Machine.State.mayReach_super (s : State) (p o : Nat) : s.mayReach 0 p o = true := rfl

/-- A write of an open page's register that acts once: it is taken as it stands. -/
theorem Machine.State.verdict_wo {s : State} {c p v : Nat} {h : RegHit} (ho : Open s c p) (hm : 0x100 ≤ h.base → s.mayReach c p h.base = true)
    (hw : h.rd.wo = true) (hs : c = 0 ∨ v &&& h.rd.sup = 0) : s.verdict c p h v = .take 0 v := by
  unfold State.verdict
  extract_lets old shut rw w1c mine new clash
  have h1 : shut = false := ho.shut
  have h2 := ho.locked
  have hs' : (decide (c ≠ 0) && decide ((v &&& h.rd.sup) ≠ 0)) = false := by
    rcases hs with hs | hs <;> simp [hs]
  simp only [h1, Bool.false_and, Bool.false_eq_true, if_false, h2, hw, if_true, hs']
  split
  · rename_i hx
    simp only [Bool.and_eq_true, decide_eq_true_eq, Bool.not_eq_true'] at hx
    rw [hm hx.1] at hx
    exact absurd hx.2 (by simp)
  · rfl

/-- A write by the supervisor of an open page's register with writable bits: they take the value written. -/
theorem Machine.State.verdict_super {s : State} {p v : Nat} {h : RegHit} (ho : Open s 0 p) (hw : h.rd.wo = false)
    (h1 : (if h.base = 0x1C then irqBitsOf (typeCode p) else h.rd.w1c) = 0) (hrw : h.rwMask p ≠ 0) :
    s.verdict 0 p h v = .take ((s.rd (regKey 0 p h) &&& (0xFFFFFFFFFFFFFFFF ^^^ h.rwMask p)) ||| (v &&& h.rwMask p)) v := by
  have e := ho.shut
  unfold State.verdict
  simp only [e, Bool.false_and, Bool.false_eq_true, if_false, State.mayReach_super, Bool.not_true, Bool.and_false, ne_eq,
    not_true_eq_false, decide_false, hw, h1, if_true, hrw]

end Sys2Proof
end

