-- ==== Sys2Proof/WellFormed.lean ====
section
/-! DEFINITION. Which commands are well formed: the operands that the syntax leaves as plain numbers fit the fields that carry
them on their bus. A meaning is defined on every command; an ill-formed one is no command that a host can send. -/

namespace Sys2Proof

/-- A command identity fits its fields (R410): a queue number and a command identifier of 16 bits; the mailbox is queue
0x10000 (R430). -/
def Cid.wf (i : Cid) : Bool := decide (i.q ≤ 0x10000) && decide (i.id < 0x10000)

/-- A message header fits its fields (R472). -/
def MsgHead.wf (h : MsgHead) : Bool :=
  decide (h.magic < 0x10000) && decide (h.version < 0x100) && decide (h.code < 0x100) && decide (h.tag < 0x10000) &&
    decide (h.status < 0x10000) && decide (h.len < 0x100000000)

/-- A register access starts at a byte of BAR0 and does not run past its end (R29). -/
def accessFits (addr : BitVec 24) (w : Width) : Bool := decide (addr.toNat + w.bytes ≤ 0x1000000)

/-- Rows named for a step are distinct (R216). -/
def rowsDistinct (rows : List RowNo) : Bool := decide rows.Nodup

/-- The data of a Write is a whole number of 4 KiB blocks, at least one (R420). -/
def dataBlocks (data : List (BitVec 8)) : Bool := !data.isEmpty && data.length % 4096 == 0

/-- The blocks of a Read or a Write Zeroes: at least one, and at most what NLB counts (R420, R422). -/
def blockCount (nlb : Nat) : Bool := decide (0 < nlb) && decide (nlb ≤ 0x10000)

/-- A flit's link fields fit (R346). -/
def Flit.wf (f : Flit) : Bool := decide (f.seq < 4096) && decide (f.ack < 4096)

/-- The address of a half of a register is aligned to 4 (R33). -/
def halfAligned (addr : BitVec 24) : Bool := addr.toNat % 4 == 0

/-- The identity of a command that a submission queue or the mailbox carries (R410, R430). -/
def Instr.cid : Instr → Option Cid
  | .figLoad cid _ _ _ | .figUnload cid _ | .ctxCreate cid _ | .ctxReset cid _ | .ctxRelease cid _ | .run cid _ _ _ | .regionAlloc cid _
  | .regionFree cid _ | .move cid _ _ _ _ _ | .copy cid _ _ _ _ | .idxCreate cid _ | .idxInsert cid _ _ _ | .idxDelete cid _ _
  | .idxCompact cid _ _ | .idxMerge cid _ _ | .idxDrop cid _ | .idxEdges cid _ _ | .idxDestroy cid _ | .nsCreate cid _ | .nsDelete cid _
  | .write cid _ _ _ _ | .read cid _ _ _ _ | .writeZeroes cid _ _ _ | .datasetManagement cid _ _ _ | .flush cid _ | .identify cid _ _
  | .getLogPage cid _ _ _ _ | .setFeatures cid _ _ | .getFeatures cid _ _ | .createIoSubmissionQueue cid _ _ _ _ _
  | .deleteIoSubmissionQueue cid _ | .createIoCompletionQueue cid _ _ _ _ _ | .deleteIoCompletionQueue cid _ | .abort cid _ _
  | .asynchronousEventRequest cid | .firmwareImageDownload cid _ _ | .firmwareCommitReplace cid _ _ _ | .firmwareCommitSelect cid _ _
  | .firmwareCommitActivate cid _ _ _ => some cid
  | _ => none

/-- The operands that the syntax leaves as plain numbers and lists fit. -/
def Instr.operandsFit : Instr → Bool
  | .registerWrite _ addr w v => accessFits addr w && decide (v.toNat < 2 ^ (8 * w.bytes))
  | .readClearAccess _ addr w => accessFits addr w
  | .lowerHalfRead _ addr | .upperHalfRead _ addr => halfAligned addr
  | .lowerHalfWrite _ addr _ | .upperHalfWrite _ addr _ => halfAligned addr
  | .stepAdmit _ rows | .heldAdmission _ rows => rowsDistinct rows
  | .write _ nsid _ data _ => decide (nsid < 0x100000000) && dataBlocks data
  | .read _ nsid _ nlb _ | .writeZeroes _ nsid _ nlb => decide (nsid < 0x100000000) && blockCount nlb
  | .submissionDoorbellWrite _ q tail ids _ =>
    decide (q < 0x10000) && decide (tail < 0x10000) && ids.all fun e => decide (e.1 < 0x10000)
  | .completionDoorbellWrite _ q head => decide (q < 0x10000) && decide (head < 0x10000)
  | .flitReceive _ f _ => f.wf
  | .getVersion _ h p _ | .getDigest _ h p _ | .getCert _ h p _ | .getMeas _ h p _ | .quote _ h p _ | .getLog _ h p _
  | .diagNonce _ h p _ | .diagUnlock _ h p _ _ | .regRead h p _ | .regWrite h p _ | .sidebandReset h p _
  | .sensors h p _ | .romRecoveryImage h p _ _ => h.wf && decide (p.length < 0x100000000)
  | .cxlMemRead _ _ len _ => decide (0 < len) && decide (len ≤ 64)
  | .cxlMemWrite _ addr data _ _ _ => !data.isEmpty && decide (addr % 64 + data.length ≤ 64)
  | _ => true

/-- The well-formed commands. -/
def Instr.wf (i : Instr) : Bool := i.cid.all Cid.wf && i.operandsFit

end Sys2Proof
end

