-- ==== Sys2Proof/Laws/PerInstr.lean ====
section
/-! SUPPORT. A family of laws with one lemma for each command: the identity of a well-formed command fits its fields (R410, R430). -/

namespace Sys2Proof

/-- A well-formed command that a queue or the mailbox carries has a queue number of 16 bits, or the mailbox's, and an identifier of 16
bits. -/
def Laws.Identity.Statement (i : Instr) : Prop := i.wf = true → ∀ cid, i.cid = some cid → cid.q ≤ 0x10000 ∧ cid.id < 0x10000

theorem Instr.wf_cid (i : Instr) : Laws.Identity.Statement i := by
  intro h cid hc
  simp only [Instr.wf, hc, Option.all_some, Cid.wf, Bool.and_eq_true, decide_eq_true_eq] at h
  exact h.1

theorem Laws.Identity.registerWrite (c : Client) (addr : BitVec 24) (w : Width) (v : BitVec 64) : Laws.Identity.Statement (.registerWrite c addr w v) := Instr.wf_cid _

theorem Laws.Identity.readClearAccess (c : Client) (addr : BitVec 24) (w : Width) : Laws.Identity.Statement (.readClearAccess c addr w) := Instr.wf_cid _

theorem Laws.Identity.lowerHalfRead (c : Client) (addr : BitVec 24) : Laws.Identity.Statement (.lowerHalfRead c addr) := Instr.wf_cid _

theorem Laws.Identity.upperHalfRead (c : Client) (addr : BitVec 24) : Laws.Identity.Statement (.upperHalfRead c addr) := Instr.wf_cid _

theorem Laws.Identity.lowerHalfWrite (c : Client) (addr : BitVec 24) (v : BitVec 32) : Laws.Identity.Statement (.lowerHalfWrite c addr v) := Instr.wf_cid _

theorem Laws.Identity.upperHalfWrite (c : Client) (addr : BitVec 24) (v : BitVec 32) : Laws.Identity.Statement (.upperHalfWrite c addr v) := Instr.wf_cid _

theorem Laws.Identity.enable (c : Client) (p : Page) : Laws.Identity.Statement (.enable c p) := Instr.wf_cid _

theorem Laws.Identity.disable (c : Client) (p : Page) : Laws.Identity.Statement (.disable c p) := Instr.wf_cid _

theorem Laws.Identity.quiesceRequest (c : Client) (p : Page) : Laws.Identity.Statement (.quiesceRequest c p) := Instr.wf_cid _

theorem Laws.Identity.quiesceClear (c : Client) (p : Page) : Laws.Identity.Statement (.quiesceClear c p) := Instr.wf_cid _

theorem Laws.Identity.quiesceComplete (p : Page) : Laws.Identity.Statement (.quiesceComplete p) := Instr.wf_cid _

theorem Laws.Identity.blockReset (c : Client) (p : Page) : Laws.Identity.Statement (.blockReset c p) := Instr.wf_cid _

theorem Laws.Identity.irqModIntervalEnd (n : Client) (cat : Fin 13) : Laws.Identity.Statement (.irqModIntervalEnd n cat) := Instr.wf_cid _

theorem Laws.Identity.errWriterTake : Laws.Identity.Statement (.errWriterTake) := Instr.wf_cid _

theorem Laws.Identity.errTailWrite (c : Client) (v : BitVec 64) : Laws.Identity.Statement (.errTailWrite c v) := Instr.wf_cid _

theorem Laws.Identity.tmbNowFracRead (c : Client) : Laws.Identity.Statement (.tmbNowFracRead c) := Instr.wf_cid _

theorem Laws.Identity.tmbPpsinFracRead (c : Client) : Laws.Identity.Statement (.tmbPpsinFracRead c) := Instr.wf_cid _

theorem Laws.Identity.secMeasRead (c : Client) (slot : Fin 16) : Laws.Identity.Statement (.secMeasRead c slot) := Instr.wf_cid _

theorem Laws.Identity.loadNow (c : Client) : Laws.Identity.Statement (.loadNow c) := Instr.wf_cid _

theorem Laws.Identity.loadAtPps (c : Client) : Laws.Identity.Statement (.loadAtPps c) := Instr.wf_cid _

theorem Laws.Identity.saveFreq (c : Client) : Laws.Identity.Statement (.saveFreq c) := Instr.wf_cid _

theorem Laws.Identity.ppsInEdge (stamp : Nat) : Laws.Identity.Statement (.ppsInEdge stamp) := Instr.wf_cid _

theorem Laws.Identity.tref10mLoss : Laws.Identity.Statement (.tref10mLoss) := Instr.wf_cid _

theorem Laws.Identity.ptpMessageReceive (cage : CageNo) (frame : PtpFrame) : Laws.Identity.Statement (.ptpMessageReceive cage frame) := Instr.wf_cid _

theorem Laws.Identity.delayReqSend (stamp : Nat) : Laws.Identity.Statement (.delayReqSend stamp) := Instr.wf_cid _

theorem Laws.Identity.ptpSyncTimeout : Laws.Identity.Statement (.ptpSyncTimeout) := Instr.wf_cid _

theorem Laws.Identity.lockAchieved : Laws.Identity.Statement (.lockAchieved) := Instr.wf_cid _

theorem Laws.Identity.ovenReady : Laws.Identity.Statement (.ovenReady) := Instr.wf_cid _

theorem Laws.Identity.learntFrequencySave : Laws.Identity.Statement (.learntFrequencySave) := Instr.wf_cid _

theorem Laws.Identity.holdoverLimitExceeded : Laws.Identity.Statement (.holdoverLimitExceeded) := Instr.wf_cid _

theorem Laws.Identity.ppsOutEdge : Laws.Identity.Statement (.ppsOutEdge) := Instr.wf_cid _

theorem Laws.Identity.runSet (c : Client) : Laws.Identity.Statement (.runSet c) := Instr.wf_cid _

theorem Laws.Identity.runClear (c : Client) : Laws.Identity.Statement (.runClear c) := Instr.wf_cid _

theorem Laws.Identity.msrLeadWrite (c : Client) (v : BitVec 32) : Laws.Identity.Statement (.msrLeadWrite c v) := Instr.wf_cid _

theorem Laws.Identity.periodChangeSubmit (c : Client) (at_ : BitVec 64) : Laws.Identity.Statement (.periodChangeSubmit c at_) := Instr.wf_cid _

theorem Laws.Identity.measureAnnounce : Laws.Identity.Statement (.measureAnnounce) := Instr.wf_cid _

theorem Laws.Identity.measureStrike : Laws.Identity.Statement .measureStrike := Instr.wf_cid _

theorem Laws.Identity.idleTick : Laws.Identity.Statement (.idleTick) := Instr.wf_cid _

theorem Laws.Identity.arm (c : Client) (slot : Fin 256) : Laws.Identity.Statement (.arm c slot) := Instr.wf_cid _

theorem Laws.Identity.cancel (c : Client) (slot : Fin 256) : Laws.Identity.Statement (.cancel c slot) := Instr.wf_cid _

theorem Laws.Identity.heldArmStrike (slot : Fin 256) : Laws.Identity.Statement (.heldArmStrike slot) := Instr.wf_cid _

theorem Laws.Identity.timeMessageSend (link : LinkNo) : Laws.Identity.Statement (.timeMessageSend link) := Instr.wf_cid _

theorem Laws.Identity.timeMessageReceive (link : LinkNo) (msg : TimeMessage) (arrival : Nat) (retried : Bool) : Laws.Identity.Statement (.timeMessageReceive link msg arrival retried) := Instr.wf_cid _

theorem Laws.Identity.callerKeyAdvertise (link : LinkNo) (key : BitVec 32) (hops : Nat) : Laws.Identity.Statement (.callerKeyAdvertise link key hops) := Instr.wf_cid _

theorem Laws.Identity.upstreamLoss : Laws.Identity.Statement (.upstreamLoss) := Instr.wf_cid _

theorem Laws.Identity.linkCalibration (link : LinkNo) (samples : List CalSample) : Laws.Identity.Statement (.linkCalibration link samples) := Instr.wf_cid _

theorem Laws.Identity.calMessageReceive (link : LinkNo) (leg : CalLeg) (arrival : Nat) (retried : Bool) : Laws.Identity.Statement (.calMessageReceive link leg arrival retried) := Instr.wf_cid _

theorem Laws.Identity.stepAdmit (run : Nat) (rows : List RowNo) : Laws.Identity.Statement (.stepAdmit run rows) := Instr.wf_cid _

theorem Laws.Identity.heldAdmission (run : Nat) (rows : List RowNo) : Laws.Identity.Statement (.heldAdmission run rows) := Instr.wf_cid _

theorem Laws.Identity.stepStrike (run : Nat) (ecc : List EccFault) (faults : List LineFault) (ports : List PortCycle) (orders : List (List Nat)) : Laws.Identity.Statement (.stepStrike run ecc faults ports orders) := Instr.wf_cid _

theorem Laws.Identity.stageOverrunStrike (run : Nat) (late : Nat) (ecc : List EccFault) (faults : List LineFault) (ports : List PortCycle) (orders : List (List Nat)) : Laws.Identity.Statement (.stageOverrunStrike run late ecc faults ports orders) := Instr.wf_cid _

theorem Laws.Identity.stepBoundary (run : Nat) (suspends : List (QdiNo × GroupDie × Bool)) : Laws.Identity.Statement (.stepBoundary run suspends) := Instr.wf_cid _

theorem Laws.Identity.waveLanded (run : Nat) (faults : List ReadFault) (late : Bool) : Laws.Identity.Statement (.waveLanded run faults late) := Instr.wf_cid _

theorem Laws.Identity.stepWatchdogExpiry (run : Nat) : Laws.Identity.Statement (.stepWatchdogExpiry run) := Instr.wf_cid _

theorem Laws.Identity.stepReplay (run : Nat) : Laws.Identity.Statement (.stepReplay run) := Instr.wf_cid _

theorem Laws.Identity.beRunFormation (handle : Fin 1024) : Laws.Identity.Statement (.beRunFormation handle) := Instr.wf_cid _

theorem Laws.Identity.contextSpill (x : Fin 262144) (redo : Nat) (ecc : List EccFault) : Laws.Identity.Statement (.contextSpill x redo ecc) := Instr.wf_cid _

theorem Laws.Identity.rowGate (r : RowNo) : Laws.Identity.Statement (.rowGate r) := Instr.wf_cid _

theorem Laws.Identity.rowOff (r : RowNo) : Laws.Identity.Statement (.rowOff r) := Instr.wf_cid _

theorem Laws.Identity.rowWakeComplete (r : RowNo) : Laws.Identity.Statement (.rowWakeComplete r) := Instr.wf_cid _

theorem Laws.Identity.leafClearComplete (r : RowNo) : Laws.Identity.Statement (.leafClearComplete r) := Instr.wf_cid _

theorem Laws.Identity.schResCommit (c : Client) : Laws.Identity.Statement (.schResCommit c) := Instr.wf_cid _

theorem Laws.Identity.schResDiscard (c : Client) : Laws.Identity.Statement (.schResDiscard c) := Instr.wf_cid _

theorem Laws.Identity.qntGcmdLoad (c : Client) (slot : Fin 256) : Laws.Identity.Statement (.qntGcmdLoad c slot) := Instr.wf_cid _

theorem Laws.Identity.qntGcmdClear (c : Client) (slot : Fin 256) : Laws.Identity.Statement (.qntGcmdClear c slot) := Instr.wf_cid _

theorem Laws.Identity.qntMonLatch (c : Client) (m : Fin 64) : Laws.Identity.Statement (.qntMonLatch c m) := Instr.wf_cid _

theorem Laws.Identity.qntMonClear (c : Client) (m : Fin 64) : Laws.Identity.Statement (.qntMonClear c m) := Instr.wf_cid _

theorem Laws.Identity.thresh (col : ColNo) (redo : Nat) : Laws.Identity.Statement (.thresh col redo) := Instr.wf_cid _

theorem Laws.Identity.topk (col : ColNo) (redo : Nat) : Laws.Identity.Statement (.topk col redo) := Instr.wf_cid _

theorem Laws.Identity.sort (col : ColNo) (redo : Nat) : Laws.Identity.Statement (.sort col redo) := Instr.wf_cid _

theorem Laws.Identity.merge (col : ColNo) (redo : Nat) : Laws.Identity.Statement (.merge col redo) := Instr.wf_cid _

theorem Laws.Identity.collatorSegmentBoundary (col : ColNo) : Laws.Identity.Statement (.collatorSegmentBoundary col) := Instr.wf_cid _

theorem Laws.Identity.stream (run : Nat) (layer : Nat) (redo : Nat) (ecc : List EccFault) : Laws.Identity.Statement (.stream run layer redo ecc) := Instr.wf_cid _

theorem Laws.Identity.layerLanded (run : Nat) (layer : Nat) : Laws.Identity.Statement (.layerLanded run layer) := Instr.wf_cid _

theorem Laws.Identity.fill (x : Fin 262144) (redo : Nat) (ecc : List EccFault) : Laws.Identity.Statement (.fill x redo ecc) := Instr.wf_cid _

theorem Laws.Identity.binderChunkBoundary : Laws.Identity.Statement (.binderChunkBoundary) := Instr.wf_cid _

theorem Laws.Identity.zeroFillComplete (region : Nat) : Laws.Identity.Statement (.zeroFillComplete region) := Instr.wf_cid _

theorem Laws.Identity.quotaWrite (c : Client) (n : Client) (tier : Fin 3) (max : Bool) (v : BitVec 64) : Laws.Identity.Statement (.quotaWrite c n tier max v) := Instr.wf_cid _

theorem Laws.Identity.tqCxlmWrite (c : Client) (n : Client) (v : BitVec 32) : Laws.Identity.Statement (.tqCxlmWrite c n v) := Instr.wf_cid _

theorem Laws.Identity.figLoad (cid : Cid) (e : Sqe) (fig : Figure) (data : FigData) : Laws.Identity.Statement (.figLoad cid e fig data) := Instr.wf_cid _

theorem Laws.Identity.figUnload (cid : Cid) (e : Sqe) : Laws.Identity.Statement (.figUnload cid e) := Instr.wf_cid _

theorem Laws.Identity.ctxCreate (cid : Cid) (e : Sqe) : Laws.Identity.Statement (.ctxCreate cid e) := Instr.wf_cid _

theorem Laws.Identity.ctxReset (cid : Cid) (e : Sqe) : Laws.Identity.Statement (.ctxReset cid e) := Instr.wf_cid _

theorem Laws.Identity.ctxRelease (cid : Cid) (e : Sqe) : Laws.Identity.Statement (.ctxRelease cid e) := Instr.wf_cid _

theorem Laws.Identity.run (cid : Cid) (e : Sqe) (input : List (BitVec 8)) (dataOk : Bool) : Laws.Identity.Statement (.run cid e input dataOk) := Instr.wf_cid _

theorem Laws.Identity.regionAlloc (cid : Cid) (e : Sqe) : Laws.Identity.Statement (.regionAlloc cid e) := Instr.wf_cid _

theorem Laws.Identity.regionFree (cid : Cid) (e : Sqe) : Laws.Identity.Statement (.regionFree cid e) := Instr.wf_cid _

theorem Laws.Identity.move (cid : Cid) (e : Sqe) (d : MoveDesc) (reads : List ReadFault) (ecc : List EccFault) (redo : Nat) : Laws.Identity.Statement (.move cid e d reads ecc redo) := Instr.wf_cid _

theorem Laws.Identity.copy (cid : Cid) (e : Sqe) (d : MoveDesc) (ecc : List EccFault) (redo : Nat) : Laws.Identity.Statement (.copy cid e d ecc redo) := Instr.wf_cid _

theorem Laws.Identity.idxCreate (cid : Cid) (e : Sqe) : Laws.Identity.Statement (.idxCreate cid e) := Instr.wf_cid _

theorem Laws.Identity.idxInsert (cid : Cid) (e : Sqe) (items : List IdxItem) (dies : List GroupDie) : Laws.Identity.Statement (.idxInsert cid e items dies) := Instr.wf_cid _

theorem Laws.Identity.idxDelete (cid : Cid) (e : Sqe) (items : List IdxItem) : Laws.Identity.Statement (.idxDelete cid e items) := Instr.wf_cid _

theorem Laws.Identity.idxCompact (cid : Cid) (e : Sqe) (dies : List GroupDie) : Laws.Identity.Statement (.idxCompact cid e dies) := Instr.wf_cid _

theorem Laws.Identity.idxMerge (cid : Cid) (e : Sqe) (dies : List GroupDie) : Laws.Identity.Statement (.idxMerge cid e dies) := Instr.wf_cid _

theorem Laws.Identity.idxDrop (cid : Cid) (e : Sqe) : Laws.Identity.Statement (.idxDrop cid e) := Instr.wf_cid _

theorem Laws.Identity.idxEdges (cid : Cid) (e : Sqe) (targets : List (BitVec 32)) : Laws.Identity.Statement (.idxEdges cid e targets) := Instr.wf_cid _

theorem Laws.Identity.idxDestroy (cid : Cid) (e : Sqe) : Laws.Identity.Statement (.idxDestroy cid e) := Instr.wf_cid _

theorem Laws.Identity.nsCreate (cid : Cid) (e : Sqe) : Laws.Identity.Statement (.nsCreate cid e) := Instr.wf_cid _

theorem Laws.Identity.nsDelete (cid : Cid) (e : Sqe) : Laws.Identity.Statement (.nsDelete cid e) := Instr.wf_cid _

theorem Laws.Identity.ctxCmdRead (c : Client) : Laws.Identity.Statement (.ctxCmdRead c) := Instr.wf_cid _

theorem Laws.Identity.ctxCmdReset (c : Client) : Laws.Identity.Statement (.ctxCmdReset c) := Instr.wf_cid _

theorem Laws.Identity.ctxCmdRelease (c : Client) : Laws.Identity.Statement (.ctxCmdRelease c) := Instr.wf_cid _

theorem Laws.Identity.detCcmdRead (c : Client) : Laws.Identity.Statement (.detCcmdRead c) := Instr.wf_cid _

theorem Laws.Identity.djCtlWrite (c : Client) (n : Client) (v : BitVec 32) : Laws.Identity.Statement (.djCtlWrite c n v) := Instr.wf_cid _

theorem Laws.Identity.journalRecordWrite (n : Client) (count : Nat) : Laws.Identity.Statement (.journalRecordWrite n count) := Instr.wf_cid _

theorem Laws.Identity.journalBufferDrained (n : Client) : Laws.Identity.Statement (.journalBufferDrained n) := Instr.wf_cid _

theorem Laws.Identity.drStart (c : Client) (n : Client) : Laws.Identity.Statement (.drStart c n) := Instr.wf_cid _

theorem Laws.Identity.drAbort (c : Client) (n : Client) : Laws.Identity.Statement (.drAbort c n) := Instr.wf_cid _

theorem Laws.Identity.write (cid : Cid) (nsid : Nat) (slba : Nat) (data : List (BitVec 8)) (poisoned : Bool) : Laws.Identity.Statement (.write cid nsid slba data poisoned) := Instr.wf_cid _

theorem Laws.Identity.read (cid : Cid) (nsid : Nat) (slba : Nat) (nlb : Nat) (faults : List ReadFault) : Laws.Identity.Statement (.read cid nsid slba nlb faults) := Instr.wf_cid _

theorem Laws.Identity.writeZeroes (cid : Cid) (nsid : Nat) (slba : Nat) (nlb : Nat) : Laws.Identity.Statement (.writeZeroes cid nsid slba nlb) := Instr.wf_cid _

theorem Laws.Identity.datasetManagement (cid : Cid) (nsid : Nat) (deallocate : Bool) (ranges : List (Nat × Nat)) : Laws.Identity.Statement (.datasetManagement cid nsid deallocate ranges) := Instr.wf_cid _

theorem Laws.Identity.flush (cid : Cid) (nsid : Nat) : Laws.Identity.Statement (.flush cid nsid) := Instr.wf_cid _

theorem Laws.Identity.programComplete (group : Nat) (dies : List CopyTo) : Laws.Identity.Statement (.programComplete group dies) := Instr.wf_cid _

theorem Laws.Identity.programFailure (n : QdiNo) (stream : Fin 4) (die : GroupDie) (moves : List GroupDie) : Laws.Identity.Statement (.programFailure n stream die moves) := Instr.wf_cid _

theorem Laws.Identity.eraseFailure (n : QdiNo) (quire : Nat) (die : GroupDie) : Laws.Identity.Statement (.eraseFailure n quire die) := Instr.wf_cid _

theorem Laws.Identity.quireErase (n : QdiNo) (quire : Nat) (stream : Fin 4) (done : EraseEnd) : Laws.Identity.Statement (.quireErase n quire stream done) := Instr.wf_cid _

theorem Laws.Identity.quireVerify (n : QdiNo) (quire : Nat) (weak : List UnitMove) : Laws.Identity.Statement (.quireVerify n quire weak) := Instr.wf_cid _

theorem Laws.Identity.fold (n : QdiNo) (moves : List UnitMove) : Laws.Identity.Statement (.fold n moves) := Instr.wf_cid _

theorem Laws.Identity.garbageCollection (n : QdiNo) (moves : List CopyTo) : Laws.Identity.Statement (.garbageCollection n moves) := Instr.wf_cid _

theorem Laws.Identity.wearLevellingMove (n : QdiNo) (moves : List CopyTo) : Laws.Identity.Statement (.wearLevellingMove n moves) := Instr.wf_cid _

theorem Laws.Identity.mapCheckpoint (n : QdiNo) : Laws.Identity.Statement (.mapCheckpoint n) := Instr.wf_cid _

theorem Laws.Identity.dieFailure (n : QdiNo) (die : GroupDie) (moves : List GroupDie) : Laws.Identity.Statement (.dieFailure n die moves) := Instr.wf_cid _

theorem Laws.Identity.spareDieMigration (n : QdiNo) (die : GroupDie) (moves : List CopyTo) : Laws.Identity.Statement (.spareDieMigration n die moves) := Instr.wf_cid _

theorem Laws.Identity.suspendedOperationResume (n : QdiNo) (die : GroupDie) : Laws.Identity.Statement (.suspendedOperationResume n die) := Instr.wf_cid _

theorem Laws.Identity.retryRateWarning (n : QdiNo) : Laws.Identity.Statement (.retryRateWarning n) := Instr.wf_cid _

theorem Laws.Identity.powerLossFlush (e : FlushEnd) : Laws.Identity.Statement (.powerLossFlush e) := Instr.wf_cid _

theorem Laws.Identity.channelJobStart (ch : ChanNo) : Laws.Identity.Statement (.channelJobStart ch) := Instr.wf_cid _

theorem Laws.Identity.filterJobPage (ch : ChanNo) (slot : Fin 4) (fault : Option ReadFault) (redo : Nat) : Laws.Identity.Statement (.filterJobPage ch slot fault redo) := Instr.wf_cid _

theorem Laws.Identity.scanJobPage (ch : ChanNo) (slot : Fin 4) (fault : Option ReadFault) (waitCycles : Nat) (redo : Nat) : Laws.Identity.Statement (.scanJobPage ch slot fault waitCycles redo) := Instr.wf_cid _

theorem Laws.Identity.compaction (index : Fin 256) (list : Fin 1048576) (dies : List GroupDie) : Laws.Identity.Statement (.compaction index list dies) := Instr.wf_cid _

theorem Laws.Identity.oldFolioRelease (index : Fin 256) : Laws.Identity.Statement (.oldFolioRelease index) := Instr.wf_cid _

theorem Laws.Identity.readIndex (c : Client) : Laws.Identity.Statement (.readIndex c) := Instr.wf_cid _

theorem Laws.Identity.readList (c : Client) : Laws.Identity.Statement (.readList c) := Instr.wf_cid _

theorem Laws.Identity.train (c : Client) (link : LinkNo) (v : Bool) : Laws.Identity.Statement (.train c link v) := Instr.wf_cid _

theorem Laws.Identity.trainingComplete (link : LinkNo) (peer : PeerPlan) : Laws.Identity.Statement (.trainingComplete link peer) := Instr.wf_cid _

theorem Laws.Identity.auth (link : LinkNo) (key : List (BitVec 8)) (ok : Bool) : Laws.Identity.Statement (.auth link key ok) := Instr.wf_cid _

theorem Laws.Identity.lnkAdmit (c : Client) (link : LinkNo) : Laws.Identity.Statement (.lnkAdmit c link) := Instr.wf_cid _

theorem Laws.Identity.refuse (c : Client) (link : LinkNo) : Laws.Identity.Statement (.refuse c link) := Instr.wf_cid _

theorem Laws.Identity.forget (c : Client) (link : LinkNo) : Laws.Identity.Statement (.forget c link) := Instr.wf_cid _

theorem Laws.Identity.flitReceive (link : LinkNo) (f : Flit) (arrival : Nat) : Laws.Identity.Statement (.flitReceive link f arrival) := Instr.wf_cid _

theorem Laws.Identity.nakReplay (link : LinkNo) (fromNak : Bool) : Laws.Identity.Statement (.nakReplay link fromNak) := Instr.wf_cid _

theorem Laws.Identity.retrain (link : LinkNo) (cause : Fin 3) (fails : Nat) (authOk : Bool) (key : List (BitVec 8)) : Laws.Identity.Statement (.retrain link cause fails authOk key) := Instr.wf_cid _

theorem Laws.Identity.linkRetryWarning (link : LinkNo) : Laws.Identity.Statement (.linkRetryWarning link) := Instr.wf_cid _

theorem Laws.Identity.switch (link : LinkNo) : Laws.Identity.Statement (.switch link) := Instr.wf_cid _

theorem Laws.Identity.treeReady (tree : Fin 10) : Laws.Identity.Statement (.treeReady tree) := Instr.wf_cid _

theorem Laws.Identity.treeGo (tree : Fin 10) (gen : Nat) : Laws.Identity.Statement (.treeGo tree gen) := Instr.wf_cid _

theorem Laws.Identity.treeDown (tree : Fin 10) (gen : Nat) (own : Option LinkNo) : Laws.Identity.Statement (.treeDown tree gen own) := Instr.wf_cid _

theorem Laws.Identity.redFlitReduce (seq : Nat) (fidx : Nat) : Laws.Identity.Statement (.redFlitReduce seq fidx) := Instr.wf_cid _

theorem Laws.Identity.bucketLanding (seq : Nat) : Laws.Identity.Statement (.bucketLanding seq) := Instr.wf_cid _

theorem Laws.Identity.stop (code : Nat) (cause : Nat) (rank : Nat) (received : Bool) : Laws.Identity.Statement (.stop code cause rank received) := Instr.wf_cid _

theorem Laws.Identity.bucketTimeout (seq : Nat) : Laws.Identity.Statement (.bucketTimeout seq) := Instr.wf_cid _

theorem Laws.Identity.redEnSet (c : Client) : Laws.Identity.Statement (.redEnSet c) := Instr.wf_cid _

theorem Laws.Identity.redEnClear (c : Client) : Laws.Identity.Statement (.redEnClear c) := Instr.wf_cid _

theorem Laws.Identity.peerMessageSend (link : LinkNo) : Laws.Identity.Statement (.peerMessageSend link) := Instr.wf_cid _

theorem Laws.Identity.peerMessageReceive (link : LinkNo) : Laws.Identity.Statement (.peerMessageReceive link) := Instr.wf_cid _

theorem Laws.Identity.setpointFrameDepart (endpoint : Nat) (start : Nat) (also : Option Nat) (bad : Bool) : Laws.Identity.Statement (.setpointFrameDepart endpoint start also bad) := Instr.wf_cid _

theorem Laws.Identity.sptCmdRead (c : Client) : Laws.Identity.Statement (.sptCmdRead c) := Instr.wf_cid _

theorem Laws.Identity.sptCmdWrite (c : Client) : Laws.Identity.Statement (.sptCmdWrite c) := Instr.wf_cid _

theorem Laws.Identity.sptCtlWrite (c : Client) (v : BitVec 32) : Laws.Identity.Statement (.sptCtlWrite c v) := Instr.wf_cid _

theorem Laws.Identity.cageLinkChange (cage : CageNo) (modAbs : Bool) (txFault : Bool) (los : Bool) (lock : Bool) : Laws.Identity.Statement (.cageLinkChange cage modAbs txFault los lock) := Instr.wf_cid _

theorem Laws.Identity.submissionDoorbellWrite (c : Client) (q : Nat) (tail : Nat) (ids : List (Nat × Bool)) (ns : Nat) : Laws.Identity.Statement (.submissionDoorbellWrite c q tail ids ns) := Instr.wf_cid _

theorem Laws.Identity.completionDoorbellWrite (c : Client) (q : Nat) (head : Nat) : Laws.Identity.Statement (.completionDoorbellWrite c q head) := Instr.wf_cid _

theorem Laws.Identity.identify (cid : Cid) (cns : Nat) (nsid : Nat) : Laws.Identity.Statement (.identify cid cns nsid) := Instr.wf_cid _

theorem Laws.Identity.getLogPage (cid : Cid) (lid : Nat) (off : Nat) (len : Nat) (rae : Bool) : Laws.Identity.Statement (.getLogPage cid lid off len rae) := Instr.wf_cid _

theorem Laws.Identity.setFeatures (cid : Cid) (fid : Nat) (v : BitVec 32) : Laws.Identity.Statement (.setFeatures cid fid v) := Instr.wf_cid _

theorem Laws.Identity.getFeatures (cid : Cid) (fid : Nat) (v : BitVec 32) : Laws.Identity.Statement (.getFeatures cid fid v) := Instr.wf_cid _

theorem Laws.Identity.createIoSubmissionQueue (cid : Cid) (q : Nat) (size : Nat) (prio : Fin 4) (cq : Nat) (contiguous : Bool) : Laws.Identity.Statement (.createIoSubmissionQueue cid q size prio cq contiguous) := Instr.wf_cid _

theorem Laws.Identity.deleteIoSubmissionQueue (cid : Cid) (q : Nat) : Laws.Identity.Statement (.deleteIoSubmissionQueue cid q) := Instr.wf_cid _

theorem Laws.Identity.createIoCompletionQueue (cid : Cid) (q : Nat) (size : Nat) (vector : Nat) (ien : Bool) (contiguous : Bool) : Laws.Identity.Statement (.createIoCompletionQueue cid q size vector ien contiguous) := Instr.wf_cid _

theorem Laws.Identity.deleteIoCompletionQueue (cid : Cid) (q : Nat) : Laws.Identity.Statement (.deleteIoCompletionQueue cid q) := Instr.wf_cid _

theorem Laws.Identity.abort (cid : Cid) (q : Nat) (id : Nat) : Laws.Identity.Statement (.abort cid q id) := Instr.wf_cid _

theorem Laws.Identity.asynchronousEventRequest (cid : Cid) : Laws.Identity.Statement (.asynchronousEventRequest cid) := Instr.wf_cid _

theorem Laws.Identity.firmwareImageDownload (cid : Cid) (off : Nat) (data : List (BitVec 8)) : Laws.Identity.Statement (.firmwareImageDownload cid off data) := Instr.wf_cid _

theorem Laws.Identity.firmwareCommitReplace (cid : Cid) (slot : Nat) (sigOk : Bool) (readBackOk : Bool) : Laws.Identity.Statement (.firmwareCommitReplace cid slot sigOk readBackOk) := Instr.wf_cid _

theorem Laws.Identity.firmwareCommitSelect (cid : Cid) (slot : Nat) (sigOk : Bool) : Laws.Identity.Statement (.firmwareCommitSelect cid slot sigOk) := Instr.wf_cid _

theorem Laws.Identity.firmwareCommitActivate (cid : Cid) (slot : Nat) (sigOk : Bool) (readBackOk : Bool) : Laws.Identity.Statement (.firmwareCommitActivate cid slot sigOk readBackOk) := Instr.wf_cid _

theorem Laws.Identity.activationDrainEnd (drained : Bool) (frontSig : Bool) (backSig : Bool) : Laws.Identity.Statement (.activationDrainEnd drained frontSig backSig) := Instr.wf_cid _

theorem Laws.Identity.trialConfirmation : Laws.Identity.Statement (.trialConfirmation) := Instr.wf_cid _

theorem Laws.Identity.activationConfirmTimeout : Laws.Identity.Statement (.activationConfirmTimeout) := Instr.wf_cid _

theorem Laws.Identity.romRecoveryImage (h : MsgHead) (image : List (BitVec 8)) (sigOk : Bool) (readBackOk : Bool) : Laws.Identity.Statement (.romRecoveryImage h image sigOk readBackOk) := Instr.wf_cid _

theorem Laws.Identity.pmbGo (c : Client) (v : BitVec 32) (d : DptrData) (dies : List GroupDie) : Laws.Identity.Statement (.pmbGo c v d dies) := Instr.wf_cid _

theorem Laws.Identity.logicalDeviceReset (n : Client) : Laws.Identity.Statement (.logicalDeviceReset n) := Instr.wf_cid _

theorem Laws.Identity.hostLinkTraining (width : Nat) (rate : Nat) (lowLatency : Bool) (again : Bool) : Laws.Identity.Statement (.hostLinkTraining width rate lowLatency again) := Instr.wf_cid _

theorem Laws.Identity.cxlMemRead (c : Client) (addr : Nat) (len : Nat) (ecc : List EccFault) : Laws.Identity.Statement (.cxlMemRead c addr len ecc) := Instr.wf_cid _

theorem Laws.Identity.cxlMemWrite (c : Client) (addr : Nat) (data : List (BitVec 8)) (poison : Bool) (dev : DevNo) (block : Nat) : Laws.Identity.Statement (.cxlMemWrite c addr data poison dev block) := Instr.wf_cid _

theorem Laws.Identity.getLdInfo : Laws.Identity.Statement (.getLdInfo) := Instr.wf_cid _

theorem Laws.Identity.getLdAllocations (first : Nat) (count : Nat) : Laws.Identity.Statement (.getLdAllocations first count) := Instr.wf_cid _

theorem Laws.Identity.setLdAllocations (first : Nat) (bound : List Bool) : Laws.Identity.Statement (.setLdAllocations first bound) := Instr.wf_cid _

theorem Laws.Identity.doeDiscovery (c : Client) (index : Nat) : Laws.Identity.Statement (.doeDiscovery c index) := Instr.wf_cid _

theorem Laws.Identity.cxlTableAccess (c : Client) (entry : Nat) : Laws.Identity.Statement (.cxlTableAccess c entry) := Instr.wf_cid _

theorem Laws.Identity.attentionPattern : Laws.Identity.Statement (.attentionPattern) := Instr.wf_cid _

theorem Laws.Identity.attentionReemit : Laws.Identity.Statement (.attentionReemit) := Instr.wf_cid _

theorem Laws.Identity.getVersion (path : AttPath) (h : MsgHead) (p : List (BitVec 8)) (busy : Bool) : Laws.Identity.Statement (.getVersion path h p busy) := Instr.wf_cid _

theorem Laws.Identity.getDigest (path : AttPath) (h : MsgHead) (p : List (BitVec 8)) (busy : Bool) : Laws.Identity.Statement (.getDigest path h p busy) := Instr.wf_cid _

theorem Laws.Identity.getCert (path : AttPath) (h : MsgHead) (p : List (BitVec 8)) (busy : Bool) : Laws.Identity.Statement (.getCert path h p busy) := Instr.wf_cid _

theorem Laws.Identity.getMeas (path : AttPath) (h : MsgHead) (p : List (BitVec 8)) (busy : Bool) : Laws.Identity.Statement (.getMeas path h p busy) := Instr.wf_cid _

theorem Laws.Identity.quote (path : AttPath) (h : MsgHead) (p : List (BitVec 8)) (busy : Bool) : Laws.Identity.Statement (.quote path h p busy) := Instr.wf_cid _

theorem Laws.Identity.getLog (path : AttPath) (h : MsgHead) (p : List (BitVec 8)) (busy : Bool) : Laws.Identity.Statement (.getLog path h p busy) := Instr.wf_cid _

theorem Laws.Identity.diagNonce (path : AttPath) (h : MsgHead) (p : List (BitVec 8)) (busy : Bool) : Laws.Identity.Statement (.diagNonce path h p busy) := Instr.wf_cid _

theorem Laws.Identity.diagUnlock (path : AttPath) (h : MsgHead) (p : List (BitVec 8)) (busy : Bool) (sigOk : Bool) : Laws.Identity.Statement (.diagUnlock path h p busy sigOk) := Instr.wf_cid _

theorem Laws.Identity.diagUnlockExpiry : Laws.Identity.Statement (.diagUnlockExpiry) := Instr.wf_cid _

theorem Laws.Identity.lock (c : Client) : Laws.Identity.Statement (.lock c) := Instr.wf_cid _

theorem Laws.Identity.holdSet (c : Client) : Laws.Identity.Statement (.holdSet c) := Instr.wf_cid _

theorem Laws.Identity.holdClear (c : Client) : Laws.Identity.Statement (.holdClear c) := Instr.wf_cid _

theorem Laws.Identity.holdMaxExpiry : Laws.Identity.Statement (.holdMaxExpiry) := Instr.wf_cid _

theorem Laws.Identity.mergeBufferFlush (d : DevNo) (block : Nat) (faults : List (Nat × WordFault)) : Laws.Identity.Statement (.mergeBufferFlush d block faults) := Instr.wf_cid _

theorem Laws.Identity.scrubRead (fault : WordFault) : Laws.Identity.Statement (.scrubRead fault) := Instr.wf_cid _

theorem Laws.Identity.triplicateWalk (minority : List Nat) (lost : List Nat) : Laws.Identity.Statement (.triplicateWalk minority lost) := Instr.wf_cid _

theorem Laws.Identity.retireFrame (c : Client) (d : DevNo) (region : Option Nat) (reserve : Bool) : Laws.Identity.Statement (.retireFrame c d region reserve) := Instr.wf_cid _

theorem Laws.Identity.retireBank (c : Client) (d : DevNo) : Laws.Identity.Statement (.retireBank c d) := Instr.wf_cid _

theorem Laws.Identity.powerOn (aux : Bool) : Laws.Identity.Statement (.powerOn aux) := Instr.wf_cid _

theorem Laws.Identity.auxPowerRise : Laws.Identity.Statement (.auxPowerRise) := Instr.wf_cid _

theorem Laws.Identity.perstAssert (ns : Nat) (resets : Bool) : Laws.Identity.Statement (.perstAssert ns resets) := Instr.wf_cid _

theorem Laws.Identity.perstDeassert : Laws.Identity.Statement (.perstDeassert) := Instr.wf_cid _

theorem Laws.Identity.hotReset : Laws.Identity.Statement (.hotReset) := Instr.wf_cid _

theorem Laws.Identity.moduleReset (c : Client) (v : BitVec 32) : Laws.Identity.Statement (.moduleReset c v) := Instr.wf_cid _

theorem Laws.Identity.rstWdKick (core : Fin 4) : Laws.Identity.Statement (.rstWdKick core) := Instr.wf_cid _

theorem Laws.Identity.managementWatchdogExpiry : Laws.Identity.Statement (.managementWatchdogExpiry) := Instr.wf_cid _

theorem Laws.Identity.watchdogRecordClear : Laws.Identity.Statement (.watchdogRecordClear) := Instr.wf_cid _

theorem Laws.Identity.bringupRom (ms : Nat) (f : RomFacts) : Laws.Identity.Statement (.bringupRom ms f) := Instr.wf_cid _

theorem Laws.Identity.bringupTiny (ms : Nat) (f : TinyFails) : Laws.Identity.Statement (.bringupTiny ms f) := Instr.wf_cid _

theorem Laws.Identity.bringupFill (ms : Nat) (dead : List DevNo) : Laws.Identity.Statement (.bringupFill ms dead) := Instr.wf_cid _

theorem Laws.Identity.bringupTest (ms : Nat) (fails : List (Page × Nat)) : Laws.Identity.Statement (.bringupTest ms fails) := Instr.wf_cid _

theorem Laws.Identity.bringupGrow (ms : Nat) (f : GrowFacts) : Laws.Identity.Statement (.bringupGrow ms f) := Instr.wf_cid _

theorem Laws.Identity.bringupTimeout : Laws.Identity.Statement (.bringupTimeout) := Instr.wf_cid _

theorem Laws.Identity.request (c : Client) : Laws.Identity.Statement (.request c) := Instr.wf_cid _

theorem Laws.Identity.withdraw (c : Client) : Laws.Identity.Statement (.withdraw c) := Instr.wf_cid _

theorem Laws.Identity.regRead (h : MsgHead) (p : List (BitVec 8)) (busy : Bool) : Laws.Identity.Statement (.regRead h p busy) := Instr.wf_cid _

theorem Laws.Identity.regWrite (h : MsgHead) (p : List (BitVec 8)) (busy : Bool) : Laws.Identity.Statement (.regWrite h p busy) := Instr.wf_cid _

theorem Laws.Identity.sidebandReset (h : MsgHead) (p : List (BitVec 8)) (busy : Bool) : Laws.Identity.Statement (.sidebandReset h p busy) := Instr.wf_cid _

theorem Laws.Identity.sensors (h : MsgHead) (p : List (BitVec 8)) (busy : Bool) : Laws.Identity.Statement (.sensors h p busy) := Instr.wf_cid _

theorem Laws.Identity.powerMonitorSample (mv : Nat) : Laws.Identity.Statement (.powerMonitorSample mv) := Instr.wf_cid _

theorem Laws.Identity.powerLossDeclared : Laws.Identity.Statement (.powerLossDeclared) := Instr.wf_cid _

theorem Laws.Identity.sensorReading (temps : List Int) (w1 : Nat) (w100 : Nat) : Laws.Identity.Statement (.sensorReading temps w1 w100) := Instr.wf_cid _

theorem Laws.Identity.tmbCtlWrite (c : Client) (v : BitVec 32) : Laws.Identity.Statement (.tmbCtlWrite c v) := Instr.wf_cid _

theorem Laws.Identity.ppsInEdgeMissing : Laws.Identity.Statement (.ppsInEdgeMissing) := Instr.wf_cid _

theorem Laws.Identity.tref10mValid (ppm : Int) : Laws.Identity.Statement (.tref10mValid ppm) := Instr.wf_cid _

theorem Laws.Identity.p3v3AuxLoss : Laws.Identity.Statement (.p3v3AuxLoss) := Instr.wf_cid _

theorem Laws.Identity.hostLinkLoss : Laws.Identity.Statement (.hostLinkLoss) := Instr.wf_cid _

theorem Laws.Identity.ccEnWrite (c : Client) (v : Bool) (asqs : Nat) (acqs : Nat) : Laws.Identity.Statement (.ccEnWrite c v asqs acqs) := Instr.wf_cid _

theorem Laws.Identity.hdmDecoderCommit (n : Client) (decoder : Option Hdm) : Laws.Identity.Statement (.hdmDecoderCommit n decoder) := Instr.wf_cid _

theorem Laws.Identity.fencingInService (p : Page) : Laws.Identity.Statement (.fencingInService p) := Instr.wf_cid _

end Sys2Proof
end

