-- ==== Sys2Proof/Tests/Slice0.lean ====
section
/-! SUPPORT. Tests: terms that well-formedness refuses, small runs of one command against values worked out from the spec's rules, and
states that meet the hypotheses of the statements. -/

namespace Sys2Proof.Tests

set_option Elab.async false

open Machine Safety

/-- A state in READY, RB# released, with the registers of a list. -/
def rig (l : List (Nat × Nat)) : State :=
  { State.reset with released := true, regs := l.foldl (fun m e => kvPut m e.1 (BitVec.ofNat 64 e.2)) [(R.SYS_STATE, 6), (R.HIF_LD_EN, 0xFFFF)] }

/-- A page in service and enabled. -/
def on (p : Nat) : List (Nat × Nat) := [(R.PG_PRESENT p, 3), (R.PG_CTL p, 1)]

/-- The command answers a next state that passes a test. -/
def gives (i : Instr) (s : State) (p : State → Bool) : Bool :=
  match exec i s with
  | .next t => p t
  | .fault _ => false
  | .refused _ => false

/-! Well-formedness refuses: one term for each check. -/

theorem test_wf_identity : (Instr.flush ⟨0, 0x10001, 0⟩ 1).wf = false ∧ (Instr.flush ⟨0, 1, 0x10000⟩ 1).wf = false ∧
    (Instr.flush ⟨0, 0x10000, 0xFFFF⟩ 1).wf = true := by decide

theorem test_wf_access : (Instr.registerWrite 0 0xFFFFFE#24 .b32 0).wf = false ∧
    (Instr.readClearAccess 0 0xFFFFFE#24 .b32).wf = false ∧ (Instr.registerWrite 0 0#24 .b8 256).wf = false ∧
    (Instr.registerWrite 0 0xFFFFFC#24 .b32 0).wf = true := by decide

theorem test_wf_half : (Instr.lowerHalfRead 0 2#24).wf = false ∧ (Instr.upperHalfRead 0 1#24).wf = false ∧
    (Instr.lowerHalfWrite 0 2#24 0).wf = false ∧ (Instr.upperHalfWrite 0 3#24 0).wf = false := by decide

theorem test_wf_rows : (Instr.stepAdmit 0 [3, 3]).wf = false ∧ (Instr.heldAdmission 0 [1, 2, 1]).wf = false := by decide

theorem test_wf_blocks : (Instr.write ⟨0, 1, 1⟩ 1 0 [] false).wf = false ∧ (Instr.write ⟨0, 1, 1⟩ 1 0 [0, 0] false).wf = false ∧
    (Instr.read ⟨0, 1, 1⟩ 1 0 0 []).wf = false ∧ (Instr.writeZeroes ⟨0, 1, 1⟩ 1 0 0x10001).wf = false := by decide

theorem test_wf_nsid : (Instr.write ⟨0, 1, 1⟩ 0x100000000 0 [0] false).wf = false ∧
    (Instr.read ⟨0, 1, 1⟩ 0x100000000 0 1 []).wf = false := by decide

theorem test_wf_doorbells : (Instr.submissionDoorbellWrite 0 0x10000 0 [] 0).wf = false ∧
    (Instr.submissionDoorbellWrite 0 1 0x10000 [] 0).wf = false ∧
    (Instr.submissionDoorbellWrite 0 1 0 [(0x10000, false)] 0).wf = false ∧
    (Instr.completionDoorbellWrite 0 0x10000 0).wf = false ∧ (Instr.completionDoorbellWrite 0 1 0x10000).wf = false := by decide

theorem test_wf_header : (MsgHead.mk 0x10000 1 1 0 0 0).wf = false ∧ (MsgHead.mk 0 256 1 0 0 0).wf = false ∧
    (MsgHead.mk 0 1 256 0 0 0).wf = false ∧ (MsgHead.mk 0 1 1 0x10000 0 0).wf = false ∧
    (MsgHead.mk 0 1 1 0 0x10000 0).wf = false ∧ (MsgHead.mk 0 1 1 0 0 0x100000000).wf = false ∧
    (Instr.sensors (MsgHead.mk 0x10000 1 0x31 0 0 0) [] false).wf = false ∧
    (Instr.getVersion .sideband (MsgHead.mk 0x10000 1 1 0 0 0) [] false).wf = false := by decide

theorem test_wf_cxl : (Instr.cxlMemRead 0 0 0 []).wf = false ∧ (Instr.cxlMemRead 0 0 65 []).wf = false ∧
    (Instr.cxlMemWrite 0 0 [] false 0 0).wf = false ∧ (Instr.cxlMemWrite 0 63 [1, 2] false 0 0).wf = false := by decide

/-! No row of the table carries bits, so no word spells a command. -/

theorem test_no_words : decodeTableWord 32 0 = none ∧ decodeTableWord 64 0xFFFFFFFFFFFFFFFF = none := by decide

theorem test_wf_flit : (Instr.flitReceive 0 ⟨4096, 0, false, .mgmt .switch, true, 0, false⟩ 0).wf = false ∧
    (Instr.flitReceive 0 ⟨0, 4096, false, .mgmt .switch, true, 0, false⟩ 0).wf = false := by decide

/-! States that meet the hypotheses of the statements, clause by clause. -/

theorem test_hyp_IdleStep : State.reset.pending = [] ∧ State.reset.tmb.slew = 0 := by decide

theorem test_hyp_EveryStep : IrqShown State.reset := by unfold IrqShown; decide

theorem test_hyp_ReadsReturn : Readable (rig []) 0 0x30144 ∧ Readable (rig [(R.PG_GUARD pageErr, 0x8001)]) 15 0xC0108 ∧ 0x30144 % 4 = 0 ∧
    ((regHit 3 0x144).any fun h => !latching 3 h.base && !catReg (regKey 0 3 h) && !h.rd.wide && decide (h.rd.rc ≠ 0)) = true ∧
    ((regHit 0xC 0x108).any fun h => !latching 0xC h.base && !catReg (regKey 15 0xC h) && h.rd.wide && !h.upper) = true ∧
    ((regHit 0xC 0x10C).any fun h => !latching 0xC h.base && !catReg (regKey 15 0xC h) && h.rd.wide && h.upper &&
      decide (h.base = 0x108)) = true ∧
    kvFind ({ rig [] with rdHold := [(15, ⟨0xC0108, 7⟩)] } : State).rdHold 15 = some ⟨0xC0108, 7⟩ := by
  unfold Readable; decide

theorem test_hyp_LatchingReads : Readable (rig []) 0 R.TMB_NOW_FRAC ∧ Readable (rig [(R.PG_GUARD pageTmb, 0x8001)]) 15 R.TMB_PPSIN_FRAC ∧
    Readable (rig (on pageSec)) 0 (R.SEC_MEAS 0) ∧ Readable (rig (on pageSec)) 0 (R.SEC_MEAS 15) ∧
    kvFind ({ rig (on pageSec) with measHold := [(0, [1, 2])] } : State).measHold 0 = some [1, 2] := by
  unfold Readable; decide

theorem test_hyp_Writes : Open (rig (on 0xFF)) 0 0 ∧ Open (rig (on pageMsr)) 0 pageMsr ∧ (0xFFFFFFFF#64).toNat < 2 ^ 32 ∧
    (rig (on pageMsr)).armState 255 ≠ 1 ∧ (rig (on pageMsr)).armState 255 ≠ 2 ∧
    kvFind ({ rig (on pageMsr) with wrHold := [(0, ⟨R.ARM_TGT 255, 5⟩)] } : State).wrHold 0 = some ⟨R.ARM_TGT 255, 5⟩ := by
  unfold Open; decide

theorem test_hyp_RefusedAccesses : State.reset.answers 0x28 = false ∧ (rig (on 0x28)).answers 0x28 = true ∧
    (rig (on 0x28)).present 0x28 = 3 ∧ (rig (on 0x28)).guardOpen 0x28 15 = false ∧ (0x280100#24).toNat / 0x10000 = 0x28 ∧
    0x100 ≤ (0x280100#24).toNat % 0x10000 ∧ (0x28FFFC#24).toNat % 4 = 0 := by decide

/-- A state in which an unlock names pages 0xF0 and 0xFF. -/
def unlocked : State := { rig [(R.SEC_STAT, 4)] with sec := { State.reset.sec with pages := 0x8001 } }

theorem test_hyp_DiagnosticPages : unlocked.diagOpen 0 0xF0 = true ∧ unlocked.diagOpen 0 0xFF = true ∧ unlocked.diagOpen 0 0xF1 = false ∧
    unlocked.diagOpen 15 0xFF = false ∧ unlocked.sec.pages.testBit (0xF1 - 0xF0) = false ∧ (0xFF0000#24).toNat / 0x10000 = 0xFF ∧
    (rig []).present 0x28 = 0 ∧ gives (.diagUnlock .sideband ⟨0, 1, 8, 0, 0, 0⟩ [] true false) unlocked (fun t => t.bit R.SEC_STAT 2) = true := by
  decide

theorem test_unlocked_write_stops : gives (.registerWrite 0 0xF00100#24 .b32 1) unlocked (fun _ => true) = false ∧
    gives (.registerWrite 0 0xF10100#24 .b32 1) unlocked (fun _ => true) = true := by decide

/-- A run of one context that computes on a row. -/
def busy (r : Nat) : Run := { newRun 1 1 false false [] 1 0 with phase := .computing, rows := [r] }

/-- A state with a run that computes on row 0. -/
def busyRig (l : List (Nat × Nat)) : State :=
  { rig l with sched := { State.reset.sched with runs := [(1, busy 0)] } }

theorem test_hyp_EnableDisable : Open (rig (on 0x28)) 0 0x28 ∧ (rig (on 0x28)).present 0x28 = 3 ∧
    (rig [(R.PG_PRESENT 0x28, 1)]).present 0x28 = 1 ∧ Open (rig [(R.PG_PRESENT 0x28, 1)]) 0 0x28 ∧
    (rig (on 0x28)).bit (R.PG_STAT 0x28) 1 = false ∧ (rig (on 0x28)).busyPage 0x28 = false ∧
    (busyRig (on 0x28)).busyPage 0x28 = true ∧ Open (busyRig (on 0x28)) 0 0x28 := by
  unfold Open; decide

theorem test_hyp_Quiesce : (rig (on 0x28)).bit (R.PG_CTL 0x28) 0 = true ∧ (busyRig (on 0x28)).bit (R.PG_CTL 0x28) 0 = true ∧
    (rig [(R.PG_PRESENT 0x28, 3), (R.PG_CTL 0x28, 3)]).quiescing 0x28 = true ∧
    (rig [(R.PG_PRESENT 0x28, 3), (R.PG_CTL 0x28, 3)]).answers 0x28 = true ∧
    (rig [(R.PG_PRESENT 0x28, 3), (R.PG_CTL 0x28, 3)]).busyPage 0x28 = false ∧
    (rig [(R.PG_PRESENT 0x28, 3), (R.PG_CTL 0x28, 3)]).bit (R.PG_STAT 0x28) 1 = false := by decide

theorem test_hyp_BlockReset : Open (rig [(R.PG_PRESENT 9, 3), (R.PG_CTL 9, 3), (R.PG_STAT 9, 3)]) 0 9 ∧
    (rig [(R.PG_PRESENT 9, 3), (R.PG_CTL 9, 3), (R.PG_STAT 9, 3)]).bit (R.PG_STAT 9) 1 = true ∧
    (rig [(R.PG_PRESENT 9, 3), (R.PG_CTL 9, 3), (R.PG_STAT 9, 3)]).bit (R.PG_CTL 9) 0 = true ∧
    typeCode 9 ∉ [0x04, 0x05, 0x06, 0x30, 0x31, 0x32, 0x40] ∧ (rig (on 9)).quiescing 9 = false ∧
    (rig (on 9)).bit (R.PG_STAT 9) 1 = false := by
  unfold Open; decide

/-- A report of a page, as the log's queue holds it. -/
def report (code page addr : Nat) : Report := ⟨code, page, none, addr, 0, 0, 0, 1, 0xFFFFFFFF, [0], false⟩

theorem test_hyp_ErrorLog :
    (let s : State := { rig [(R.IRQ_CAT_STAT 15, 4096), (R.IRQ_CAT_EN 15, 4096)] with
        irq := { State.reset.irq with deferred := [(252, 1)] } };
      kvFind s.irq.deferred (16 * 15 + 12) = some 1 ∧ s.modPassed 15 12 = true ∧ s.masked 15 60 = false ∧ s.bit (R.IRQ_CAT_STAT 15) 12 = true ∧
        s.bit (R.IRQ_CAT_EN 15) 12 = true) ∧
    (let s : State := { rig [] with err := { State.reset.err with queue := [report 0x4002 0x10 8] } };
      s.err.dropped = 0 ∧ s.recentMatch (report 0x4002 0x10 8) = none ∧ s.ringRoom = true ∧ s.rd R.ERR_HEAD < 2 ^ 64 - 1) ∧
    Open (rig [(R.ERR_HEAD, 5000)]) 0 pageErr ∧ (5000#64).toNat ≤ (rig [(R.ERR_HEAD, 5000)]).rd R.ERR_HEAD ∧
    (rig [(R.ERR_HEAD, 5000)]).rd R.ERR_HEAD ≤ (904#64).toNat + 4096 ∧ (rig [(R.ERR_HEAD, 5000)]).rd R.ERR_HEAD < (5001#64).toNat ∧
    (903#64).toNat + 4096 < (rig [(R.ERR_HEAD, 5000)]).rd R.ERR_HEAD := by
  unfold Open; decide

theorem test_hyp_ErrorLog_aers (n : Nat) : ((rig []).ctrl n).aers = [] := rfl

theorem test_hyp_TimeCommands : Open (rig []) 0 pageTmb ∧ (rig []).running = false ∧ (rig [(R.MSR_CTL, 1)]).running = true ∧
    6 ≤ (6#32).toNat % 8 ∧ (5#32).toNat % 8 < 6 ∧ (8#32).toNat % 8 = 0 ∧ (rig []).tmbState ≠ stFollowing := by
  unfold Open; decide

theorem test_hyp_References : dtSec 0 < 2 ^ 48 ∧ ((rig []).until 0).ppsAccepts 0 = true ∧
    (let s : State := { rig [] with tmb := { State.reset.tmb with ppsLast := some 0, ppsBad := 1, loadPending := true } };
      (s.until 5).ppsAccepts 5 = false ∧ s.tmb.ppsBad < 2 ∧ s.tmb.loadPending = true ∧ s.running = false) ∧
    (let s : State := { rig [(R.TMB_STAT, stLocked), (R.TMB_CTL, 2)] with tmb := { State.reset.tmb with ppsBad := 2 } };
      s.tmbState = stLocked ∧ s.tmb.ppsBad = 2 ∧ srcPps s.tmbSrc = true) ∧
    (rig [(R.TMB_STAT, stLocked), (R.TMB_CTL, 1)]).tmbState = stLocked ∧
    srcTref (rig [(R.TMB_STAT, stLocked), (R.TMB_CTL, 1)]).tmbSrc = true ∧
    srcPtp (rig [(R.TMB_STAT, stLocked), (R.TMB_CTL, 5)]).tmbSrc = true ∧ (-10 : Int).natAbs ≤ 10 ∧ 10 < (11 : Int).natAbs ∧
    (rig [(R.TMB_CTL, 1)]).tmbState = stFree ∧ (rig [(R.TMB_CTL, 1)]).tmbSrc = 1 := by decide

theorem test_hyp_LockAndHoldover :
    (let s := rig [(R.TMB_STAT, stAcquiring + 2 ^ 7), (R.TMB_CTL, 1)];
      s.tmbState = stAcquiring ∧ s.srcValid = true ∧ s.tmb.okFrom = none ∧
        ({ s with tmb := { s.tmb with okFrom := some 0 } } : State).tmb.okFrom.isSome = true) ∧
    (rig [(R.TMB_STAT, stFollowing)]).tmbState = stFollowing ∧
    (let s : State := { rig [(R.TMB_STAT, stHoldover)] with tmb := { State.reset.tmb with lossAt := some 0, hoAcc := 3 } };
      s.hoError = some 3 ∧ s.tmb.hoSaid = false ∧ s.tmbState = stHoldover ∧ s.tmb.lossAt = some 0 ∧ 0 ≤ s.etime) := by decide

theorem test_hyp_Ptp : (PtpFrame.mk true (.announce 0 7 1)).udp ≠ (rig []).bit R.TMB_PTP_CTL 8 ∧
    (1 : CageNo).val ≠ (rig []).fld R.TMB_PTP_CTL 9 9 ∧ (0 : CageNo).val = (rig []).fld R.TMB_PTP_CTL 9 9 ∧
    (let s : State := { rig [] with tmb := { State.reset.tmb with
        ptp := ⟨[(7, 1)], some (4, 90), some 1, some 2, 0, some 3, 5, some 0⟩ } };
      s.fromMaster 0 7 = true ∧ s.tmbState ≠ stLocked ∧ s.tmb.ptp.sync = some (4, 90) ∧ s.tmb.ptp.t1 = some 1 ∧ s.tmb.ptp.t2 = some 2 ∧
        s.tmb.ptp.t3 = some 3 ∧ (s.until 5).delayReqReady = true ∧ s.tmb.ptp.sentAt = some 0 ∧ (s.until 4).etime < 0 + s.tmb.ptp.interval) ∧ (rig [(R.TMB_PPS_CTL, 2 ^ 31)]).bit R.TMB_PPS_CTL 31 = true := by decide

theorem test_hyp_FabricTime :
    (let s := rig [(R.TMB_STAT, 64), (R.LNK_STAT 31, lkUp)];
      s.bit R.TMB_STAT 6 = true ∧ s.linkUp 31 = true) ∧
    (let s := rig [(R.TMB_CTL, 16), (R.TMB_LDLY 31, 2 ^ 31), (R.LNK_STAT 31, lkUp + 8)];
      s.bit R.TMB_CTL 4 = true ∧ s.running = false ∧ s.tmb.ownGrid = false ∧
        ((s.until 0).heard 31 { s.knownOf 31 with caller := 0xFFFFFFFF, hops := 0 }).rd R.TMB_UP_LINK = 31 + 0x80) ∧
    (let s := rig [(R.TMB_STAT, stFollowing), (R.TMB_UP_LINK, 0x80)];
      s.tmbState = stFollowing ∧ s.bit R.TMB_UP_LINK 7 = true) ∧
    2 * ([] : List Int).length < (rig [(R.TMB_CAL_CTL, 0x10000)]).fld R.TMB_CAL_CTL 23 16 ∧
    (rig [(R.TMB_CAL_CTL, 0x20000)]).fld R.TMB_CAL_CTL 23 16 ≤ 2 * [(5 : Int)].length := by
  set_option maxRecDepth 4000 in decide

/-! Measures, arms, rows and steps. -/

/-- A figure of two steps on one row, and a command that asks for it in context 9. -/
def step0 : StepDef := ⟨10, 20, [], [], [], []⟩
def core0 (lc : Bool) (steps : List StepDef) : FigureCore :=
  ⟨0, true, true, lc, false, false, 1, [], 1, steps, steps, 0, 4096, 64, none, 1, false, [], 0, 1⟩
def cmd0 : RunCmd := ⟨⟨1, 1, 7⟩, 9, 3, [], 0, 64, 1, 0, 0, 0, 0, 0⟩
def ctx0 : Ctx := ⟨1, 1, true, false, false, false, 0, 0, 0, 8, 4096, 0, 0, [], 0, none, []⟩
def run0 (lc : Bool) : Run := { newRun 3 1 lc false [cmd0] 1 0 with bound := 0 }

/-- A state with that figure loaded at handle 3, context 9, and run 1. -/
def runRig (l : List (Nat × Nat)) (c : FigureCore) (x : Run) : State :=
  { rig ([(R.PG_PRESENT 0x28, 3), (R.PG_CTL 0x28, 1), (R.PG_GUARD 0x28, 0xFFFF), (R.PG_PRESENT pageSch, 3), (R.PG_CTL pageSch, 1)] ++ l) with
    ctxs := [(9, ctx0)]
    msr := { State.reset.msr with struckAt := some 0 }
    tiers := { State.reset.tiers with regions := [(8, ⟨1, 1, 4096, 3, false, 0, true, 0, 0⟩)] }
    sched := { State.reset.sched with figures := [(3, ⟨1, ⟨c, none, false⟩, 5, none, [], []⟩)], runs := [(1, x)], reserved := [(0, 1)] } }

theorem test_hyp_MeasuresStartStop : Open (rig (on pageMsr)) 0 pageMsr ∧ (rig (on pageMsr)).msr.queue = [] ∧
    (rig (on pageMsr)).running = false ∧ (rig (on pageMsr)).msr.change = none ∧ 0 < (rig (on pageMsr)).rd R.MSR_PERIOD ∧
    (rig [(R.ARM_CMD 255, 16), (R.ARM_TGT 255, 5)]).armState 255 = 1 ∧ (rig [(R.MSR_CTL, 1)]).running = true ∧
    ((rig []).rd R.MSR_LEAD &&& 0xFFFFFFFFFFFFF800) ||| ((63#32).toNat &&& 0x7FF) < 64 ∧
    1024 < ((rig []).rd R.MSR_LEAD &&& 0xFFFFFFFFFFFFF800) ||| ((1025#32).toNat &&& 0x7FF) ∧
    64 ≤ ((rig []).rd R.MSR_LEAD &&& 0xFFFFFFFFFFFFF800) ||| ((64#32).toNat &&& 0x7FF) ∧
    ((rig []).rd R.MSR_LEAD &&& 0xFFFFFFFFFFFFF800) ||| ((1024#32).toNat &&& 0x7FF) ≤ 1024 ∧
    (rig [(R.TMB_STAT, stFollowing)]).tmbState = stFollowing ∧ (rig [(R.MSR_NEXT_PERIOD, 249)]).rd R.MSR_NEXT_PERIOD < 250 ∧
    1000000000 < (rig [(R.MSR_NEXT_PERIOD, 1000000001)]).rd R.MSR_NEXT_PERIOD ∧ (1#64).toNat < (rig []).rd R.MSR_NOW + 2 := by
  unfold Open; decide

theorem test_hyp_MeasuresStartStop_change :
    (let s := rig (on pageMsr ++ [(R.MSR_NEXT_PERIOD, 250)]);
      s.tmbState ≠ stFollowing ∧ s.bit R.TMB_STAT 6 = false ∧ 250 ≤ s.rd R.MSR_NEXT_PERIOD ∧
        s.rd R.MSR_NEXT_PERIOD ≤ 1000000000 ∧ s.rd R.MSR_NOW + 2 ≤ (2#64).toNat ∧ s.announcedM ((2#64).toNat + 1) = false ∧
        s.msr.change = none) ∧
    ({ rig [] with msr := { State.reset.msr with announced := [(9, 9)] } } : State).announcedM 9 = true := by decide

theorem test_hyp_AnnounceStrike :
    (let s : State := { rig [(R.MSR_CTL, 1), (R.ARM_CMD 0, 16), (R.ARM_TGT 0, 4)] with
        msr := { State.reset.msr with nextM := 4, queue := [⟨3, 0⟩] } };
      s.running = true ∧ s.msr.queue.length < 4 ∧ s.announceAt ≤ 100000 ∧ s.armState 0 = 1 ∧ s.armTgt 0 = s.msr.nextM) ∧
    (let s : State := { rig [(R.MSR_CTL, 1), (R.MSR_LEAD, 1024)] with
        msr := { State.reset.msr with nextM := 1, queue := [⟨0, 7808⟩] } };
      s.running = true ∧ ∀ a ∈ s.msr.queue, s.announceAt ≤ a.at_) ∧
    (let s : State := { rig [(R.ACC_SNAP_EVERY, 4)] with msr := { State.reset.msr with queue := [⟨4, 0⟩], change := some (4, 300) } };
      s.msr.queue = [⟨4, 0⟩] ∧ s.msr.change = some (4, 300) ∧ s.rd R.ACC_SNAP_EVERY ≠ 0 ∧ 4 % s.rd R.ACC_SNAP_EVERY = 0) ∧
    (rig []).running = false ∧ (rig []).msr.queue = [] := by decide

theorem test_hyp_Arms :
    (let s : State := rig (on pageMsr ++ on 0x28 ++ [(R.ARM_CMD 255, 16), (R.ARM_ACT 255, 0x128), (R.ARM_TGT 255, 3),
        (R.ARM_ACT 1, 0x128), (R.ARM_TGT 1, 3), (R.ARM_ACT 2, 0x428), (R.ARM_ACT 3, 0x128), (R.ARM_TGT 3, 4)]);
      Open s 0 pageMsr ∧ s.armState 255 = 1 ∧ s.armState 1 ≠ 1 ∧ s.armState 1 ≠ 2 ∧ s.pastAnnounce (s.armTgt 1) = false ∧
        (armable (s.armPage 1) (s.armCode 1) && s.inService (s.armPage 1) && s.guardOpen (s.armPage 1) 0) = true ∧
        (armable (s.armPage 2) (s.armCode 2) && s.inService (s.armPage 2) && s.guardOpen (s.armPage 2) 0) = false ∧
        (s.armPage 255 = s.armPage 1 ∧ s.armTgt 255 = s.armTgt 1) ∧
        (armable (s.armPage 3) (s.armCode 3) && s.inService (s.armPage 3) && s.guardOpen (s.armPage 3) 0) = true ∧
        s.armTgt 3 ≠ s.armTgt 255) ∧
    ({ rig [] with msr := { State.reset.msr with announced := [(0, 0)] } } : State).pastAnnounce ((rig []).armTgt 0) = true ∧
    (3#64).getLsbD 0 = true ∧ (3#64).getLsbD 1 = true ∧ (rig []).armState 0 = 0 ∧
    (let s : State := { rig (on pageMsr) with msr := { State.reset.msr with held := [(255, 3)] } };
      kvFind s.msr.held 255 = some 3 ∧ s.busyPage (s.armPage 255) = false) := by
  unfold Open; decide

theorem test_hyp_LaneRows :
    (let s : State := { rig (on 0x28 ++ [(R.ROW_PWR 0, 0x100)]) with etime := 16000000 };
      s.rowIdle 0 = true ∧ (s.reservedFor 0).isNone = true ∧ (s.rowUnit 0).clearDue = false ∧ s.pwr 0 = 0 ∧ s.bit (R.ROW_PWR 0) 0 = false ∧
        (s.rowUnit 0).idleFrom + 1000 * tickCycle ≤ s.etime ∧ s.fld (R.ROW_PWR 0) 15 8 ≠ 0 ∧ s.rowHeld 0 = false ∧
        (s.rowUnit 0).idleFrom + s.fld (R.ROW_PWR 0) 15 8 * 1000 * tickUs ≤ s.etime) ∧
    (let s : State := { rig [(R.ROW_STAT 103, 16)] with rows := [(103, { emptyRow with busyUntil := 5 })] };
      (s.rowUnit 103).busyUntil ≠ 0 ∧ s.pwr 103 = 1) ∧ (rig [(R.ROW_STAT 103, 32)]).pwr 103 = 2 ∧
    (let s : State := { rig [(R.ROW_STAT 103, 48)] with rows := [(103, { emptyRow with clearDue := true })] };
      s.pwr 103 = 3 ∧ (s.rowUnit 103).clearDue = true) := by decide

theorem test_hyp_Feed : (({ rig [] with rows := [(0, { emptyRow with fmt := some .int8 })] } : State).rowUnit 0).fmt = some .int8 ∧
    Fmt.int8 ≠ .bf16 ∧ inLeaf 0 ((512 + Fmt.int8.slices - 1) / Fmt.int8.slices) = true ∧
    inLeaf 0 ((1 + Fmt.bell4.slices - 1) / Fmt.bell4.slices) = true := by decide

theorem test_hyp_Steps_formed :
    (let s := runRig [] (core0 true [step0, step0]) (run0 true);
      s.run 1 = some (run0 true) ∧ (run0 true).replayOf = none ∧ s.rowReady 0 1 = true ∧ s.rowsBusy 1 [0] = false ∧
        s.schQuiet (run0 true) [0] = false ∧ s.heldBack (run0 true) = false ∧ (run0 true).phase = .formed ∧ (run0 true).heldFrom = none ∧ s.msr.struckAt = some s.etime ∧
        s.firstReady (run0 true) = true ∧ s.turn 1 (run0 true) [0] = true ∧ s.rowSet 1 (run0 true) [0] = some []) := by decide

/-- The run between its steps, and computing its first. -/
def runNext : Run := { run0 true with phase := .boundary, rows := [0], step := 1 }
def runOn : Run := { run0 true with phase := .computing, rows := [0], endAt := 5, expireAt := 9 }

theorem test_hyp_Steps_chained :
    (let s := runRig [] (core0 true [step0, step0]) runNext;
      runNext.phase = .boundary ∧ runNext.heldFrom = none ∧ runNext.bucketWait = [] ∧ s.layersLanded runNext = true ∧
        s.rowReady 0 1 = true ∧ s.rowsBusy 1 [0] = false ∧ s.schQuiet runNext [0] = false ∧ s.heldBack runNext = false ∧ s.mayGoOn runNext = true ∧
        s.needsRows runNext = false ∧ s.rowSet 1 runNext [0] = some []) ∧
    (let s := runRig [(R.PG_GUARD 0x28, 1)] (core0 true [step0, step0]) runNext;
      s.layersLanded runNext = true ∧ s.mayGoOn runNext = false) ∧
    (let x : Run := { runNext with heldFrom := some 0 };
      x.lentHeld = false ∧ (runRig [] (core0 true [step0]) x).rowAllowed x 0 = true ∧
        (runRig [] (core0 true [step0]) x).rowReady 0 1 = true) := by decide

theorem test_hyp_Strike :
    (let x : Run := { run0 true with phase := .staging, rows := [0] };
      let s := runRig [] (core0 true [step0]) x;
      s.run 1 = some x ∧ x.phase = .staging ∧ x.replayDue = false ∧ (s.stepDef x).stage = [] ∧
        s.runCore x = some (core0 true [step0]) ∧ (core0 true [step0]).galliard = false ∧ x.pc = 0 ∧ (s.stepDef x).ops = []) ∧
    (let x : Run := { run0 true with phase := .staging, rows := [0] };
      let s := runRig [] (core0 true [⟨10, 20, [], [], [], [⟨[], .commit 0 0 1 0 0⟩]⟩]) x;
      (s.stepDef x).ops = [⟨[], .commit 0 0 1 0 0⟩] ∧ x.rows[0]? = some 0 ∧ inLeaf 0 1 = true ∧ s.colWaits 1 = false) := by decide

theorem test_hyp_Boundary :
    (let x : Run := { runOn with shadow := [⟨0, 0, [1, 2], false⟩] };
      let s := runRig [] (core0 true [step0, step0]) x;
      s.run 1 = some x ∧ x.phase = .computing ∧ x.replayDue = false ∧ (s.stepDef x).ops.length ≤ x.pc ∧ s.colWaits 1 = false ∧
        x.endAt ≤ x.expireAt ∧ x.replayOf = none ∧ x.journalled = false ∧ x.lc = true ∧
        s.runCore x = some (core0 true [step0, step0]) ∧ (s.stepDef x).wave = [] ∧ x.step + 1 < (s.path x).length ∧
        x.missPending = none ∧ s.sched.degraded = [] ∧ x.rows ≠ [] ∧ (∀ r ∈ x.rows, r < 104 ∧ s.rowAllowed x r = true) ∧
        x.cmds = [cmd0] ∧ x.results = [] ∧ x.client < 16 ∧ 0 + [1, 2].length ≤ (s.ctx cmd0.ctx).stateLen ∧
        0 + [1, 2].length ≤ regionSpan) := by decide

theorem test_hyp_Waves :
    (let x : Run := { run0 true with phase := .waitFlash };
      let s := runRig [] (core0 true [step0]) x;
      x.phase = .waitFlash ∧ s.jobsLeft 1 = false ∧ x.journalled = false ∧ s.layersLanded x = true) ∧
    (let x : Run := { runOn with expireAt := 4, stepReplayed := true };
      x.phase = .computing ∧ x.expireAt < x.endAt ∧ x.stepReplayed = true ∧ x.expiries = 0) ∧
    (let x : Run := { run0 true with phase := .staging };
      x.stepReplayed = false ∧ x.replayOf = none ∧ x.journalled = false ∧ x.client < 16 ∧
        ((runRig [] (core0 true [step0]) x).ctx cmd0.ctx).state ≠ 0 ∧
        (∀ e ∈ (runRig [] (core0 true [step0]) x).sched.runs, e.1 ≠ 1 → e.2.waitRow = none)) ∧
    (let x : Run := { runOn with replayDue := true };
      (runRig [] (core0 true [step0]) x).run 1 = some x ∧ x.phase = .computing ∧ x.replayDue = true) := by decide

theorem test_hyp_BeRuns :
    (let s : State := { rig [] with
        ctxs := [(9, { ctx0 with inRun := false })]
        tiers := { State.reset.tiers with regions := [(8, ⟨1, 1, 4096, 3, false, 0, true, 0, 0⟩)] }
        sched := { State.reset.sched with figures := [(3, ⟨1, ⟨core0 false [step0], none, false⟩, 5, none, [], []⟩)], queue := [cmd0] } };
      let a := s.pick 1 (core0 false [step0]) 3 (fun _ => false) s.sched.queue ⟨[], [], none⟩;
      kvFind s.sched.figures 3 = some ⟨1, ⟨core0 false [step0], none, false⟩, 5, none, [], []⟩ ∧ (core0 false [step0]).lc = false ∧ a.take ≠ [] ∧
        (⟨1, ⟨core0 false [step0], none, false⟩, 5, none, [], []⟩ : Loaded).hasWindow = true ∧
        (core0 false [step0]).bmax ≤ (s.sched.queue.filter fun m => m.handle = 3).length) := by
  decide

theorem test_hyp_Reservations : Open (rig (on pageSch)) 0 pageSch ∧ (rig (on pageSch)).mapCause (rig (on pageSch)).stagedMap ≠ 0 ∧
    (let s : State := rig (on pageSch ++ on 0x28 ++ on 0x29 ++ on 0x2A ++ on 0x2B ++ on 0x2C ++ on 0x2D ++ on 0x2E ++ on 0x2F ++
        [(R.SCH_RES_STAGE 0, 0x80808080), (R.SCH_RES_STAGE 1, 0x80808080)]);
      s.mapCause s.stagedMap = 0 ∧ s.rightsWait = false) ∧ (rig [(R.SEC_RIGHTS_CTL, 1)]).rightsWait = true ∧
    (∀ e ∈ (runRig [] (core0 true [step0]) (run0 true)).sched.reserved, e.2 < 16) := by
  unfold Open; decide

/-! Grids, Collators, tiers, figures, contexts. -/

/-- A client whose controller is enabled, with a command at the head of its I/O queue 1 and of its admin queue, and completion queues
with room. -/
def cq0 : CplQ := ⟨64, 0, true, 0, 0, true, []⟩
def ctrl0 : Ctrl :=
  ⟨true, [(0, ⟨64, 0, 0, 0, 1, [(7, false)], none⟩), (1, ⟨64, 0, 1, 0, 1, [(7, true)], none⟩)], [(0, cq0), (1, cq0)], [], [], [],
    [(0x19, 1)], [], 0, [], 0, 0, []⟩
def cid0 : Cid := ⟨1, 1, 7⟩
def adm0 : Cid := ⟨1, 0, 7⟩
def sqe (w10 w11 w12 w13 w14 w15 : Nat) : Sqe :=
  ⟨1, 0, 0, 0, BitVec.ofNat 32 w10, BitVec.ofNat 32 w11, BitVec.ofNat 32 w12, BitVec.ofNat 32 w13, BitVec.ofNat 32 w14, BitVec.ofNat 32 w15⟩

/-- Registers of tiers with room for client 1. -/
def room : List (Nat × Nat) :=
  [(tierCap 1, 2 ^ 40), (tierCap 2, 2 ^ 40), (tierCap 3, 2 ^ 24), (tqMax 1 1, 2 ^ 40), (tqMax 1 2, 2 ^ 40), (tqMax 1 3, 2 ^ 24)] ++
    on pageHif ++ on pageTier ++ on pageFtl

/-- A state with that client's controller. -/
def hostRig (l : List (Nat × Nat)) : State := { rig (room ++ l) with ctrls := [(1, ctrl0)] }

/-- Regions of client 1: 4 KiB in T1 and in T2, and one in T3. -/
def regions0 : KV Region :=
  [(1, ⟨1, 1, 4096, useClient, true, 0, true, 0, 0⟩), (2, ⟨1, 2, 4096, useClient, true, 0, true, 0, 0⟩),
    (3, ⟨1, 3, 65536, useClient, true, 0, true, 0, 0⟩)]
def regionRig (l : List (Nat × Nat)) : State :=
  { hostRig l with tiers := { State.reset.tiers with regions := regions0, nextHandle := 4 } }

theorem test_hyp_CplRoom : CplRoom (hostRig []) cid0 cq0 := by unfold CplRoom; decide

theorem test_hyp_Grids : Open (rig (on pageQnt)) 0 pageQnt ∧ (rig []).gridRefs 255 = 0 ∧
    (let s := rig [(R.QNT_GSTAGE 0, 0x83828180), (R.QNT_GSTAGE 1, 0x87868584), (R.QNT_GSTAGE 2, 0x8B8A8988), (R.QNT_GSTAGE 3, 0x8F8E8D8C)];
      increasing (s.levelsAt R.QNT_GSTAGE) = true) ∧ increasing ((rig []).levelsAt R.QNT_GSTAGE) = false ∧
    (rig [(R.QNT_GSTAT 255, 2 ^ 16)]).gridRefs 255 ≠ 0 ∧
    (let s := rig (on pageQnt ++ [(R.PG_GUARD pageQnt, 0xFFFF), (R.MON_CTL 63, 0x302)]);
      Open s 3 pageQnt ∧ s.fld (R.MON_CTL 63) 11 8 = (3 : Client).val ∧ Open s 4 pageQnt ∧
        s.fld (R.MON_CTL 63) 11 8 ≠ (4 : Client).val) := by
  unfold Open; decide

/-- A descriptor of one element of the row's own Leaf, and the queue entry that holds it. -/
def desc0 (op : Nat) (n : Nat) (lc : Bool) : Desc := ⟨op, 0, false, 0, lc, n, 1, 1, 1, 0, 0, 1, 0, 0, 64⟩
def colRig (d : Desc) : State :=
  { runRig (on 0x90) (core0 true [step0]) runOn with
    cols := [(0, ⟨if d.lc then [⟨d, 1, 0, [0], 9, [0], 0, 0, 1, false⟩] else [], if d.lc then [] else [⟨d, 1, 0, [0], 9, [0], 0, 0, 1, false⟩], none, [], []⟩)] }

theorem test_hyp_Collators : (∀ op ∈ [1, 2, 3], ∀ lc ∈ [true, false],
      (colRig (desc0 op 1 lc)).colNext 0 = some ⟨desc0 op 1 lc, 1, 0, [0], 9, [0], 0, 0, 1, false⟩ ∧
      (colRig (desc0 op 1 lc)).colCause ⟨desc0 op 1 lc, 1, 0, [0], 9, [0], 0, 0, 1, false⟩ = none) ∧
    (colRig (desc0 4 0 true)).colCause ⟨desc0 4 0 true, 1, 0, [0], 9, [0], 0, 0, 1, false⟩ = some 3 ∧
    (colRig (desc0 1 0 true)).colCause ⟨desc0 1 0 true, 1, 0, [0], 9, [0], 0, 0, 1, false⟩ = some 1 ∧
    (colRig (desc0 1 1 true)).run 1 = some runOn ∧ runOn.phase = .computing ∧ runOn.replayDue = false ∧
    ((colRig (desc0 1 1 true)).stepDef runOn).ops.length ≤ runOn.pc ∧ runOn.client < 16 ∧ runOn.replayOf = none ∧
    (∀ e ∈ (colRig (desc0 1 1 true)).sched.runs, e.2.waitRow = none) ∧
    (∀ r ∈ runOn.rows, r < 104) := by decide +kernel

/-- The header of a list of one entry, sorted, with its key and index. -/
def listWord : LeafWord := ⟨BitVec.ofNat 1024 (1 + 2 ^ 20 + 5 * 2 ^ 256 + 7 * 2 ^ 288), false⟩

theorem test_hyp_Collators_merge :
    (let d := desc0 4 0 true;
      let s : State := { colRig d with leaf := [(0, listWord)] };
      s.colNext 0 = some ⟨d, 1, 0, [0], 9, [0], 0, 0, 1, false⟩ ∧ s.colCause ⟨d, 1, 0, [0], 9, [0], 0, 0, 1, false⟩ = none) := by decide +kernel

theorem test_hyp_Collators_segment :
    (let q : QDesc := ⟨desc0 1 1 false, 1, 0, [0], 9, [0], 0, 0, 1, false⟩;
      let s : State := { colRig (desc0 1 1 false) with cols := [(0, ⟨[], [q], some 2049, [], []⟩)] };
      s.colNext 0 = some q ∧ 2048 < ((s.colUnit 0).begun).getD (colCycles q.d (s.colRun q)) ∧ q.d.lc = false ∧ s.colCause q = none) := by
  decide

theorem test_hyp_Collators_void : (∀ op ∈ [1, 2, 3, 4],
    let q : QDesc := ⟨desc0 op 1 false, 1, 0, [0], 9, [0], 0, 0, 1, true⟩;
    let s : State := { rig (on 0x90) with cols := [(0, ⟨[], [q], some 2049, [], []⟩)] };
    s.colNext 0 = some q ∧ q.void = true ∧ q.d.lc = false ∧ q.client < 16 ∧ q.d.op = op ∧ (∀ e ∈ s.sched.runs, e.2.waitRow = none)) := by
  decide

/-- A frame of one byte stored raw, with a check. -/
def frame0 (check : Nat) : PressFrame := ⟨0x7A51, 0, true, false, 1, 1, BitVec.ofNat 32 check, [5]⟩
def streamRig (check : Nat) : State :=
  let c := { core0 false [step0] with streamed := true, layers := [⟨128, 0, 0, [frame0 check]⟩], windows := 1, slots := 2 }
  { runRig (on pageTier) c { run0 false with window := some 8 } with
    tiers := { State.reset.tiers with lc := [⟨trStream, true, some 5, 0, 0, 1, 1, false, none⟩] } }

theorem test_hyp_Layers :
    (let s := streamRig (crc32c [5]);
      s.headTransfer (fun t => t.kind = trStream && t.run = 1 && t.layer = 0) = some ⟨trStream, true, some 5, 0, 0, 1, 1, false, none⟩ ∧
        (∃ x f l y, s.run 1 = some x ∧ s.runCore x = some f ∧ kvFind s.sched.figures x.handle = some l ∧ x.window = some 8 ∧
          f.layers[0]? = some y ∧ x.client < 16 ∧ y.frames = [frame0 (crc32c [5])] ∧ layerOffset f 0 + 1 ≤ regionSpan ∧
          s.memReadPoison l.image (imageOffset f 0) 128 = false)) ∧
    malformed (frame0 0) = false ∧ crc32c ((frame0 (crc32c [5])).payload.take 1) = (frame0 (crc32c [5])).check.toNat ∧
    crc32c ((frame0 0).payload.take 1) ≠ (frame0 0).check.toNat := by
  refine ⟨⟨by decide, _, _, _, _, rfl, rfl, rfl, rfl, rfl, by decide, rfl, by decide, by decide⟩, by decide, by decide, by decide⟩

theorem test_hyp_Layers_landed :
    (let x : Run := { run0 true with layers := [(0, ⟨true, 5, false, false⟩)] };
      kvFind x.layers 0 = some ⟨true, 5, false, false⟩ ∧ (runRig [] (core0 true [step0]) x).run 1 = some x ∧
        (runRig [] (core0 true [step0]) x).tiers.lc ++ (runRig [] (core0 true [step0]) x).tiers.be = []) ∧
    (let s : State := { rig [] with tiers := { State.reset.tiers with be := [⟨trFill, false, none, 9, 0, 0, 2, false, none⟩] } };
      s.nextChunk = none ∧ ({ s with regs := (rig (on pageTier)).regs } : State).nextChunk = some ⟨trFill, false, none, 9, 0, 0, 2, false, none⟩) ∧
    (let s : State := { rig (on pageTier) with tiers := { State.reset.tiers with
        lc := [⟨trStream, true, some 4, 0, 0, 1, 0, true, none⟩, ⟨trStream, true, some 5, 0, 0, 2, 3, false, none⟩]
        be := [⟨trFill, false, none, 9, 0, 0, 2, false, none⟩] } };
      s.nextChunk = some ⟨trStream, true, some 5, 0, 0, 2, 3, false, none⟩) := by decide

theorem test_hyp_ContextMoves :
    (let s : State := { regionRig [] with
        ctxs := [(9, { ctx0 with state := 1, inRun := false, region := 1, stepCtr := 2 })]
        msr := { State.reset.msr with count := 2 ^ 40 } };
      s.region (s.ctx 9).region = some ⟨1, 1, 4096, useClient, true, 0, true, 0, 0⟩ ∧ (s.ctx 9).client = 1 ∧
        (s.ctx 9).state ≠ 0 ∧ 0 < (s.ctx 9).stepCtr ∧ s.binderFree = true ∧
        (s.ctx 9).inRun = false ∧ (s.ctx 9).pinned = false ∧ (s.ctx 9).spilled = false ∧ (s.ctx 9).resetBy = [] ∧
        (s.ctx 9).touchedAt + s.rd R.SCH_HOT ≤ s.msr.count ∧ s.allocTest 1 2 (chargeOf 2 4096) = 0) ∧
    (let s : State := { rig (on pageTier) with tiers := { State.reset.tiers with be := [⟨trFill, false, none, 9, 0, 0, 2, false, none⟩] } };
      s.binderFree = false ∧ ∀ u ∈ s.tiers.be, u.job = none) ∧
    (rig []).allocTest 1 2 (chargeOf 2 4096) ≠ 0 ∧
    (let s : State := { regionRig [] with
        ctxs := [(9, { ctx0 with state := 2, spilled := true, region := 2 })]
        tiers := { State.reset.tiers with regions := regions0, be := [⟨trFill, false, none, 9, 0, 0, 2, false, none⟩] } };
      s.region (s.ctx 9).region = some ⟨1, 2, 4096, useClient, true, 0, true, 0, 0⟩ ∧ (s.ctx 9).spilled = true ∧
        s.headTransfer (fun t => t.kind = trFill && t.ctx = 9) = some ⟨trFill, false, none, 9, 0, 0, 2, false, none⟩ ∧
        s.allocTest 1 1 (chargeOf 1 4096) = 0) ∧
    (let s : State := { rig [] with tiers := { State.reset.tiers with regions := [(6, ⟨15, 2, 2 ^ 28, useCxlm, false, 0, false, 0, 0⟩)] } };
      s.region 6 = some ⟨15, 2, 2 ^ 28, useCxlm, false, 0, false, 0, 0⟩) := by decide

theorem test_hyp_Quotas : Open (rig (on pageTier)) 0 pageTier ∧
    (let s := rig room;
      s.rd (tqMin 1 3) ≤ (2 ^ 24 : BitVec 64).toNat ∧ (0 : BitVec 64).toNat ≤ s.rd (tqMax 1 1) ∧ ¬ s.rd (tqMin 1 1) < (0 : BitVec 64).toNat ∧
        (2097152#64).toNat % twoMiB = 0 ∧ ¬ (1#64).toNat % twoMiB = 0 ∧ s.rightsWait = false ∧ s.rd (R.TQ_CXLM 1) = 0 ∧
        kvFind s.tiers.cxlm 1 = none ∧ s.bit (R.TQ_CXLM_STAT 1) 0 = false ∧ 0 < (1#32).toNat ∧ (1024#32).toNat ≤ 1024 ∧
        s.cxlmTotal + (1#32).toNat ≤ 1024 ∧ s.allocStatus 1 2 (1 * 2 ^ 28) = 0) ∧
    1024 < (rig [(R.TQ_CXLM 2, 1)]).cxlmTotal + (1024#32).toNat := by
  unfold Open; decide

theorem test_hyp_Regions :
    GonumReady (regionRig []) cid0 (sqe 1 0 4096 0 0 0) allocMasks ∧ GonumReady (regionRig []) cid0 (sqe 3 0 65536 0 0 0) allocMasks ∧
    (regionRig []).allocStatus 1 1 4096 = 0 ∧ (regionRig []).allocStatus 1 3 65536 = 0 ∧ (regionRig []).t3Absent = false ∧
    4096 ≤ (regionRig []).capBytes 1 ∧ 65536 ≤ (regionRig []).capBytes 3 ∧
    ({ rig [(tierCap 1, 4096)] with ctrls := [(1, ctrl0)] } : State).allocStatus 1 1 4096 = 1 ∧
    GonumReady (regionRig []) cid0 (sqe 0 0 1 0 0 0) freeMasks ∧
    (regionRig []).ownRegion 1 1 = some ⟨1, 1, 4096, useClient, true, 0, true, 0, 0⟩ ∧
    (regionRig []).ownRegion 1 3 = some ⟨1, 3, 65536, useClient, true, 0, true, 0, 0⟩ ∧ (regionRig []).devs.due = [] ∧
    (regionRig []).figureUses 1 1 = false ∧ (regionRig []).binderFree = true ∧ (rig []).binderFree = false ∧
    (regionRig []).ownRegion 1 9 = none ∧ GonumReady (regionRig []) cid0 (sqe 0 0 0 0 0 0) (0, 0, 0, 0, 0, 0) ∧
    (let d : MoveDesc := ⟨1, 0, 2, 0, 4096, 0, 0⟩;
      d.srcOff.toNat + d.len.toNat ≤ 4096 ∧ 0 < d.len.toNat ∧ 4096 ≤ regionSpan) ∧
    (let s : State := { regionRig [] with tiers := { State.reset.tiers with
        regions := regions0, be := [⟨trFill, false, none, 9, 0, 0, 2, false, none⟩] } };
      s.binderFree = false ∧ GonumReady s cid0 (sqe 0 0 0 0 0 0) (0, 0, 0, 0, 0, 0) ∧
        s.ownRegion 1 1 = some ⟨1, 1, 4096, useClient, true, 0, true, 0, 0⟩) ∧
    (let s := regionRig [(R.SYS_FLAGS, 8)];
      s.noT3 = false ∧ s.noWrite = true) ∧
    (regionRig []).paused pageTier = false ∧ (rig [(R.PG_PRESENT pageTier, 3), (R.PG_CTL pageTier, 3)]).paused pageTier = true ∧
    (let s : State := { regionRig [] with ftl := { State.reset.ftl with readOnly := true } };
      GonumReady s cid0 (sqe 0 0 3 0 0 0) freeMasks ∧ s.t3Absent = false ∧ s.readOnly = true ∧ (regionRig []).readOnly = false) := by
  unfold GonumReady; decide

theorem test_hyp_Figures :
    (let s := hostRig (on 0x28);
      let fig : Figure := ⟨core0 false [step0], none, false⟩;
      GonumReady s cid0 (sqe 0 0 0 0 0 0) figLoadMasks ∧ kvFirstFree s.sched.figures 0 1024 = some 0 ∧ fig.cores.all FigureCore.ok = true ∧
        fig.cores.all s.shapeOk = true ∧ fig.cores.all (s.envelopeOk 1) = true ∧ (fig.cores.flatMap FigureCore.grids).all s.gridFits = true ∧
        fig.reserveBad = false ∧ (s.allocAll 1 (figureRegions fig)).1 = 0) ∧
    (⟨{ core0 false [step0] with rows := 0 }, none, false⟩ : Figure).cores.all FigureCore.ok = false ∧
    (⟨core0 false [step0], none, false⟩ : Figure).cores.all (hostRig []).shapeOk = false ∧
    (⟨core0 true [step0], none, false⟩ : Figure).cores.all ((hostRig []).envelopeOk 1) = false ∧
    ((⟨core0 false [⟨1, 1, [], [.custom 5 []], [], []⟩], none, false⟩ : Figure).cores.flatMap FigureCore.grids).all (hostRig []).gridFits = false := by
  unfold GonumReady; decide

theorem test_hyp_Figures_unload :
    (let s : State := { hostRig [] with sched := { State.reset.sched with figures := [(3, ⟨1, ⟨core0 false [step0], none, false⟩, 5, none, [], []⟩)] } };
      GonumReady s cid0 (sqe 3 0 0 0 0 0) (0x3FF, 0, 0, 0, 0, 0) ∧
        s.ownFigure 1 3 = some ⟨1, ⟨core0 false [step0], none, false⟩, 5, none, [], []⟩ ∧ s.figBusy 3 = false ∧ s.devs.due = [] ∧
        s.ownFigure 1 4 = none) ∧
    (let s : State := { runRig room (core0 true [step0]) (run0 true) with ctrls := [(1, ctrl0)] };
      s.ownFigure 1 3 = some ⟨1, ⟨core0 true [step0], none, false⟩, 5, none, [], []⟩ ∧ s.figBusy 3 = true ∧
        GonumReady s cid0 (sqe (9 + 3 * 2 ^ 18) 0 64 0 128 0) runMasks ∧ cid0.q ≠ pmbQ ∧
        s.runStatus 1 (core0 true [step0]) 9 = 0 ∧ s.probeFigure 3 = false ∧ (core0 true [step0]).resultSize ≤ 64 ∧
        bits (9 + 3 * 2 ^ 18) 17 0 = 9 ∧ bits (9 + 3 * 2 ^ 18) 27 18 = 3 ∧ s.runStatus 1 (core0 true [step0]) 8 ≠ 0) := by
  unfold GonumReady; decide

theorem test_hyp_Figures_regions : ∀ g r, (hostRig []).region g = some r → r.client < 16 ∧ r.tier ≤ 3 := by
  intro g r h
  exact absurd h (by simp [State.region, hostRig, rig, State.reset])

theorem test_hyp_Contexts :
    (let s := regionRig [(R.CTX_MAX 1, 5)];
      GonumReady s cid0 (sqe 16384 0 1 2 3 4) (0x7FFF, 0, 0xFFFFFFFF, 0xFFFFFFFF, 0xFFFFFFFF, 0xFFFFFFFF) ∧
        kvFirstFree s.ctxs 0 262144 = some 0 ∧ s.ctxUse 1 < s.force (R.CTX_MAX 1) ∧ s.allocStatus 1 1 (16384 * 4096) = 0) ∧
    (regionRig [(R.CTX_MAX 1, 0)]).force (R.CTX_MAX 1) ≤ (regionRig []).ctxUse 1 ∧
    (let s : State := { regionRig [] with ctxs := [(9, { ctx0 with inRun := false, region := 1 })] };
      GonumReady s cid0 (sqe 9 0 0 0 0 0) ctxMasks ∧ s.idleCtx 1 9 = true ∧
        s.region (s.ctx 9).region = some ⟨1, 1, 4096, useClient, true, 0, true, 0, 0⟩ ∧ s.tiers.pendingFills = [] ∧
        s.idleCtx 1 8 = false ∧ s.paused pageCtx = false) ∧
    (rig [(R.PG_PRESENT pageCtx, 3), (R.PG_CTL pageCtx, 3)]).paused pageCtx = true := by
  unfold GonumReady; decide

theorem test_hyp_Contexts_register :
    (let s : State := { rig (on pageCtx ++ [(R.PG_GUARD pageCtx, 0xFFFF), (banked 1 R.CTX_SEL, 9), (banked 2 R.CTX_SEL, 9)]) with
        ctxs := [(9, { ctx0 with inRun := false, region := 1 })]
        tiers := { State.reset.tiers with regions := regions0 } };
      s.paused pageCtx = false ∧ Open s 1 pageCtx ∧ Open s 2 pageCtx ∧ s.fld (banked 1 R.CTX_SEL) 17 0 = 9 ∧ (s.ctx 9).state ≠ 0 ∧ (s.ctx 9).client = (1 : Client).val ∧
        (s.ctx 9).client ≠ (2 : Client).val ∧ (s.ctx 9).inRun = false ∧ (∀ y ∈ s.ctxs, 1 ∉ y.2.resetBy) ∧ ctx0.inRun = true) := by
  unfold Open; decide

/-! Indexes, channels, the mailbox, the journal. -/

/-- An index of client 1 with three lists: list 0 holds one entry, list 1 one pending delete. -/
def entry0 : FolioEntry := ⟨77, 3, [1, 2]⟩
def list0 : IdxList := ⟨[⟨0, 0, 0, [⟨0, 3, 0, [entry0]⟩]⟩], [], [], []⟩
def index0 : Index := ⟨1, 3, 0, 0, 16, 2 ^ 21, 5, 1, [(0, 3)], [(0, 1)], [(0, list0), (1, ⟨[⟨0, 0, 0, []⟩], [(8, 4)], [], []⟩)]⟩
def quire0 : Quire := ⟨.opened, 1, 0, true, [], 0, List.range 136, true, 0⟩
def idxRig (l : List (Nat × Nat)) : State :=
  { regionRig (on pageVsx ++ l) with
    search := { State.reset.search with indexes := [(4, index0)] }
    ftl := { State.reset.ftl with quires := [(0, quire0)] } }

theorem test_hyp_IndexCommands :
    (let s := regionRig []; let e := sqe 3 (2 * 4) 0 0 0 0;
      s.t3Absent = false ∧ GonumReady s cid0 e (0x1FFFFF, 0x7F, 0xFFFFFFFF, 0xFFFFFFFF, 0, 0) ∧ bits e.cdw11.toNat 6 2 = 2 ∧
        kvFirstFree s.search.indexes 0 256 = some 0 ∧ s.allocStatus 1 2 (64 * 3 + 0) = 0) ∧
    (idxRig []).index 4 = some index0 ∧ (index0.list 0).live = true ∧ (index0.list 1).live = true ∧ (idxRig []).t3Absent = false ∧
    (let e := sqe 4 1 0 0 0 0;
      GonumReady (idxRig []) cid0 e (0xFF, 0x1FFFF, 0, 0, 0, 0) ∧
        (((idxRig []).fetch cid0).idxInsert cid0 e [⟨0, 99, [7]⟩] [0]).isSome = true) ∧
    (let e := sqe 4 0 1 0 0 0;
      GonumReady (idxRig []) cid0 (sqe 4 0 0 0 0 0) (0xFF, 0xFFFFF, 0, 0, 0, 0) ∧ (idxRig []).folioStatus 1 (index0.compactSize 0) = 0 ∧
        (((idxRig []).fetch cid0).idxCompact cid0 (sqe 4 0 0 0 0 0) [0]).isSome = true ∧
        GonumReady (idxRig []) cid0 e (0xFF, 0xFFFFF, 0xFFFFF, 0, 0, 0) ∧ ((index0.list 0).visible 6).length = 1 ∧
        (((idxRig []).fetch cid0).idxMerge cid0 e [17]).isSome = true) ∧
    (GonumReady (idxRig []) cid0 (sqe 4 0 2 0 0 0) (0xFF, 0xFFFFF, 0xF, 0, 0, 0) ∧ [(1 : BitVec 32), 2].all (fun g => decide (g.toNat < 3)) = true) ∧
    GonumReady (idxRig []) cid0 (sqe 4 0 0 0 0 0) (0xFF, 0, 0, 0, 0, 0) ∧ (idxRig []).indexInUse 4 = false ∧ (idxRig []).devs.due = [] ∧
    kvSorted index0.entries = true ∧ (idxRig []).paused pageVsx = false ∧ (regionRig []).paused pageVsx = false ∧
    (idxRig []).readOnly = false ∧ index0.folios ≠ [] ∧
    (let s : State := { idxRig [] with ftl := { State.reset.ftl with readOnly := true } };
      GonumReady s cid0 (sqe 4 0 0 0 0 0) (0xFF, 0, 0, 0, 0, 0) ∧ s.readOnly = true ∧ s.indexInUse 4 = false) := by
  unfold GonumReady; decide +kernel

theorem test_hyp_IndexCommands_folioStatus (k : Nat) (h : k ≤ 1) : (idxRig []).folioStatus 1 k = 0 := by
  match k, h with
  | 0, _ => decide +kernel
  | 1, _ => decide +kernel

/-- The same index with room for two pending deletes, whatever a record takes (R321 leaves it open). -/
theorem test_hyp_IndexCommands_delete :
    ((({ index0 with delSpace := 2 * Config.deleteBytes } : Index).setList 0 { list0 with deletes := [(99, 6)] }).pendingDeletes *
      Config.deleteBytes ≤ 2 * Config.deleteBytes) ∧ list0.deletes.length < 4096 :=
  ⟨Nat.le_refl _, by decide⟩

theorem test_hyp_IndexCommands_compaction :
    (let s := idxRig [(R.VSX_COMPACT_AT, 1)];
      s.vsxCtl R.VSX_COMPACT_AT ≤ (index0.list 1).deletes.length ∧ s.rank5Held = false ∧ s.inService pageVsx = true ∧
        s.quiescing pageVsx = false ∧ s.folioStatus 1 (index0.compactSize 1) = 0 ∧ (s.compactList 4 1 index0 []).isSome = true) ∧
    (let s : State := { idxRig [(R.VSX_COMPACT_AT, 0)] with ftl := { State.reset.ftl with readOnly := true } };
      s.vsxCtl R.VSX_COMPACT_AT ≤ (index0.list 0).deletes.length ∧ s.folioStatus 1 (index0.compactSize 0) ≠ 0) ∧
    (let s : State := { idxRig [] with search := { State.reset.search with indexes := [(4, { index0 with client := 2 })] } };
      s.index 4 = some { index0 with client := 2 }) ∧
    (let m : RunCmd := ⟨cid0, 9, 3, [], 0, 0, 1, 4, 0, 0, 0, 0⟩;
      let f : Figure := ⟨{ core0 false [⟨1, 1, [.query 0 0 0 0], [], [], []⟩] with rows := 1 }, none, false⟩;
      let s : State := { idxRig [] with sched := { State.reset.sched with
        figures := [(3, ⟨1, f, 5, none, [], []⟩)], queue := [m] } };
      s.indexInUse 4 = true) := by decide +kernel

/-- A job of run 1 on index 4, and one that filters two units of region 3. -/
def job0 : Job :=
  ⟨1, 0, 0, 1, true, 0, 4, 5, none, 4, List.replicate 16 0, [(0, 0), (0, 0)], [], [], [], [], false, false, 0, 0, 0, 0, 0, 0, 0, 0, 0, 0⟩
def filter0 : FilterJob := ⟨3, 0, 2, 1024, [], .pass 0 4 1, 0, 0⟩
def jobF : Job := { job0 with filter := some filter0, folios := [], units := [0, 1] }

/-- Channel 0 in service with a job in its queue, or in slot 0. -/
def chanRig (q : List Job) (slots : KV Job) : State :=
  { idxRig (on (pageChn 0)) with search := { State.reset.search with indexes := [(4, index0)], engines := [(0, ⟨slots, q, 0⟩)] } }

/-- A page of region 3, unit 0, with marks. -/
def pageRig (slots : KV Job) (data : List Byte) (marks : List Nat) : State :=
  { chanRig [] slots with ftl := { State.reset.ftl with
      map := [(3 * 2 ^ 40, 0)], pages := [(0, ⟨3, 0, 0, 0, 0, marks, data, 1, 0⟩)] } }

theorem test_hyp_ChannelJobs_start :
    (let s := chanRig [job0] [];
      (s.chan 0).queue = [job0] ∧ ((List.range 4).find? fun k => (kvFind (s.chan 0).slots k).isNone) = some 0 ∧ s.chanUp 0 = true ∧
        s.quiescing (pageChn 0) = false ∧ s.jobCause job0 = none ∧ job0.folios ≠ [] ∧ jobF.units ≠ []) ∧
    (let s : State := { chanRig [jobF] [] with
        ctxs := [(9, { ctx0 with stateLen := 2 ^ 22 })], sched := { State.reset.sched with runs := [(1, run0 false)] } };
      s.jobCause jobF = none) ∧
    (let s : State := { chanRig [{ job0 with klocal := 257 }] [] with sched := { State.reset.sched with runs := [(1, busy 0)] } };
      s.jobCause { job0 with klocal := 257 } = some 2 ∧ s.run 1 = some (busy 0) ∧ (busy 0).replayOf = none ∧ (busy 0).client < 16 ∧
        (∀ r ∈ (busy 0).rows, r < 104)) := by decide +kernel

theorem test_hyp_ChannelJobs_filter :
    (let s := chanRig [] [(0, jobF)];
      (s.chan 0).next = some 0 ∧ kvFind (s.chan 0).slots 0 = some jobF ∧ s.chanUp 0 = true ∧ s.quiescing (pageChn 0) = false ∧
        jobF.client < 16 ∧ s.mapEntry filter0.region 0 = none) ∧
    ((pageRig [(0, jobF)] [1] []).mapEntry 3 0).isSome = true ∧ ((pageRig [(0, jobF)] [1] []).unitData 0 3 0).2 = [] ∧
    ((pageRig [(0, jobF)] [1] [2]).unitData 0 3 0).2 ≠ [] := by decide +kernel

theorem test_hyp_ChannelJobs_scan :
    (let h := leBytes 2 0x7A60 ++ [0, 2, 0, 0, 0, 0] ++ leBytes 4 4 ++ leBytes 48 0;
      let d := h ++ leBytes 4 (crc32c h);
      let s := pageRig [(0, job0)] d [];
      s.index job0.index = some index0 ∧ kvGet 0 index0.folios 0 = 3 ∧
        ((((index0.list 0).at_ 5).chain[0]?).map Folio.unit |>.getD 0) = 0 ∧ index0.folioOk 4 0 0 (s.unitData 0 3 0).1 [] = true) ∧
    index0.folioOk 4 0 0 [] [] = false := by decide +kernel

theorem test_hyp_ChannelJobs_registers :
    (let s := idxRig [(R.PG_GUARD pageVsx, 0xFFFF), (banked 0 R.VSX_SEL, 4 + 2 * 2 ^ 8), (banked 1 R.VSX_SEL, 4 + 2 * 2 ^ 8), (banked 2 R.VSX_SEL, 4)];
      Open s 0 pageVsx ∧ Open s 1 pageVsx ∧ Open s 2 pageVsx ∧ s.index (s.rd (banked 1 R.VSX_SEL) % 256) = some index0 ∧
        s.index (s.rd (banked 0 R.VSX_SEL) % 256) = some index0 ∧ s.index (s.rd (banked 2 R.VSX_SEL) % 256) = some index0 ∧
        bits (s.rd (banked 1 R.VSX_SEL)) 27 8 < index0.lists ∧ index0.client = (1 : Client).val ∧ index0.client ≠ (2 : Client).val) := by
  unfold Open; decide

/-- The supervisor's controller, room for client 3 in T3, and a namespace of client 1 over region 3. -/
def sup0 : Cid := ⟨0, 1, 7⟩
def nsRig (l : List (Nat × Nat)) : State :=
  { regionRig (on pageHif ++ [(tqMax 3 3, 2 ^ 24), (tqMax 4 3, 0), (tqUse 4 3, 1)] ++ l) with ctrls := [(0, ctrl0), (1, ctrl0)], namespaces := [(5, ⟨1, 3, 4⟩)] }

theorem test_hyp_Namespaces :
    (nsRig []).t3Absent = false ∧ GonumReady (nsRig []) sup0 (sqe 3 0 16 0 0 0) nsCreateMasks ∧
    kvFirstFree (nsRig []).namespaces 2 256 = some 2 ∧ (nsRig []).allocStatus 3 3 (16 * 4096) = 0 ∧
    (nsRig []).allocStatus 4 3 (16 * 4096) ≠ 0 ∧ GonumReady (nsRig []) sup0 (sqe 4 0 16 0 0 0) nsCreateMasks ∧
    GonumReady (nsRig []) sup0 (sqe 5 0 0 0 0 0) nsDeleteMasks ∧ kvFind (nsRig []).namespaces 5 = some ⟨1, 3, 4⟩ ∧
    (nsRig []).devs.due = [] ∧ cid0.c ≠ 0 ∧ GonumReady (nsRig []) cid0 (sqe 3 0 16 0 0 0) nsCreateMasks ∧
    GonumReady (nsRig []) cid0 (sqe 5 0 0 0 0 0) nsDeleteMasks ∧ (nsRig []).paused pageFtl = false ∧ (nsRig []).readOnly = false ∧
    (nsRig []).quiescing pageHif = false ∧
    (let s : State := { nsRig [] with ftl := { State.reset.ftl with readOnly := true } };
      GonumReady s sup0 (sqe 5 0 0 0 0 0) nsDeleteMasks ∧ s.readOnly = true ∧ s.t3Absent = false) := by
  unfold GonumReady; decide

theorem test_hyp_Mailbox :
    (let s := nsRig [(R.HIF_PMB_SQE 0, 0x9C + 9 * 2 ^ 16), (R.HIF_PMB_SQE 1, 1), (R.HIF_PMB_SQE 10, 3), (R.HIF_PMB_SQE 12, 16)];
      Open s 0 pageHif ∧ (1 : BitVec 32).toNat.testBit 0 = true ∧ s.bit R.HIF_PMB_STAT 0 = false ∧
        (s.pmbDword 0).toNat % 65536 = 0x9C ∧ s.t3Absent = false ∧
        GonumReady (s.wr R.HIF_PMB_STAT 1) ⟨0, pmbQ, bits (s.pmbDword 0).toNat 31 16⟩ s.pmbEntry nsCreateMasks ∧
        kvFirstFree s.namespaces 2 256 = some 2 ∧
        s.allocStatus ((s.pmbDword 10).toNat % 16) 3 (dword2 (s.pmbDword 12) (s.pmbDword 13) * 4096) = 0) ∧
    (nsRig [(R.HIF_PMB_STAT, 1)]).bit R.HIF_PMB_STAT 0 = true ∧
    ((nsRig [(R.HIF_PMB_SQE 0, 0x10)]).pmbDword 0).toNat % 65536 = 0x10 := by
  unfold GonumReady Open; decide

/-- Context 9 of client 1 with a colophon, out of any run, and a journal of client 1 in region 3. -/
def jrec0 : JRecord := ⟨jRunStart, 0, 2, 9, List.replicate 48 0, false, false, 0, 0⟩
def jrecCold : JRecord := { jrec0 with payload := List.replicate 65 0 ++ [4, 0, 0] }
def jrecState : JRecord := ⟨jState, 0, 2, 9, [1, 2, 3], false, false, 0, 0⟩
def detRig (l : List (Nat × Nat)) (j : Journal) : State :=
  { regionRig (on pageDet ++ [(R.PG_GUARD pageDet, 0xFFFF), (R.DJ_REGION 1, 3), (R.DR_SRC_CTX 1, 9), (R.DR_DST_CTX 1, 9)] ++ l) with
    ctxs := [(9, { ctx0 with inRun := false, region := 1, colophon := some [1] }), (10, { ctx0 with inRun := false })]
    journals := [(1, j)]
    sched := { State.reset.sched with figures := [(3, ⟨1, ⟨core0 false [step0], none, false⟩, 5, none, [], []⟩)] } }
def jour0 : Journal := ⟨[jrec0], [], 0, 0, 0, none, false, false, []⟩

theorem test_hyp_Journal :
    (let s := detRig [(banked 1 R.DET_CSEL, 9), (banked 2 R.DET_CSEL, 9), (banked 0 R.DET_CSEL, 10)] jour0;
      Open s 0 pageDet ∧ Open s 1 pageDet ∧ Open s 2 pageDet ∧ (s.ctx (s.fld (banked 1 R.DET_CSEL) 17 0)).state ≠ 0 ∧
        (s.ctx (s.fld (banked 1 R.DET_CSEL) 17 0)).client = (1 : Client).val ∧
        (s.ctx (s.fld (banked 1 R.DET_CSEL) 17 0)).colophon = some [1] ∧
        (s.ctx (s.fld (banked 2 R.DET_CSEL) 17 0)).client ≠ (2 : Client).val ∧
        (s.ctx (s.fld (banked 0 R.DET_CSEL) 17 0)).colophon = none ∧
        s.rd (R.DJ_CTL 1) < 2 ^ 15 ∧ (5 : BitVec 32).toNat.testBit 0 = true ∧ s.bit (R.DJ_CTL 1) 0 = false ∧ s.jTotal < jCap / 2) ∧
    (let s := detRig [] jour0;
      (s.journal 1).replay = none ∧ (s.ctx 9).state ≠ 0 ∧ (s.ctx 9).client = (1 : Client).val ∧ (s.ctx 9).inRun = false ∧
        (s.ctx 9).spilled = false ∧ s.region (s.ctx 9).region = some ⟨1, 1, 4096, useClient, true, 0, true, 0, 0⟩ ∧
        Region.filled ⟨1, 1, 4096, useClient, true, 0, true, 0, 0⟩ = true ∧ jrec0.type = jRunStart ∧ jrec0.poison = false ∧
        s.drRecords 1 = [jrec0] ∧ jrec0.cold = false ∧
        (detRig [] { jour0 with buffer := [jrecCold] }).drRecords 1 = [jrecCold] ∧ jrecCold.cold = true ∧ (s.ctx 9).state = 1 ∧
        (detRig [] { jour0 with buffer := [jrecState, jrec0] }).drRecords 1 = [jrecState, jrec0] ∧ jrecState.poison = false ∧
        jrecState.payload.length ≤ (s.ctx 9).stateLen ∧ jrecState.payload.length ≤ regionSpan ∧
        fieldOf jrecCold.payload 0 32 = fieldOf jrec0.payload 0 32 ∧
        (s.sched.figures.find? fun f => f.2.client = (1 : Client).val && f.2.fig.main.hash.toNat = fieldOf jrec0.payload 0 32) =
          some (3, ⟨1, ⟨core0 false [step0], none, false⟩, 5, none, [], []⟩)) := by
  unfold Open; decide

theorem test_hyp_Journal_replay :
    (let s : State := { detRig [] { jour0 with replay := some [jrec0] } with
        sched := { State.reset.sched with runs := [(1, { busy 0 with replayOf := some 1, phase := .formed })] } };
      (s.journal 1).replay.isSome = true ∧ (∀ e ∈ s.sched.runs, e.2.replayOf = some 1 → e.2.phase.working = false)) ∧
    (∀ e ∈ [(1, { busy 0 with replayOf := some 1 })], e.2.replayOf = some 1 → e.2.phase.working = true) := by decide

theorem test_hyp_Journal_write :
    (let s := detRig [] jour0;
      let g : Region := ⟨1, 3, 65536, useClient, true, 0, true, 0, 0⟩;
      (s.journal 1).buffer = [jrec0] ∧ s.ownRegion 1 (s.rd (R.DJ_REGION 1)) = some g ∧ g.tier = 3 ∧ g.striped = true ∧ jrec0.size ≤ 65536 ∧
        s.t3Absent = false ∧ s.readOnly = false ∧ (∀ k : Client, (s.journal k).lostRecords = 0) ∧
        Machine.sizeOf (s.journal 1).written + jrec0.size ≤ 65536 ∧ s.rd (R.DJ_BYTES 1) % 65536 + jrec0.bytes.length ≤ 65536 ∧
        s.rd (R.DJ_BYTES 1) % 65536 % 16384 + jrec0.bytes.length ≤ 16384 ∧ s.allocTest 1 3 (0 + s.stagedNew 1) = 0 ∧
        s.allocTest 1 3 (1 + s.stagedNew 1) = 0) ∧
    (let s := detRig [] { jour0 with written := List.replicate 700 { jrec0 with payload := List.replicate 64 0 } };
      65536 < Machine.sizeOf (s.journal 1).written + jrec0.size ∧ jrec0.wrap = false) ∧
    (let s := detRig [] jour0;
      let x : Run := { run0 false with phase := .stalled };
      let t : State := { s with sched := { s.sched with runs := [(1, x)] } };
      t.jTotal < jCap / 2 ∧ kvSorted t.sched.runs = true ∧ t.layersLanded x = true) := by decide +kernel

/-! The flash. -/

/-- A namespace of client 1 over region 3, with unit 0 mapped to a page whose codeword 2 carries the marks given. -/
def rec0 (marks : List Nat) : PageRec := ⟨3, 0, 0, 0, 0, marks, [1, 2, 3], 1, 0⟩
def flashRig (ph : QuirePhase) (stream : Nat) (marks : List Nat) : State :=
  { nsRig [] with
    ftl := { State.reset.ftl with
      map := [(3 * 2 ^ 40, 0)], pages := [(0, rec0 marks)], quires := [(0, { quire0 with phase := ph, stream := stream })] } }
def ns0 : Namespace := ⟨1, 3, 4⟩
def reg0 : Region := ⟨1, 3, 65536, useClient, true, 0, true, 0, 0⟩

theorem test_hyp_Nvm :
    NvmReady (flashRig .opened 0 []) cid0 5 0 4 512 true ns0 reg0 ∧ NvmReady (flashRig .opened 0 []) cid0 5 3 1 512 true ns0 reg0 ∧
    NvmReady (flashRig .opened 0 []) cid0 5 0 1 1 true ns0 reg0 ∧ NvmReady (flashRig .opened 0 []) cid0 5 0 4 65536 true ns0 reg0 := by
  unfold NvmReady; decide +kernel

theorem test_hyp_Nvm_reads :
    NvmReady (flashRig .opened 0 []) cid0 5 2 1 512 false ns0 reg0 ∧ NvmReady (flashRig .opened 0 []) cid0 5 0 1 1 false ns0 reg0 ∧
    ((flashRig .opened 0 []).unitData (unitQdi reg0 (2 / 4)) 3 (2 / 4)).2.contains (2 % 4) = false ∧
    NvmReady (flashRig .opened 0 [2]) cid0 5 2 1 512 false ns0 reg0 ∧
    ((flashRig .opened 0 [2]).unitData (unitQdi reg0 (2 / 4)) 3 (2 / 4)).2.contains (2 % 4) = true ∧
    (flashRig .opened 0 []).ftl.flushes = [] ∧ (flashRig .opened 0 []).ftl.writes = [] ∧
    (flashRig .opened 0 []).newUnits 3 [(0, 0, [5])] = 0 := by
  unfold NvmReady; decide +kernel

theorem test_hyp_Nvm_others :
    (let s : State := { flashRig .opened 0 [] with ftl := { State.reset.ftl with writes := [(0, ⟨some cid0, 5, 1, 0⟩)], order := 1 } };
      (∀ w ∈ s.ftl.writes, w.2.nsid = 5 ∧ w.2.order < s.ftl.order ∧ w.2.cid = some cid0)) ∧
    (let s := nsRig [(R.SYS_FLAGS, 4)];
      s.fetchable cid0 = true ∧ cid0.q ≠ 0 ∧ s.noT3 = true ∧ s.quiescing pageFtl = false) ∧
    (let s := nsRig [(tqMax 1 3, 0)];
      s.newUnits 3 [(0, 0, [5])] ≠ 0 ∧ s.allocTest 1 3 (s.newUnits 3 [(0, 0, [5])] + s.stagedNew 1) = 1) ∧
    (let g : StagedGroup := ⟨0, 3, [(0, 4, [9], [])]⟩;
      let f := (flashRig .opened 0 []).ftl;
      let s : State := { flashRig .opened 0 [] with ftl := { f with groups := [(6, g)], writes := [(0, ⟨some cid0, 5, 1, 0⟩)] } };
      kvFind s.ftl.groups 6 = some g ∧ s.region 3 = some reg0 ∧
        ((s.groupReads 3 reg0 g.units [⟨0, none⟩]).programAll 6 3 reg0 g.units [0]).isSome = true ∧ 4 + 1 ≤ 16384) := by
  decide +kernel

theorem test_hyp_Nvm_blocks (q : Nat) (d : GroupDie) (b : Nat) (h : (flashRig .opened 0 []).blockOf 0 q d = some b) : b = q := by
  simpa [State.blockOf, flashRig, State.reset, kvGet, kvFind, eq_comm] using h

theorem test_hyp_FlashFailures :
    (let s := flashRig .opened 0 [];
      (s.blockOf 0 0 135).isSome = true ∧ s.openQuire 0 0 = some 0 ∧ (s.quire 0 0).phase = .opened ∧
        (s.quire 0 9).phase = .free ∧ 9 < groupQuires ∧ groupQuires - 1 < groupQuires ∧ s.rank5Held = false ∧ s.ftl.active = [] ∧ s.mostWorn 0 9 = true ∧
        (s.die 0 0).status = 0 ∧ (s.die 0 16).status = 1 ∧ (s.quire 0 0).parity = true ∧ s.takes 0 0 = true ∧ s.lcReads 0 0 = false) ∧
    (let s := { flashRig .opened 0 [] with sched := { State.reset.sched with
        runs := [(1, { busy 0 with lc := true, phase := .waitFlash, wavePlan := [.plain 3 0 1] })] } };
      s.lcReads 0 0 = true) ∧
    (∀ e ∈ (flashRig .opened 0 []).ftl.quires, ¬ (e.1 / 65536 = 0 ∧ e.2.phase = .erased ∧ e.2.stream = 0)) ∧
    (flashRig .opened 0 []).unitsOn 0 0 = [(0, rec0 [])] ∧ (flashRig .opened 0 []).unitsOn 0 1 = [] ∧
    (let f := (flashRig .opened 0 []).ftl;
      let s : State := { flashRig .opened 0 [] with ftl := { f with dies := [(0, ⟨0, 0, 0, 104, [], true⟩), (1, ⟨0, 0, 0, 104, [], true⟩)] } };
      (s.die 0 0).status = 0 ∧ (s.die 0 0).reserve = 0 ∧ (s.die 0 1).reserve = 0 ∧ (s.die 0 0).worn = true ∧
        s.rank5Held = false ∧ s.unitsOn 0 0 ≠ [] ∧ s.unitsOn 0 1 = []) ∧
    (let s : State := { nsRig [] with ftl := { State.reset.ftl with dies := [(0, ⟨0, 0, 0, 104, List.replicate 16 0, false⟩)] } };
      16 ≤ ((s.die 0 0).efails.filter fun a => decide (s.etime < a + 3600 * tickSec)).length ∧ (s.die 0 0).status = 0) ∧
    kvFind ({ State.reset with sys := { State.reset.sys with saidAt := [(0x50080, 0)] } } : State).sys.saidAt 0x50080 = some 0 ∧
    (let s : State := { nsRig [] with ftl := { State.reset.ftl with reads := [(0, 100)], retryAt := [(0, [99])] } };
      kvFind s.sys.saidAt 0x50080 = none ∧ s.fld R.FTL_RETRY_WARN 19 0 * min (kvGet 0 s.ftl.reads 0) (2 ^ 20) <
        ((kvGet [] s.ftl.retryAt 0).filter fun j => kvGet 0 s.ftl.reads 0 < j + 2 ^ 20).length * 1000000) := by decide +kernel

/-- The same with quire 1 open for stream 1, 2 or 3, and quire 0 of folded data as the one to collect or level. -/
def upkeepRig (stream : Nat) (old : Nat) (ec : KV Nat) : State :=
  let f := (flashRig .verified old []).ftl
  { flashRig .verified old [] with ftl := { f with
      quires := [(0, { quire0 with phase := .verified, stream := old }), (1, { quire0 with stream := stream })], ec := ec } }

/-- A closed quire with a copy that garbage collection has made of the unit in another. -/
def gcRig : State :=
  let f := (flashRig .verified 1 []).ftl
  { flashRig .verified 1 [] with ftl := { f with
      pages := f.pages ++ [(5, { rec0 [] with quire := 1 })]
      quires := [(0, { quire0 with phase := .verified, stream := 1 }), (1, { quire0 with phase := .closed, stream := 2 })]
      copies := [⟨0, 3, 0, 0, 5⟩] } }

theorem test_hyp_FlashUpkeep :
    (let s := flashRig .closed 0 [];
      (s.quire 0 0).phase = .closed ∧ s.rank5Held = false ∧ s.copiesIn 0 0 = []) ∧
    (let s := gcRig;
      (s.quire 0 1).phase = .closed ∧ s.rank5Held = false ∧ s.copiesIn 0 1 = [⟨0, 3, 0, 0, 5⟩] ∧ s.mapEntry 3 0 = some 0) ∧
    (let s := upkeepRig 1 0 [];
      s.rank5Held = false ∧ s.readOnly = false ∧ kvSorted s.ftl.pages = true ∧ kvFind s.ftl.pages (pageKey 0 0) = some (rec0 []) ∧
        s.mapEntry 3 0 = some 0 ∧ s.region 3 = some reg0 ∧ unitQdi reg0 0 = 0 ∧ placeOk reg0 20 = true ∧ (s.quire 0 0).stream = 0 ∧
        (s.quire 0 0).phase = .verified ∧ (((s.blankCheck 0 1).readUnit 0 3 0 none).program 0 1 20 (rec0 [])).isSome = true) ∧
    (let s := upkeepRig 2 1 [];
      s.gcSource 0 = some 0 ∧ s.uncopied 0 0 = [(0, rec0 [])] ∧ s.readOnly = false ∧ (((s.blankCheck 0 2).readUnit 0 3 0 none).program 0 2 20 (rec0 [])).isSome = true) ∧
    (let s := upkeepRig 3 1 [(0, 10), (1, 10000)];
      s.wearSource 0 = some 0 ∧ s.fld R.FTL_WL_SPREAD 15 0 < s.spread 0 ∧
        ((((s.setBit (R.QDI_STAT 0) 9 true).blankCheck 0 3).readUnit 0 3 0 none).program 0 3 20 (rec0 [])).isSome = true) ∧
    (let s : State := { nsRig [(R.QDI_STAT 0, 512)] with ftl := { State.reset.ftl with quires := [(0, { quire0 with phase := .verified })] } };
      s.gcSource 0 = some 0 ∧ s.validUnits 0 0 = [] ∧ s.bit (R.QDI_STAT 0) 9 = true ∧
        s.spread 0 ≤ s.fld R.FTL_WL_SPREAD 15 0 - 16) ∧
    2 ^ 31 ≤ kvGet 0 ({ nsRig [] with ftl := { State.reset.ftl with jbytes := [(0, 2 ^ 31)] } } : State).ftl.jbytes 0 ∧
    kvGet 0 (nsRig []).ftl.jbytes 0 < 2 ^ 31 := by decide +kernel

/-! The fabric: rank 1 of 4 in tree 0, whose parent is on link 0 and whose only child on link 1; link 30 is a spare. -/

def fab : List (Nat × Nat) := [(R.RED_FAB, 1 + 3 * 2 ^ 16), (R.RED_TREE 0, 1 + 2 ^ 31), (R.RED_CTL, 1)]
def fabRig (l : List (Nat × Nat)) : State := rig (on pageRed ++ on (pageLnk 0) ++ fab ++ l)

/-- Link l with a unit of its own. -/
def linkRig (l : List (Nat × Nat)) (n : Nat) (u : LinkUnit) : State := { fabRig l with links := [(n, u)] }
def flit0 (seq ack : Nat) (body : FlitBody) (ok : Bool) : Flit := ⟨seq, ack, false, body, ok, 0, false⟩

theorem test_hyp_LinksTrain :
    (let s := fabRig [];
      Open s 0 (pageLnk 0) ∧ s.linkState 0 = lkDown ∧ s.spareOf 0 = none ∧ (s.linkUnit 0).outq = []) ∧
    (let s := fabRig [(R.LNK_STAT 0, lkWait), (R.LNK_PEER_ID 0 7, 2 ^ 32 - 1)];
      s.linkState 0 = lkWait ∧ s.spareOf 0 = none ∧ (List.range 8).all (fun i => decide (s.rd (R.LNK_PEER_ID 0 i) < 2 ^ 32)) = true) ∧
    (let s := fabRig [(R.LNK_STAT 0, lkTrain)];
      s.linkState 0 = lkTrain ∧ s.planFits 0 ⟨0, 1, 0, 1⟩ = true ∧ s.planFits 0 ⟨2, 1, 0, 1⟩ = false) ∧
    (let s := fabRig [(R.LNK_STAT 0, lkAuth)];
      s.linkState 0 = lkAuth ∧ s.bit R.SEC_STAT 0 = false) ∧
    (let s := fabRig [(R.LNK_STAT 0, lkAuth), (R.SEC_STAT, 1), (R.LNK_ADM_ID 0 7, 2 ^ 31)];
      s.bit R.SEC_STAT 0 = true ∧ (BitVec.ofNat 256 (2 ^ 255)).toNat = s.digestAt (R.LNK_ADM_ID 0) ∧
        (BitVec.ofNat 256 0).toNat ≠ s.digestAt (R.LNK_ADM_ID 0)) := by
  unfold Open; decide +kernel

theorem test_hyp_LinksCarry_flits :
    (let s := linkRig [(R.LNK_STAT 0, lkUp)] 0 { emptyLink with expect := 4095 };
      s.linkState 0 = lkUp ∧ (s.linkUnit 0).outq = [] ∧ (s.linkUnit 0).retry = [] ∧ (flit0 0 0 .idle false).crcOk = false ∧
        sequenced (.peer 0 1 [9] false) = true ∧ (flit0 4095 0 (.peer 0 1 [9] false) true).seq = (s.linkUnit 0).expect) ∧
    (let s := linkRig [(R.LNK_STAT 0, lkUp)] 0 { emptyLink with expect := 0 };
      (s.linkUnit 0).expect < (flit0 2047 0 (.peer 0 1 [9] false) true).seq ∧ 2047 < (s.linkUnit 0).expect + 2048 ∧ 2047 < 4096) ∧
    (let u : LinkUnit := { emptyLink with next := 3, retry := [(0, .mgmt (.treeReady 0)), (1, .time ⟨0, 0, 0, 0, none, 0, 0⟩), (2, .mgmt .switch)], nakked := true };
      let s := linkRig [(R.LNK_STAT 0, lkUp)] 0 u;
      s.linkState 0 = lkUp ∧ (s.linkUnit 0).outq = [] ∧ (flit0 0 1 .idle true).body = .idle ∧
        (s.linkUnit 0).nakked = true ∧ emptyLink.nakked = false ∧
        (s.linkUnit 0).retry.findIdx? (fun e => e.1 = (flit0 0 1 .idle true).ack) = some 1) := by decide +kernel

theorem test_hyp_LinksCarry_retrain :
    (let s := fabRig [(R.LNK_STAT 0, lkUp)];
      s.linkState 0 = lkUp ∧ s.partner 0 = none ∧ s.fld (R.LNK_RT_MAX 0) 3 0 ≤ 3 ∧ 2 < s.fld (R.LNK_RT_MAX 0) 3 0 ∧
        (0 : BitVec 256).toNat = s.digestAt (R.LNK_ADM_ID 0) ∧ (s.linkUnit 0).outq = [] ∧ (s.linkUnit 0).retry = []) ∧
    (let s := linkRig [(R.LNK_RETRY_WARN 0, 4)] 0 { emptyLink with replays := [(0, 5)] };
      5 = (((s.linkUnit 0).replays.filter fun e => s.etime < e.1 + tickSec).map Prod.snd).sum ∧ s.rd (R.LNK_RETRY_WARN 0) < 5 ∧
        (s.linkUnit 0).warnedAt = none) ∧
    64 < (linkRig [(R.LNK_STAT 0, lkUp)] 0 { emptyLink with replays := [(0, 65)] }).replaysNow 0 ∧
    ((fabRig []).linkUnit 0).replays = [] ∧
    (let s := fabRig [(R.LNK_ROLE 30, 0xE + 2 ^ 13), (R.LNK_STAT 0, lkDown + 8), (R.LNK_STAT 30, lkStandby)];
      s.partner 0 = some 30 ∧ s.spareOf 0 = some 30 ∧ s.carries 0 = true ∧ s.linkState 30 = lkStandby ∧ s.linkState 0 = lkDown ∧ (s.linkUnit 0).outq = [] ∧
        (s.linkUnit 30).outq = [] ∧ (s.linkUnit 30).retry.length < 1024 ∧ s.bit (R.PG_CTL (pageLnk 30)) 1 = false) := by decide +kernel

theorem test_hyp_LinksCarry_peer :
    (let m : PeerMsg := ⟨1, 1, false, true, false, [7]⟩;
      let s := linkRig [(R.LNK_STAT 0, lkUp)] 0 { emptyLink with outbox := [m], credits := 1 };
      (s.linkUnit 0).outbox.find? (fun m => m.go) = some m ∧ 0 < (s.linkUnit 0).credits ∧ s.linkState 0 = lkUp ∧
        s.bit (R.PG_CTL (pageLnk 0)) 1 = false ∧ (s.linkUnit 0).outq = [] ∧ (s.linkUnit 0).retry.length < 1024 ∧ m.bytes.length = 1) ∧
    (linkRig [] 0 emptyLink).linkUnit 0 = emptyLink ∧ emptyLink.credits = 0 ∧
    (let u : LinkUnit := { emptyLink with postings := [⟨1, 5, 8, 1⟩], whole := [([7], false, 0)] };
      let x : Run := { busy 0 with phase := .boundary };
      let s : State := { linkRig [] 0 u with sched := { State.reset.sched with runs := [(1, x)] } };
      (s.linkUnit 0).postings = [⟨1, 5, 8, 1⟩] ∧ (s.linkUnit 0).whole = [([7], false, 0)] ∧ [(7 : Byte)].length ≤ 1 ∧
        1 < [(7 : Byte), 8].length ∧ s.run 1 = some x ∧ x.live = true ∧ x.phase ≠ .computing ∧ 8 + 1 ≤ regionSpan ∧ x.replayOf = none ∧ x.journalled = false) := by
  decide +kernel

theorem test_hyp_Trees :
    (let s := rig (on pageRed ++ [(R.RED_FAB, 1 + 3 * 2 ^ 16), (R.RED_TREE 0, 1 + 2 ^ 31)]);
      Open s 0 pageRed ∧ s.bit R.RED_CTL 0 = false ∧ s.redRefuses = false ∧ (rig (on pageRed)).redRefuses = true ∧
        Open (rig (on pageRed)) 0 pageRed ∧ (rig (on pageRed)).bit R.RED_CTL 0 = false) ∧
    (let s : State := { fabRig [(R.LNK_STAT 1, lkUp), (R.LNK_STAT 0, lkUp)] with red := { State.reset.red with childReady := [(0, true)] } };
      s.bit R.RED_CTL 0 = true ∧ s.inPlan 0 = true ∧ s.red.reported.contains 0 = false ∧ s.children 0 = [1] ∧ s.treeUp 0 1 = true ∧
        (kvFind s.red.childReady (2 * 0 + 1 - 1)).isSome = true ∧ s.treeNeighbour 0 0 ≠ none ∧ s.treeLink 0 0 = some 0 ∧
        s.treeLink 0 1 = some 1 ∧ s.linkUp 0 = true ∧ (s.linkUnit 0).outq = [] ∧ (s.linkUnit 0).retry.length < 1000 ∧
        s.bit (R.PG_CTL (pageLnk 0)) 1 = false) ∧
    (let s : State := { rig [(R.RED_FAB, 3 * 2 ^ 16), (R.RED_TREE 0, 1 + 2 ^ 31), (R.RED_CTL, 1), (R.LNK_STAT 1, lkUp), (R.LNK_STAT 2, lkUp)] with
        red := { State.reset.red with childReady := [(0, true), (1, true)] } };
      s.treeNeighbour 0 0 = none ∧ s.children 0 = [1, 2] ∧ s.treeUp 0 1 = true ∧ s.treeUp 0 2 = true) ∧
    (let s : State := { fabRig [] with red := { State.reset.red with reported := [0] } };
      s.red.reported.contains 0 = true ∧ s.red.downSeen.contains 0 = false ∧ s.tset.testBit 0 = false ∧ s.red.joining = []) ∧
    isStopCode 0x7009 = true ∧ isStopCode 5 = false := by
  unfold Open; decide +kernel

/-- A bucket of 128 bytes (2 blocks) released over tree 0, of run 1. -/
def bucket0 (landed : KV Block) : Bucket :=
  ⟨128, 1, 1, 5, 64, 0, 1, 0, 0, [zeroBlock false, zeroBlock false], [], landed, [], 0, true, false⟩
def bucketRig (l : List (Nat × Nat)) (b : Bucket) : State :=
  { fabRig ([(R.RED_TSET, 1), (R.LNK_STAT 0, lkUp), (R.LNK_STAT 1, lkUp)] ++ l) with red := { State.reset.red with buckets := [(4, b)] } }

theorem test_hyp_Trees_down :
    (let s := bucketRig [] (bucket0 []);
      s.red.downSeen.contains 0 = false ∧ kvSorted s.red.buckets = true ∧ s.bucket 4 = some (bucket0 []) ∧ s.tset.testBit 0 = true ∧
        (bucket0 []).mask = s.tset ∧ s.tset = 2 ^ 0 ∧ s.bit R.RED_STAT 1 = false ∧ s.sched.runs = []) ∧
    (bucketRig [(R.RED_TSET, 3)] (bucket0 [])).tset ≠ 2 ^ 0 ∧
    (let s := bucketRig [(R.LNK_STAT 1, lkDown)] (bucket0 []);
      s.linkTree 1 = 0 ∧ (s.treeNeighbour 0 (s.linkDir 1)).isSome = true ∧ s.linkState 1 = lkDown ∧ s.partner 1 = none) ∧
    (let s := fabRig [];
      s.bit R.RED_STAT 1 = false ∧ s.sched.runs = [] ∧ s.tset = 0 ∧ s.red.downSeen = [] ∧ (bucketRig [] (bucket0 [])).tset ≠ 0) ∧
    (let s : State := { fabRig [] with red := { State.reset.red with downSeen := [0] } };
      s.tset = 0 ∧ s.red.downSeen ≠ []) ∧
    (let x : Run := { busy 0 with bucketWait := [4] };
      x.bucketWait ≠ [] ∧ x.live = true ∧ x.replayOf = none ∧ x.journalled = false) := by decide +kernel

theorem test_hyp_Buckets :
    (let b := bucket0 [];
      let s := bucketRig [] { b with children := [(0, zeroBlock false), (2, zeroBlock false)] };
      s.bucket 4 = some { b with children := [(0, zeroBlock false), (2, zeroBlock false)] } ∧ b.released = true ∧
        s.bit R.RED_STAT 1 = false ∧ (treesOf b.mask)[0 % (treesOf b.mask).length]? = some 0 ∧ 0 < bucketFlits b.size ∧
        b.sent.contains 0 = false ∧ s.children 0 = [1] ∧ bucketBlocks b.size = 2 ∧ s.treeNeighbour 0 0 ≠ none ∧
        s.treeLink 0 0 = some 0 ∧ s.linkUp 0 = true) ∧
    (let b := { bucket0 [] with size := 1024, mask := 3, sent := [0] };
      (treesOf b.mask)[2 % (treesOf b.mask).length]? = some 0 ∧ 2 < bucketFlits b.size ∧ b.sent.contains 2 = false ∧
        b.sent.contains (2 - (treesOf b.mask).length) = true) ∧
    (rig [(R.RED_FAB, 3 * 2 ^ 16)]).treeNeighbour 0 0 = none ∧ kvFind (bucket0 []).children (2 * (7 * 0) + 1 - 1) = none ∧
    (bucket0 []).landed.length < bucketBlocks 128 ∧
    (bucket0 [(0, zeroBlock true), (1, zeroBlock false)]).landed.length = bucketBlocks 128 ∧
    (bucket0 []).discard = false ∧ 64 + 128 + 32 ≤ regionSpan ∧ (bucketRig [] (bucket0 [])).run 1 = none := by decide +kernel

/-! The setpoint port. -/

/-- Endpoint 4 of client 1 on cage 0, in force, with 10 µs steps, a ramp of 5 and no last setpoints; and a record for it. -/
def ep0 : Endpoint := ⟨0x1234, true, 0, false, true, false, 1, 10, 5, -100, 100, 0, 1000, 0, 0, 0, [], false⟩
def rec1 (start : Nat) : SetRecord := ⟨4, 0, start, [7, -3], false, true, 1, List.replicate 128 0, false, 0, none, [], false, false⟩
def sptRig (l : List (Nat × Nat)) (start : Nat) : State :=
  { rig (on pageSpt ++ [(R.PG_GUARD pageSpt, 0xFFFF), (R.SPT_CTL, 1), (R.SPT_STAT, 3), (R.SPT_MIN_LEAD, 0), (banked 0 R.SPT_SEL, 4), (banked 1 R.SPT_SEL, 4),
      (banked 2 R.SPT_SEL, 4)] ++ l) with
    spt := { State.reset.spt with table := [(4, ep0)], launched := [(4, rec1 start)] } }

theorem test_hyp_Setpoint :
    (let s := sptRig [] (100 * tickUs);
      kvFind s.spt.launched 4 = some (rec1 (100 * tickUs)) ∧ (rec1 0).endpoint = 4 ∧ (rec1 0).entry = none ∧ (rec1 0).gone = [] ∧ s.spt.freeAt = [] ∧ s.cageTurn 4 0 = true ∧ ep0.cages = [0] ∧
        (s.until (90 * tickUs)).delayReqReady = false ∧ s.quiescing pageSpt = false ∧
        s.endpoint 4 = ep0 ∧ (s.until 0).sptCause ep0 (rec1 (100 * tickUs)) 0 = none ∧ ep0.cage < 2 ∧
        (s.until (90 * tickUs)).sptCause ep0 (rec1 (300 * tickUs)) (90 * tickUs) = some 6) ∧
    (let s : State := { sptRig [] 0 with spt := { State.reset.spt with table := [(3, ep0), (4, ep0)], launched := [(3, { rec1 0 with endpoint := 3 }), (4, rec1 0)] } };
      s.sptTurn 4 = false) ∧
    (let s : State := { sptRig [] 0 with tmb := { State.reset.tmb with ptp := { State.reset.tmb.ptp with t2 := some 1 } } };
      (s.until 0).delayReqReady = true ∧ s.fld R.TMB_PTP_CTL 9 9 = ep0.cage ∧ s.cageTurn 4 ep0.cage = true) := by decide +kernel

/-- Words of an entry with step 10, a ramp of 5, limits -1 and 1, default 0; and one with step 0. -/
def sptWords (step : Nat) : List (Nat × Nat) :=
  [(banked 0 (sptE 0), 0x1234), (banked 0 (sptE 1), 0x01010000), (banked 0 (sptE 2), step), (banked 0 (sptE 3), 5),
    (banked 0 (sptE 4), 2 ^ 32 - 1), (banked 0 (sptE 5), 1)]

theorem test_hyp_EndpointTable :
    (let s := sptRig (sptWords 10) 0;
      Open s 0 pageSpt ∧ Open s 1 pageSpt ∧ Open s 2 pageSpt ∧ s.fld (banked 1 R.SPT_SEL) 15 0 = 4 ∧ (s.endpoint 4).client = (1 : Client).val ∧
        (s.endpoint 4).client ≠ (2 : Client).val ∧
        (endpointOf ((List.range 8).flatMap fun i => leBytes 4 (s.rd (banked 0 (sptE i))))).refused = false ∧ s.rightsWait = false ∧
        s.spt.staged = [] ∧ s.sched.commit = none ∧ (10 : Nat) ≠ 0 ∧ (s.endpoint 4).step = 10 ∧ (s.endpoint 4).en = true) ∧
    (let s := sptRig (sptWords 0 ++ [(R.SEC_RIGHTS_CTL, 1)]) 0;
      (endpointOf ((List.range 8).flatMap fun i => leBytes 4 (s.rd (banked 0 (sptE i))))).refused = true ∧ s.rightsWait = true) ∧
    (31 : BitVec 32).toNat.testBit 0 = true ∧ (30 : BitVec 32).toNat.testBit 0 = false ∧ (sptRig [] 0).bit R.SPT_STAT 0 = true := by
  unfold Open; decide +kernel

/-! Queues and admin commands. -/

theorem test_hyp_Queues :
    (let s := hostRig [(R.HIF_QUSE 1, 4)]; let x := s.ctrl 1;
      kvFind x.sqs 1 = some ⟨64, 0, 1, 0, 1, [(7, true)], none⟩ ∧ 63 < 64 ∧ x.aers = [] ∧ kvFind x.sqs 2 = none ∧
        kvFind x.cqs 1 = some cq0 ∧ cq0.held = [] ∧ kvFind x.cqs 2 = none ∧ x.en = true ∧ (s.ctrl 2).en = false ∧
        AdminReady s adm0 ∧ adm0.c = 1 ∧ s.cqOf adm0 = 0 ∧ (2 ≠ 0 ∧ 2 ≤ s.rd (R.HIF_QUSE 1)) ∧ (1 ≠ 0 ∧ (kvFind x.cqs 1).isSome = true) ∧
        ¬ 5 ≤ s.rd (R.HIF_QUSE 1) ∧ s.unadmitted (ofQueue 1 1) = false ∧ (∀ f ∈ x.fetched, f.1 ≠ 1) ∧
        (∀ e ∈ x.sqs, e.2.cq = 1 ∨ e.1 = 0) ∧ (∀ e ∈ s.sched.runs, e.2.phase ≠ .posting)) ∧
    (let q : CplQ := { cq0 with size := 2, tail := 1, head := 0, held := [⟨1, 8, 0, 0, false, 0, 0, none⟩] };
      q.held = [⟨1, 8, 0, 0, false, 0, 0, none⟩] ∧ (q.tail + 1) % q.size ≠ 1) ∧
    (let s : State := { hostRig [] with ctrls := [(1, { ctrl0 with fetched := [(1, 9)], cqs := [(0, cq0), (1, cq0), (2, cq0)] })] };
      AdminReady s adm0 ∧ (∀ f ∈ (s.ctrl 1).fetched, f.1 = 1) ∧ (kvFind (s.ctrl 1).cqs 2).isSome = true ∧
        (∀ e ∈ (s.ctrl 1).sqs, e.2.cq ≠ 2)) := by
  unfold AdminReady; decide

theorem test_hyp_Admin :
    AdminReady (hostRig []) adm0 ∧ ((hostRig []).identifyData 1 1 0).isSome = true ∧ ((hostRig []).identifyData 1 0 9) = none ∧
    ((hostRig []).logPage 1 2).isSome = true ∧ (hostRig []).logPage 1 0x77 = none ∧ featureOk 0x0B = true ∧ featureOk 3 = false ∧
    (hostRig [(R.HIF_QUSE 1, 4), (R.HIF_QMAX 1, 8), (R.HIF_QFREE, 100)]).queueGrant 1 2 ≠ 0 ∧
    (hostRig [(R.HIF_QUSE 1, 4)]).rd (R.HIF_QUSE 1) ≠ 0 ∧ kvFind ((hostRig []).ctrl 1).sqs 5 = none ∧
    kvFind ((hostRig []).ctrl 1).sqs 1 = some ⟨64, 0, 1, 0, 1, [(7, true)], none⟩ ∧ (hostRig []).cqOf cid0 ≠ (hostRig []).cqOf adm0 ∧
    (hostRig []).unadmitted (fun m => decide (m.cid = cid0)) = false ∧ [(7, true)].contains (8, true) = false ∧
    (let s : State := { hostRig [] with sched := { State.reset.sched with queue := [{ cmd0 with cid := ⟨1, 1, 9⟩ }] } };
      s.unadmitted (fun m => decide (m.cid = ⟨1, 1, 9⟩)) = true ∧ kvSorted s.sched.runs = true ∧ AdminReady s adm0) ∧
    ((hostRig []).ctrl 1).aers = [] ∧ ((hostRig []).ctrl 1).events = [] ∧
    (let s : State := { hostRig [] with ctrls := [(1, { ctrl0 with events := [(2, 1, 3)] })] };
      AdminReady s adm0 ∧ (s.ctrl 1).aers = [] ∧ (s.ctrl 1).events = [(2, 1, 3)]) ∧
    (let s : State := { hostRig [] with ctrls := [(1, { ctrl0 with aers := [1, 2, 3, 4, 5, 6, 8, 9] })] };
      AdminReady s adm0 ∧ 8 ≤ (s.ctrl 1).aers.length) := by
  unfold AdminReady; decide +kernel

/-! The firmware store. -/

/-- An image of 3,565 bytes with an empty body, whose digest matches, for the part. -/
def image0 : List Byte :=
  leBytes 2 0x7AB0 ++ [1, 0] ++ leBytes 4 3565 ++ leBytes 4 0x882400A1 ++ leBytes 20 0 ++ shake256 [] 64 ++ List.replicate 3469 0
def good0 (svn seq : Nat) : FwImage := ⟨true, true, 3565, 0x882400A1, svn, 1, [], seq, [], true, []⟩

/-- The supervisor's controller, endpapers front and back valid, the front running. -/
def supAdm : Cid := ⟨0, 0, 7⟩
def fwRig (l : List (Nat × Nat)) (f : NorState → NorState) : State :=
  { rig (on pageHif ++ l) with
    ctrls := [(0, ctrl0), (1, ctrl0)]
    nor := f { State.reset.nor with front := good0 3 1, back := good0 4 2 } }

theorem test_hyp_Firmware :
    AdminReady (fwRig [] id) supAdm ∧ supAdm.c = 0 ∧ (fwRig [] id).pieceOk 4096 [1, 2] = true ∧ (fwRig [] id).pieceOk 4095 [1] = false ∧
    (fwRig [] id).pieceOk 8388608 [1] = false ∧ slotBack 3 = none ∧ slotBack 1 = some (fwRig [] id).runsBack ∧
    slotBack 2 = some true ∧ true ≠ (fwRig [] id).runsBack ∧
    (fwRig [] id).imageFault { parseImage (fwRig [] id).staged with seq := 0 } true = some 0xA001 ∧
    (fwRig [] id).imageFault ((fwRig [] id).endpaper true) true = none ∧
    (fwRig [] id).imageFault ((fwRig [] id).endpaper true) false = some 0xA002 ∧ AdminReady (fwRig [] id) adm0 ∧ adm0.c ≠ 0 := by
  unfold AdminReady; decide +kernel

theorem test_hyp_Firmware_staged : (fwRig [] fun n => { n with staged := [(0, image0)] }).staged = image0 ∧
    (let im := { parseImage image0 with seq := 0 };
      (fwRig [] id).imageFault im true = none ∧ (fwRig [] id).imageFault im false = some 0xA002) := by decide +kernel

/-- An activation of the back endpaper that runs. -/
def actNor (attempts : List Nat) (drained : Bool) (n : NorState) : NorState :=
  { n with running := true, drained := drained, activation := some supAdm, attempts := attempts
           selectors := [⟨true, true, 2⟩, ⟨true, true, 2⟩, ⟨true, true, 2⟩] }

theorem test_hyp_Activations :
    (let s := fwRig [] (actNor [2] false);
      s.nor.running = true ∧ s.nor.drained = false ∧ s.workDone = true ∧ s.nor.selectors = [⟨true, true, 2⟩, ⟨true, true, 2⟩, ⟨true, true, 2⟩] ∧
        s.imageFault (s.endpaper true) true = none ∧ (s.nor.attempts.filter fun q => q = 2).length < 2 ∧
        (s.imageFault (s.endpaper true) false).isSome = true ∧ (s.imageFault (s.endpaper false) false).isSome = true) ∧
    (let s0 := fwRig [] (actNor [] false);
      let s : State := { s0 with ctrls := [(0, { ctrl0 with fetched := [(0, 7), (1, 3)] })], sys := { s0.sys with low := true } };
      s.workDone = false ∧ s.sys.low = true ∧ s.nor.activation = some supAdm ∧ supAdm.q = 0 ∧
        (supAdm.q, supAdm.id) ∈ (s.ctrl supAdm.c).fetched) ∧
    (let s0 := fwRig [(R.NOR_STAT, 1)] (actNor [2] true);
      let s : State := { s0 with ctrls := [(0, { ctrl0 with fetched := [(0, 7)] })], sys := { s0.sys with low := true } };
      s.inTrial = true ∧ s.runsBack = true ∧ s.bit R.NOR_STAT 2 = false ∧ s.nor.drained = true ∧ s.sys.low = true ∧
        s.nor.activation = some supAdm ∧ (supAdm.q, supAdm.id) ∈ (s.ctrl supAdm.c).fetched) ∧
    (let s0 := fwRig [(R.NOR_STAT, 1)] fun n => { actNor [2] false n with running := false };
      let s : State := { s0 with sys := { s0.sys with low := false } };
      s.inTrial = true ∧ s.nor.drained = false ∧ s.rd R.SYS_STATE = 6 ∧ s.sys.low = false ∧ s.released = true ∧
        (s.endpaper true).raise = true ∧ (0 : Nat) ∈ s.nor.rollback ∧ 0 < min (s.endpaper true).svn 1024) ∧
    (fwRig [] id).inTrial = false := by decide +kernel

theorem test_hyp_Activations_recovery :
    (let s := fwRig [(R.SYS_STATE, 8)] id;
      let h : MsgHead := ⟨0x7A90, 1, 0x22, 0, 0, 3565⟩;
      s.rd R.SYS_STATE = 8 ∧ h.magic = 0x7A90 ∧ h.len ≤ image0.length ∧ h.status = 0 ∧ h.version = 1) ∧ (fwRig [] id).rd R.SYS_STATE ≠ 8 := by decide +kernel

/-! The host interface and the security unit. -/

theorem test_hyp_HostInterface :
    (0, [0x01, 0x00, 0x00, 1]) ∈ [((0 : Nat), [(0x01 : Byte), 0x00, 0x00, 1]), (1, [0x98, 0x1E, 0x02, 2])] ∧
    (let x : Ctrl := { ctrl0 with fetched := [(1, 9)] };
      let s : State := { busyRig [] with ctrls := [(1, x)] };
      (1, 9) ∈ (s.ctrl 1).fetched ∧ s.run 1 = some (busy 0) ∧ kvSorted s.sched.runs = true ∧ (busy 0).phase ≠ .formed ∧ (busy 0).phase ≠ .posting) ∧
    (rig [(R.TQ_CXLM_STAT 1, 1)]).bit (R.TQ_CXLM_STAT 1) 0 = true ∧ (rig []).bit (R.TQ_CXLM_STAT 1) 0 = false ∧
    (hostRig []).window 1 = none ∧
    (let r : Region := ⟨1, 2, 2 ^ 28, useCxlm, false, 0, true, 0, 0⟩;
      let s : State := { rig [(R.TQ_CXLM_STAT 1, 3)] with
        tiers := { State.reset.tiers with regions := [(6, r)], cxlm := [(1, 6)] }, memPoison := [(6 * 2 ^ 44 + 1, true)] };
      s.window 1 = some 6 ∧ s.region 6 = some r ∧ 2 ^ 28 - 64 + 64 ≤ r.bytes ∧ s.memReadPoison 6 64 64 = false ∧
        s.memReadPoison 6 0 64 = true ∧ r.bytes ≤ regionSpan ∧ 64 % 64 + (List.replicate 64 (0 : Byte)).length ≤ 64 ∧
        kvFind s.devs.merge (0 * 2 ^ 34 + 0) = none) ∧
    (let s : State := { rig [] with
        attnWanted := .ready, etime := 100 * tickUs, sys := { State.reset.sys with low := false, releasedAt := 0 } };
      s.attnWanted = .ready ∧ s.rbReady = true ∧ s.sys.patternEnd = none) ∧
    (let s : State := { rig [] with attnWanted := .busy, sys := { State.reset.sys with low := false } };
      s.attnWanted = .busy ∧ s.rbReady = true) ∧ State.reset.reached 3 = false ∧ (rig []).reached 15 = true ∧
    (let s : State := { rig [] with
        attnWanted := .ready, etime := 100 * tickUs
        sys := { State.reset.sys with low := false, releasedAt := 0, patternEnd := some 5, attnRead := true } };
      s.rbReady = true ∧ s.attnWanted = .ready ∧ s.sys.patternEnd = some 5 ∧ s.sys.attnRead = true) ∧
    (rig []).attnWanted = .no ∧ (3 : Nat) ∉ [1, 2, 4, 8] ∧ (8 : Nat) ∈ [1, 2, 4, 8] ∧ (64 : Nat) ∈ [8, 16, 32, 64] := by decide +kernel

/-- The module with an identity, a nonce and a log. -/
def attRig (l : List (Nat × Nat)) (nonce : List Byte) : State :=
  { rig ([(R.SEC_STAT, 1)] ++ l) with
    sec := { State.reset.sec with dik := [1, 2], nonce := some nonce, log := [⟨0, 1, [], []⟩] }
    nor := { State.reset.nor with certs := [List.replicate 16 1] } }
def head0 (code len : Nat) : MsgHead := ⟨0x7A90, 1, code, 3, 0, len⟩

theorem test_hyp_Attestation :
    (let s := attRig [] (List.replicate 32 9);
      s.sys.aux = true ∧ s.rd R.SYS_STATE ≠ 0 ∧ s.nor.running = false ∧ s.bit R.SEC_STAT 0 = true ∧ (rig []).bit R.SEC_STAT 0 = false ∧
        ¬ ((head0 1 0).magic ≠ 0x7A90 ∨ ([] : List Byte).length < (head0 1 0).len ∨ (head0 1 0).status ≠ 0) ∧
        (head0 1 4).len > ([] : List Byte).length ∧ (head0 9 0).code ≠ 1 ∧
        (let p := leBytes 4 0 ++ leBytes 4 16; 8 ≤ (head0 3 8).len ∧ 0 < field p 4 4 ∧ field p 4 4 ≤ 4096 ∧ p.length = 8) ∧
        (let p := leBytes 2 255; 0 < field p 0 2 ∧ field p 0 2 < 256) ∧
        (let p := List.replicate 32 0 ++ leBytes 2 1; 0 < field p 32 2 ∧ p.length = 34) ∧
        (let p := leBytes 4 0 ++ leBytes 4 1; 0 < field p 4 4 ∧ field p 4 4 ≤ 32 ∧ field p 0 4 + field p 4 4 ≤ s.sec.log.length) ∧
        AttPath.arrives (.doe 15) s = true ∧ AttPath.arrives .sideband s = true ∧
        AttPath.supervisor .sideband = true ∧ AttPath.supervisor (.doe 0) = true ∧ AttPath.supervisor (.doe 15) = false) := by
  decide +kernel

theorem test_hyp_Attestation_chain (nonce : List Byte) : 0 + 16 ≤ (attRig [] nonce).certChain.length := by
  simp [State.certChain, attRig]

theorem test_hyp_Attestation_unlock :
    (let p := List.replicate 32 9 ++ digestOf [1, 2] ++ leBytes 8 0x100000000 ++ leBytes 2 1 ++ List.replicate 3331 0;
      (head0 8 3405).len = 3405 ∧ p.length = 3405 ∧ (attRig [] (List.replicate 32 9)).sec.nonce = some (p.take 32) ∧
        digestOf (attRig [] []).sec.dik = (p.drop 32).take 32 ∧ 1 ≤ field p 64 8 ∧ field p 64 8 ≤ 0x100000000 ∧ field p 74 22 = 0) := by
  decide +kernel

theorem test_hyp_Unlocks :
    (let s := rig (on pageSec ++ [(R.SEC_STAT, 4)]);
      s.bit R.SEC_STAT 2 = true ∧ s.sec.endsAt ≤ s.msr.count ∧ Open s 0 pageSec ∧ s.bit R.SEC_RIGHTS_CTL 0 = false) ∧
    (let s : State := { rig [] with sec := { State.reset.sec with endsAt := 9 } };
      s.msr.count < s.sec.endsAt) ∧
    (let s : State := { rig (on pageSec ++ [(R.SEC_RIGHTS_CTL, 1), (R.TMB_CTL, 1)]) with
        sec := { State.reset.sec with holdFrom := 3, holdLimit := 4 }, inForce := [(R.TMB_CTL, 0)], msr := { State.reset.msr with count := 7 } };
      Open s 0 pageSec ∧ s.bit R.SEC_RIGHTS_CTL 0 = true ∧ s.bit R.MSR_CTL 0 = false ∧ s.msr.queue = [] ∧ s.rightsPending = true ∧
        s.sec.holdFrom + s.sec.holdLimit ≤ s.msr.count) ∧
    (let s := rig (on pageSec ++ [(R.SEC_RIGHTS_CTL, 1), (R.MSR_CTL, 1)]);
      Open s 0 pageSec ∧ s.bit R.SEC_RIGHTS_CTL 0 = true ∧ s.bit R.MSR_CTL 0 = true) ∧
    (let s : State := { rig [(R.SEC_RIGHTS_CTL, 1)] with sec := { State.reset.sec with holdLimit := 1 } };
      s.bit R.SEC_RIGHTS_CTL 0 = true ∧ s.msr.count < s.sec.holdFrom + s.sec.holdLimit) := by
  unfold Open; decide

/-! Memory integrity, resets, supplies, fences, bring-up. -/

theorem test_hyp_MemoryWords :
    (let e : MergeEntry := ⟨6, 0, List.replicate 64 7, [true, false] ++ List.replicate 6 true ++ List.replicate 8 true ++ List.replicate 48 false, false, 0⟩;
      let s : State := { rig [] with devs := { State.reset.devs with merge := [(2 ^ 34 - 1, e)] } };
      kvFind s.devs.merge ((0 : DevNo).val * 2 ^ 34 + (2 ^ 34 - 1)) = some e ∧ 2 ^ 34 - 1 < 2 ^ 34 ∧
        bchClassify (bchSyndrome (s.devWord 0 ((2 ^ 34 - 1) * 64)) ((2 ^ 34 - 1) * 64)) = .clean ∧
        kvFind s.devs.merge ((1 : DevNo).val * 2 ^ 34 + 0) = none) ∧
    (let s := rig (on (pageDev 0) ++ [(R.SCR_CTL, 1)]);
      let f (l : List (Fin 80)) : WordFault := ⟨l, none, 0, false⟩;
      s.bit R.SCR_CTL 0 = true ∧ s.sys.level = 0 ∧ s.devInService 0 = true ∧ s.fld R.SCR_STAT 5 1 = (0 : DevNo).val ∧ s.rd R.SCR_POS = 0 ∧
        0 + 8 < devBytes 0 ∧ bchClassify (bchSyndrome (s.delivered 0 0 (f [])) 0) = .clean ∧
        bchClassify (bchSyndrome (s.delivered 0 0 (f [5])) 0) = .single 5 ∧
        bchClassify (bchSyndrome (s.delivered 0 0 (f [5, 6, 7])) 0) = .uncorrectable ∧ kvFind s.devs.merge (0 * 2 ^ 34 + 0 / 64) = none ∧
        (List.range 24).all (fun e => decide (e ≤ 0) || !s.devInService e) = true) ∧
    (let s := rig (on (pageDev 0) ++ [(R.SCR_CTL, 1), (R.SCR_POS, devBytes 0 - 8)]);
      devBytes 0 ≤ s.rd R.SCR_POS + 8 ∧ s.rd R.SCR_POS < 2 ^ 40 ∧ s.rd R.SCR_POS % 8 = 0 ∧
        bchClassify (bchSyndrome (s.delivered 0 (s.rd R.SCR_POS) ⟨[], none, 0, false⟩) (s.rd R.SCR_POS)) = .clean) ∧
    (rig []).bit R.SCR_CTL 0 = true ∧ (rig [(R.SCR_CTL, 0)]).bit R.SCR_CTL 0 = false ∧ walked 33 = true ∧ walked 34 = false ∧
    walked 511 = true := by decide +kernel

theorem test_hyp_MemoryWords_retire :
    (let s := rig (on (pageDev 0) ++ [(R.MEM_RET_ARG (pageDev 0), 7), (R.MEM_RET_FRAME (pageDev 0) 0, 2 ^ 31 + 9), (R.MEM_RET_BANK (pageDev 0) 0, 2 ^ 31 + 9)]);
      Open s 0 (pageDev 0) ∧ s.fld (R.MEM_RET_ARG (pageDev 0)) 19 0 = 7 ∧ 7 < devFrames 0 ∧ 7 ≠ 19660 ∧ 7 < devBanks 0 ∧
        (List.range 256).all (fun i => !s.bit (R.MEM_RET_FRAME (pageDev 0) i) 31 || s.fld (R.MEM_RET_FRAME (pageDev 0) i) 19 0 != 7) = true ∧
        (List.range 8).all (fun i => !s.bit (R.MEM_RET_BANK (pageDev 0) i) 31 || s.fld (R.MEM_RET_BANK (pageDev 0) i) 10 0 != 7) = true ∧
        (List.range 256).find? (fun i => !s.bit (R.MEM_RET_FRAME (pageDev 0) i) 31) = some 1 ∧
        (List.range 8).find? (fun i => !s.bit (R.MEM_RET_BANK (pageDev 0) i) 31) = some 1) ∧
    (let s := rig (on (pageDev 0) ++ [(R.MEM_RET_ARG (pageDev 0), 9), (R.MEM_RET_FRAME (pageDev 0) 255, 2 ^ 31 + 9), (R.MEM_RET_BANK (pageDev 0) 7, 2 ^ 31 + 9)]);
      s.bit (R.MEM_RET_FRAME (pageDev 0) 255) 31 = true ∧ s.fld (R.MEM_RET_FRAME (pageDev 0) 255) 19 0 = s.fld (R.MEM_RET_ARG (pageDev 0)) 19 0 ∧
        s.bit (R.MEM_RET_BANK (pageDev 0) 7) 31 = true ∧ s.fld (R.MEM_RET_BANK (pageDev 0) 7) 10 0 = s.fld (R.MEM_RET_ARG (pageDev 0)) 19 0) ∧
    (let s := rig (on (pageDev 0) ++ [(R.MEM_RET_ARG (pageDev 0), 2 ^ 20 - 1)]);
      devFrames 0 ≤ s.fld (R.MEM_RET_ARG (pageDev 0)) 19 0 ∧ devBanks 0 ≤ s.fld (R.MEM_RET_ARG (pageDev 0)) 19 0) ∧
    (regionRig []).region 1 = some ⟨1, 1, 4096, useClient, true, 0, true, 0, 0⟩ := by
  unfold Open; decide +kernel

theorem test_hyp_Resets :
    (∀ e ∈ (regionRig []).tiers.regions, e.2.client < 16 ∧ 1 ≤ e.2.tier ∧ e.2.tier ≤ 3) ∧ (regionRig []).up = true ∧
    (rig [(R.SYS_STATE, 0)]).up = false ∧ Open (rig (on pageRst)) 0 pageRst ∧ (0 : BitVec 32) ≠ 0xC0DE ∧ (rig []).sys.p54 = true ∧
    (rig []).sys.aux = true ∧ (rig []).sys.flushing = false ∧
    (let s : State := { rig [] with sys := { State.reset.sys with flushing := true, p54 := false, perst := true } };
      s.sys.flushing = true ∧ s.sys.p54 = false ∧ s.sys.perst = true) ∧ (rig []).sys.perst = false ∧
    (rig []).fld R.SYS_TINY 1 0 = (0 : Fin 4).val ∧ (rig []).fld R.SYS_TINY 1 0 ≠ (3 : Fin 4).val ∧
    (let s := rig [(R.RST_WD_CTL, 1)];
      s.bit R.RST_WD_CTL 0 = true ∧ s.up = true ∧ s.rd R.SYS_STATE ≠ 7 ∧ s.rd R.SYS_STATE ≠ 8 ∧ s.rd R.SYS_STATE = 6) ∧
    (rig [(R.RST_WD_CTL, 0), (R.SYS_STATE, 5)]).bit R.RST_WD_CTL 0 = false ∧ (rig [(R.SYS_STATE, 5)]).rd R.SYS_STATE ≠ 6 ∧
    (let h : MsgHead := ⟨0x7AC0, 1, 0x13, 0, 0, 4⟩;
      h.magic = 0x7AC0 ∧ h.len = 4 ∧ h.status = 0 ∧ h.version = 1 ∧ field (leBytes 4 0xC0DE) 0 4 = 0xC0DE) := by
  unfold Open; decide

theorem test_hyp_Supplies :
    (let s : State := { rig [] with sys := { State.reset.sys with aux := false, lowFrom := some 5 } };
      s.sys.flushing = false ∧ s.sys.aux = false ∧ s.sys.p54 = true ∧ s.up = true ∧ s.sys.lowFrom = some 5) ∧
    (let s : State := { rig [] with sys := { State.reset.sys with aux := false, p54 := false } };
      s.sys.aux = false ∧ s.sys.p54 = false) ∧
    (let s : State := { rig [] with sys := { State.reset.sys with flushing := true, afterFlush := 1 } };
      s.sys.flushing = true ∧ s.sys.p54 = true ∧ s.sys.aux = true ∧ s.sys.afterFlush = 1 ∧ s.up = false) ∧
    (let s : State := { rig [] with sys := { State.reset.sys with flushing := true, lowFrom := some 1 } };
      s.sys.flushing = true ∧ s.sys.afterFlush = 0 ∧ s.sys.p54 = true ∧ s.up = false ∧ s.sys.lowFrom = some 1 ∧ s.sys.aux = true) ∧
    (let s : State := { rig [] with sys := { State.reset.sys with flushing := true, aux := false } };
      s.sys.flushing = true ∧ s.sys.aux = false) ∧
    (rig []).sys.lowFrom = none ∧ kvFind (rig []).sys.saidAt 0x0106 = none := by decide

theorem test_hyp_Fences :
    (let s := rig (on pageRst ++ on 0x28 ++ [(R.RST_FENCE_SEL, 0x28)]);
      Open s 0 pageRst ∧ s.fld R.RST_FENCE_SEL 7 0 = 0x28 ∧ fencible 0x28 = true ∧ (s.released = true → s.present 0x28 ≠ 0) ∧
        0x28 ∉ s.nor.fences ∧ s.nor.fences.length < 64 ∧ s.rd R.SYS_STATE = 6 ∧ s.present 0x28 = 3) ∧
    (let s0 := rig (on pageRst ++ on 0x28 ++ [(R.RST_FENCE_SEL, 0x28)]);
      let s : State := { s0 with nor := { s0.nor with fences := List.replicate 64 0x29 } };
      0x28 ∉ s.nor.fences ∧ 64 ≤ s.nor.fences.length) ∧
    (let s0 := rig (on pageRst ++ on 0x28 ++ [(R.RST_FENCE_SEL, 0x28)]);
      let s : State := { s0 with nor := { s0.nor with fences := [0x28] } };
      0x28 ∈ s.nor.fences) ∧ fencible pageErr = false ∧ (rig []).present 0x28 = 0 ∧ (rig (on (pageDev 23))).present (pageDev 23) = 3 ∧
    fencible (pageDev 23) = true ∧ fencible (pageChn 31) = true ∧ fencible (pageLnk 31) = true ∧ fencible (pageRow 103) = true ∧
    (rig [(R.PG_PRESENT 0x28, 1)]).present 0x28 = 1 ∧
    (let s0 := rig (on (pageRow 0));
      let s : State := { s0 with sched := { s0.sched with reserved := [(0, 2)] } };
      s.present (pageRow 0) = 3 ∧ kvFind s.sched.reserved 0 = some 2) := by
  unfold Open; decide

theorem test_hyp_Sideband :
    (let h : MsgHead := ⟨0x7AC0, 1, 0x11, 0, 0, 8⟩;
      (rig []).sys.aux = true ∧ regFields h [6, 0, 0x20, 0x01, 1, 0, 0, 0] = some (6, 0x120, 1) ∧
        (pageSys ∈ sidebandPages ∧ 0x120 % 4 = 0 ∧ ¬ 0x10000 < 0x120 + 4 * 1) ∧ 0x28 ∉ sidebandPages ∧
        (rig []).rd R.SYS_STATE = 6 ∧ (rig [(R.SYS_STATE, 9)]).rd R.SYS_STATE = 9) ∧
    (let h : MsgHead := ⟨0x7AC0, 1, 0x12, 0, 0, 12⟩;
      regFields h (leBytes 2 pageSys ++ leBytes 2 (R.SYS_ATTN_EN % 65536) ++ [1, 0, 0, 0] ++ leBytes 4 5) = some (pageSys, R.SYS_ATTN_EN % 65536, 1) ∧
        pageSys * 0x10000 + R.SYS_ATTN_EN % 65536 = R.SYS_ATTN_EN ∧ Open (rig (on pageSys)) 0 pageSys ∧
        regFields h (leBytes 2 pageRst ++ leBytes 2 (R.RST_FENCE_CMD % 65536) ++ [1, 0, 0, 0] ++ leBytes 4 2) =
          some (pageRst, R.RST_FENCE_CMD % 65536, 1) ∧ pageRst * 0x10000 + R.RST_FENCE_CMD % 65536 = R.RST_FENCE_CMD) ∧
    (let h : MsgHead := ⟨0x7AD0, 1, 0x31, 0, 0, 0⟩;
      h.magic = 0x7AD0 ∧ h.code = 0x31 ∧ h.len ≤ ([] : List Byte).length) := by
  unfold Open; decide +kernel

theorem test_hyp_Sensors :
    trips [1760, 0] = true ∧ trips [1600, 0] = false ∧ holds [1600, 0] = true ∧ holds [1599] = false ∧ cooled [1521] = false ∧ cooled [1520] = true ∧
    (rig []).up = true ∧ (rig [(R.SYS_STATE, 0)]).up = false ∧ (rig []).sys.hot = none ∧ (rig []).sys.drawing = none ∧
    (let s : State := { rig [] with sys := { State.reset.sys with hot := some (some 0), drawing := some none } };
      s.sys.hot = some (some 0) ∧ s.sys.drawing = some none) := by decide

/-- A state in phase n of a bring-up. -/
def bootRig (n : Nat) : State := { rig [(R.SYS_STATE, n)] with released := false }
def facts0 (nor front back : Bool) : RomFacts := ⟨(0, none), true, nor, front, back, false⟩

theorem test_hyp_BringUp_phases :
    (List.range 6).all (fun n => decide (n = 0) || (bootRig n).phase n) = true ∧
    (List.range 6).all (fun n => !(rig []).phase n) = true ∧
    (let s : State := { bootRig 1 with sys := { State.reset.sys with tripped := true } };
      s.phase 1 = true ∧ s.sys.tripped = true) ∧ (bootRig 1).sys.tripped = false ∧ (bootRig 1).sec.pufDue = true ∧
    (bootRig 1).imageFault (bootRig 1).nor.front true ≠ none ∧ (bootRig 1).imageFault (bootRig 1).nor.back true ≠ none ∧
    (let s : State := { bootRig 1 with nor := { State.reset.nor with front := good0 3 1 } };
      s.phase 1 = true ∧ s.imageFault s.nor.front true = none ∧ s.imageFault s.nor.back true ≠ none) ∧
    (bootRig 4).nor.spareRows.length ≤ 8 ∧ (bootRig 5).nor.settings = [] ∧ (rig [(R.SYS_FLAGS, 8)]).fld R.SYS_FLAGS 3 0 ≠ 0 := by
  decide

theorem test_hyp_Complete :
    (let f : TinyFails := ⟨[0], [0], [0], [0]⟩;
      1 ∉ f.cores.map Fin.val ∧ (1 : RowNo) ∉ f.rows ∧ 1 ∉ f.hbm.map Fin.val ∧ (1 : ChanNo) ∉ f.chans ∧ (bootRig 2).phase 2 = true) ∧
    (bootRig 4).phase 4 = true ∧ (0 : Fin 8).val ∉ (bootRig 4).sys.deadDevs ∧ pageRow 0 ∉ (bootRig 4).nor.fences ∧
    (let s : State := { bootRig 5 with nor := { State.reset.nor with settings := [(tqMax 3 3, 7), (R.SEC_RIGHTS_GEN, 2)] } };
      s.phase 5 = true ∧ s.nor.settings.length = 2 ∧
        (s.nor.settings.all fun e => decide (e.1 / 0x10000 ≠ pageSys ∧ 0x100 ≤ e.1 % 0x10000)) = true) := by
  decide +kernel

theorem test_hyp_CompleteSideband :
    (let h : MsgHead := ⟨0x7AC0, 1, 0x11, 0, 0, 8⟩;
      regFields h (leBytes 2 pageSys ++ [0, 1, 64, 0, 0, 0]) = some (pageSys, 0x100, 64) ∧ pageSys ∈ sidebandPages) ∧
    (let h : MsgHead := ⟨0x7AC0, 1, 0x12, 0, 0, 12⟩;
      let p := leBytes 2 pageRst ++ leBytes 2 (R.RST_FENCE_CMD % 65536) ++ [1, 0, 0, 0] ++ leBytes 4 2;
      12 ≤ p.length ∧ regFields h p = some (pageRst, R.RST_FENCE_CMD % 65536, 1) ∧ field p 8 4 % 4 = 2 ∧
        pageRst * 0x10000 + R.RST_FENCE_CMD % 65536 ∈ sidebandWrites) ∧
    (rig []).rd R.SYS_STATE ∉ [1, 7, 8, 9] ∧ (rig []).nor.running = false ∧ trips [1600, 0] = false := by
  decide +kernel

theorem test_hyp_BringUp_tiny :
    (let f : TinyFails := ⟨[0], [0, 1], [], [31]⟩;
      (0 ∈ f.cores.map Fin.val ∧ 1 ∉ f.cores.map Fin.val) ∧ (0 ∈ f.rows.map Fin.val ∧ 1 ∈ f.rows.map Fin.val ∧ 2 ∉ f.rows.map Fin.val) ∧
        0 ∉ f.hbm.map Fin.val ∧ 0 ∉ f.chans.map Fin.val ∧ (bootRig 2).nor.fences = [] ∧ (bootRig 2).sys.wdRecord = none) ∧
    (let f : TinyFails := ⟨[0, 1, 2], List.finRange 104, List.finRange 8, List.finRange 32⟩;
      (List.range 3).all (fun i => (f.cores.map Fin.val).contains i) = true ∧ (List.range 104).all (fun i => (f.rows.map Fin.val).contains i) = true ∧
        (List.range 8).all (fun i => (f.hbm.map Fin.val).contains i) = true ∧
        (List.range 32).all (fun i => (f.chans.map Fin.val).contains i) = true) := by decide +kernel

theorem test_hyp_BringUp_test :
    ((List.range 8).all fun d => fencible (pageDev d)) = true ∧ ((List.range 104).all fun r => fencible (pageRow r)) = true ∧
    (bootRig 4).nor.fences = [] ∧ (bootRig 4).sys.deadDevs = [] ∧ (0 : RowNo).val ∉ (bootRig 4).nor.spareRows ∧
    (12 : RowNo).val ∈ (bootRig 4).nor.spareRows ∧ (12 : RowNo).val / 13 = (0 : RowNo).val / 13 ∧ typeCode (pageRow 0) ≠ 0 ∧
    [(0, 0), (0, 255), (23, 0), (23, 255)].all (fun e => !(bootRig 5).bit (R.MEM_RET_FRAME (pageDev e.1) e.2) 31) = true := by
  decide +kernel

/-! The spec's worked examples, and single commands against values the rules give. -/

/-- Instant 1,750,000,000 s plus 123.5 ns in memory (the example of the timebase chapter). -/
theorem test_dtime_bytes : dtBytes (dtOf 1750000000 123 0x8000) = [0, 0x80, 0x7B, 0, 0, 0, 0x80, 0xE1, 0x4E, 0x68, 0, 0] := by decide

/-- The left child's block of the reduction example, its sum at the root with the others, and the values decoded. -/
theorem test_block_encode :
    (encodeBlock ([0x3FC00000, 0x3E99999A] ++ List.replicate 14 0) false) = BitVec.ofNat 272 0x13336000007F := by decide +kernel
theorem test_block_sum : (addBlocks [BitVec.ofNat 272 0x13336000007F, BitVec.ofNat 272 0x000898000080,
    BitVec.ofNat 272 0x66664000007C]).1 = BitVec.ofNat 272 0x20109800007F := by decide +kernel
theorem test_block_decode : decodeElt (BitVec.ofNat 272 0x20109800007F) 0 = 0xBFD00000 ∧
    decodeElt (BitVec.ofNat 272 0x20109800007F) 1 = 0x3F004000 := by decide +kernel

/-- The drain example of the lane rows, and the arithmetic of the quantisation example. -/
theorem test_drain_example : scale32 (-5) 0x3F000000 0x3E800000 = 0xBF200000 ∧ req8 0xBF200000 0x40800000 = -3 := by decide +kernel
theorem test_quantisation_example : scale32 3260 0x3B000000 0x3D800000 = 0x3ECBC000 ∧ add32 0x3ECBC000 0x3F200000 = 0x3F82F000 ∧
    req8 0x3F82F000 0x42000000 = 33 ∧ req8 0x41040000 0x41800000 = 127 ∧ req8 0xC0420000 0x41800000 = -49 ∧
    req8 0x3F080000 0x41800000 = 9 := by decide +kernel

/-- Register addresses the spec works out: ROW17.PG_STAT, MON_SQERR[5], TQ_USE_T2 of client 3, ROW41.PG_ERR. -/
theorem test_addresses : R.PG_STAT 0x39 = 0x390010 ∧ R.MON_SQERR 5 = 0xE242A0 ∧ R.TQ_USE_T2 3 = 0xA1328 ∧ R.PG_ERR 0x51 = 0x510014 ∧
    pageChn 31 = 0xB7 := by decide

/-- The quota example: 80 GiB for client 3 is TIER_FULL, 64 GiB and client 1's 150 GiB succeed. -/
theorem test_quota_example :
    (let g := 2 ^ 30;
      let s := rig [(tierCap 2, 544 * g), (tqMin 1 2, 200 * g), (tqUse 1 2, 50 * g), (tqMax 1 2, 600 * g), (tqMin 2 2, 100 * g),
        (tqMax 2 2, 400 * g), (tqUse 2 2, 280 * g), (tqMax 3 2, 300 * g)];
      s.allocTest 3 2 (80 * g) = 2 ∧ s.allocTest 3 2 (64 * g) = 0 ∧ s.allocTest 1 2 (150 * g) = 0) := by decide +kernel

/-- The battery fleet's schedule: bounds and ramp from P = 3,200. -/
theorem test_setpoint_limits : ({ ep0 with ramp := 500, min := -20000, max := 20000 } : Endpoint).limit 3200
    [3900, 4500, 5200, 5600, 5900, 21000, 6100, 6000, 5800, 5500, 5100, 4600, 4000, 3300, 2500, 1600] =
    [3700, 4200, 4700, 5200, 5700, 6200, 6100, 6000, 5800, 5500, 5100, 4600, 4100, 3600, 3100, 2600] := by decide

/-- The check values of CRC-32 and CRC-32C for the digits 1 to 9, as the definitions of the CRCs publish them. -/
theorem test_crc32 : crc32 [0x31, 0x32, 0x33, 0x34, 0x35, 0x36, 0x37, 0x38, 0x39] = 0xCBF43926 := by decide +kernel

theorem test_crc32c : crc32c [0x31, 0x32, 0x33, 0x34, 0x35, 0x36, 0x37, 0x38, 0x39] = 0xE3069283 := by decide +kernel

/-- LK05's calibration of the example: 41.25 ns are 660 units. -/
theorem test_calibration : gives (.linkCalibration 5 [⟨1600, 2207, 10207, 10920, false⟩]) (rig [(R.TMB_CTL, 16), (R.TMB_CAL_CTL, 0x10000), (R.LNK_STAT 5, lkUp)])
    (fun t => t.rd (R.TMB_LDLY 5) = 0x80000294) = true := by decide +kernel

/-- The time message of the example: B's offset is 3.0625 ns, 49 units. -/
theorem test_time_message : ((rig [(R.TMB_LDLY 5, 0x80000294), (R.TMB_LASYM 5, 0xFFF8)]).upOffset 5 16000 16713).1 = 49 := by decide +kernel

/-- ROW41's interrupt of the example: bit 17 of IRQ_PEND2 in client 2's window, at 0x0005_9028. -/
theorem test_pending_register : gives (.readClearAccess 2 0x59028 .b32)
    ((rig ([(R.PG_OWNER 0x51, 2), (R.PG_IRQ_EN 0x51, 2)] ++ on 0x51 ++ on 5)).setIrq 0x51 1 4)
    (fun t => t.out.contains (.readData 2 0x59028 0x20000) && t.rd 0x59000 = 0x10) = true := by decide +kernel

/-- The keys of the top-k example: 0.25, NaN, -0, 2, +0, 0.25, NaN, -0, -1, +0. -/
def topkKeys : List Nat := [0x3E800000, 0x7FC00000, 0x80000000, 0x40000000, 0, 0x3E800000, 0x7FC00000, 0x80000000, 0xBF800000, 0]

/-- Its header: word 0 0x0012_0004, OMIT 3, NAN_CNT 2, KTH -0; and the fourth entry, key -0 at index 0x1002. -/
theorem test_topk_example :
    (let d := { desc0 2 10 true with k := 4, indexBase := 0x1000 };
      let s : State := { colRig d with
        leaf := [(0, ⟨BitVec.ofNat 1024 ((topkKeys.zipIdx.map fun e => e.1 * 2 ^ (32 * e.2)).sum), false⟩)] };
      let x := s.colRun ⟨d, 1, 0, [0], 9, [0], 0, 0, 1, false⟩;
      ofLe ((x.header d).take 16) = 0x80000000000000020000000300120004 ∧
        (x.entries.flatMap ColEntry.bytes).drop 48 = [0, 0, 0, 0x80, 2, 0x10, 0, 0, 0, 0, 0, 0, 0, 0, 0, 0]) := by decide +kernel

/-- A disable of an idle block: PG_PRESENT reads 0x1 (R39); an enable: 0x3. -/
theorem test_disable : gives (.disable 0 0x28) (rig (on 0x28)) (fun t => t.present 0x28 = 1 && t.rd (R.PG_CTL 0x28) % 2 = 0) = true := by
  decide +kernel
theorem test_enable : gives (.enable 0 0x28) (rig [(R.PG_PRESENT 0x28, 1)]) (fun t => t.present 0x28 = 3 && t.rd R.DIR_GEN = 1) = true := by
  decide +kernel

/-- The block reset of a page that is not quiesced is ignored, with event 0x1004 (R40). -/
theorem test_block_reset_refused : gives (.blockReset 0 9) (rig (on 9 ++ [(R.PG_IRQ_EN 9, 5)]))
    (fun t => t.rd (R.PG_IRQ_EN 9) = 5 && t.out = []) = true := by decide +kernel

/-- A row idle for 1,000 cycles is GATED, which ROW_STAT.PWR shows as 1 (R121, R126). -/
theorem test_row_gate : gives (.rowGate 0) { rig (on 0x28) with etime := 1000 * tickCycle } (fun t => t.fld (R.ROW_STAT 0) 5 4 = 1) = true := by decide +kernel

/-- A region of 4 KiB in T1 is charged 2 MiB (R190), to its client alone. -/
theorem test_region_charge : gives (.regionAlloc cid0 (sqe 1 0 4096 0 0 0)) (regionRig [])
    (fun t => t.rd (tqUse 1 1) = 2097152 && t.rd (tqUse 2 1) = 0) = true := by decide +kernel

/-- RUN in the mailbox completes with Invalid Command Opcode (R430). -/
theorem test_mailbox_run : gives (.pmbGo 0 1 ⟨none, [], [], none, true, [], [], 0⟩ []) (nsRig [(R.HIF_PMB_SQE 0, 0x88)])
    (fun t => t.rd R.HIF_PMB_STAT = 2 && t.fld (R.HIF_PMB_CQE 3) 24 17 = 1) = true := by decide +kernel

/-- The core die at 110 °C trips: the module is in AUX (R541, R544); at 109 it is at level 2. -/
theorem test_trip : gives (.sensorReading [110 * 16] 0 0) (rig []) (fun t => t.rd R.SYS_STATE = 0 && t.sys.tripped) = true := by
  decide +kernel
theorem test_hold : gives (.sensorReading [110 * 16 - 1] 0 0) (rig []) (fun t => t.sys.level = 2 && t.rd R.SYS_STATE = 6) = true := by
  decide +kernel

/-- Three flipped bits of a stored word are beyond correction: the scrubber poisons the word and counts it (R437, R445). -/
theorem test_scrub : gives (.scrubRead ⟨[5, 6, 7], none, 0, false⟩) (rig (on (pageDev 0) ++ [(R.SCR_CTL, 1)]))
    (fun t => codePoison (t.devWord 0 0) && t.rd R.SCR_UNCORR = 1 && t.rd R.SCR_POS = 8) = true := by decide +kernel

/-- LOAD_NOW puts the seconds and nanoseconds of TMB_SET into DTIME (R92). -/
theorem test_load_now : gives (.loadNow 0) (rig (on pageTmb ++ [(R.TMB_SET_SEC_LO, 5), (R.TMB_SET_SEC_HI, 1), (R.TMB_SET_NS, 7)]))
    (fun t => t.dtime = (2 ^ 32 + 5) * 16000000000 + 7 * 16) = true := by decide +kernel

/-- A write of half of a 64-bit register is held until the other half comes (R35). -/
theorem test_half_write : gives (.lowerHalfWrite 0 (BitVec.ofNat 24 R.MSR_CHANGE_AT) 9) (rig (on pageMsr))
    (fun t => t.rd R.MSR_CHANGE_AT = 0 && kvFind t.wrHold 0 = some ⟨R.MSR_CHANGE_AT, 9⟩) = true := by decide +kernel

/-- The key 0xC0DE resets the module by command: boot cause 3, RB# low (R505, R508). -/
theorem test_module_reset : gives (.moduleReset 0 0xC0DE) (rig (on pageRst)) (fun t => t.rd R.SYS_STATE = 1 && t.sys.low &&
    t.rd R.SYS_BOOT_CAUSE = 3) = true := by decide +kernel

/-- A peer that fails its signature is refused, with event 0x7005 and LAST_DOWN 4 (R349, R379). -/
theorem test_auth_fails : gives (.auth 0 [5] false) (rig [(R.LNK_STAT 0, lkAuth), (R.SEC_STAT, 1)])
    (fun t => t.linkState 0 = 7 && t.rd (R.PG_ERR (pageLnk 0)) % 65536 = 0x7005) = true := by decide +kernel

end Sys2Proof.Tests
end

section
/-! Time and steps: what an elapsed time changes, and what a step runs (R6, R46, R68). -/

namespace Sys2Proof

open Machine Safety

/-- Time that passes changes the two clocks, the correction being slewed and the count of free values, and nothing else (R68). -/
theorem Machine.State.elapse_eq (s : State) (d : Nat) :
    ∃ dt tm f, s.elapse d = { s with etime := s.etime + d, dtime := dt, tmb := tm, fresh := f } := by
  unfold State.elapse
  split
  · exact ⟨s.dtime + d, s.tmb, s.fresh, rfl⟩
  · exact ⟨_, _, _, rfl⟩

/-- With no correction being slewed, DTIME advances with elapsed time (R68). -/
theorem Machine.State.elapse_dtime (s : State) (d : Nat) (h : s.tmb.slew = 0) : (s.elapse d).dtime = s.dtime + d := by
  rw [State.elapse, if_pos h]

/-- Settles O1: a step on a command is exec by definition, and an idle step is one nanosecond of elapsed time. -/
theorem stepRunsFrontCommand : Obligations.StepRunsFrontCommand := by
  refine ⟨fun _ _ _ => rfl, fun s hs => ⟨s.idle, by rw [step, hs], ?_⟩⟩
  have hd : s.tmb.slew = 0 → s.idle.dtime = s.dtime + 16 := s.elapse_dtime tickNs
  obtain ⟨dt, tm, f, e⟩ := s.elapse_eq tickNs
  change s.idle = _ at e
  rw [e] at hd ⊢
  exact ⟨rfl, fun _ => rfl, hs, rfl, hd⟩

end Sys2Proof
end

section
/-! Register accesses: what a checked access comes to once its checks are met (R32 to R36, R41, R52). -/

namespace Sys2Proof

open Machine Safety

/-! Where registers stand. -/

theorem blockAt_of_answers {s : State} {p : Nat} (h : s.answers p = true) : ∃ b, blockAt p = some b := by
  cases hb : blockAt p with
  | some b => exact ⟨b, rfl⟩
  | none => simp [State.answers, typeCode, hb] at h

/-- Every page that answers has the common header (R36). -/
theorem regHit_header {s : State} {p o : Nat} (h : s.answers p = true) (ho : o < 0x100) :
    regHit p o = headerDefs.findSome? fun d => d.hit o := by
  obtain ⟨b, hb⟩ := blockAt_of_answers h
  rw [regHit, hb]
  exact congrArg (List.findSome? _) (if_pos ho)

/-- The row of PG_IRQ_EN (R36). -/
def irqEnHit : RegHit := ⟨⟨0x18, 1, 0, 1, 0, false, 0xffffffff, 0, 0, 0, false, 0, false⟩, 0x18, false⟩

theorem regHit_irqEn {s : State} {p : Nat} (h : s.answers p = true) : regHit p 0x18 = some irqEnHit := by
  rw [regHit_header h (by decide)]
  decide

/-- The row of the arm targets, met by the half of slot's (R94). -/
def armTgtHit (slot : Nat) (upper : Bool) : RegHit :=
  ⟨⟨0x1000, 256, 0x10, 1, 0, true, 0xffffffffffffffff, 0, 0, 0, false, 0, false⟩, 0x1000 + 0x10 * slot, upper⟩

theorem regHit_armTgt : ∀ slot : Fin 256, regHit pageMsr (0x1000 + 0x10 * slot) = some (armTgtHit slot false) ∧
    regHit pageMsr (0x1000 + 0x10 * slot + 4) = some (armTgtHit slot true) := by decide +kernel

theorem irqBitsOf_ne_zero (code : Nat) : irqBitsOf code ≠ 0 := by
  unfold irqBitsOf
  split <;> decide

theorem irqBitsOf_lt (code : Nat) : irqBitsOf code < 2 ^ 32 := by
  unfold irqBitsOf
  split <;> decide

/-! Writes. -/

/-- A write by any client that reaches an open page's register, none of whose fields only client 0 writes: the writable bits take the
value written (R8). -/
theorem Machine.State.verdict_plain {s : State} {c p v : Nat} {h : RegHit} (ho : Open s c p)
    (hm : 0x100 ≤ h.base → s.mayReach c p h.base = true) (hw : h.rd.wo = false)
    (h1 : (if h.base = 0x1C then irqBitsOf (typeCode p) else h.rd.w1c) = 0) (hs : h.rd.sup = 0) (hrw : h.rwMask p ≠ 0)
    (h64 : h.rwMask p < 2 ^ 64) :
    s.verdict c p h v = .take ((s.rd (regKey c p h) &&& (0xFFFFFFFFFFFFFFFF ^^^ h.rwMask p)) ||| (v &&& h.rwMask p)) v := by
  have within : (decide (0x100 ≤ h.base) && !s.mayReach c p h.base) = false := by
    by_cases hb : 0x100 ≤ h.base
    · simp [hm hb]
    · simp [hb]
  have mine : (if c = 0 then h.rwMask p else h.rwMask p &&& 0xFFFFFFFFFFFFFFFF) = h.rwMask p := by
    rw [show (0xFFFFFFFFFFFFFFFF : Nat) = 2 ^ 64 - 1 from rfl, Nat.and_two_pow_sub_one_of_lt_two_pow h64, ite_self]
  simp only [State.verdict, ho.shut, ho.locked, within, hw, h1, hs, Bool.false_and, Bool.false_eq_true, if_false, Nat.xor_zero,
    mine, hrw, Nat.zero_and, Nat.and_zero, ne_eq, not_true_eq_false, decide_false, Bool.and_false]

/-- A whole write whose value is taken has the effect of its register. -/
theorem Machine.State.wrWhole_take {s : State} {c addr v new raw : Nat} {h : RegHit} (ha : s.answers (addr / 0x10000) = true)
    (hr : regHit (addr / 0x10000) (addr % 0x10000) = some h) (hv : s.verdict c (addr / 0x10000) h v = .take new raw)
    (hraw : raw < 2 ^ 64) : s.wrWhole c addr v = s.wrHook c (addr / 0x10000) h new raw := by
  simp only [State.wrWhole, State.writeBy, hr, ha, hv, hraw, Bool.not_true, Bool.false_eq_true, if_false, if_true]

/-- A 32-bit write to an aligned address of a page that answers (R33). -/
theorem Machine.State.write_word {s : State} {c addr : Nat} (v : Nat) (hb : s.reached c = true)
    (ha : s.answers (addr / 0x10000) = true) (h4 : addr % 0x10000 % 4 = 0) :
    s.write c addr .b32 v = s.write32 c addr (v % 2 ^ 32) := by
  simp only [State.write, accessForm, hb, ha, h4, Bool.not_true, Bool.or_self, Bool.false_eq_true, if_false, if_true]

end Sys2Proof
end

section
/-! The writes of PG_IRQ_EN and of the arm targets, from the command to what is stored or held (R35, R36, R94). -/

namespace Sys2Proof

open Machine Safety

/-- REGISTER_WRITE of a page that answers runs, and ends in the written state with the interrupts routed. -/
theorem runs_registerWrite {s : State} {c : Client} {addr : BitVec 24} {w : Width} {v : BitVec 64} {P : State → Prop}
    (ha : s.answers (addr.toNat / 0x10000) = true) (h : P (s.write c addr.toNat w (v.toNat % 2 ^ (8 * w.bytes))).settle) :
    Runs (.registerWrite c addr w v) s P := ⟨_, s.writePage_of_answers c _ ha, h⟩

theorem runs_lowerHalfWrite {s : State} {c : Client} {addr : BitVec 24} {v : BitVec 32} {P : State → Prop}
    (ha : s.answers (addr.toNat / 0x10000) = true) (h : P (s.write c addr.toNat .b32 v.toNat).settle) :
    Runs (.lowerHalfWrite c addr v) s P := ⟨_, s.writePage_of_answers c _ ha, h⟩

theorem runs_upperHalfWrite {s : State} {c : Client} {addr : BitVec 24} {v : BitVec 32} {P : State → Prop}
    (ha : s.answers (addr.toNat / 0x10000) = true) (h : P (s.write c addr.toNat .b32 v.toNat).settle) :
    Runs (.upperHalfWrite c addr v) s P := ⟨_, s.writePage_of_answers c _ ha, h⟩

/-- An access's checks do not look at the halves held. -/
theorem Safety.Open.of_wrHold {s : State} {c p : Nat} (h : Open s c p) (w : KV Hold) : Open { s with wrHold := w } c p := h

theorem irqEnHit_rwMask (p : Nat) : irqEnHit.rwMask p = irqBitsOf (typeCode p) := if_pos rfl

theorem regKey_irqEn (c p : Nat) : regKey c p irqEnHit = R.PG_IRQ_EN p := by simp [regKey, irqEnHit]

/-- PG_IRQ_EN of an open page takes the bits that the block has (R36). -/
theorem Machine.State.verdict_irqEn {s : State} {c p : Nat} (v : Nat) (ho : Open s c p) :
    s.verdict c p irqEnHit v = .take ((s.rd (R.PG_IRQ_EN p) &&& (0xFFFFFFFFFFFFFFFF ^^^ irqBitsOf (typeCode p))) |||
      (v &&& irqBitsOf (typeCode p))) v := by
  have hlt := Nat.lt_trans (irqBitsOf_lt (typeCode p)) (by decide : 2 ^ 32 < 2 ^ 64)
  have h := State.verdict_plain (v := v) (h := irqEnHit) ho (fun h => absurd h (by decide)) rfl rfl rfl
  rw [irqEnHit_rwMask, regKey_irqEn] at h
  exact h (irqBitsOf_ne_zero _) hlt

/-- A 32-bit write of PG_IRQ_EN of an open page stores the bits that the block has (R36). -/
theorem Machine.State.write_irqEn {s : State} {c p : Nat} (v : Nat) (ho : Open s c p) (hv : v < 2 ^ 32) :
    ∃ w, s.write c (R.PG_IRQ_EN p) .b32 v = (({ s with wrHold := w } : State).wr (R.PG_IRQ_EN p)
      ((s.rd (R.PG_IRQ_EN p) &&& (0xFFFFFFFFFFFFFFFF ^^^ irqBitsOf (typeCode p))) ||| (v &&& irqBitsOf (typeCode p)))).settle := by
  have hp : R.PG_IRQ_EN p / 0x10000 = p := by simp only [R.PG_IRQ_EN]; omega
  have hq : R.PG_IRQ_EN p % 0x10000 = 0x18 := by simp only [R.PG_IRQ_EN]; omega
  have ha : s.answers p = true := ho.2.1
  obtain ⟨w, e⟩ := s.dropHeld_eq c p (R.PG_IRQ_EN p)
  have ho' := ho.of_wrHold w
  refine ⟨w, ?_⟩
  rw [State.write_word v ho.1 (by rw [hp]; exact ha) (by rw [hq]), Nat.mod_eq_of_lt hv]
  simp only [State.write32, hp, hq, regHit_irqEn ha, e]
  refine (State.wrWhole_take (h := irqEnHit) (new := ?_) (raw := v) ?_ ?_ ?_ (by omega)).trans ?_
  · exact (s.rd (R.PG_IRQ_EN p) &&& (0xFFFFFFFFFFFFFFFF ^^^ irqBitsOf (typeCode p))) ||| (v &&& irqBitsOf (typeCode p))
  · rw [hp]; exact ha
  · rw [hp, hq]; exact regHit_irqEn ha
  · rw [hp]; exact State.verdict_irqEn v ho'
  · rw [hp]; rfl

/-! Arm targets: a 64-bit register of MSR for each slot (R94). -/

/-- The addresses of an arm target and of its upper half, as page and offset. -/
theorem armTgt_split (slot : Fin 256) : R.ARM_TGT slot / 0x10000 = pageMsr ∧ R.ARM_TGT slot % 0x10000 = 0x1000 + 0x10 * slot ∧
    (R.ARM_TGT slot + 4) / 0x10000 = pageMsr ∧ (R.ARM_TGT slot + 4) % 0x10000 = 0x1000 + 0x10 * slot + 4 := by
  simp only [R.ARM_TGT, pageMsr]
  omega

theorem armTgtHit_rwMask (p slot : Nat) (u : Bool) : (armTgtHit slot u).rwMask p = 0xFFFFFFFFFFFFFFFF :=
  if_neg (by simp only [armTgtHit]; omega)

theorem regKey_armTgt (c slot : Nat) (u : Bool) : regKey c pageMsr (armTgtHit slot u) = R.ARM_TGT slot := by
  simp only [regKey, armTgtHit, pageMsr, R.ARM_TGT, Bool.false_eq_true, if_false]
  omega

theorem armTgtHit_key (slot : Nat) (u : Bool) : pageMsr * 0x10000 + (armTgtHit slot u).base = R.ARM_TGT slot := by
  simp only [armTgtHit, pageMsr, R.ARM_TGT]
  omega

@[simp] theorem armTgtHit_wide (slot : Nat) (u : Bool) : (armTgtHit slot u).rd.wide = true := rfl
@[simp] theorem armTgtHit_upper (slot : Nat) (u : Bool) : (armTgtHit slot u).upper = u := rfl

/-- An arm target of an open MSR takes a value whole (R94). -/
theorem Machine.State.verdict_armTgt {s : State} {c v : Nat} (slot : Nat) (u : Bool) (ho : Open s c pageMsr) (hv : v < 2 ^ 64) :
    s.verdict c pageMsr (armTgtHit slot u) v = .take v v := by
  have hb : blockClient pageMsr (armTgtHit slot u).base = none := by
    simp [blockClient, pageMsr, pageIrq, pageSch, pageTier, pageDet, pageAcc, pageHif, pageCtx]
  have hm : s.mayReach c pageMsr (armTgtHit slot u).base = true := ho.reach hb (by decide) (.inl (by decide))
  have h := State.verdict_plain (v := v) (h := armTgtHit slot u) ho (fun _ => hm) rfl
    (if_neg (by simp only [armTgtHit]; omega)) rfl
  rw [armTgtHit_rwMask, regKey_armTgt] at h
  have he := h (by decide) (by decide)
  rwa [Nat.xor_self, Nat.and_zero, Nat.zero_or, show (0xFFFFFFFFFFFFFFFF : Nat) = 2 ^ 64 - 1 from rfl,
    Nat.and_two_pow_sub_one_of_lt_two_pow hv] at he

/-- A write of an arm target's lower half is held (R35). -/
theorem Machine.State.write_armTgt_lower {s : State} {c v : Nat} (slot : Fin 256) (ho : Open s c pageMsr) (hv : v < 2 ^ 32) :
    ∃ w, s.write c (R.ARM_TGT slot) .b32 v = { s with wrHold := kvPut w c ⟨R.ARM_TGT slot, v⟩ } := by
  obtain ⟨hp, hq, -, -⟩ := armTgt_split slot
  obtain ⟨w, e⟩ := s.dropHeld_eq c pageMsr (R.ARM_TGT slot)
  have hlt : ({ s with wrHold := w } : State).rd (R.ARM_TGT slot) / 2 ^ 32 * 2 ^ 32 + v < 2 ^ 64 := by
    have := State.rd_lt { s with wrHold := w } (R.ARM_TGT slot)
    omega
  refine ⟨w, ?_⟩
  rw [State.write_word v ho.1 (by rw [hp]; exact ho.2.1) (by rw [hq]; omega), Nat.mod_eq_of_lt hv]
  simp only [State.write32, hp, hq, (regHit_armTgt slot).1, e, State.writeLower, regKey_armTgt,
    State.verdict_armTgt slot false (ho.of_wrHold w) hlt, hlt, if_true, armTgtHit_wide, armTgtHit_upper, armTgtHit_key,
    Bool.not_true, Bool.false_eq_true, if_false]

/-- An arm target of a slot that neither waits nor is late takes a value (R94). -/
theorem Machine.State.wrHook_armTgt (s : State) (c : Nat) (slot : Nat) (u : Bool) (new raw : Nat)
    (h1 : s.armState slot ≠ 1) (h2 : s.armState slot ≠ 2) :
    s.wrHook c pageMsr (armTgtHit slot u) new raw = s.wr (R.ARM_TGT slot) new := by
  have hs : (0x1000 + 0x10 * slot - 0x1000) / 16 = slot := by omega
  have h12 : ¬ (0x1000 + 0x10 * slot) % 16 = 12 := by omega
  have hk := regKey_armTgt c slot u
  simp only [armTgtHit] at hk
  have hc : ¬ 0x1000 + 0x10 * slot < 0x100 := by omega
  have ht : typeCode pageMsr = 5 := by decide
  have hb : 0x1000 ≤ 0x1000 + 0x10 * slot := by omega
  simp only [State.wrHook, armTgtHit, hc, if_false, ht, State.wrMsr, hb, if_true, h12, hs, State.wrRange, h1, h2, ne_eq,
    not_false_eq_true, decide_true, Bool.and_self, hk]

/-- A write of an arm target's upper half stores it with the lower half that is held, which is freed (R35). -/
theorem Machine.State.write_armTgt_upper {s : State} {c v b : Nat} (slot : Fin 256) (ho : Open s c pageMsr)
    (h1 : s.armState slot ≠ 1) (h2 : s.armState slot ≠ 2) (hv : v < 2 ^ 32) (hb : b < 2 ^ 32)
    (hh : kvFind s.wrHold c = some ⟨R.ARM_TGT slot, b⟩) :
    s.write c (R.ARM_TGT slot + 4) .b32 v =
      ({ s with wrHold := kvErase s.wrHold c } : State).wr (R.ARM_TGT slot) (v * 2 ^ 32 + b) := by
  obtain ⟨hp, -, hp4, hq4⟩ := armTgt_split slot
  have ho' := ho.of_wrHold (kvErase s.wrHold c)
  have hlt : v * 2 ^ 32 + b < 2 ^ 64 := by omega
  rw [State.write_word v ho.1 (by rw [hp4]; exact ho.2.1) (by rw [hq4]; omega), Nat.mod_eq_of_lt hv]
  simp only [State.write32, hp4, hq4, (regHit_armTgt slot).2, State.writeUpper, hh, armTgtHit_key, armTgtHit_wide,
    armTgtHit_upper, Bool.not_true, Bool.false_eq_true, if_false, if_true]
  rw [State.wrWhole_take (h := armTgtHit slot true) (new := v * 2 ^ 32 + b) (raw := v * 2 ^ 32 + b) _ _ _ hlt, hp4]
  · exact State.wrHook_armTgt _ c slot true _ _ h1 h2
  · rw [hp4]; exact ho.2.1
  · rw [hp4, hq4]; exact (regHit_armTgt slot).2
  · rw [hp4]; exact State.verdict_armTgt slot true ho' hlt

/-- A header register is no IRQ_CAT_STAT (R36, R52). -/
theorem catReg_header (p : Nat) {o : Nat} (h0 : 0 < o) (h : o < 0x100) : catReg (p * 0x10000 + o) = false := by
  simp only [catReg, Bool.and_eq_false_iff, decide_eq_false_iff_not]
  omega

/-- The address of a register of BAR0 as an operand. -/
theorem toNat_addr {k : Nat} (h : k < 2 ^ 24) : (BitVec.ofNat 24 k).toNat = k := by
  rw [BitVec.toNat_ofNat, Nat.mod_eq_of_lt h]

/-- REGISTER_WRITE of PG_IRQ_EN of an open page stores the block's bits and keeps every register outside the page and IRQ (R36). -/
theorem registerWrite_irqEn {s : State} {c : Client} {p : Page} {v : BitVec 64} (ho : Open s c p) (hv : v.toNat < 2 ^ 32) :
    Runs (.registerWrite c (BitVec.ofNat 24 (R.PG_IRQ_EN p)) .b32 v) s fun t =>
      t.rd (R.PG_IRQ_EN p) = (s.rd (R.PG_IRQ_EN p) &&& (0xFFFFFFFFFFFFFFFF ^^^ irqBitsOf (typeCode p))) |||
        (v.toNat &&& irqBitsOf (typeCode p)) ∧
      (∀ k, k / 0x10000 ≠ p.val → catReg k = false → t.rd k = s.rd k) ∧ t.mem = s.mem ∧ t.leaf = s.leaf := by
  have hk : (BitVec.ofNat 24 (R.PG_IRQ_EN p)).toNat = R.PG_IRQ_EN p := toNat_addr (by simp only [R.PG_IRQ_EN]; omega)
  have hp : R.PG_IRQ_EN p / 0x10000 = p := by simp only [R.PG_IRQ_EN]; omega
  have hc : catReg (R.PG_IRQ_EN p) = false := catReg_header p (by decide) (by decide)
  have h32 := irqBitsOf_lt (typeCode p)
  obtain ⟨w, e⟩ := State.write_irqEn v.toNat ho hv
  refine runs_registerWrite (by rw [hk, hp]; exact ho.2.1) ?_
  rw [hk, show 2 ^ (8 * Width.b32.bytes) = 2 ^ 32 from rfl, Nat.mod_eq_of_lt hv, e]
  refine ⟨?_, fun k hne hcat => ?_, by simp, by simp⟩
  · rw [State.settle_rd _ hc, State.settle_rd _ hc, State.rd_wr_same]
    exact Nat.or_lt_two_pow (Nat.lt_of_le_of_lt Nat.and_le_left (s.rd_lt _))
      (Nat.lt_of_le_of_lt Nat.and_le_right (Nat.lt_trans h32 (by decide)))
  · rw [State.settle_rd _ hcat, State.settle_rd _ hcat, State.rd_wr_ne _ _ fun e => hne (by rw [← e, hp])]
    rfl

/-- LOWER_HALF_WRITE to an arm target holds the value and stores nothing (R35). -/
theorem lowerHalfWrite_armTgt {s : State} {c : Client} {slot : Fin 256} {v : BitVec 32} (ho : Open s c pageMsr) :
    Runs (.lowerHalfWrite c (BitVec.ofNat 24 (R.ARM_TGT slot)) v) s fun t =>
      kvFind t.wrHold c = some ⟨R.ARM_TGT slot, v.toNat⟩ ∧ ∀ k, catReg k = false → t.rd k = s.rd k := by
  have hk : (BitVec.ofNat 24 (R.ARM_TGT slot)).toNat = R.ARM_TGT slot := toNat_addr (by simp only [R.ARM_TGT]; omega)
  obtain ⟨w, e⟩ := State.write_armTgt_lower slot ho v.isLt
  refine runs_lowerHalfWrite (by rw [hk, (armTgt_split slot).1]; exact ho.2.1) ?_
  rw [hk, e]
  refine ⟨?_, fun k hcat => State.settle_rd _ hcat⟩
  rw [State.settle_wrHold, kvFind_kvPut, if_pos rfl]

/-- UPPER_HALF_WRITE to an arm target whose lower half is held stores both halves at once and frees the holding register (R35). -/
theorem upperHalfWrite_armTgt {s : State} {c : Client} {slot : Fin 256} {v : BitVec 32} {b : Nat} (ho : Open s c pageMsr)
    (h1 : s.armState slot ≠ 1) (h2 : s.armState slot ≠ 2) (hb : b < 2 ^ 32) (hh : kvFind s.wrHold c = some ⟨R.ARM_TGT slot, b⟩) :
    Runs (.upperHalfWrite c (BitVec.ofNat 24 (R.ARM_TGT slot + 4)) v) s fun t =>
      t.rd (R.ARM_TGT slot) = v.toNat * 2 ^ 32 + b ∧ kvFind t.wrHold c = none ∧
      ∀ k, k ≠ R.ARM_TGT slot → catReg k = false → t.rd k = s.rd k := by
  have hk : (BitVec.ofNat 24 (R.ARM_TGT slot + 4)).toNat = R.ARM_TGT slot + 4 := toNat_addr (by simp only [R.ARM_TGT]; omega)
  have hc : catReg (R.ARM_TGT slot) = false := by
    simp only [catReg, Bool.and_eq_false_iff, decide_eq_false_iff_not, R.ARM_TGT]
    omega
  have hv := v.isLt
  refine runs_upperHalfWrite (by rw [hk, (armTgt_split slot).2.2.1]; exact ho.2.1) ?_
  rw [hk, State.write_armTgt_upper slot ho h1 h2 hv hb hh]
  refine ⟨?_, ?_, fun k hne hcat => ?_⟩
  · rw [State.settle_rd _ hc, State.rd_wr_same _ _ _ (by omega)]
  · rw [State.settle_wrHold, State.wr_wrHold, kvFind_kvErase, if_pos rfl]
  · rw [State.settle_rd _ hcat, State.rd_wr_ne _ _ hne.symm]
    rfl

/-- Settles O5: each write's checks come to taking the value, and the interrupts routed at the end change IRQ_CAT_STAT alone. -/
theorem writesStoreOrHold : Obligations.WritesStoreOrHold :=
  fun _ _ => ⟨fun _ _ ho hv => registerWrite_irqEn ho hv, fun _ _ ho => lowerHalfWrite_armTgt ho,
    fun _ _ _ ho h1 h2 hb hh => upperHalfWrite_armTgt ho h1 h2 hb hh⟩

end Sys2Proof
end

section
/-! Register reads: what a 32-bit read of a register that answers returns, clears, holds and latches (R8, R33, R34, R91, R92, R485). -/

namespace Sys2Proof

open Machine Safety

/-- A read that its client's host reaches, of a page that answers, is no read of a diagnostic page: its data is what the register
gives (R404). -/
theorem Machine.State.readOut_eq {s : State} {c addr : Nat} {w : Width} (hb : s.reached c = true)
    (ha : s.answers (addr / 0x10000) = true) :
    s.readOut c addr w = (s.read c addr w).2.emit (.readData c addr (BitVec.ofNat 64 (s.read c addr w).1)) := by
  simp only [State.readOut, hb, s.diagOpen_of_answers c ha, Bool.not_true, Bool.false_eq_true, if_false]

/-- A 32-bit read of a register that answers: the value whole, or a half of it (R33, R34). -/
theorem Machine.State.read_word {s : State} {c addr : Nat} {h : RegHit} (hr : Readable s c addr) (h4 : addr % 4 = 0)
    (hh : regHit (addr / 0x10000) (addr % 0x10000) = some h) :
    s.read c addr .b32 = if !h.rd.wide then s.readReg c (addr / 0x10000) h
      else if h.upper then s.readUpper c (addr / 0x10000) h else s.readLower c (addr / 0x10000) h := by
  obtain ⟨-, ha, hm⟩ := hr
  have h4' : addr % 0x10000 % 4 = 0 := by omega
  simp only [State.read, accessForm, ha, h4', State.read32, State.readVerdict, hm, hh, Bool.not_true, Bool.false_eq_true, if_false,
    if_true]

/-- A command that is a read of a register that answers runs: its data leaves, and the interrupts are routed. -/
theorem runs_read {i : Instr} {s : State} {c addr : Nat} {P : State → Prop} (hr : Readable s c addr)
    (hi : exec i s = settled (s.readOut c addr .b32))
    (h : P ((s.read c addr .b32).2.emit (.readData c addr (BitVec.ofNat 64 (s.read c addr .b32).1))).settle) : Runs i s P := by
  refine ⟨_, hi, ?_⟩
  rw [State.readOut_eq hr.1 hr.2.1]
  exact h

/-- What leaves just before the interrupts are routed has left during the command. -/
theorem sent_settle_emit {s t : State} {o : Output} {p : Output → Prop} (h : t.out = s.out) (hp : p o) :
    Sent s (t.emit o).settle p := by
  obtain ⟨l, e⟩ := (t.emit o).settle_out
  refine ⟨o, o :: l, ?_, List.mem_cons_self, hp⟩
  rw [e, ← h]
  simp [State.emit]

/-- A register that does not latch when it is read latches nothing. -/
theorem Machine.State.readLatch_eq_self {s : State} {c p o : Nat} (h : latching p o = false) : s.readLatch c p o = s := by
  simp only [latching, Bool.and_or_distrib_left, Bool.or_eq_false_iff] at h
  obtain ⟨⟨hnow, hpps⟩, hmeas⟩ := h
  simp only [State.readLatch, hnow, hpps, hmeas, Bool.false_eq_true, if_false]

/-- What a read clears is in the registers alone (R8). -/
theorem Machine.State.readClear_eq (s : State) (c p : Nat) (h : RegHit) : ∃ rg, s.readClear c p h = { s with regs := rg } := by
  unfold State.readClear
  split
  · exact ⟨s.regs, rfl⟩
  · extract_lets k s1
    split <;> exact ⟨_, rfl⟩

/-- A read clears the RC bits of its register (R8). -/
theorem Machine.State.readClear_rd (s : State) (c p : Nat) (h : RegHit) (hrc : h.rd.rc ≠ 0) :
    (s.readClear c p h).rd (regKey c p h) = s.rd (regKey c p h) &&& (0xFFFFFFFFFFFFFFFF ^^^ h.rd.rc) := by
  have hlt : s.rd (regKey c p h) &&& (0xFFFFFFFFFFFFFFFF ^^^ h.rd.rc) < 2 ^ 64 := Nat.lt_of_le_of_lt Nat.and_le_left (s.rd_lt _)
  unfold State.readClear
  rw [if_neg hrc]
  extract_lets k s1
  split
  · next he =>
    simp only [Bool.and_eq_true, decide_eq_true_eq, pageErr] at he
    rw [State.rd_setBit_ne, State.rd_wr_same _ _ _ hlt]
    simp only [regKey, R.ERR_STAT, bankStep]
    split <;> omega
  · exact State.rd_wr_same _ _ _ hlt

/-- A register that does not latch gives its value, and what the read clears (R8). -/
theorem Machine.State.readReg_eq {s : State} {c p : Nat} {h : RegHit} (hl : latching p h.base = false) :
    s.readReg c p h = (s.show c p h, s.readClear c p h) := by
  rw [State.readReg, State.readLatch_eq_self hl]

/-- A 32-bit read of a register with RC bits returns its value and clears them (R8, R33). -/
theorem readClearAccess_word {s : State} {c : Client} {addr : BitVec 24} {h : RegHit} (hr : Readable s c addr.toNat)
    (h4 : addr.toNat % 4 = 0) (hh : regHit (addr.toNat / 0x10000) (addr.toNat % 0x10000) = some h)
    (hl : latching (addr.toNat / 0x10000) h.base = false) (hcat : catReg (regKey c (addr.toNat / 0x10000) h) = false)
    (hw : h.rd.wide = false) (hrc : h.rd.rc ≠ 0) :
    Runs (.readClearAccess c addr .b32) s fun t =>
      Sent s t (fun o => o = .readData c addr.toNat (BitVec.ofNat 64 (s.show c (addr.toNat / 0x10000) h))) ∧
      t.rd (regKey c (addr.toNat / 0x10000) h) =
        s.rd (regKey c (addr.toNat / 0x10000) h) &&& (0xFFFFFFFFFFFFFFFF ^^^ h.rd.rc) := by
  refine runs_read hr rfl ?_
  rw [State.read_word hr h4 hh, hw, Bool.not_false, if_pos rfl, State.readReg_eq hl]
  refine ⟨sent_settle_emit ?_ rfl, ?_⟩
  · obtain ⟨rg, e⟩ := s.readClear_eq c (addr.toNat / 0x10000) h
    rw [e]
  · rw [State.settle_rd _ hcat]
    exact s.readClear_rd c _ h hrc

/-- LOWER_HALF_READ returns the lower half and keeps the upper one for the client (R34). -/
theorem lowerHalfRead_holds {s : State} {c : Client} {addr : BitVec 24} {h : RegHit} (hr : Readable s c addr.toNat)
    (h4 : addr.toNat % 4 = 0) (hh : regHit (addr.toNat / 0x10000) (addr.toNat % 0x10000) = some h)
    (hl : latching (addr.toNat / 0x10000) h.base = false) (hw : h.rd.wide = true) (hu : h.upper = false) :
    Runs (.lowerHalfRead c addr) s fun t =>
      Sent s t (fun o => o = .readData c addr.toNat (BitVec.ofNat 64 (s.show c (addr.toNat / 0x10000) h % 2 ^ 32))) ∧
      kvFind t.rdHold c =
        some ⟨addr.toNat / 0x10000 * 0x10000 + h.base, s.show c (addr.toNat / 0x10000) h / 2 ^ 32⟩ := by
  refine runs_read hr rfl ?_
  rw [State.read_word hr h4 hh, hw, hu]
  simp only [Bool.not_true, Bool.false_eq_true, if_false, State.readLower, State.readReg_eq hl]
  refine ⟨sent_settle_emit ?_ rfl, ?_⟩
  · obtain ⟨rg, e⟩ := s.readClear_eq c (addr.toNat / 0x10000) h
    rw [e]
  · rw [State.settle_rdHold, State.emit_rdHold, kvFind_kvPut, if_pos rfl]

/-- UPPER_HALF_READ after a read of the same register's lower half returns what was kept, and frees it (R34). -/
theorem upperHalfRead_frees {s : State} {c : Client} {addr : BitVec 24} {h : RegHit} {b : Nat} (hr : Readable s c addr.toNat)
    (h4 : addr.toNat % 4 = 0) (hh : regHit (addr.toNat / 0x10000) (addr.toNat % 0x10000) = some h)
    (hl : latching (addr.toNat / 0x10000) h.base = false) (hw : h.rd.wide = true) (hu : h.upper = true)
    (hb : kvFind s.rdHold c = some ⟨addr.toNat / 0x10000 * 0x10000 + h.base, b⟩) :
    Runs (.upperHalfRead c addr) s fun t =>
      Sent s t (fun o => o = .readData c addr.toNat (BitVec.ofNat 64 b)) ∧ kvFind t.rdHold c = none := by
  refine runs_read hr rfl ?_
  rw [State.read_word hr h4 hh, hw, hu]
  simp only [Bool.not_true, Bool.false_eq_true, if_false, if_true, State.readUpper, State.readReg_eq hl, hb]
  refine ⟨sent_settle_emit ?_ rfl, ?_⟩
  · obtain ⟨rg, e⟩ := s.readClear_eq c (addr.toNat / 0x10000) h
    rw [e]
  · rw [State.settle_rdHold, State.emit_rdHold, kvFind_kvErase, if_pos rfl]

/-! The reads that latch. -/

/-- A read-only register of 32 bits with no RC bits, at an offset. -/
def plainHit (o : Nat) : RegHit := ⟨⟨o, 1, 0, 1, 0, false, 0, 0, 0, 0, false, 0, false⟩, o, false⟩

/-- The row of SEC_MEAS, met by word i (R485). -/
def measHit (i : Nat) : RegHit := ⟨⟨0x1c0, 16, 4, 1, 0, false, 0, 0, 0, 0, false, 0, false⟩, 0x1c0 + 4 * i, false⟩

theorem regHit_tmbNow : regHit pageTmb 0x110 = some (plainHit 0x110) := by decide
theorem regHit_tmbPpsin : regHit pageTmb 0x150 = some (plainHit 0x150) := by decide
theorem regHit_secMeas : ∀ i : Fin 16, regHit pageSec (0x1c0 + 4 * i) = some (measHit i) := by decide

/-- A read of a register of 32 bits with no RC bits gives its value after what it latches. -/
theorem Machine.State.read_noClear {s : State} {c addr : Nat} {h : RegHit} (hr : Readable s c addr) (h4 : addr % 4 = 0)
    (hh : regHit (addr / 0x10000) (addr % 0x10000) = some h) (hw : h.rd.wide = false) (hrc : h.rd.rc = 0) :
    s.read c addr .b32 = ((s.readLatch c (addr / 0x10000) h.base).show c (addr / 0x10000) h,
      s.readLatch c (addr / 0x10000) h.base) := by
  rw [State.read_word hr h4 hh, hw, Bool.not_false, if_pos rfl, State.readReg, State.readClear, if_pos hrc]

/-- Page 0x0E is SEC's (R30, R485). -/
theorem Machine.State.view_sec (s : State) (c o : Nat) : s.view c pageSec o = s.viewSec c o := rfl

/-- SEC's page shows the words that the client's latch holds (R485). -/
theorem Machine.State.show_secMeas (s : State) (c : Nat) (i : Fin 16) :
    s.show c pageSec (measHit i) = (kvGet [] s.measHold c).getD i 0 := by
  have h1 : ¬ 0x1c0 + 4 * i.val = 0x120 := by omega
  have h2 : ¬ 0x1c0 + 4 * i.val = 0x138 := by omega
  have h3 : ¬ 0x1c0 + 4 * i.val < 0x160 := by omega
  have h4 : ¬ 0x1c0 + 4 * i.val = 0x188 := by omega
  have h5 : 0x1c0 ≤ 0x1c0 + 4 * i.val := by omega
  have h6 : 0x1c0 + 4 * i.val < 0x200 := by omega
  have hi : (0x1c0 + 4 * i.val - 0x1c0) / 4 = i := by omega
  simp only [State.show, State.view_sec, State.viewSec, measHit, h1, h2, h3, h4, h5, h6, hi, if_false, decide_false, decide_true,
    Bool.and_false, Bool.and_self, Bool.false_eq_true, if_true, Option.getD_some]

/-- TMB_NOW_FRAC_READ takes DTIME into the client's latch and returns its fraction (R92). -/
theorem tmbNowFracRead_latches {s : State} {c : Client} (hr : Readable s c R.TMB_NOW_FRAC) :
    Runs (.tmbNowFracRead c) s fun t => kvFind t.nowHold c = some s.dtime ∧
      Sent s t fun o => o = .readData c R.TMB_NOW_FRAC (BitVec.ofNat 64 (dtFrac s.dtime)) := by
  refine runs_read hr rfl ?_
  rw [State.read_noClear hr (by decide) regHit_tmbNow rfl rfl]
  refine ⟨?_, sent_settle_emit rfl rfl⟩
  rw [State.settle_nowHold, State.emit_nowHold]
  exact (kvFind_kvPut _ _ _ _).trans (if_pos rfl)

/-- TMB_PPSIN_FRAC_READ takes the PPS_IN stamp into the client's latch and returns its fraction (R91). -/
theorem tmbPpsinFracRead_latches {s : State} {c : Client} (hr : Readable s c R.TMB_PPSIN_FRAC) :
    Runs (.tmbPpsinFracRead c) s fun t =>
      kvFind t.ppsHold c = some (dtOf (s.rd R.TMB_PPSIN_SEC_LO + s.rd R.TMB_PPSIN_SEC_HI * 2 ^ 32) (s.rd R.TMB_PPSIN_NS)
        (s.rd R.TMB_PPSIN_FRAC)) ∧
      Sent s t fun o => o = .readData c R.TMB_PPSIN_FRAC (BitVec.ofNat 64 (s.rd R.TMB_PPSIN_FRAC)) := by
  refine runs_read hr rfl ?_
  rw [State.read_noClear hr (by decide) regHit_tmbPpsin rfl rfl]
  refine ⟨?_, sent_settle_emit rfl rfl⟩
  rw [State.settle_ppsHold, State.emit_ppsHold]
  exact (kvFind_kvPut _ _ _ _).trans (if_pos rfl)

/-- The address of word i of SEC_MEAS, as page and offset. -/
theorem secMeas_split (i : Fin 16) :
    R.SEC_MEAS i / 0x10000 = pageSec ∧ R.SEC_MEAS i % 0x10000 = 0x1c0 + 4 * i ∧ R.SEC_MEAS i % 4 = 0 := by
  simp only [R.SEC_MEAS, pageSec]
  omega

/-- SEC_MEAS_READ of any word is a read of what the client's latch holds, after what the read latches (R485). -/
theorem Machine.State.read_secMeas {s : State} {c : Client} {i : Fin 16} (hr : Readable s c (R.SEC_MEAS i)) :
    s.read c (R.SEC_MEAS i) .b32 = ((kvGet [] (s.readLatch c pageSec (0x1c0 + 4 * i)).measHold c).getD i 0,
      s.readLatch c pageSec (0x1c0 + 4 * i)) := by
  obtain ⟨hp, hq, h4⟩ := secMeas_split i
  rw [State.read_noClear (h := measHit i) hr h4 (by rw [hp, hq]; exact regHit_secMeas i) rfl rfl, hp, State.show_secMeas]
  rfl

/-- SEC_MEAS_READ of word 0 takes the selected slot and its count into the client's latch (R485). -/
theorem secMeasRead_latches {s : State} {c : Client} (hr : Readable s c (R.SEC_MEAS 0)) :
    Runs (.secMeasRead c 0) s fun t =>
      kvFind t.measHold c = some ((List.range 16).map (fun j =>
        ofLe (((s.slotValue (s.fld R.SEC_MEAS_SEL 2 0)).drop (4 * j)).take 4)) ++ [s.slotCount (s.fld R.SEC_MEAS_SEL 2 0)]) := by
  refine runs_read (addr := R.SEC_MEAS (0 : Fin 16)) hr rfl ?_
  rw [State.read_secMeas hr, State.settle_measHold, State.emit_measHold]
  exact (kvFind_kvPut _ _ _ _).trans (if_pos rfl)

/-- SEC_MEAS_READ of another word returns what the client's latch holds, which stays (R485). -/
theorem secMeasRead_latched {s : State} {c : Client} {i : Fin 16} {l : List Nat} (hi : i.val ≠ 0) (hr : Readable s c (R.SEC_MEAS i))
    (hl : kvFind s.measHold c = some l) :
    Runs (.secMeasRead c i) s fun t => t.measHold = s.measHold ∧
      Sent s t fun o => o = .readData c (R.SEC_MEAS i) (BitVec.ofNat 64 (l.getD i 0)) := by
  have hlat : latching pageSec (0x1c0 + 4 * i) = false := by
    simp only [latching, pageSec, pageTmb, Bool.or_eq_false_iff, Bool.and_eq_false_iff, decide_eq_false_iff_not]
    omega
  refine runs_read hr rfl ?_
  rw [State.read_secMeas hr, State.readLatch_eq_self hlat, kvGet, hl]
  exact ⟨by rw [State.settle_measHold, State.emit_measHold], sent_settle_emit rfl rfl⟩

/-- Settles O4: each read's checks come to the register it reaches, whose latch and RC bits say the rest. -/
theorem readsReturnClearAndLatch : Obligations.ReadsReturnClearAndLatch :=
  fun _ _ => ⟨fun _ _ hr h4 hh hl hcat =>
      ⟨fun hw hrc => readClearAccess_word hr h4 hh hl hcat hw hrc, fun hw hu => lowerHalfRead_holds hr h4 hh hl hw hu,
        fun hw hu _ hb => upperHalfRead_frees hr h4 hh hl hw hu hb⟩,
    tmbNowFracRead_latches, tmbPpsinFracRead_latches, secMeasRead_latches, fun _ _ hi hr hl => secMeasRead_latched hi hr hl⟩

end Sys2Proof
end

section
/-! What an operation of the NOR controller can change, said once: the banks, the copies of the logs, the abandoned sectors and the erase
counts, NOR_LAST_SECT and NOR_SUSP, the free values drawn, and what an event changes (R486 to R490). -/

namespace Sys2Proof.Machine

open Safety

/-- All that can follow from operations in the banks of NOR. -/
def NorOnly (s t : State) : Prop :=
  ∃ rg q o e cs w f b c u er, t = { s with
      regs := rg, irq := q, out := s.out ++ o, err := e, ctrls := cs, attnWanted := w, fresh := f
      nor := { s.nor with banks := b, copies := c, undef := u, erases := er } } ∧
    (∀ k, flagReg k = false → ¬ norReg k → t.rd k = s.rd k) ∧ ∀ c, ∃ ev, t.ctrl c = { s.ctrl c with events := ev }

theorem FlagsOnly.norOnly {s t : State} (h : FlagsOnly s t) : NorOnly s t := by
  obtain ⟨rg, q, o, e, cs, w, rfl, hr, hc⟩ := h
  exact ⟨rg, q, o, e, cs, w, s.fresh, s.nor.banks, s.nor.copies, s.nor.undef, s.nor.erases, rfl, fun k hk _ => hr k hk, hc⟩

theorem NorOnly.refl (s : State) : NorOnly s s := (FlagsOnly.refl s).norOnly

theorem NorOnly.trans {s t u : State} (h1 : NorOnly s t) (h2 : NorOnly t u) : NorOnly s u := by
  obtain ⟨rg, q, o, e, cs, w, f, b, c, d, er, rfl, r1, c1⟩ := h1
  obtain ⟨rg', q', o', e', cs', w', f', b', c', d', er', rfl, r2, c2⟩ := h2
  refine ⟨rg', q', o ++ o', e', cs', w', f', b', c', d', er', by simp, fun k hk hn => (r2 k hk hn).trans (r1 k hk hn), fun c => ?_⟩
  obtain ⟨ev, x⟩ := c1 c
  obtain ⟨ev', y⟩ := c2 c
  exact ⟨ev', by rw [y, x]⟩

theorem NorOnly.foldl {β : Type} (f : State → β → State) (h : ∀ s b, NorOnly s (f s b)) (l : List β) (s : State) :
    NorOnly s (l.foldl f s) := by
  induction l generalizing s with
  | nil => exact .refl s
  | cons b l ih => exact (h s b).trans (ih _)

/-- The steps that NOR operations are made of. -/
theorem State.norDie_only (s : State) (f : Nat) (b : KV NorBank) (c : KV NorCopy) (u : List Nat) (er : KV Nat) :
    NorOnly s { s with fresh := f, nor := { s.nor with banks := b, copies := c, undef := u, erases := er } } :=
  ⟨s.regs, s.irq, [], s.err, s.ctrls, s.attnWanted, f, b, c, u, er, by simp, fun _ _ _ => rfl, fun c => ⟨(s.ctrl c).events, rfl⟩⟩

theorem State.wr_norOnly (s : State) {k : Nat} (v : Nat) (h : norReg k) : NorOnly s (s.wr k v) := by
  refine ⟨(s.wr k v).regs, s.irq, [], s.err, s.ctrls, s.attnWanted, s.fresh, s.nor.banks, s.nor.copies, s.nor.undef, s.nor.erases,
    by simp [State.wr], fun k' _ hn => State.rd_wr_ne s v fun e => hn (e ▸ h), fun c => ⟨(s.ctrl c).events, rfl⟩⟩

theorem State.free_norOnly (s : State) : NorOnly s s.free.2 := s.norDie_only _ _ _ _ _

theorem State.upTo_norOnly (s : State) (n : Nat) : NorOnly s (s.upTo n).2 := s.free_norOnly

theorem State.setNorBank_only (s : State) (i : Nat) (b : NorBank) : NorOnly s (s.setNorBank i b) := s.norDie_only _ _ _ _ _

theorem State.setNorCopy_only (s : State) (i : Nat) (y : NorCopy) : NorOnly s (s.setNorCopy i y) := s.norDie_only _ _ _ _ _

/-! Operations. -/

theorem State.norBlank_only (s : State) (sector i : Nat) : NorOnly s (s.norBlank sector i).2 := by
  unfold State.norBlank
  repeat' split
  · exact s.free_norOnly
  all_goals exact .refl s

theorem State.norWear_only (s : State) (sector : Nat) : NorOnly s (s.norWear sector) := by
  unfold State.norWear
  extract_lets n nor s1
  have h : NorOnly s s1 := s.norDie_only _ _ _ _ _
  split
  · exact h.trans ((State.setIrq_flags _ _ _ _).trans (State.raise_flags _ _ _ _ _ _)).norOnly
  · exact h

theorem State.norBusy_only (s : State) (sector from_ n : Nat) : NorOnly s (s.norBusy sector from_ n) :=
  (s.upTo_norOnly (n * norWord)).trans (State.setNorBank_only _ _ _)

theorem State.norErased_only (s : State) (sector at_ : Nat) : NorOnly s (s.norErased sector at_) := by
  unfold State.norErased
  extract_lets nor s1
  have h : NorOnly s s1 := s.norDie_only _ _ _ _ _
  split
  · exact (h.trans (State.setNorCopy_only _ _ _)).trans (State.norBusy_only _ _ _ _)
  · exact h

theorem State.norSettle_only (s : State) : NorOnly s s.norSettle := by
  refine .foldl _ (fun t i => ?_) _ s
  extract_lets b
  split
  split
  · exact .refl t
  · exact (t.setNorBank_only _ _).trans (.foldl _ (fun u e => u.norErased_only _ _) _ _)

theorem State.norSuspend_only (s : State) : NorOnly s s.norSuspend.2 :=
  (s.upTo_norOnly norPause).trans (State.wr_norOnly _ _ (.inr rfl))

theorem State.norErase_only (s : State) (sector : Nat) : NorOnly s (s.norErase sector) :=
  ((s.norSettle_only.trans (State.norWear_only _ _)).trans (State.upTo_norOnly _ norSector)).trans (State.setNorBank_only _ _ _)

/-- A fold of steps that each answer beside a state. -/
theorem NorOnly.foldlPair {α β : Type} (f : α × State → β → α × State) (h : ∀ a b, NorOnly a.2 (f a b).2) (l : List β)
    (a : α × State) : NorOnly a.2 (l.foldl f a).2 := by
  induction l generalizing a with
  | nil => exact .refl _
  | cons b l ih => exact (h a b).trans (ih _)

theorem State.norProgram_only (s : State) (sector i n : Nat) : NorOnly s (s.norProgram sector i n).2 := by
  have last (t : State) : NorOnly t (t.wr R.NOR_LAST_SECT sector) := State.wr_norOnly _ _ (.inl rfl)
  have h0 := s.norSettle_only
  unfold State.norProgram
  extract_lets s1 t
  clear_value t
  change NorOnly s s1 at h0
  clear_value s1
  generalize hx : List.foldl _ (true, s1) (List.range n) = x
  have h : NorOnly s x.2 := by
    refine h0.trans ?_
    rw [← hx]
    refine NorOnly.foldlPair _ (fun a j => ?_) (List.range n) (true, s1)
    have hb := State.norBlank_only a.2 sector (i + j)
    generalize a.2.norBlank sector (i + j) = y at hb ⊢
    exact hb
  clear hx
  obtain ⟨blank, s2⟩ := x
  dsimp only at h ⊢
  split
  · split
    · exact h.trans (State.norBusy_only _ _ _ _)
    · exact h.trans (last _)
  · split
    · exact h.trans (last _)
    · split
      · exact h.trans (State.norBusy_only _ _ _ _)
      · split
        · exact h.trans (State.norBusy_only _ _ _ _)
        · exact ((h.trans (State.norSuspend_only _)).trans (State.setNorBank_only _ _ _)).trans (State.norBusy_only _ _ _ _)

theorem State.norRead_only (s : State) (sector : Nat) : NorOnly s (s.norRead sector) := by
  have h := s.norSettle_only
  have hs := h.trans (State.norSuspend_only _)
  unfold State.norRead
  extract_lets s1 t b later
  split
  · exact hs.trans (State.setNorBank_only _ _ _)
  · split
    · split
      · exact h
      · exact hs.trans (State.setNorBank_only _ _ _)
    · exact h

theorem State.norReadAll_only (s : State) : NorOnly s s.norReadAll := .foldl _ State.norRead_only _ s

/-! Logs. -/

theorem State.norAppend_only (s : State) (old : NorOld) (c : Nat) : NorOnly s (s.norAppend old c) := by
  have h := s.norSettle_only
  unfold State.norAppend
  extract_lets s1 y erase s2
  have he (t : State) : NorOnly t (erase t) := by
    show NorOnly t (if _ then _ else _)
    split
    · exact .refl t
    · exact t.norErase_only _
  have h2 : NorOnly s s2 := (h.trans (State.norProgram_only _ _ _ _)).trans (State.setNorCopy_only _ _ _)
  split
  · exact (h.trans (State.setNorCopy_only _ _ _)).trans (he _)
  · split
    · exact h2.trans (he _)
    · exact h2

theorem State.norLog_only (s : State) (k : Nat) (old : NorOld) : NorOnly s (s.norLog k old) :=
  .foldl _ (fun t _ => t.norAppend_only old _) _ s

theorem State.eraseEndpaper_only (s : State) (back : Bool) : NorOnly s (s.eraseEndpaper back) := by
  unfold State.eraseEndpaper
  extract_lets first s1
  have h : NorOnly s s1 := s.norReadAll_only.trans (.foldl _ (fun t i => (t.setNorBank_only _ _).trans
    (.foldl _ (fun u e => u.norErased_only _ _) _ _)) _ _)
  exact (h.trans (State.norDie_only _ _ _ _ _ _)).trans (State.norWear_only _ _)

end Sys2Proof.Machine
end

section
/-! PG_ERR of a page: it takes the code of the page's latest event, and nothing else that follows from interrupts and events changes it
(R36, R557). -/

namespace Sys2Proof.Machine

open Safety

/-- Every page's PG_ERR stays. -/
def KeepsErr (s t : State) : Prop := ∀ p, t.rd (R.PG_ERR p) = s.rd (R.PG_ERR p)

theorem KeepsErr.refl (s : State) : KeepsErr s s := fun _ => rfl

theorem KeepsErr.trans {s t u : State} (h1 : KeepsErr s t) (h2 : KeepsErr t u) : KeepsErr s u := fun p => (h2 p).trans (h1 p)

theorem KeepsErr.of_regs {s t : State} (h : t.regs = s.regs) : KeepsErr s t := fun p => State.rd_congr h (R.PG_ERR p)

theorem State.wr_keepsErr (s : State) {k : Nat} (v : Nat) (h : k % 0x10000 ≠ 0x14) : KeepsErr s (s.wr k v) := fun p =>
  State.rd_wr_ne s v fun e => h (by rw [e, R.PG_ERR]; omega)

theorem State.wr_header_keepsErr (s : State) (p : Nat) {o : Nat} (v : Nat) (h : o < 0x10000 := by decide) (ho : o ≠ 0x14 := by decide) :
    KeepsErr s (s.wr (p * 0x10000 + o) v) := s.wr_keepsErr v (by omega)

theorem State.settle_keepsErr (s : State) : KeepsErr s s.settle := fun p => s.settle_rd (catReg_header p (by decide) (by decide))

theorem State.irqBit_keepsErr (s : State) (p b c : Nat) : KeepsErr s (s.irqBit p b c) :=
  (s.wr_header_keepsErr p _).trans (.of_regs rfl)

theorem State.setIrq_keepsErr (s : State) (p b c : Nat) : KeepsErr s (s.setIrq p b c) :=
  (s.irqBit_keepsErr p b c).trans (State.settle_keepsErr _)

theorem State.joinPoison_keepsErr (s : State) (p c : Nat) : KeepsErr s (s.joinPoison p c) := by
  unfold State.joinPoison
  split
  · exact s.irqBit_keepsErr p 1 c
  · exact .refl s

theorem State.attend_keepsErr (s : State) (b : Nat) : KeepsErr s (s.attend b) := by
  unfold State.attend
  extract_lets was s1
  have h : KeepsErr s s1 := (s.wr_keepsErr _ (by decide)).trans (State.setIrq_keepsErr _ _ _ _)
  split
  · exact h.trans (.of_regs rfl)
  · exact h

/-- The client logs and what waits for event requests are no registers. -/
theorem State.logClients_regs (s : State) (r : Report) : (s.logClients r).regs = s.regs := by
  unfold State.logClients
  induction r.routes generalizing s with
  | nil => rfl
  | cons n l ih =>
    rw [List.foldl_cons, ih]
    extract_lets old new e t1
    split
    · rfl
    · unfold State.aerEvent
      extract_lets x
      split <;> rfl

theorem State.coalesce_keepsErr {s t : State} {r : Report} (h : s.coalesce r = some t) : KeepsErr s t := by
  unfold State.coalesce at h
  split at h
  · cases h
  · split at h
    · cases h
    · cases h
      exact (State.wr_keepsErr (s := { s with err := _ }) _ (by decide)).trans (.of_regs (State.logClients_regs _ _))

theorem State.dropReport_keepsErr (s : State) (r : Report) : KeepsErr s (s.dropReport r) := by
  have hk : R.ERR_OVF (catOf r.code) % 0x10000 ≠ 0x14 := by
    have := catOf_lt r.code
    simp only [R.ERR_OVF]
    omega
  unfold State.dropReport
  extract_lets s1 e s2
  have h1 : KeepsErr s s1 := (s.wr_keepsErr _ hk).trans (State.wr_keepsErr _ _ (by decide))
  have h2 : KeepsErr s1 s2 := .of_regs rfl
  exact ((h1.trans h2).trans (.of_regs (State.logClients_regs _ _))).trans (State.setIrq_keepsErr _ _ _ _)

/-- A report changes no page's PG_ERR. -/
theorem State.report_keepsErr (s : State) (r : Report) : KeepsErr s (s.report r) := by
  have hk : R.ERR_CNT (catOf r.code) % 0x10000 ≠ 0x14 := by
    have := catOf_lt r.code
    simp only [R.ERR_CNT]
    omega
  unfold State.report
  extract_lets s0
  have h : KeepsErr s s0 := s.wr_keepsErr _ hk
  split
  · exact h.trans (State.coalesce_keepsErr ‹_›)
  · split
    · exact h.trans (.of_regs rfl)
    · split
      · exact h.trans (.of_regs rfl)
      · exact h.trans (State.dropReport_keepsErr _ _)

/-- What an event does to its page's flags leaves PG_ERR as its first step sets it. -/
theorem State.flagEvent_rd_pgErr (s : State) (p code q : Nat) :
    (s.flagEvent p code).rd (R.PG_ERR q) = (s.setFld (R.PG_ERR p) 15 0 code).rd (R.PG_ERR q) := by
  have h1 : KeepsErr (s.setFld (R.PG_ERR p) 15 0 code)
      ((((s.setFld (R.PG_ERR p) 15 0 code).setBit (R.PG_STAT p) 2 true).irqBit p 0 (catOf code)).joinPoison p (catOf code)).settle :=
    (((State.wr_header_keepsErr _ p _).trans (State.irqBit_keepsErr _ _ _ _)).trans
      (State.joinPoison_keepsErr _ _ _)).trans (State.settle_keepsErr _)
  unfold State.flagEvent
  extract_lets s1
  split
  · exact (h1.trans (State.attend_keepsErr _ _)) q
  · exact h1 q

/-- PG_ERR of the page that raises an event reports its code (R36, R557). -/
theorem State.raise_pgErr (s : State) (p code : Nat) (client : Option Nat) (addr aux : Nat) :
    (s.raise p code client addr aux).rd (R.PG_ERR p) % 65536 = code % 65536 := by
  have h := s.fld_setFld (R.PG_ERR p) 15 0 code (by decide) (by decide)
  simp only [State.fld, bits, Nat.pow_zero, Nat.div_one] at h
  rw [State.raise, State.report_keepsErr, State.flagEvent_rd_pgErr]
  exact h

/-- An event leaves PG_ERR of every other page. -/
theorem State.raise_pgErr_ne (s : State) {p q : Nat} (code : Nat) (client : Option Nat) (addr aux : Nat) (h : p ≠ q) :
    (s.raise p code client addr aux).rd (R.PG_ERR q) = s.rd (R.PG_ERR q) := by
  rw [State.raise, State.report_keepsErr, State.flagEvent_rd_pgErr]
  exact State.rd_setFld_ne s _ _ _ (by simp only [R.PG_ERR]; omega)

end Sys2Proof.Machine
end

section
/-! Completions of commands other than LC runs: what they can change, and the entry that a completion queue with room takes
(R412, R413, R427, R431). -/

namespace Sys2Proof.Machine

open Safety

/-- The registers that count completions (R413, R434). -/
def postReg (k : Nat) : Prop := k = R.HIF_CMDS ∨ k = R.HIF_ERR_CPL ∨ ∃ c < 16, k = R.HIF_QHELD c

/-- All that can follow from a completion posted: the controllers, the counts, and what HIF's interrupt and event change. -/
def PostOnly (s t : State) : Prop :=
  ∃ rg q o e cs w hs, t = { s with regs := rg, irq := q, out := s.out ++ o, err := e, ctrls := cs, attnWanted := w, heldSaid := hs } ∧
    (∀ k, flagReg k = false → ¬ postReg k → t.rd k = s.rd k) ∧ ∀ p, p ≠ pageHif → t.rd (R.PG_ERR p) = s.rd (R.PG_ERR p)

theorem PostOnly.refl (s : State) : PostOnly s s :=
  ⟨s.regs, s.irq, [], s.err, s.ctrls, s.attnWanted, s.heldSaid, by simp, fun _ _ _ => rfl, fun _ _ => rfl⟩

theorem PostOnly.trans {s t u : State} (h1 : PostOnly s t) (h2 : PostOnly t u) : PostOnly s u := by
  obtain ⟨rg, q, o, e, cs, w, hs, rfl, r1, p1⟩ := h1
  obtain ⟨rg', q', o', e', cs', w', hs', rfl, r2, p2⟩ := h2
  exact ⟨rg', q', o ++ o', e', cs', w', hs', by simp, fun k hk hn => (r2 k hk hn).trans (r1 k hk hn),
    fun p hp => (p2 p hp).trans (p1 p hp)⟩

/-- What events change, when no other page's PG_ERR is among it. -/
theorem FlagsOnly.postOnly {s t : State} (h : FlagsOnly s t) (hp : ∀ p, p ≠ pageHif → t.rd (R.PG_ERR p) = s.rd (R.PG_ERR p)) :
    PostOnly s t := by
  obtain ⟨rg, q, o, e, cs, w, rfl, hr, -⟩ := h
  exact ⟨rg, q, o, e, cs, w, s.heldSaid, rfl, fun k hk _ => hr k hk, hp⟩

theorem State.settle_postOnly (s : State) : PostOnly s s.settle :=
  s.settle_only.flags.postOnly fun p _ => s.settle_keepsErr p

theorem State.setIrq_postOnly (s : State) (p b c : Nat) : PostOnly s (s.setIrq p b c) :=
  (s.setIrq_flags p b c).postOnly fun q _ => s.setIrq_keepsErr p b c q

theorem State.raise_hif_postOnly (s : State) (code : Nat) (client : Option Nat) (addr aux : Nat) :
    PostOnly s (s.raise pageHif code client addr aux) :=
  (s.raise_flags _ _ _ _ _).postOnly fun _ hp => s.raise_pgErr_ne code client addr aux (Ne.symm hp)

theorem State.setCtrl_postOnly (s : State) (c : Nat) (x : Ctrl) : PostOnly s (s.setCtrl c x) :=
  ⟨s.regs, s.irq, [], s.err, _, s.attnWanted, s.heldSaid, by simp [State.setCtrl]; rfl, fun _ _ _ => rfl, fun _ _ => rfl⟩

theorem State.emit_postOnly (s : State) (o : Output) : PostOnly s (s.emit o) :=
  ⟨s.regs, s.irq, [o], s.err, s.ctrls, s.attnWanted, s.heldSaid, rfl, fun _ _ _ => rfl, fun _ _ => rfl⟩

theorem State.sendMsix_postOnly (s : State) (c v : Nat) : PostOnly s (s.sendMsix c v) := by
  unfold State.sendMsix
  split
  · exact ⟨s.regs, _, [], s.err, s.ctrls, s.attnWanted, s.heldSaid, by simp; rfl, fun _ _ _ => rfl, fun _ _ => rfl⟩
  · exact s.emit_postOnly _

theorem postReg_page {k : Nat} (h : postReg k) : 0x60000 ≤ k ∧ k % 0x10000 ≠ 0x14 := by
  rcases h with rfl | rfl | ⟨c, hc, rfl⟩
  · decide
  · decide
  · simp only [R.HIF_QHELD]
    omega

theorem State.wr_postOnly (s : State) {k : Nat} (v : Nat) (h : postReg k) : PostOnly s (s.wr k v) :=
  ⟨(s.wr k v).regs, s.irq, [], s.err, s.ctrls, s.attnWanted, s.heldSaid, by simp [State.wr],
    fun _ _ hn => State.rd_wr_ne s v fun e => hn (e ▸ h), fun p _ => s.wr_keepsErr v (postReg_page h).2 p⟩

/-- An entry is placed: it leaves first, then the vector is signalled (R412). -/
theorem State.placeCqe_spec (s : State) (c cq : Nat) (q : CplQ) (e : Cqe) (ha : e.arrival = none) :
    PostOnly s (s.placeCqe c cq q e) ∧
      ∃ head l, (s.placeCqe c cq q e).out = s.out ++ .cqe c cq e.id head q.phase e.sct e.sc e.dnr e.dw0 e.dw1 :: l := by
  unfold State.placeCqe
  extract_lets x head tail q' s1 s2
  have h1 : PostOnly s s1 := s.emit_postOnly _
  have h2 : PostOnly s s2 := by
    refine h1.trans ?_
    simp only [s2, ha, State.latSeen]
    exact State.setCtrl_postOnly _ _ _
  have ho : s2.out = s.out ++ [.cqe c cq e.id head q.phase e.sct e.sc e.dnr e.dw0 e.dw1] := by
    simp only [s2, s1, ha, State.latSeen, State.postedDw1, State.emit, State.setCtrl]
  clear_value s2
  split
  · refine ⟨h2.trans (s2.sendMsix_postOnly _ _), head, ?_⟩
    obtain ⟨_, _, o, _, _, _, _, e', _⟩ := s2.sendMsix_postOnly c q.vector
    exact ⟨o, by rw [e', ho, List.append_assoc]; rfl⟩
  · exact ⟨h2, head, [], ho⟩

/-- A completion is counted before its queue takes it (R434). -/
theorem State.postCount_only (s : State) (sct sc : Nat) :
    PostOnly s (if sct = 0 && sc = 0 then s.count R.HIF_CMDS 1 else (s.count R.HIF_CMDS 1).count R.HIF_ERR_CPL 1) := by
  have h : PostOnly s (s.count R.HIF_CMDS 1) := s.wr_postOnly _ (.inl rfl)
  split
  · exact h
  · exact h.trans (State.wr_postOnly _ _ (.inr (.inl rfl)))

theorem State.post_only (s : State) {c : Nat} (cq : Nat) (e : Cqe) (hc : c < 16) (ha : e.arrival = none) :
    PostOnly s (s.post c cq e) := by
  unfold State.post
  extract_lets s1 s2
  have h2 : PostOnly s s2 := s.postCount_only e.sct e.sc
  split
  · exact h2
  · split
    · extract_lets s3 s4
      have h4 : PostOnly s s4 :=
        ((h2.trans (State.setCtrl_postOnly _ _ _)).trans (State.wr_postOnly _ _ (.inr (.inr ⟨c, hc, rfl⟩)))).trans
          (State.setIrq_postOnly _ _ _ _)
      split
      · exact h4
      · refine (h4.trans ?_).trans (State.raise_hif_postOnly _ _ _ _ _)
        exact ⟨s4.regs, s4.irq, [], s4.err, s4.ctrls, s4.attnWanted, _, by simp; rfl, fun _ _ _ => rfl, fun _ _ => rfl⟩
    · exact h2.trans (s2.placeCqe_spec _ _ _ _ ha).1

/-- A completion for a queue with room is its next entry (R412). -/
theorem State.post_out (s : State) {c cq : Nat} {q : CplQ} {e : Cqe} (ha : e.arrival = none)
    (hq : kvFind (s.ctrl c).cqs cq = some q) (hf : q.full = false) (hh : q.held = []) :
    ∃ head l, (s.post c cq e).out = s.out ++ .cqe c cq e.id head q.phase e.sct e.sc e.dnr e.dw0 e.dw1 :: l := by
  unfold State.post
  extract_lets s1 s2
  have h2 : s2.ctrls = s.ctrls ∧ s2.out = s.out := by
    simp only [s2]
    split <;> exact ⟨rfl, rfl⟩
  have hq2 : kvFind (s2.ctrl c).cqs cq = some q := by rw [State.ctrl, h2.1]; exact hq
  rw [hq2]
  simp only [hf, hh, List.isEmpty_nil, Bool.not_true, Bool.or_self, Bool.false_eq_true, if_false, ← h2.2]
  exact (s2.placeCqe_spec c cq q e ha).2

theorem State.finishDelete_only (s : State) {c : Nat} (q : Nat) (hc : c < 16) : PostOnly s (s.finishDelete c q) := by
  unfold State.finishDelete
  extract_lets x
  split
  · split
    · split
      · exact .refl s
      · exact (State.setCtrl_postOnly _ _ _).trans (State.post_only _ _ _ hc rfl)
    · exact .refl s
  · exact .refl s

/-- A command of a queue completes: nothing but what a completion posted can change. -/
theorem State.complete_only (s : State) (cid : Cid) (sct sc : Nat) (dnr : Bool) (dw0 dw1 : Nat) (hq : cid.q ≠ pmbQ) :
    PostOnly s (s.complete cid sct sc dnr dw0 dw1) := by
  unfold State.complete State.completeRun
  extract_lets e x cq x1 x2
  rw [if_neg hq]
  split
  · exact ((State.setCtrl_postOnly _ _ _).trans (State.post_only _ _ _ cid.c.isLt rfl)).trans
      (State.finishDelete_only _ _ cid.c.isLt)
  · exact .refl s

theorem State.ctrl_setCtrl_same (s : State) (c : Nat) (x : Ctrl) : (s.setCtrl c x).ctrl c = x := by
  rw [State.ctrl, State.setCtrl, kvGet_kvPut, if_pos rfl]

/-- A fetched command of a queue whose completion queue has room completes with an entry there (R412). -/
theorem State.complete_out (s : State) {cid : Cid} (sct sc : Nat) (dnr : Bool) (dw0 dw1 : Nat) {q : CplQ} (hq : cid.q ≠ pmbQ)
    (hf : (cid.q, cid.id) ∈ (s.ctrl cid.c).fetched) (hr : CplRoom s cid q) :
    ∃ head l, (s.complete cid sct sc dnr dw0 dw1).out = s.out ++ .cqe cid.c (s.cqOf cid) cid.id head q.phase sct sc dnr
      (BitVec.ofNat 32 dw0) (BitVec.ofNat 32 dw1) :: l := by
  obtain ⟨hcq, hfull, hheld⟩ := hr
  unfold State.complete State.completeRun
  extract_lets e x cq x1 x2
  rw [if_neg hq, if_pos (List.contains_iff_mem.mpr hf)]
  have hx2 : x2.cqs = (s.ctrl cid.c).cqs := by
    simp only [x2]
    split <;> rfl
  obtain ⟨head, l, ho⟩ := State.post_out (s.setCtrl cid.c x2) (c := cid.c) (cq := cq) (e := e) rfl
    (by rw [State.ctrl_setCtrl_same, hx2]; exact hcq) hfull hheld
  obtain ⟨_, _, o, _, _, _, _, e', _⟩ := State.finishDelete_only ((s.setCtrl cid.c x2).post cid.c cq e) cid.q cid.c.isLt
  refine ⟨head, l ++ o, ?_⟩
  rw [e']
  dsimp only
  rw [ho, List.append_assoc]
  rfl

end Sys2Proof.Machine
end

section
/-! What the operations on the firmware store can change, said once, and what each of them makes of the NOR die and of NOR_STAT
(R470, R493 to R496). -/

namespace Sys2Proof.Machine

open Safety

/-! The frame. -/

/-- The registers that the firmware store shows its state in beside those of NOR's operations: NOR_STAT, and SEC_STAT for the measurement
log and the AK (R485, R503). -/
def fwReg (k : Nat) : Prop := norReg k ∨ k = R.NOR_STAT ∨ k = R.SEC_STAT

/-- All that operations on the firmware store can change. -/
def FwOnly (s t : State) : Prop :=
  ∃ rg q o e cs w f n se, t = { s with
      regs := rg, irq := q, out := s.out ++ o, err := e, ctrls := cs, attnWanted := w, fresh := f, nor := n, sec := se } ∧
    (∀ k, flagReg k = false → ¬ fwReg k → t.rd k = s.rd k) ∧ ∀ c, ∃ ev, t.ctrl c = { s.ctrl c with events := ev }

theorem NorOnly.fwOnly {s t : State} (h : NorOnly s t) : FwOnly s t := by
  obtain ⟨rg, q, o, e, cs, w, f, b, c, u, er, rfl, hr, hc⟩ := h
  exact ⟨rg, q, o, e, cs, w, f, _, s.sec, rfl, fun k hk hn => hr k hk fun h => hn (.inl h), hc⟩

theorem FwOnly.refl (s : State) : FwOnly s s := (NorOnly.refl s).fwOnly

theorem FwOnly.trans {s t u : State} (h1 : FwOnly s t) (h2 : FwOnly t u) : FwOnly s u := by
  obtain ⟨rg, q, o, e, cs, w, f, n, se, rfl, r1, c1⟩ := h1
  obtain ⟨rg', q', o', e', cs', w', f', n', se', rfl, r2, c2⟩ := h2
  refine ⟨rg', q', o ++ o', e', cs', w', f', n', se', by simp, fun k hk hn => (r2 k hk hn).trans (r1 k hk hn), fun c => ?_⟩
  obtain ⟨ev, x⟩ := c1 c
  obtain ⟨ev', y⟩ := c2 c
  exact ⟨ev', by rw [y, x]⟩

theorem State.raise_fwOnly (s : State) (p code : Nat) (client : Option Nat) (addr aux : Nat) :
    FwOnly s (s.raise p code client addr aux) := (s.raise_flags p code client addr aux).norOnly.fwOnly

theorem State.fwStep_only (s : State) (o : List Output) (n : NorState) (se : SecState) :
    FwOnly s { s with out := s.out ++ o, nor := n, sec := se } :=
  ⟨s.regs, s.irq, o, s.err, s.ctrls, s.attnWanted, s.fresh, n, se, rfl, fun _ _ _ => rfl, fun c => ⟨(s.ctrl c).events, rfl⟩⟩

theorem State.nor_fwOnly (s : State) (n : NorState) : FwOnly s { s with nor := n } := by
  have h := s.fwStep_only [] n s.sec
  rwa [List.append_nil] at h

theorem State.sec_fwOnly (s : State) (se : SecState) : FwOnly s { s with sec := se } := by
  have h := s.fwStep_only [] s.nor se
  rwa [List.append_nil] at h

theorem State.emit_fwOnly (s : State) (o : Output) : FwOnly s (s.emit o) := s.fwStep_only [o] s.nor s.sec

theorem State.wr_fwOnly (s : State) {k : Nat} (v : Nat) (h : fwReg k) : FwOnly s (s.wr k v) :=
  ⟨(s.wr k v).regs, s.irq, [], s.err, s.ctrls, s.attnWanted, s.fresh, s.nor, s.sec, by simp [State.wr],
    fun _ _ hn => State.rd_wr_ne s v fun e => hn (e ▸ h), fun c => ⟨(s.ctrl c).events, rfl⟩⟩

theorem State.setBit_norStat_fwOnly (s : State) (i : Nat) (b : Bool) : FwOnly s (s.setBit R.NOR_STAT i b) :=
  s.wr_fwOnly _ (.inr (.inl rfl))

theorem State.setBit_secStat_fwOnly (s : State) (i : Nat) (b : Bool) : FwOnly s (s.setBit R.SEC_STAT i b) :=
  s.wr_fwOnly _ (.inr (.inr rfl))

/-! What the NOR die holds, apart from how its banks and the copies of its logs stand. -/

/-- The die's contents without the state of its operations. -/
def NorState.content (n : NorState) : NorState := { n with banks := [], copies := [], undef := [], erases := [] }

@[simp] theorem NorState.content_front (n : NorState) : n.content.front = n.front := rfl
@[simp] theorem NorState.content_back (n : NorState) : n.content.back = n.back := rfl
@[simp] theorem NorState.content_selectors (n : NorState) : n.content.selectors = n.selectors := rfl
@[simp] theorem NorState.content_attempts (n : NorState) : n.content.attempts = n.attempts := rfl
@[simp] theorem NorState.content_rollback (n : NorState) : n.content.rollback = n.rollback := rfl
@[simp] theorem NorState.content_activation (n : NorState) : n.content.activation = n.activation := rfl
@[simp] theorem NorState.content_drained (n : NorState) : n.content.drained = n.drained := rfl
@[simp] theorem NorState.content_running (n : NorState) : n.content.running = n.running := rfl

theorem NorOnly.content {s t : State} (h : NorOnly s t) : t.nor.content = s.nor.content := by
  obtain ⟨_, _, _, _, _, _, _, _, _, _, _, rfl, _⟩ := h
  rfl

theorem NorOnly.sec {s t : State} (h : NorOnly s t) : t.sec = s.sec := by
  obtain ⟨_, _, _, _, _, _, _, _, _, _, _, rfl, _⟩ := h
  rfl

theorem not_norReg_norStat : ¬ norReg R.NOR_STAT := not_or.mpr ⟨by decide, by decide⟩

/-- Operations in the banks leave NOR_STAT. -/
theorem NorOnly.norStat {s t : State} (h : NorOnly s t) : t.rd R.NOR_STAT = s.rd R.NOR_STAT := by
  obtain ⟨_, _, _, _, _, _, _, _, _, _, _, _, hr, _⟩ := h
  exact hr _ (by decide) not_norReg_norStat

theorem NorOnly.norStat_bit {s t : State} (h : NorOnly s t) (i : Nat) : t.bit R.NOR_STAT i = s.bit R.NOR_STAT i :=
  State.bit_congr h.norStat i

@[simp] theorem State.setBit_nor (s : State) (k i : Nat) (b : Bool) : (s.setBit k i b).nor = s.nor := rfl
@[simp] theorem State.setBit_sec (s : State) (k i : Nat) (b : Bool) : (s.setBit k i b).sec = s.sec := rfl

/-- The bits of NOR_STAT after one was replaced. -/
theorem State.bit_setBit_norStat (s : State) {i : Nat} (j : Nat) (b : Bool) (h : i < 64) :
    (s.setBit R.NOR_STAT i b).bit R.NOR_STAT j = if i = j then b else s.bit R.NOR_STAT j := by
  rw [State.bit_setBit _ _ _ _ _ _ h]
  simp only [true_and]

/-! Measurements (R466, R470). -/

theorem State.extend_only (s : State) (slot : Nat) (data : List Byte) : FwOnly s (s.extend slot data) := by
  unfold State.extend
  extract_lets d v sec
  split
  · exact s.sec_fwOnly _
  · exact (s.sec_fwOnly _).trans (State.setBit_secStat_fwOnly _ _ _)

/-- Only SEC_STAT shows that a slot is extended. -/
theorem State.extend_rd (s : State) (slot : Nat) (data : List Byte) {k : Nat} (h : k ≠ R.SEC_STAT) :
    (s.extend slot data).rd k = s.rd k := by
  unfold State.extend
  extract_lets d v sec
  split
  · rfl
  · exact State.rd_setBit_ne _ _ _ h.symm

@[simp] theorem State.extend_nor (s : State) (slot : Nat) (data : List Byte) : (s.extend slot data).nor = s.nor := by
  unfold State.extend
  extract_lets d v sec
  split <;> rfl

/-- Each extension of a slot is counted (R470). -/
theorem State.extend_slotCount (s : State) (slot i : Nat) (data : List Byte) :
    (s.extend slot data).slotCount i = if slot = i then s.slotCount slot + 1 else s.slotCount i := by
  have h : (s.extend slot data).sec.counts = kvPut s.sec.counts slot (s.slotCount slot + 1) := by
    unfold State.extend
    extract_lets d v sec
    split <;> rfl
  rw [State.slotCount, h, kvGet_kvPut]
  rfl

theorem State.deriveAk_only (s : State) : FwOnly s s.deriveAk := by
  unfold State.deriveAk
  split
  · exact (s.sec_fwOnly _).trans (State.setBit_secStat_fwOnly _ _ _)
  · exact s.setBit_secStat_fwOnly _ _

theorem State.deriveAk_rd (s : State) {k : Nat} (h : k ≠ R.SEC_STAT) : s.deriveAk.rd k = s.rd k := by
  unfold State.deriveAk
  split
  · exact State.rd_setBit_ne _ _ _ h.symm
  · exact State.rd_setBit_ne _ _ _ h.symm

@[simp] theorem State.deriveAk_nor (s : State) : s.deriveAk.nor = s.nor := by
  unfold State.deriveAk
  split <;> rfl

@[simp] theorem State.deriveAk_slotCount (s : State) (i : Nat) : s.deriveAk.slotCount i = s.slotCount i := by
  unfold State.deriveAk
  split <;> rfl

theorem State.measureFirmware_only (s : State) (back : Bool) : FwOnly s (s.measureFirmware back) :=
  (s.extend_only _ _).trans (State.extend_only _ _ _)

theorem State.measureFirmware_rd (s : State) (back : Bool) {k : Nat} (h : k ≠ R.SEC_STAT) :
    (s.measureFirmware back).rd k = s.rd k := by
  rw [State.measureFirmware, State.extend_rd _ _ _ h, State.extend_rd _ _ _ h]

@[simp] theorem State.measureFirmware_nor (s : State) (back : Bool) : (s.measureFirmware back).nor = s.nor := by
  simp only [State.measureFirmware, State.extend_nor]

/-- Firmware that starts is measured into slots 1 and 2 (R470). -/
theorem State.measureFirmware_slotCount (s : State) (back : Bool) (i : Nat) :
    (s.measureFirmware back).slotCount i = if i = 1 ∨ i = 2 then s.slotCount i + 1 else s.slotCount i := by
  simp only [State.measureFirmware, State.extend_slotCount]
  by_cases h1 : i = 1
  · simp [h1]
  · by_cases h2 : i = 2
    · simp [h2]
    · simp [h1, h2, Ne.symm h1, Ne.symm h2]

/-! The selector (R495). -/

@[simp] theorem votedSelector_replicate (x : Selector) : votedSelector (List.replicate 3 x) = some x := by
  simp [votedSelector, List.replicate]

theorem State.setSelector_only (s : State) (back trial : Bool) (seq : Nat) : FwOnly s (s.setSelector back trial seq) :=
  ((s.nor_fwOnly _).trans (State.norLog_only _ _ _).fwOnly).trans (State.setBit_norStat_fwOnly _ _ _)

/-- The selector copies take the record, which no ATTEMPT record follows (R495). -/
theorem State.setSelector_content (s : State) (back trial : Bool) (seq : Nat) :
    (s.setSelector back trial seq).nor.content =
      { s.nor.content with selectors := List.replicate 3 ⟨back, trial, seq⟩, attempts := [] } := by
  rw [State.setSelector, State.setBit_nor, (State.norLog_only _ _ _).content]
  rfl

theorem State.setSelector_rollback (s : State) (back trial : Bool) (seq : Nat) :
    (s.setSelector back trial seq).nor.rollback = s.nor.rollback := by
  rw [← NorState.content_rollback, State.setSelector_content, NorState.content_rollback]

theorem State.setSelector_norStat (s : State) (back trial : Bool) (seq i : Nat) :
    (s.setSelector back trial seq).bit R.NOR_STAT i = if i = 1 then trial else s.bit R.NOR_STAT i := by
  rw [State.setSelector, State.bit_setBit_norStat _ _ _ (by decide), (State.norLog_only _ _ _).norStat_bit]
  simp only [eq_comm]
  rfl

theorem State.takeOther_only (s : State) (back : Bool) (code : Nat) : FwOnly s (s.takeOther back code) :=
  (s.setSelector_only _ _ _).trans (State.raise_fwOnly _ _ _ _ _ _)

theorem State.takeOther_content (s : State) (back : Bool) (code : Nat) :
    (s.takeOther back code).nor.content =
      { s.nor.content with selectors := List.replicate 3 ⟨back, false, (s.endpaper back).seq⟩, attempts := [] } := by
  rw [State.takeOther, State.raise_nor, State.setSelector_content]

theorem State.takeOther_selectors (s : State) (back : Bool) (code : Nat) :
    (s.takeOther back code).nor.selectors = List.replicate 3 ⟨back, false, (s.endpaper back).seq⟩ := by
  rw [← NorState.content_selectors, State.takeOther_content]

theorem State.takeOther_attempts (s : State) (back : Bool) (code : Nat) : (s.takeOther back code).nor.attempts = [] := by
  rw [← NorState.content_attempts, State.takeOther_content]

theorem State.takeOther_pgErr (s : State) (back : Bool) (code : Nat) :
    (s.takeOther back code).rd (R.PG_ERR pageNor) % 65536 = code % 65536 := State.raise_pgErr _ _ _ _ _ _

/-! Firmware starts (R495). -/

/-- An endpaper in trial starts: an ATTEMPT record follows the selector's, then the measurement (R495). -/
theorem State.startFirmware_of_trial {s : State} {sel : Selector} (h : votedSelector s.nor.selectors = some sel)
    (ht : sel.trial = true) : ∃ old, s.startFirmware sel.active =
      (({ s.setBit R.NOR_STAT 0 sel.active with nor := { s.nor with attempts := s.nor.attempts ++ [sel.seq] } }).norLog logSelector
        old).measureFirmware sel.active := by
  refine ⟨.selector s.nor.selectors s.nor.attempts, ?_⟩
  simp only [State.startFirmware, State.setBit_nor, h, ht, decide_true, Bool.and_self, if_true]

/-- An endpaper out of trial starts with its measurement alone (R495). -/
theorem State.startFirmware_of_settled {s : State} {sel : Selector} (back : Bool) (h : votedSelector s.nor.selectors = some sel)
    (ht : sel.trial = false) : s.startFirmware back = (s.setBit R.NOR_STAT 0 back).measureFirmware back := by
  simp only [State.startFirmware, State.setBit_nor, h, ht, Bool.false_and, Bool.false_eq_true, if_false]

/-- The endpaper that the selector names starts: what the start can change. -/
theorem State.startFirmware_only {s : State} {sel : Selector} (h : votedSelector s.nor.selectors = some sel) :
    FwOnly s (s.startFirmware sel.active) := by
  have h1 : FwOnly s (s.setBit R.NOR_STAT 0 sel.active) := s.setBit_norStat_fwOnly _ _
  cases ht : sel.trial with
  | true =>
    obtain ⟨old, e⟩ := State.startFirmware_of_trial h ht
    rw [e]
    exact ((h1.trans (State.nor_fwOnly _ _)).trans (State.norLog_only _ _ _).fwOnly).trans (State.measureFirmware_only _ _)
  | false =>
    rw [State.startFirmware_of_settled _ h ht]
    exact h1.trans (State.measureFirmware_only _ _)

/-- A trial takes an ATTEMPT record, and nothing else on the die changes (R495). -/
theorem State.startFirmware_content {s : State} {sel : Selector} (h : votedSelector s.nor.selectors = some sel) :
    (s.startFirmware sel.active).nor.content =
      { s.nor.content with attempts := if sel.trial then s.nor.attempts ++ [sel.seq] else s.nor.attempts } := by
  cases ht : sel.trial with
  | true =>
    obtain ⟨old, e⟩ := State.startFirmware_of_trial h ht
    rw [e, State.measureFirmware_nor, (State.norLog_only _ _ _).content]
    rfl
  | false =>
    rw [State.startFirmware_of_settled _ h ht, State.measureFirmware_nor]
    rfl

/-- NOR_STAT names the endpaper that runs (R503). -/
theorem State.startFirmware_norStat {s : State} {sel : Selector} (h : votedSelector s.nor.selectors = some sel) (i : Nat) :
    (s.startFirmware sel.active).bit R.NOR_STAT i = if i = 0 then sel.active else s.bit R.NOR_STAT i := by
  have h1 : (s.setBit R.NOR_STAT 0 sel.active).bit R.NOR_STAT i = if i = 0 then sel.active else s.bit R.NOR_STAT i := by
    rw [State.bit_setBit_norStat _ _ _ (by decide)]
    simp only [eq_comm]
  rw [← h1]
  cases ht : sel.trial with
  | true =>
    obtain ⟨old, e⟩ := State.startFirmware_of_trial h ht
    rw [e, State.bit_congr (State.measureFirmware_rd _ _ (by decide)), (State.norLog_only _ _ _).norStat_bit]
    rfl
  | false => rw [State.startFirmware_of_settled _ h ht, State.bit_congr (State.measureFirmware_rd _ _ (by decide))]

theorem State.startFirmware_slotCount {s : State} {sel : Selector} (h : votedSelector s.nor.selectors = some sel) (i : Nat) :
    (s.startFirmware sel.active).slotCount i = if i = 1 ∨ i = 2 then s.slotCount i + 1 else s.slotCount i := by
  cases ht : sel.trial with
  | true =>
    obtain ⟨old, e⟩ := State.startFirmware_of_trial h ht
    rw [e, State.measureFirmware_slotCount, State.slotCount, (State.norLog_only _ _ _).sec]
    rfl
  | false =>
    rw [State.startFirmware_of_settled _ h ht, State.measureFirmware_slotCount]
    rfl

/-- Firmware that starts out of trial raises nothing. -/
theorem State.startFirmware_keepsErr {s : State} {sel : Selector} (back : Bool) (h : votedSelector s.nor.selectors = some sel)
    (ht : sel.trial = false) : KeepsErr s (s.startFirmware back) := by
  intro p
  have hp : R.PG_ERR p ≠ R.SEC_STAT := by simp only [R.PG_ERR, R.SEC_STAT]; omega
  rw [State.startFirmware_of_settled _ h ht, State.measureFirmware_rd _ _ hp]
  exact s.wr_keepsErr _ (by decide) p

end Sys2Proof.Machine
end

section
/-! What an activation's end, the boot ROM's choice, a rise of the rollback counter and a written endpaper come to
(R407, R493 to R497, R500). -/

namespace Sys2Proof.Machine

open Safety

/-! What a command carries to its end. -/

/-- The memories stay, what has left is only added to, and the controllers change in the events that wait alone. -/
structure Carries (s t : State) : Prop where
  mem : SameMem s t
  out : ∃ l, t.out = s.out ++ l
  ctrl : ∀ c, ∃ ev, t.ctrl c = { s.ctrl c with events := ev }

theorem Carries.refl (s : State) : Carries s s := ⟨.refl s, ⟨[], (List.append_nil _).symm⟩, fun c => ⟨(s.ctrl c).events, rfl⟩⟩

theorem Carries.trans {s t u : State} (h1 : Carries s t) (h2 : Carries t u) : Carries s u := by
  obtain ⟨m1, ⟨l1, e1⟩, c1⟩ := h1
  obtain ⟨m2, ⟨l2, e2⟩, c2⟩ := h2
  refine ⟨m1.trans m2, ⟨l1 ++ l2, by rw [e2, e1, List.append_assoc]⟩, fun c => ?_⟩
  obtain ⟨ev, x⟩ := c1 c
  obtain ⟨ev', y⟩ := c2 c
  exact ⟨ev', by rw [y, x]⟩

theorem FwOnly.carries {s t : State} (h : FwOnly s t) : Carries s t := by
  obtain ⟨_, _, o, _, _, _, _, _, _, rfl, _, hc⟩ := h
  exact ⟨⟨rfl, rfl, rfl, rfl⟩, ⟨o, rfl⟩, hc⟩

/-- A register that shows no part of the firmware store's state. -/
theorem FwOnly.rd {s t : State} (h : FwOnly s t) {k : Nat} (hk : flagReg k = false) (hn : ¬ fwReg k) : t.rd k = s.rd k := by
  obtain ⟨_, _, _, _, _, _, _, _, _, _, hr, _⟩ := h
  exact hr k hk hn

theorem FwOnly.sys {s t : State} (h : FwOnly s t) : t.sys = s.sys := by
  obtain ⟨_, _, _, _, _, _, _, _, _, rfl, _⟩ := h
  rfl

theorem FwOnly.etime {s t : State} (h : FwOnly s t) : t.etime = s.etime := by
  obtain ⟨_, _, _, _, _, _, _, _, _, rfl, _⟩ := h
  rfl

theorem not_fwReg_sysState : ¬ fwReg R.SYS_STATE :=
  not_or.mpr ⟨not_or.mpr ⟨by decide, by decide⟩, not_or.mpr ⟨by decide, by decide⟩⟩

theorem State.wr_carries (s : State) (k v : Nat) : Carries s (s.wr k v) :=
  ⟨s.wr_sameMem _ _, ⟨[], (List.append_nil _).symm⟩, fun c => ⟨(s.ctrl c).events, rfl⟩⟩

/-- The bring-up's phase: SYS_STATE reports it, and no other register changes (R510). -/
theorem State.toPhase_carries (s : State) (n : Nat) : Carries s (s.toPhase n) :=
  ⟨⟨rfl, rfl, rfl, rfl⟩, ⟨[], (List.append_nil _).symm⟩, fun c => ⟨(s.ctrl c).events, rfl⟩⟩

@[simp] theorem State.toPhase_nor (s : State) (n : Nat) : (s.toPhase n).nor = s.nor := rfl

theorem State.toPhase_phase (s : State) {n : Nat} (h : n < 2 ^ 64) : (s.toPhase n).rd R.SYS_STATE = n :=
  s.rd_wr_same R.SYS_STATE n h

theorem State.toPhase_rd (s : State) (n : Nat) {k : Nat} (h : k ≠ R.SYS_STATE) : (s.toPhase n).rd k = s.rd k :=
  s.rd_wr_ne n h.symm

theorem State.elapse_carries (s : State) (d : Nat) : Carries s (s.elapse d) := by
  obtain ⟨dt, tm, f, e⟩ := s.elapse_eq d
  rw [e]
  exact ⟨⟨rfl, rfl, rfl, rfl⟩, ⟨[], (List.append_nil _).symm⟩, fun c => ⟨(s.ctrl c).events, rfl⟩⟩

@[simp] theorem State.elapse_nor (s : State) (d : Nat) : (s.elapse d).nor = s.nor := by
  obtain ⟨dt, tm, f, e⟩ := s.elapse_eq d
  rw [e]

@[simp] theorem State.elapse_sys (s : State) (d : Nat) : (s.elapse d).sys = s.sys := by
  obtain ⟨dt, tm, f, e⟩ := s.elapse_eq d
  rw [e]

@[simp] theorem State.elapse_etime (s : State) (d : Nat) : (s.elapse d).etime = s.etime + d := by
  obtain ⟨dt, tm, f, e⟩ := s.elapse_eq d
  rw [e]

@[simp] theorem State.elapse_rd (s : State) (d k : Nat) : (s.elapse d).rd k = s.rd k := by
  obtain ⟨dt, tm, f, e⟩ := s.elapse_eq d
  rw [e]
  rfl

/-- A fetched admin command answered at the end of what its queue carries: its entry, and the interrupts routed (R412). -/
theorem State.complete_answers {s t : State} {cid : Cid} (sct sc : Nat) (dnr : Bool) (hc : Carries s t) (hq : cid.q = 0)
    (hf : (cid.q, cid.id) ∈ (s.ctrl cid.c).fetched) : Answered s (t.complete cid sct sc dnr 0 0).settle cid sct sc 0 := by
  have hne : cid.q ≠ pmbQ := by rw [hq]; decide
  obtain ⟨ev, ec⟩ := hc.ctrl cid.c
  obtain ⟨l, eo⟩ := hc.out
  have hcq : t.cqOf cid = s.cqOf cid := by rw [State.cqOf, ec]; rfl
  refine ⟨fun h => absurd h hne, fun _ q hr => ?_⟩
  have hr' : CplRoom t cid q := by
    obtain ⟨h1, h2, h3⟩ := hr
    exact ⟨by rw [hcq, ec]; exact h1, h2, h3⟩
  obtain ⟨head, l2, ho⟩ := t.complete_out sct sc dnr 0 0 hne (by rw [ec]; exact hf) hr'
  obtain ⟨l3, hs⟩ := (t.complete cid sct sc dnr 0 0).settle_out
  rw [hcq] at ho
  generalize he : Output.cqe cid.c (s.cqOf cid) cid.id head q.phase sct sc dnr (BitVec.ofNat 32 0) (BitVec.ofNat 32 0) = o at ho
  refine ⟨head, dnr, BitVec.ofNat 32 0, o, l ++ o :: (l2 ++ l3), ?_, by simp, he.symm⟩
  rw [hs, ho, eo]
  simp only [List.append_assoc, List.cons_append]

/-! The end of an activation (R407, R500). -/

/-- What the end of an activation leaves, with a status of its Commit. -/
structure ActivationEnds (s t : State) (sc : Nat) : Prop where
  nor : t.nor = { s.nor with activation := none, running := false, drained := false }
  low : t.sys.low = false
  phase : t.rd R.SYS_STATE = 6
  commit : t.rd R.NOR_CMT_STAT = (1 + sc * 256) % 2 ^ 64
  later : s.etime ≤ t.etime
  mem : SameMem s t
  stat : ∀ i, i ≠ 5 → t.bit R.NOR_STAT i = s.bit R.NOR_STAT i
  err : t.rd (R.PG_ERR pageNor) = s.rd (R.PG_ERR pageNor)

/-- RB# released: no less than 100 µs have passed (R407). -/
theorem State.rbRelease_eq {s : State} (h : s.sys.low = true) :
    ∃ v, s.rbRelease = { v with sys := { s.sys with low := false, releasedAt := v.etime } } ∧ Carries s v ∧ s.etime ≤ v.etime ∧
      v.nor = s.nor ∧ ∀ k, v.rd k = s.rd k := by
  refine ⟨(s.elapse (s.sys.lowAt + 100 * tickUs - s.etime)).emit (.rb true), ?_, ?_, ?_, ?_, fun k => ?_⟩
  · simp only [State.rbRelease, h, if_true, State.emit_sys, State.elapse_sys]
  · exact (s.elapse_carries _).trans (State.emit_fwOnly _ _).carries
  · simp
  · simp
  · exact (State.rd_congr (State.emit_regs _ _) k).trans (s.elapse_rd _ k)

theorem State.commitDone_answers {s t : State} {cid : Cid} (sc : Nat) (hc : Carries s t) (hq : cid.q = 0)
    (hf : (cid.q, cid.id) ∈ (s.ctrl cid.c).fetched) :
    Answered s (t.commitDone cid sc).settle cid (if sc = 0 then 0 else 1) sc 0 := by
  have h1 : Carries t ((t.wr R.NOR_CMT_STAT (1 + sc * 256)).setIrq pageNor 4 0xA) :=
    (t.wr_carries _ _).trans (State.setIrq_flags _ _ _ _).norOnly.fwOnly.carries
  unfold State.commitDone
  extract_lets s1
  split
  · next h =>
    subst h
    exact State.complete_answers 0 0 false (hc.trans h1) hq hf
  · exact State.complete_answers 1 sc true (hc.trans h1) hq hf

/-- A Commit of a queue completes: NOR_CMT_STAT, NOR's interrupt, and what a completion posted can change. -/
theorem State.commitDone_only (s : State) (cid : Cid) (sc : Nat) (hq : cid.q ≠ pmbQ) :
    PostOnly (s.wr R.NOR_CMT_STAT (1 + sc * 256)) (s.commitDone cid sc) := by
  unfold State.commitDone
  extract_lets s1
  split
  · exact (State.setIrq_postOnly _ _ _ _).trans (State.complete_only _ _ _ _ _ _ _ hq)
  · exact (State.setIrq_postOnly _ _ _ _).trans (State.complete_only _ _ _ _ _ _ _ hq)

theorem not_postReg_of_low {k : Nat} (h : k < 0x60000) : ¬ postReg k := fun hp => absurd (postReg_page hp).1 (Nat.not_le.mpr h)

theorem not_postReg_of_nor {o : Nat} (h : o < 0x10000) : ¬ postReg (0xf0000 + o) := by
  rintro (e | e | ⟨c, hc, e⟩)
  · simp only [R.HIF_CMDS] at e
    omega
  · simp only [R.HIF_ERR_CPL] at e
    omega
  · simp only [R.HIF_QHELD] at e
    omega

/-- The state in which an activation's Commit completes: READY, with RB# released and no activation (R500). -/
theorem State.endActivation_eq {s : State} {cid : Cid} (sc : Nat) (hl : s.sys.low = true) (ha : s.nor.activation = some cid) :
    ∃ v, s.endActivation sc = v.commitDone cid sc ∧ Carries s v ∧
      v.nor = { s.nor with activation := none, running := false, drained := false } ∧ v.sys.low = false ∧ s.etime ≤ v.etime ∧
      v.rd R.SYS_STATE = 6 ∧ (∀ i, i ≠ 5 → v.bit R.NOR_STAT i = s.bit R.NOR_STAT i) ∧
      v.rd (R.PG_ERR pageNor) = s.rd (R.PG_ERR pageNor) := by
  generalize hs1 : ({ s with nor := { s.nor with activation := none, running := false, drained := false } } : State).setBit
    R.NOR_STAT 5 false = s1
  have h1 : Carries s s1 := by
    rw [← hs1]
    exact ((s.nor_fwOnly _).trans (State.setBit_norStat_fwOnly _ _ _)).carries
  have hl1 : (s1.toPhase 6).sys.low = true := by rw [← hs1]; exact hl
  obtain ⟨v, ev, hcv, hlv, hnv, hrv⟩ := State.rbRelease_eq hl1
  refine ⟨(s1.toPhase 6).rbRelease, ?_, ?_, ?_, ?_, ?_, ?_, fun i hi => ?_, ?_⟩
  · simp only [State.endActivation, hs1, ha]
  · rw [ev]
    exact (h1.trans (s1.toPhase_carries 6)).trans ⟨hcv.mem, hcv.out, hcv.ctrl⟩
  · rw [ev]
    exact hnv.trans (by rw [State.toPhase_nor, ← hs1, State.setBit_nor])
  · rw [ev]
  · rw [ev]
    exact Nat.le_trans (by rw [← hs1]; exact Nat.le_refl _) hlv
  · rw [ev]
    exact (hrv _).trans (s1.toPhase_phase (by decide))
  · rw [ev]
    refine (State.bit_congr (hrv _) i).trans ((State.bit_congr (s1.toPhase_rd 6 (by decide)) i).trans ?_)
    rw [← hs1, State.bit_setBit_norStat _ _ _ (by decide), if_neg (Ne.symm hi)]
    rfl
  · rw [ev]
    refine (hrv _).trans ((s1.toPhase_rd 6 (by decide)).trans ?_)
    rw [← hs1, State.rd_setBit_ne _ _ _ (by decide)]
    rfl

/-- An activation's end, for a Commit of the admin queue (R500). -/
theorem State.endActivation_ends {s : State} {cid : Cid} (sc : Nat) (hl : s.sys.low = true) (ha : s.nor.activation = some cid)
    (hq : cid.q = 0) : ActivationEnds s (s.endActivation sc).settle sc := by
  have hne : cid.q ≠ pmbQ := by rw [hq]; decide
  obtain ⟨v, ev, hcv, hnv, hlow, hlv, hst, hstat, herr⟩ := State.endActivation_eq sc hl ha
  obtain ⟨rg, q, o, e, cs, w, hs, et, hr, hpe⟩ := (State.commitDone_only v cid sc hne).trans (State.settle_postOnly _)
  rw [ev]
  have hrd : ∀ k, flagReg k = false → ¬ postReg k → (v.commitDone cid sc).settle.rd k = (v.wr R.NOR_CMT_STAT (1 + sc * 256)).rd k :=
    fun k h1 h2 => by rw [et]; rw [et] at hr; exact hr k h1 h2
  have hstatr : (v.commitDone cid sc).settle.rd R.NOR_STAT = v.rd R.NOR_STAT := by
    rw [hrd _ (by decide) (not_postReg_of_nor (o := 0x100) (by decide)), State.rd_wr_ne _ _ (by decide)]
  refine ⟨by rw [et]; exact hnv, by rw [et]; exact hlow, ?_, ?_, by rw [et]; exact hlv, ?_, fun i hi => ?_, ?_⟩
  · rw [hrd _ (by decide) (not_postReg_of_low (by decide)), State.rd_wr_ne _ _ (by decide), hst]
  · rw [hrd _ (by decide) (not_postReg_of_nor (o := 0x124) (by decide)), State.rd_wr, if_pos rfl]
  · rw [et]
    exact hcv.mem
  · rw [State.bit_congr hstatr, hstat i hi]
  · rw [hpe _ (by decide), State.rd_wr_ne _ _ (by decide), herr]

/-- The Commit that an activation answers (R500). -/
theorem State.endActivation_answers {s t : State} {cid : Cid} (sc : Nat) (hc : Carries s t) (hl : t.sys.low = true)
    (ha : t.nor.activation = some cid) (hq : cid.q = 0) (hf : (cid.q, cid.id) ∈ (s.ctrl cid.c).fetched) :
    Answered s (t.endActivation sc).settle cid (if sc = 0 then 0 else 1) sc 0 := by
  obtain ⟨v, ev, hcv, -⟩ := State.endActivation_eq sc hl ha
  rw [ev]
  exact State.commitDone_answers sc (hc.trans hcv) hq hf

end Sys2Proof.Machine
end

section
/-! Activation, trial, confirmation and ROM recovery, clause by clause (R3, R492 to R500). -/

namespace Sys2Proof.Machine

open Safety

/-! The rollback counter (R493). -/

theorem State.rollback_only (s : State) (v : Nat) :
    NorOnly s (s.nor.rollback.zipIdx.foldl (fun t x => (t.norProgram (0x1006 + x.2) x.1 (v - x.1)).2) s) :=
  .foldl _ (fun t _ => t.norProgram_only _ _ _) _ s

/-- The rollback counter of a state given new copies. -/
def State.putRollback (s : State) (copies : List Nat) : State := { s with nor := { s.nor with rollback := copies } }

/-- Confirming an image lifts the rollback counter, or finds no copy to lift and leaves the module as it is (R493). -/
theorem State.raiseRollback_cases (s : State) (im : FwImage) (b : Bool) :
    (im.raise = true ∧ ∃ d, NorOnly s d ∧ s.raiseRollback im b =
      (d.putRollback (d.nor.rollback.map fun x => max x (min im.svn 1024))).raise pageNor 0xA009 none b.toNat 0) ∨
    ((im.raise = true → ∀ x ∈ s.nor.rollback, min im.svn 1024 ≤ x) ∧ s.raiseRollback im b = s) := by
  unfold State.raiseRollback
  extract_lets v s1 nor
  have h1 : NorOnly s s1 := s.rollback_only v
  clear_value s1
  split
  · next h => exact .inl ⟨(Bool.and_eq_true_iff.mp h).1, s1, h1, rfl⟩
  · next h =>
    refine .inr ⟨fun hr x hx => Nat.not_lt.mp fun hlt => h ?_, rfl⟩
    rw [hr, Bool.true_and, List.any_eq_true]
    exact ⟨x, hx, decide_eq_true hlt⟩

theorem State.raiseRollback_only (s : State) (im : FwImage) (b : Bool) : FwOnly s (s.raiseRollback im b) := by
  obtain ⟨-, d, hd, e⟩ | ⟨-, e⟩ := s.raiseRollback_cases im b
  · rw [e]
    exact (hd.fwOnly.trans (d.nor_fwOnly _)).trans (State.raise_fwOnly _ _ _ _ _ _)
  · rw [e]
    exact .refl s

/-- A confirmed image with RAISE lifts each copy of the rollback counter to its SVN; no other image moves it (R493). -/
theorem State.raiseRollback_content (s : State) (im : FwImage) (b : Bool) :
    (s.raiseRollback im b).nor.content = { s.nor.content with
      rollback := if im.raise then s.nor.rollback.map fun x => max x (min im.svn 1024) else s.nor.rollback } := by
  obtain ⟨hr, d, hd, e⟩ | ⟨hle, e⟩ := s.raiseRollback_cases im b
  · have hroll : d.nor.rollback = s.nor.rollback := by rw [← NorState.content_rollback, hd.content, NorState.content_rollback]
    rw [e, State.raise_nor, hr, if_pos rfl, ← hd.content, hroll]
    rfl
  · have hmap : (if im.raise then s.nor.rollback.map fun x => max x (min im.svn 1024) else s.nor.rollback) = s.nor.rollback := by
      split
      · next hr => exact (List.map_congr_left fun x hx => Nat.max_eq_left (hle hr x hx)).trans (List.map_id _)
      · rfl
    rw [e, hmap]
    rfl

theorem State.raiseRollback_norStat (s : State) (im : FwImage) (b : Bool) :
    (s.raiseRollback im b).rd R.NOR_STAT = s.rd R.NOR_STAT := by
  obtain ⟨-, d, hd, e⟩ | ⟨-, e⟩ := s.raiseRollback_cases im b
  · rw [e, State.raise_rd _ _ _ _ _ _ (by decide), ← hd.norStat]
    rfl
  · rw [e]

/-- A copy that rises raises event 0xA009 (R493). -/
theorem State.raiseRollback_pgErr (s : State) {im : FwImage} (b : Bool) (hr : im.raise = true) {x : Nat} (hx : x ∈ s.nor.rollback)
    (hlt : x < min im.svn 1024) : (s.raiseRollback im b).rd (R.PG_ERR pageNor) % 65536 = 0xA009 := by
  obtain ⟨-, d, -, e⟩ | ⟨hle, -⟩ := s.raiseRollback_cases im b
  · rw [e]
    exact State.raise_pgErr _ _ _ _ _ _
  · exact absurd hlt (Nat.not_lt.mpr (hle hr x hx))

end Sys2Proof.Machine
end

section
/-! The confirmation of a trial, and the return to the old endpaper (R3, R496, R500). -/

namespace Sys2Proof.Machine

open Safety

/-- What a confirmed trial shows: the selector out of trial, and RAISE applied to the rollback counter (R493, R496). -/
def Confirmed (s t : State) : Prop :=
  t.nor.selectors = List.replicate 3 ⟨s.runsBack, false, (s.endpaper s.runsBack).seq⟩ ∧ t.bit R.NOR_STAT 1 = false ∧
    ((s.endpaper s.runsBack).raise = true →
      t.nor.rollback = s.nor.rollback.map fun x => max x (min (s.endpaper s.runsBack).svn 1024)) ∧
    ((s.endpaper s.runsBack).raise = false → t.nor.rollback = s.nor.rollback) ∧ SameMem s t

/-- The endpaper in trial is confirmed (R496). -/
def State.confirmTrial (s : State) : State :=
  (s.setSelector s.runsBack false (s.endpaper s.runsBack).seq).raiseRollback (s.endpaper s.runsBack) s.runsBack

theorem State.confirmTrial_only (s : State) : FwOnly s s.confirmTrial :=
  (s.setSelector_only _ _ _).trans (State.raiseRollback_only _ _ _)

theorem State.confirmTrial_content (s : State) : s.confirmTrial.nor.content = { s.nor.content with
    selectors := List.replicate 3 ⟨s.runsBack, false, (s.endpaper s.runsBack).seq⟩, attempts := []
    rollback := if (s.endpaper s.runsBack).raise then
        s.nor.rollback.map fun x => max x (min (s.endpaper s.runsBack).svn 1024) else s.nor.rollback } := by
  rw [State.confirmTrial, State.raiseRollback_content, State.setSelector_content, State.setSelector_rollback]

theorem State.confirmTrial_selectors (s : State) :
    s.confirmTrial.nor.selectors = List.replicate 3 ⟨s.runsBack, false, (s.endpaper s.runsBack).seq⟩ := by
  rw [← NorState.content_selectors, State.confirmTrial_content]

theorem State.confirmTrial_rollback (s : State) : s.confirmTrial.nor.rollback =
    if (s.endpaper s.runsBack).raise then
      s.nor.rollback.map fun x => max x (min (s.endpaper s.runsBack).svn 1024) else s.nor.rollback := by
  rw [← NorState.content_rollback, State.confirmTrial_content]

theorem State.confirmTrial_activation (s : State) : s.confirmTrial.nor.activation = s.nor.activation := by
  rw [← NorState.content_activation, State.confirmTrial_content, NorState.content_activation]

theorem State.confirmTrial_drained (s : State) : s.confirmTrial.nor.drained = s.nor.drained := by
  rw [← NorState.content_drained, State.confirmTrial_content, NorState.content_drained]

/-- What follows a confirmation and leaves its records, its bit and the memories is confirmed too. -/
theorem State.confirmTrial_confirmed {s t : State} (hs : t.nor.selectors = s.confirmTrial.nor.selectors)
    (hr : t.nor.rollback = s.confirmTrial.nor.rollback) (hb : t.bit R.NOR_STAT 1 = s.confirmTrial.bit R.NOR_STAT 1)
    (hm : SameMem s.confirmTrial t) : Confirmed s t := by
  have hroll := s.confirmTrial_rollback
  have hbit : s.confirmTrial.bit R.NOR_STAT 1 = false := by
    rw [State.confirmTrial, State.bit_congr (State.raiseRollback_norStat _ _ _), State.setSelector_norStat, if_pos rfl]
  refine ⟨hs.trans s.confirmTrial_selectors, hb.trans hbit, fun h => ?_, fun h => ?_, s.confirmTrial_only.carries.mem.trans hm⟩
  · exact (hr.trans hroll).trans (if_pos h)
  · exact (hr.trans hroll).trans (if_neg (by rw [h]; decide))

/-- TRIAL_CONFIRMATION of a trial that is ready confirms it, and ends an activation that waits for it (R496, R500). -/
theorem State.exec_trialConfirmation {s : State} (ht : s.inTrial = true)
    (hr : s.nor.drained = true ∨ s.rd R.SYS_STATE = 6 ∧ s.sys.low = false ∧ s.released = true) :
    exec .trialConfirmation s = settled (if s.nor.drained then s.confirmTrial.endActivation 0 else s.confirmTrial) := by
  have hready : (decide (s.rd R.SYS_STATE = 6) && !s.sys.low && s.released || s.nor.drained) = true := by
    rcases hr with h | ⟨h1, h2, h3⟩
    · rw [h, Bool.or_true]
    · rw [h1, h2, h3]
      rfl
  rw [← s.confirmTrial_drained]
  show execTrialConfirmation s = _
  unfold execTrialConfirmation
  extract_lets ready b im s1
  rw [ht, show (ready || s.nor.drained) = true from hready]
  rfl

/-- A trial out of an activation, at READY with RB# released, is confirmed; RAISE that lifts a copy says so (R493, R496). -/
theorem trialConfirmation_ready {s : State} (ht : s.inTrial = true) (hd : s.nor.drained = false) (hp : s.rd R.SYS_STATE = 6)
    (hl : s.sys.low = false) (hrel : s.released = true) : Runs .trialConfirmation s fun t => Confirmed s t ∧
      ((s.endpaper s.runsBack).raise = true → ∀ x ∈ s.nor.rollback, x < min (s.endpaper s.runsBack).svn 1024 →
        t.rd (R.PG_ERR pageNor) % 65536 = 0xA009) := by
  refine ⟨_, State.exec_trialConfirmation ht (.inr ⟨hp, hl, hrel⟩), ?_⟩
  rw [hd, if_neg (by decide)]
  refine ⟨State.confirmTrial_confirmed (by rw [State.settle_nor]) (by rw [State.settle_nor]) (State.settle_bit _ (by decide) 1)
    (State.settle_sameMem _), fun hr x hx hlt => ?_⟩
  rw [State.settle_keepsErr, State.confirmTrial]
  exact State.raiseRollback_pgErr _ _ hr (by rw [State.setSelector_rollback]; exact hx) hlt

/-- A trial that an activation waits for is confirmed, and the activation's Commit succeeds (R496, R500). -/
theorem trialConfirmation_activation {s : State} {cid : Cid} (ht : s.inTrial = true) (hd : s.nor.drained = true)
    (hl : s.sys.low = true) (ha : s.nor.activation = some cid) (hq : cid.q = 0) (hf : (cid.q, cid.id) ∈ (s.ctrl cid.c).fetched) :
    Runs .trialConfirmation s fun t => Confirmed s t ∧ Answered s t cid 0 0 0 ∧ t.nor.running = false ∧
      t.rd R.SYS_STATE = 6 ∧ t.sys.low = false := by
  have hl' : s.confirmTrial.sys.low = true := by rw [s.confirmTrial_only.sys, hl]
  have ha' : s.confirmTrial.nor.activation = some cid := s.confirmTrial_activation.trans ha
  have ends := State.endActivation_ends 0 hl' ha' hq
  refine ⟨_, State.exec_trialConfirmation ht (.inl hd), ?_⟩
  rw [hd, if_pos rfl]
  exact ⟨State.confirmTrial_confirmed (by rw [ends.nor]) (by rw [ends.nor]) (ends.stat 1 (by decide)) ends.mem,
    State.endActivation_answers 0 s.confirmTrial_only.carries hl' ha' hq hf, by rw [ends.nor], ends.phase, ends.low⟩

/-- Out of trial there is nothing to confirm (R496). -/
theorem trialConfirmation_idle {s : State} (ht : s.inTrial = false) :
    Runs .trialConfirmation s fun t => t.nor = s.nor ∧ Kept s t (fun _ => False) ∧ SameMem s t := by
  refine ⟨s.settle, ?_, State.settle_nor s, fun k hk _ => State.settle_rd s (catReg_flagReg hk), s.settle_sameMem⟩
  show execTrialConfirmation s = _
  simp only [execTrialConfirmation, ht, Bool.not_false, Bool.true_or, if_true]
  rfl

/-! The return to the old endpaper (R500). -/

/-- The management cores start again in an endpaper out of trial (R495, R500). -/
def State.restartIn (s : State) (back : Bool) : State := ((s.takeOther back 0xA006).startFirmware back).deriveAk

theorem State.takeOther_voted (s : State) (back : Bool) (code : Nat) :
    votedSelector (s.takeOther back code).nor.selectors = some ⟨back, false, (s.endpaper back).seq⟩ := by
  rw [State.takeOther_selectors, votedSelector_replicate]

theorem State.restartIn_only (s : State) (back : Bool) : FwOnly s (s.restartIn back) :=
  ((s.takeOther_only _ _).trans (State.startFirmware_only (s.takeOther_voted back 0xA006))).trans (State.deriveAk_only _)

theorem State.restartIn_content (s : State) (back : Bool) : (s.restartIn back).nor.content =
    { s.nor.content with selectors := List.replicate 3 ⟨back, false, (s.endpaper back).seq⟩, attempts := [] } := by
  rw [State.restartIn, State.deriveAk_nor, State.startFirmware_content (s.takeOther_voted back 0xA006), State.takeOther_content,
    State.takeOther_attempts]
  rfl

theorem State.restartIn_selectors (s : State) (back : Bool) :
    (s.restartIn back).nor.selectors = List.replicate 3 ⟨back, false, (s.endpaper back).seq⟩ := by
  rw [← NorState.content_selectors, State.restartIn_content]

theorem State.restartIn_activation (s : State) (back : Bool) : (s.restartIn back).nor.activation = s.nor.activation := by
  rw [← NorState.content_activation, State.restartIn_content, NorState.content_activation]

theorem State.restartIn_runsBack (s : State) (back : Bool) : (s.restartIn back).runsBack = back := by
  rw [State.runsBack, State.restartIn, State.bit_congr (State.deriveAk_rd _ (by decide)),
    State.startFirmware_norStat (s.takeOther_voted back 0xA006), if_pos rfl]

theorem State.restartIn_pgErr (s : State) (back : Bool) : (s.restartIn back).rd (R.PG_ERR pageNor) % 65536 = 0xA006 := by
  rw [State.restartIn, State.deriveAk_rd _ (by decide), State.startFirmware_keepsErr back (s.takeOther_voted back 0xA006) rfl]
  exact s.takeOther_pgErr back 0xA006

/-- The management cores' watchdog is kicked now (R509). -/
def State.kicked (s : State) : State := { s with sys := { s.sys with kickAt := s.etime } }

@[simp] theorem State.kicked_nor (s : State) : s.kicked.nor = s.nor := rfl
@[simp] theorem State.kicked_low (s : State) : s.kicked.sys.low = s.sys.low := rfl
@[simp] theorem State.kicked_etime (s : State) : s.kicked.etime = s.etime := rfl
@[simp] theorem State.kicked_rd (s : State) (k : Nat) : s.kicked.rd k = s.rd k := rfl

theorem State.kicked_carries (s : State) : Carries s s.kicked :=
  ⟨⟨rfl, rfl, rfl, rfl⟩, ⟨[], (List.append_nil _).symm⟩, fun c => ⟨(s.ctrl c).events, rfl⟩⟩

/-- ACTIVATION_CONFIRM_TIMEOUT of a trial, once its firmware has started (R500). -/
theorem State.exec_activationConfirmTimeout {s : State} {old : Bool} (ht : s.inTrial = true) (hd : s.nor.drained = true)
    (hold : old = if s.bit R.NOR_STAT (if !s.runsBack then 3 else 2) then !s.runsBack else s.runsBack) :
    exec .activationConfirmTimeout s =
      settled ((((s.elapse (s.sys.bringupFrom + 3 * tickSec - s.etime)).restartIn old).kicked).endActivation 0x07) := by
  show execActivationConfirmTimeout s = _
  unfold execActivationConfirmTimeout
  rw [hd, ht, hold]
  simp only [Bool.not_true, Bool.false_eq_true, if_false, if_true, Bool.not_not, State.restartIn, State.kicked]

/-- ACTIVATION_CONFIRM_TIMEOUT in a trial returns to the old endpaper, or stays with the running one when the old is invalid
(R3, R500; log entry 40). -/
theorem activationConfirmTimeout_returns {s : State} {cid : Cid} {old : Bool} (ht : s.inTrial = true) (hd : s.nor.drained = true)
    (hl : s.sys.low = true) (ha : s.nor.activation = some cid) (hq : cid.q = 0) (hf : (cid.q, cid.id) ∈ (s.ctrl cid.c).fetched)
    (hold : old = if s.bit R.NOR_STAT (if !s.runsBack then 3 else 2) then !s.runsBack else s.runsBack) :
    Runs .activationConfirmTimeout s fun t => Answered s t cid 1 7 0 ∧ t.runsBack = old ∧ t.nor.running = false ∧
      t.nor.selectors = List.replicate 3 ⟨old, false, (s.endpaper old).seq⟩ ∧ t.rd (R.PG_ERR pageNor) % 65536 = 0xA006 ∧
      t.rd R.SYS_STATE = 6 ∧ s.sys.bringupFrom + 3 * tickSec ≤ t.etime ∧ SameMem s t := by
  refine ⟨_, State.exec_activationConfirmTimeout ht hd hold, ?_⟩
  generalize hd' : s.sys.bringupFrom + 3 * tickSec - s.etime = d
  have hu := (s.elapse d).restartIn_only old
  have hc : Carries s ((s.elapse d).restartIn old).kicked := ((s.elapse_carries d).trans hu.carries).trans (State.kicked_carries _)
  have hl' : ((s.elapse d).restartIn old).kicked.sys.low = true := by
    rw [State.kicked_low, hu.sys, State.elapse_sys, hl]
  have ha' : ((s.elapse d).restartIn old).kicked.nor.activation = some cid := by
    rw [State.kicked_nor, State.restartIn_activation, State.elapse_nor, ha]
  have ends := State.endActivation_ends 0x07 hl' ha' hq
  refine ⟨State.endActivation_answers 0x07 hc hl' ha' hq hf, ?_, by rw [ends.nor], ?_, ?_, ends.phase, ?_, hc.mem.trans ends.mem⟩
  · rw [State.runsBack, ends.stat 0 (by decide), State.bit_congr (State.kicked_rd _ _)]
    exact (s.elapse d).restartIn_runsBack old
  · rw [ends.nor, State.kicked_nor, State.restartIn_selectors, State.endpaper, State.endpaper, State.elapse_nor]
  · rw [ends.err, State.kicked_rd]
    exact (s.elapse d).restartIn_pgErr old
  · refine Nat.le_trans ?_ ends.later
    rw [State.kicked_etime, hu.etime, State.elapse_etime]
    omega

end Sys2Proof.Machine
end

section
/-! The end of an activation's drain: the boot ROM starts the endpaper that the selector names, finds none valid, or is not reached in
time (R492, R495, R500). -/

namespace Sys2Proof.Machine

open Safety

/-! The boot ROM's choice (R495). -/

/-- The boot ROM has read the die, and NOR_STAT says which endpapers are valid (R489, R503). -/
def State.bootRead (s : State) (front back : Bool) : State :=
  ((s.norReadAll.setValid false front).setValid true back).setBit R.NOR_STAT 7 false

theorem State.bootRead_only (s : State) (front back : Bool) : FwOnly s (s.bootRead front back) :=
  ((s.norReadAll_only.fwOnly.trans (State.setBit_norStat_fwOnly _ _ _)).trans (State.setBit_norStat_fwOnly _ _ _)).trans
    (State.setBit_norStat_fwOnly _ _ _)

theorem State.bootRead_content (s : State) (front back : Bool) : (s.bootRead front back).nor.content = s.nor.content := by
  rw [State.bootRead, State.setBit_nor, State.setValid, State.setBit_nor, State.setValid, State.setBit_nor, s.norReadAll_only.content]

theorem State.bootRead_selectors (s : State) (front back : Bool) : (s.bootRead front back).nor.selectors = s.nor.selectors := by
  rw [← NorState.content_selectors, State.bootRead_content, NorState.content_selectors]

theorem State.bootRead_attempts (s : State) (front back : Bool) : (s.bootRead front back).nor.attempts = s.nor.attempts := by
  rw [← NorState.content_attempts, State.bootRead_content, NorState.content_attempts]

theorem State.bootRead_slotCount (s : State) (front back : Bool) (i : Nat) :
    (s.bootRead front back).slotCount i = s.slotCount i := by
  rw [State.slotCount, State.bootRead, State.setBit_sec, State.setValid, State.setBit_sec, State.setValid, State.setBit_sec,
    s.norReadAll_only.sec]
  rfl

theorem votedSelector_same (x : Selector) : votedSelector [x, x, x] = some x := votedSelector_replicate x

/-- The first check that an endpaper fails, by the signatures' outcomes (R492). -/
def State.bootFault (s : State) (frontSig backSig b : Bool) : Option Nat :=
  s.imageFault (s.endpaper b) (if b then backSig else frontSig)

/-- NOR_STAT before the named endpaper starts: firmware is found, and whether it is a trial (R503). -/
def State.bootFound (s : State) (frontSig backSig trial : Bool) : State :=
  ((s.bootRead (s.bootFault frontSig backSig false).isNone (s.bootFault frontSig backSig true).isNone).setBit R.NOR_STAT 6 false).setBit
    R.NOR_STAT 1 trial

/-- Three equal selector copies whose endpaper is valid and has an attempt left: the boot ROM starts that endpaper (R495). -/
theorem State.bootSelect_named {s : State} {sel : Selector} {frontSig backSig : Bool} (hs : s.nor.selectors = [sel, sel, sel])
    (hf : s.bootFault frontSig backSig sel.active = none) (ha : (s.nor.attempts.filter fun q => q = sel.seq).length < 2) :
    s.bootSelect frontSig backSig = (true, (s.bootFound frontSig backSig sel.trial).startFirmware sel.active) := by
  have hsel := (s.bootRead_selectors (s.bootFault frontSig backSig false).isNone (s.bootFault frontSig backSig true).isNone).trans hs
  have hatt := s.bootRead_attempts (s.bootFault frontSig backSig false).isNone (s.bootFault frontSig backSig true).isNone
  unfold State.bootSelect
  extract_lets fault s1 voted nor s2
  have hv : voted = some sel := by
    show votedSelector s1.nor.selectors = some sel
    rw [show s1.nor.selectors = _ from hsel, votedSelector_same]
  have hall : (s1.nor.selectors.all fun x => decide (x = sel)) = true := by
    rw [show s1.nor.selectors = _ from hsel]
    simp
  have h2 : s2 = s1 := by
    simp only [s2, hv, hall, if_true]
  have hno : ((fault false).isSome && (fault true).isSome) = false := by
    have : fault sel.active = none := hf
    cases hb : sel.active <;> rw [hb] at this <;> simp [this]
  have hfollow : s1.followSelector sel fault = (sel.active, s1) := by
    have hone : decide (2 ≤ (s1.nor.attempts.filter fun q => decide (q = sel.seq)).length) = false := by
      rw [show s1.nor.attempts = _ from hatt]
      exact decide_eq_false (Nat.not_le.mpr ha)
    simp only [State.followSelector, hone, Bool.and_false, Bool.false_eq_true, if_false, show fault sel.active = none from hf]
  rw [hno, if_neg (by decide), h2, hv]
  simp only [hfollow]
  rw [show s1.nor.selectors = _ from hsel, votedSelector_same]
  rfl

/-! NOR_STAT, the records and the measurements before the named endpaper starts. -/

theorem State.bootFound_only (s : State) (frontSig backSig trial : Bool) : FwOnly s (s.bootFound frontSig backSig trial) :=
  ((s.bootRead_only _ _).trans (State.setBit_norStat_fwOnly _ _ _)).trans (State.setBit_norStat_fwOnly _ _ _)

theorem State.bootFound_content (s : State) (frontSig backSig trial : Bool) :
    (s.bootFound frontSig backSig trial).nor.content = s.nor.content := by
  rw [State.bootFound, State.setBit_nor, State.setBit_nor, State.bootRead_content]

theorem State.bootFound_attempts (s : State) (frontSig backSig trial : Bool) :
    (s.bootFound frontSig backSig trial).nor.attempts = s.nor.attempts := by
  rw [← NorState.content_attempts, State.bootFound_content, NorState.content_attempts]

theorem State.bootFound_voted {s : State} {sel : Selector} (frontSig backSig trial : Bool) (hs : s.nor.selectors = [sel, sel, sel]) :
    votedSelector (s.bootFound frontSig backSig trial).nor.selectors = some sel := by
  rw [← NorState.content_selectors, State.bootFound_content, NorState.content_selectors, hs, votedSelector_same]

theorem State.bootFound_slotCount (s : State) (frontSig backSig trial : Bool) (i : Nat) :
    (s.bootFound frontSig backSig trial).slotCount i = s.slotCount i := by
  rw [State.slotCount, State.bootFound, State.setBit_sec, State.setBit_sec]
  exact s.bootRead_slotCount _ _ i

/-- An activation whose drain is done waits for its firmware to confirm, from now on (R500, R509). -/
def State.awaitReady (s : State) : State :=
  { s with nor := { s.nor with drained := true }, sys := { s.sys with kickAt := s.etime, bringupFrom := s.etime } }

@[simp] theorem State.settle_slotCount (s : State) (i : Nat) : s.settle.slotCount i = s.slotCount i := by
  rw [State.slotCount, State.settle_sec]
  rfl

@[simp] theorem State.awaitReady_rd (s : State) (k : Nat) : s.awaitReady.rd k = s.rd k := rfl
@[simp] theorem State.awaitReady_slotCount (s : State) (i : Nat) : s.awaitReady.slotCount i = s.slotCount i := rfl
@[simp] theorem State.awaitReady_nor (s : State) : s.awaitReady.nor = { s.nor with drained := true } := rfl

theorem State.awaitReady_sameMem (s : State) : SameMem s s.awaitReady := ⟨rfl, rfl, rfl, rfl⟩

/-- An activation that finds no firmware to start is over (R495, R500). -/
def State.dropActivation (s : State) : State :=
  { s.setBit R.NOR_STAT 5 false with nor := { s.nor with activation := none, running := false } }

@[simp] theorem State.dropActivation_nor (s : State) :
    s.dropActivation.nor = { s.nor with activation := none, running := false } := rfl
@[simp] theorem State.dropActivation_sys (s : State) : s.dropActivation.sys = s.sys := rfl

theorem State.dropActivation_sameMem (s : State) : SameMem s s.dropActivation := ⟨rfl, rfl, rfl, rfl⟩

theorem State.dropActivation_rd (s : State) {k : Nat} (h : k ≠ R.NOR_STAT) : s.dropActivation.rd k = s.rd k :=
  State.rd_setBit_ne s 5 false h.symm

theorem State.dropActivation_norStat (s : State) {i : Nat} (h : i ≠ 5) : s.dropActivation.bit R.NOR_STAT i = s.bit R.NOR_STAT i :=
  (s.bit_setBit_norStat i false (by decide)).trans (if_neg h.symm)

/-- ACTIVATION_DRAIN_END with the fetched work done (R500). -/
theorem State.exec_activationDrainEnd {s : State} (d frontSig backSig : Bool) (hr : s.nor.running = true) (hd : s.nor.drained = false)
    (hw : s.workDone = true) : exec (.activationDrainEnd d frontSig backSig) s = settled
      (if (s.bootSelect frontSig backSig).1 then (s.bootSelect frontSig backSig).2.deriveAk.awaitReady
        else (s.bootSelect frontSig backSig).2.deriveAk.dropActivation) := by
  show execActivationDrainEnd d frontSig backSig s = _
  unfold execActivationDrainEnd
  rw [hr, hd, hw]
  simp only [Bool.not_true, Bool.or_self, Bool.false_eq_true, if_false, if_true]
  rfl

/-- ACTIVATION_DRAIN_END starts the endpaper that the selector names, with its ATTEMPT record and its measurement (R470, R495). -/
theorem activationDrainEnd_starts {s : State} {sel : Selector} {front back : Bool} (d : Bool) (hr : s.nor.running = true)
    (hd : s.nor.drained = false) (hw : s.workDone = true) (hs : s.nor.selectors = [sel, sel, sel])
    (hf : s.bootFault front back sel.active = none) (ha : (s.nor.attempts.filter fun q => q = sel.seq).length < 2) :
    Runs (.activationDrainEnd d front back) s fun t =>
      t.runsBack = sel.active ∧ t.nor.drained = true ∧ t.nor.running = true ∧ t.nor.selectors = s.nor.selectors ∧
      t.nor.attempts = (if sel.trial then s.nor.attempts ++ [sel.seq] else s.nor.attempts) ∧ t.slotCount 1 = s.slotCount 1 + 1 ∧
      t.slotCount 2 = s.slotCount 2 + 1 ∧ SameMem s t := by
  refine ⟨_, State.exec_activationDrainEnd d front back hr hd hw, ?_⟩
  rw [State.bootSelect_named hs hf ha, if_pos rfl]
  dsimp only
  have hv := State.bootFound_voted front back sel.trial hs
  have hu : FwOnly s ((s.bootFound front back sel.trial).startFirmware sel.active).deriveAk :=
    ((s.bootFound_only _ _ _).trans (State.startFirmware_only hv)).trans (State.deriveAk_only _)
  have hc : ((s.bootFound front back sel.trial).startFirmware sel.active).nor.content = { s.nor.content with
      attempts := if sel.trial then s.nor.attempts ++ [sel.seq] else s.nor.attempts } := by
    rw [State.startFirmware_content hv, State.bootFound_content, State.bootFound_attempts]
  have hcount (i : Nat) (hi : i = 1 ∨ i = 2) :
      ((s.bootFound front back sel.trial).startFirmware sel.active).deriveAk.awaitReady.settle.slotCount i = s.slotCount i + 1 := by
    rw [State.settle_slotCount, State.awaitReady_slotCount, State.deriveAk_slotCount, State.startFirmware_slotCount hv, if_pos hi,
      State.bootFound_slotCount]
  refine ⟨?_, ?_, ?_, ?_, ?_, hcount 1 (.inl rfl), hcount 2 (.inr rfl), ?_⟩
  · rw [State.runsBack, State.settle_bit _ (by decide), State.bit_congr (State.awaitReady_rd _ _),
      State.bit_congr (State.deriveAk_rd _ (by decide)), State.startFirmware_norStat hv, if_pos rfl]
  · rw [State.settle_nor, State.awaitReady_nor]
  · rw [State.settle_nor, State.awaitReady_nor, State.deriveAk_nor]
    dsimp only
    rw [← NorState.content_running, hc]
    exact hr
  · rw [State.settle_nor, State.awaitReady_nor, State.deriveAk_nor]
    dsimp only
    rw [← NorState.content_selectors, hc]
    rfl
  · rw [State.settle_nor, State.awaitReady_nor, State.deriveAk_nor]
    dsimp only
    rw [← NorState.content_attempts, hc]
  · exact (hu.carries.mem.trans (State.awaitReady_sameMem _)).trans (State.settle_sameMem _)

/-- Neither endpaper valid: the boot ROM enters ROM recovery with RB# low and event 0xA008 (R495, R497). -/
theorem State.bootSelect_recovery {s : State} {frontSig backSig : Bool} (hf : (s.bootFault frontSig backSig false).isSome = true)
    (hb : (s.bootFault frontSig backSig true).isSome = true) : ∃ u, FwOnly s u ∧ s.bootSelect frontSig backSig =
      (false, (((u.setBit R.NOR_STAT 6 true).toPhase 8).rbLow).raise pageNor 0xA008 none 0 0) := by
  unfold State.bootSelect
  extract_lets fault s1 voted nor s2 named s3
  have h1 : FwOnly s s1 := s.bootRead_only (s.bootFault frontSig backSig false).isNone (s.bootFault frontSig backSig true).isNone
  have h2 : FwOnly s s2 := by
    refine h1.trans ?_
    clear_value s1
    simp only [s2, voted]
    split
    · split
      · exact .refl s1
      · exact ((s1.nor_fwOnly _).trans (State.norLog_only _ _ _).fwOnly).trans (State.raise_fwOnly _ _ _ _ _ _)
    · exact State.raise_fwOnly _ _ _ _ _ _
  have hboth : ((fault false).isSome && (fault true).isSome) = true := by
    rw [show (fault false).isSome = true from hf, show (fault true).isSome = true from hb]
    rfl
  rw [hboth, if_pos rfl]
  exact ⟨s3, h2.trans (State.raise_fwOnly _ _ _ _ _ _), rfl⟩

/-! RB# low (R407). -/

theorem State.rbLow_low (s : State) : s.rbLow.sys.low = true := by
  unfold State.rbLow
  split
  · assumption
  · rfl

theorem State.attnCut_carries (s : State) : Carries s s.attnCut ∧ (s.attnCut).regs = s.regs := by
  unfold State.attnCut
  repeat' split
  all_goals exact ⟨⟨⟨rfl, rfl, rfl, rfl⟩, ⟨[], (List.append_nil _).symm⟩, fun c => ⟨(s.ctrl c).events, rfl⟩⟩, rfl⟩

theorem State.rbLow_carries (s : State) : Carries s s.rbLow ∧ (s.rbLow).regs = s.regs := by
  unfold State.rbLow
  split
  · exact ⟨.refl s, rfl⟩
  · obtain ⟨⟨m, ⟨l, e⟩, c⟩, hr⟩ := s.attnCut_carries
    exact ⟨⟨m, ⟨l ++ [.rb false], by simp only [State.emit, e, List.append_assoc]⟩, c⟩, hr⟩

/-- ACTIVATION_DRAIN_END with no valid endpaper: ROM recovery, with event 0xA008 and RB# low (R495, R497). -/
theorem activationDrainEnd_recovery {s : State} {front back : Bool} (d : Bool) (hr : s.nor.running = true)
    (hd : s.nor.drained = false) (hw : s.workDone = true) (hf : (s.bootFault front back false).isSome = true)
    (hb : (s.bootFault front back true).isSome = true) :
    Runs (.activationDrainEnd d front back) s fun t =>
      t.rd R.SYS_STATE = 8 ∧ t.rd (R.PG_ERR pageNor) % 65536 = 0xA008 ∧ t.nor.running = false ∧ t.bit R.NOR_STAT 6 = true ∧
      t.sys.low = true ∧ SameMem s t := by
  obtain ⟨u, hu, e⟩ := State.bootSelect_recovery hf hb
  refine ⟨_, State.exec_activationDrainEnd d front back hr hd hw, ?_⟩
  rw [e, if_neg Bool.false_ne_true]
  dsimp only
  generalize hv : ((u.setBit R.NOR_STAT 6 true).toPhase 8).rbLow = v
  have hvlow : v.sys.low = true := by rw [← hv, State.rbLow_low]
  have hvrd (k : Nat) (hk : k ≠ R.SYS_STATE) : v.rd k = (u.setBit R.NOR_STAT 6 true).rd k := by
    rw [← hv, State.rd_congr (State.rbLow_carries _).2, State.toPhase_rd _ _ hk]
  have hvphase : v.rd R.SYS_STATE = 8 := by
    rw [← hv, State.rd_congr (State.rbLow_carries _).2, State.toPhase_phase _ (by decide)]
  have hvmem : SameMem s v := by
    rw [← hv]
    exact (((hu.trans (u.setBit_norStat_fwOnly 6 true)).carries.trans (State.toPhase_carries _ 8)).trans (State.rbLow_carries _).1).mem
  have hw := (v.raise_fwOnly pageNor 0xA008 none 0 0).trans (State.deriveAk_only _)
  refine ⟨?_, ?_, ?_, ?_, ?_, ?_⟩
  · rw [State.settle_rd _ (by decide), State.dropActivation_rd _ (by decide), hw.rd (by decide) not_fwReg_sysState, hvphase]
  · rw [State.settle_keepsErr, State.dropActivation_rd _ (by decide), State.deriveAk_rd _ (by decide)]
    exact State.raise_pgErr _ _ _ _ _ _
  · rw [State.settle_nor, State.dropActivation_nor]
  · rw [State.settle_bit _ (by decide), State.dropActivation_norStat _ (by decide), State.bit_congr (State.deriveAk_rd _ (by decide)),
      State.bit_congr (State.raise_rd _ _ _ _ _ _ (by decide)), State.bit_congr (hvrd _ (by decide)),
      State.bit_setBit_norStat _ _ _ (by decide), if_pos rfl]
  · rw [State.settle_sys, State.dropActivation_sys, hw.sys, hvlow]
  · exact ((hvmem.trans hw.carries.mem).trans (State.dropActivation_sameMem _)).trans (State.settle_sameMem _)

/-- ACTIVATION_DRAIN_END 1 s after RB# went low, with fetched work left: the activation gives up (R500). -/
theorem activationDrainEnd_timeout {s : State} {cid : Cid} {front back : Bool} (hr : s.nor.running = true)
    (hd : s.nor.drained = false) (hw : s.workDone = false) (hl : s.sys.low = true) (ha : s.nor.activation = some cid)
    (hq : cid.q = 0) (hf : (cid.q, cid.id) ∈ (s.ctrl cid.c).fetched) :
    Runs (.activationDrainEnd false front back) s fun t => Answered s t cid 1 0x0B 0 ∧
      t.nor.running = false ∧ t.rd R.SYS_STATE = 6 ∧ t.sys.low = false ∧ s.sys.lowAt + tickSec ≤ t.etime ∧
      t.nor.selectors = s.nor.selectors ∧ t.rd R.NOR_CMT_STAT = 0xB01 ∧ SameMem s t := by
  generalize hdur : s.sys.lowAt + tickSec - s.etime = d
  have he : exec (.activationDrainEnd false front back) s = settled ((s.elapse d).endActivation 0x0B) := by
    show execActivationDrainEnd false front back s = _
    unfold execActivationDrainEnd
    rw [hr, hd, hw, hdur]
    simp only [Bool.not_true, Bool.or_self, Bool.false_eq_true, if_false]
  have hl' : (s.elapse d).sys.low = true := by rw [State.elapse_sys, hl]
  have ha' : (s.elapse d).nor.activation = some cid := by rw [State.elapse_nor, ha]
  have ends := State.endActivation_ends 0x0B hl' ha' hq
  have hc := s.elapse_carries d
  refine ⟨_, he, State.endActivation_answers 0x0B hc hl' ha' hq hf, by rw [ends.nor], ends.phase, ends.low, ?_, ?_, ends.commit,
    hc.mem.trans ends.mem⟩
  · refine Nat.le_trans ?_ ends.later
    rw [State.elapse_etime]
    omega
  · rw [ends.nor, State.elapse_nor]

end Sys2Proof.Machine
end

section
/-! ROM recovery: a valid image is written to the front endpaper and booted in trial, another is refused (R491 to R497). -/

namespace Sys2Proof.Machine

open Safety

/-! An endpaper written and read back (R494). -/

theorem State.setValid_only (s : State) (back v : Bool) : FwOnly s (s.setValid back v) := s.setBit_norStat_fwOnly _ _

@[simp] theorem State.setValid_nor (s : State) (back v : Bool) : (s.setValid back v).nor = s.nor := rfl

/-- An image that reads back stands in the endpaper with SEQ one more than the active endpaper's (R494). -/
theorem State.writeEndpaper_ok (s : State) (back : Bool) (im : FwImage) :
    ∃ new : FwImage, new.seq = (s.endpaper s.runsBack).seq + 1 ∧ new.svn = im.svn ∧
      s.writeEndpaper back im true = (true, ((s.eraseEndpaper back).putEndpaper back new).setValid back true) :=
  ⟨{ im with
      seq := (s.endpaper s.runsBack).seq + 1
      bytes := im.bytes.take 28 ++ leBytes 4 ((s.endpaper s.runsBack).seq + 1) ++ im.bytes.drop 32 }, rfl, rfl,
    by simp only [State.writeEndpaper, if_true]⟩

theorem State.putEndpaper_front_content (s : State) (new : FwImage) :
    (s.putEndpaper false new).nor.content = { s.nor.content with front := new } := rfl

/-- The front endpaper written with an image and named by a selector in trial (R494, R495). -/
def State.frontInTrial (s : State) (new : FwImage) : State :=
  (((s.eraseEndpaper false).putEndpaper false new).setValid false true).setSelector false true new.seq

theorem State.frontInTrial_only (s : State) (new : FwImage) : FwOnly s (s.frontInTrial new) :=
  (((s.eraseEndpaper_only false).fwOnly.trans (State.nor_fwOnly _ _)).trans (State.setValid_only _ _ _)).trans
    (State.setSelector_only _ _ _ _)

theorem State.frontInTrial_content (s : State) (new : FwImage) : (s.frontInTrial new).nor.content =
    { s.nor.content with front := new, selectors := List.replicate 3 ⟨false, true, new.seq⟩, attempts := [] } := by
  rw [State.frontInTrial, State.setSelector_content, State.setValid_nor, State.putEndpaper_front_content,
    (s.eraseEndpaper_only false).content]

/-! The management cores start (R470, R509, R510). -/

theorem State.coresStart_eq (s : State) :
    s.coresStart = (((s.extend 3 (s.nor.factory ++ s.nor.pufCheck)).deriveAk.wr R.RST_WD_CTL 1).toPhase 2).kicked := rfl

theorem State.coresStart_carries (s : State) : Carries s s.coresStart := by
  rw [State.coresStart_eq]
  exact ((((s.extend_only _ _).trans (State.deriveAk_only _)).carries.trans (State.wr_carries _ _ _)).trans
    (State.toPhase_carries _ _)).trans (State.kicked_carries _)

@[simp] theorem State.coresStart_nor (s : State) : s.coresStart.nor = s.nor := by
  rw [State.coresStart_eq, State.kicked_nor, State.toPhase_nor, State.wr_nor, State.deriveAk_nor, State.extend_nor]

theorem State.coresStart_phase (s : State) : s.coresStart.rd R.SYS_STATE = 2 := by
  rw [State.coresStart_eq, State.kicked_rd, State.toPhase_phase _ (by decide)]

theorem State.coresStart_norStat (s : State) : s.coresStart.rd R.NOR_STAT = s.rd R.NOR_STAT := by
  rw [State.coresStart_eq, State.kicked_rd, State.toPhase_rd _ _ (by decide), State.rd_wr_ne _ _ (by decide),
    State.deriveAk_rd _ (by decide), State.extend_rd _ _ _ (by decide)]

/-! ROM_RECOVERY_IMAGE (R497). -/

/-- The image that a message carries, its SEQ still to be given. -/
def carriedImage (image : List Byte) : FwImage := { parseImage image with seq := 0 }

/-- The image is refused: its fault is an event, and a status that the spec leaves open is answered (R492, R497). -/
def State.refuseImage (s : State) (h : MsgHead) (code : Nat) : State :=
  (s.raise pageNor code none 0 0).free.2.respond .sideband 0x7A90 h ((s.raise pageNor code none 0 0).free.1 % 65536) []

/-- The image written is answered and booted (R497). -/
def State.bootImage (s : State) (h : MsgHead) : State :=
  (((s.respond .sideband 0x7A90 h 0 []).setBit R.NOR_STAT 6 false).startFirmware false).coresStart

theorem State.respond_ok (s : State) (path : AttPath) (magic : Nat) (h : MsgHead) (payload : List Byte) :
    s.respond path magic h 0 payload = s.emit (.message path (responseBytes magic h.code h.tag 0 payload)) := by
  simp only [State.respond, decide_true, Bool.true_or, if_true]

/-- The state in which the image written starts: answered, with firmware found (R497). -/
def State.answeredBoot (s : State) (h : MsgHead) : State :=
  (s.emit (.message .sideband (responseBytes 0x7A90 h.code h.tag 0 []))).setBit R.NOR_STAT 6 false

theorem State.bootImage_eq (s : State) (h : MsgHead) :
    s.bootImage h = ((s.answeredBoot h).startFirmware false).coresStart := by
  rw [State.bootImage, State.respond_ok, State.answeredBoot]

/-- The selector names the front endpaper, in trial. -/
theorem State.answeredBoot_voted (s : State) (new : FwImage) (h : MsgHead) :
    votedSelector ((s.frontInTrial new).answeredBoot h).nor.selectors = some ⟨false, true, new.seq⟩ := by
  have hs : ((s.frontInTrial new).answeredBoot h).nor.selectors = List.replicate 3 ⟨false, true, new.seq⟩ := by
    rw [State.answeredBoot, State.setBit_nor, State.emit_nor, ← NorState.content_selectors, State.frontInTrial_content]
  rw [hs, votedSelector_replicate]

/-- The image booted stands in the front endpaper, named by a selector in trial with one attempt; the rest of the die stays (R495, R497). -/
theorem State.bootImage_content (s : State) (new : FwImage) (h : MsgHead) : ((s.frontInTrial new).bootImage h).nor.content =
    { s.nor.content with
      front := new, selectors := List.replicate 3 ⟨false, true, new.seq⟩
      attempts := (s.frontInTrial new).nor.attempts ++ [new.seq] } := by
  rw [State.bootImage_eq, State.coresStart_nor,
    State.startFirmware_content (sel := ⟨false, true, new.seq⟩) (s.answeredBoot_voted new h), State.answeredBoot, State.setBit_nor,
    State.emit_nor, State.frontInTrial_content]
  rfl

theorem State.bootImage_runsBack (s : State) (new : FwImage) (h : MsgHead) : ((s.frontInTrial new).bootImage h).runsBack = false := by
  rw [State.runsBack, State.bootImage_eq, State.bit_congr (State.coresStart_norStat _),
    State.startFirmware_norStat (sel := ⟨false, true, new.seq⟩) (s.answeredBoot_voted new h), if_pos rfl]

/-- After its answer the boot changes no memory and only adds to what has left. -/
theorem State.bootImage_carries (s : State) (new : FwImage) (h : MsgHead) :
    Carries ((s.frontInTrial new).emit (.message .sideband (responseBytes 0x7A90 h.code h.tag 0 [])))
      ((s.frontInTrial new).bootImage h) := by
  rw [State.bootImage_eq]
  exact ((State.setBit_norStat_fwOnly _ 6 false).trans
    (State.startFirmware_only (sel := ⟨false, true, new.seq⟩) (s.answeredBoot_voted new h))).carries.trans (State.coresStart_carries _)

/-- What leaves in the middle of a command has left during it. -/
theorem Carries.sent {s t u : State} {o : Output} {p : Output → Prop} (h1 : Carries s t) (h2 : Carries (t.emit o) u) (hp : p o) :
    Sent s u p := by
  obtain ⟨l1, e1⟩ := h1.out
  obtain ⟨l2, e2⟩ := h2.out
  refine ⟨o, l1 ++ o :: l2, ?_, by simp, hp⟩
  rw [e2, State.emit, e1]
  simp only [List.append_assoc, List.cons_append, List.nil_append]

theorem State.settle_carries (s : State) : Carries s s.settle := s.settle_only.flags.norOnly.fwOnly.carries

/-- What a response with any status can change: SEC_ATT_ERR, and what SEC's event changes (R474). -/
theorem State.respond_keeps (s : State) (path : AttPath) (magic : Nat) (h : MsgHead) (status : Nat) (payload : List Byte) :
    (s.respond path magic h status payload).nor = s.nor ∧ SameMem s (s.respond path magic h status payload) ∧
      (∀ k, flagReg k = false → k ≠ R.SEC_ATT_ERR → (s.respond path magic h status payload).rd k = s.rd k) ∧
      ∀ p, p ≠ pageSec → (s.respond path magic h status payload).rd (R.PG_ERR p) = s.rd (R.PG_ERR p) := by
  have hk (p : Nat) : R.SEC_ATT_ERR ≠ R.PG_ERR p := by
    simp only [R.SEC_ATT_ERR, R.PG_ERR]
    omega
  unfold State.respond
  extract_lets s1 s2 client sec
  have h2 (k : Nat) (hne : k ≠ R.SEC_ATT_ERR) : s2.rd k = s.rd k := State.rd_wr_ne s1 _ hne.symm
  split
  · exact ⟨rfl, ⟨rfl, rfl, rfl, rfl⟩, fun _ _ _ => rfl, fun _ _ => rfl⟩
  · split
    · exact ⟨rfl, ⟨rfl, rfl, rfl, rfl⟩, fun k _ hne => h2 k hne, fun p _ => h2 _ (hk p).symm⟩
    · refine ⟨State.raise_nor _ _ _ _ _ _, ?_, fun k hf hne => ?_, fun p hps => ?_⟩
      · refine SameMem.trans ?_ (State.raise_sameMem _ _ _ _ _ _)
        exact ⟨rfl, rfl, rfl, rfl⟩
      · exact (State.raise_rd _ _ _ _ _ _ hf).trans (h2 k hne)
      · exact (State.raise_pgErr_ne _ _ _ _ _ (Ne.symm hps)).trans (h2 _ (hk p).symm)

@[simp] theorem State.free_nor (s : State) : s.free.2.nor = s.nor := rfl
@[simp] theorem State.free_rd (s : State) (k : Nat) : s.free.2.rd k = s.rd k := rfl

theorem State.free_sameMem (s : State) : SameMem s s.free.2 := ⟨rfl, rfl, rfl, rfl⟩

/-- The refusal of an image leaves its event's code in PG_ERR, and changes nothing on the die or of the phase (R492, R497). -/
theorem State.refuseImage_keeps (s : State) (h : MsgHead) {code : Nat} (hc : code < 65536) :
    (s.refuseImage h code).nor = s.nor ∧ SameMem s (s.refuseImage h code) ∧
      (s.refuseImage h code).rd (R.PG_ERR pageNor) % 65536 = code ∧ (s.refuseImage h code).rd R.SYS_STATE = s.rd R.SYS_STATE := by
  have hn := s.raise_nor pageNor code none 0 0
  have hm := s.raise_sameMem pageNor code none 0 0
  have he := s.raise_pgErr pageNor code none 0 0
  have hr := s.raise_rd pageNor code none 0 0 (k := R.SYS_STATE) (by decide)
  unfold State.refuseImage
  generalize s.raise pageNor code none 0 0 = u at hn hm he hr
  obtain ⟨n2, m2, r2, p2⟩ := u.free.2.respond_keeps .sideband 0x7A90 h (u.free.1 % 65536) []
  refine ⟨by rw [n2, State.free_nor, hn], (hm.trans u.free_sameMem).trans m2, ?_, ?_⟩
  · rw [p2 _ (by decide), State.free_rd, he, Nat.mod_eq_of_lt hc]
  · rw [r2 _ (by decide) (by decide), State.free_rd, hr]

/-- The events of the checks of an image, by the first that it fails (R492). -/
theorem State.imageFault_lt {s : State} {im : FwImage} {sig : Bool} {code : Nat} (h : s.imageFault im sig = some code) :
    code < 65536 := by
  unfold State.imageFault at h
  split at h
  · cases h
    decide
  · split at h
    · cases h
      decide
    · split at h
      · cases h
        decide
      · cases h

section
variable {s : State} {h : MsgHead} {image : List Byte} {sig : Bool} (hp : s.rd R.SYS_STATE = 8) (hm : h.magic = 0x7A90)
  (hl : h.len ≤ image.length) (hst : h.status = 0) (hv : h.version = 1)
include hp hm hl hst hv

/-- A well-formed request whose image is valid and reads back (R497). -/
theorem State.exec_romRecoveryImage_valid (hf : s.imageFault (carriedImage image) sig = none) :
    ∃ new : FwImage, new.seq = (s.endpaper s.runsBack).seq + 1 ∧ new.svn = (carriedImage image).svn ∧
      exec (.romRecoveryImage h image sig true) s = settled ((s.frontInTrial new).bootImage h) := by
  obtain ⟨new, hseq, hsvn, hw⟩ := s.writeEndpaper_ok false (carriedImage image)
  have hlen : decide (image.length < h.len) = false := decide_eq_false (Nat.not_lt.mpr hl)
  refine ⟨new, hseq, hsvn, ?_⟩
  show execRomRecoveryImage h image sig true s = _
  unfold execRomRecoveryImage
  extract_lets parsed im turned
  rw [show s.imageFault im sig = none from hf, show s.writeEndpaper false im true = _ from hw]
  simp only [hp, hm, hst, hv, hlen, ne_eq, not_true_eq_false, decide_false, Bool.or_self, Bool.false_eq_true, if_false, if_true]
  rfl

/-- A well-formed request whose image is not valid (R492, R497). -/
theorem State.exec_romRecoveryImage_refused {code : Nat} (hf : s.imageFault (carriedImage image) sig = some code) :
    exec (.romRecoveryImage h image sig true) s = settled (s.refuseImage h code) := by
  have hlen : decide (image.length < h.len) = false := decide_eq_false (Nat.not_lt.mpr hl)
  show execRomRecoveryImage h image sig true s = _
  unfold execRomRecoveryImage
  extract_lets parsed im turned
  rw [show s.imageFault im sig = some code from hf]
  simp only [hp, hm, hst, hv, hlen, ne_eq, not_true_eq_false, decide_false, Bool.or_self, Bool.false_eq_true, if_false]
  rfl

/-- ROM_RECOVERY_IMAGE with a valid image writes the front endpaper, answers, and boots it in trial (R494, R497). -/
theorem romRecoveryImage_boots (hf : s.imageFault (carriedImage image) sig = none) :
    Runs (.romRecoveryImage h image sig true) s fun t =>
      t.nor.front.seq = (s.endpaper s.runsBack).seq + 1 ∧ t.nor.front.svn = (carriedImage image).svn ∧ t.nor.back = s.nor.back ∧
      t.nor.selectors = List.replicate 3 ⟨false, true, (s.endpaper s.runsBack).seq + 1⟩ ∧ t.runsBack = false ∧ t.rd R.SYS_STATE = 2 ∧
      (Sent s t fun o => o = .message .sideband (responseBytes 0x7A90 h.code h.tag 0 [])) ∧ SameMem s t := by
  obtain ⟨new, hseq, hsvn, he⟩ := State.exec_romRecoveryImage_valid hp hm hl hst hv hf
  have hfront : ((s.frontInTrial new).bootImage h).nor.front = new := by
    rw [← NorState.content_front, State.bootImage_content]
  have hfw := (s.frontInTrial_only new).carries
  have hc := (s.bootImage_carries new h).trans (State.settle_carries _)
  refine ⟨_, he, ?_, ?_, ?_, ?_, ?_, ?_, hfw.sent hc rfl, (hfw.trans (State.emit_fwOnly _ _).carries).mem.trans hc.mem⟩
  · rw [State.settle_nor, hfront, hseq]
  · rw [State.settle_nor, hfront, hsvn]
  · rw [State.settle_nor, ← NorState.content_back, State.bootImage_content, NorState.content_back]
  · rw [State.settle_nor, ← NorState.content_selectors, State.bootImage_content, hseq]
  · rw [State.runsBack, State.settle_bit _ (by decide)]
    exact s.bootImage_runsBack new h
  · rw [State.settle_rd _ (by decide), State.bootImage_eq, State.coresStart_phase]

/-- ROM_RECOVERY_IMAGE with another image raises its fault, and ROM recovery goes on (R492, R497). -/
theorem romRecoveryImage_refused {code : Nat} (hf : s.imageFault (carriedImage image) sig = some code) :
    Runs (.romRecoveryImage h image sig true) s fun t => t.nor = s.nor ∧ t.rd (R.PG_ERR pageNor) % 65536 = code ∧
      t.rd R.SYS_STATE = 8 ∧ SameMem s t := by
  obtain ⟨hn, hmem, herr, hph⟩ := s.refuseImage_keeps h (State.imageFault_lt hf)
  refine ⟨_, State.exec_romRecoveryImage_refused hp hm hl hst hv hf, ?_, ?_, ?_, hmem.trans (State.settle_sameMem _)⟩
  · rw [State.settle_nor, hn]
  · rw [State.settle_keepsErr, herr]
  · rw [State.settle_rd _ (by decide), hph, hp]

end

/-- Out of ROM recovery the message is none of the boot ROM's (R497). -/
theorem romRecoveryImage_idle {s : State} (h : MsgHead) (image : List Byte) (sig : Bool) (hp : s.rd R.SYS_STATE ≠ 8) :
    Runs (.romRecoveryImage h image sig true) s fun t => t.nor = s.nor ∧ Kept s t (fun _ => False) ∧ SameMem s t := by
  have he : exec (.romRecoveryImage h image sig true) s = settled s := congrArg settled (if_pos hp)
  exact ⟨_, he, State.settle_nor s, fun k hk _ => State.settle_rd s (catReg_flagReg hk), s.settle_sameMem⟩

end Sys2Proof.Machine

namespace Sys2Proof

open Machine Safety

/-- Settles O52: each command comes to one of the firmware store's operations, of which the lemmas above say what it leaves. -/
theorem activationsConfirmOrReturn : Obligations.ActivationsConfirmOrReturn := by
  intro s
  refine ⟨fun hr hd front back => ⟨fun sel d hw hs hf ha => activationDrainEnd_starts d hr hd hw hs hf ha,
      fun d hw hb hf => activationDrainEnd_recovery d hr hd hw hf hb,
      fun hw hl cid ha hq hf => activationDrainEnd_timeout hr hd hw hl ha hq hf⟩,
    fun ht => ⟨fun hd hp hl hrel => trialConfirmation_ready ht hd hp hl hrel,
      fun hd hl cid ha hq hf => ⟨trialConfirmation_activation ht hd hl ha hq hf,
        activationConfirmTimeout_returns ht hd hl ha hq hf rfl⟩⟩,
    trialConfirmation_idle, fun h image sig => ⟨fun hp hm hl hst hv =>
      ⟨romRecoveryImage_boots hp hm hl hst hv, fun code hf => romRecoveryImage_refused hp hm hl hst hv hf⟩,
      romRecoveryImage_idle h image sig⟩⟩

end Sys2Proof
end

section
/-! Every command ends with the interrupts routed: a next state is always a settled one (R53, R559). -/

namespace Sys2Proof

open Machine Safety

/-- The pending categories show in every next state that an outcome answers (R53). -/
def EndsShown (o : Host.Outcome State Fault Refusal) : Prop := ∀ t, o = .next t → IrqShown t

theorem settled_shown (s : State) : EndsShown (settled s) := by
  rintro _ ⟨⟩
  exact s.settle_shown

theorem EndsShown.ite {p : Prop} [Decidable p] {a b : Host.Outcome State Fault Refusal} (ha : EndsShown a) (hb : EndsShown b) :
    EndsShown (if p then a else b) := by
  split
  · exact ha
  · exact hb

/-- A write that stops by name answers no next state (log entry 19). -/
theorem Machine.State.writePage_shown (s : State) (c p : Nat) {o : Host.Outcome State Fault Refusal} (h : EndsShown o) :
    EndsShown (s.writePage c p o) :=
  .ite (fun _ e => nomatch e) h

/-! The commands whose meaning branches before it settles: each branch settles. -/

theorem execProgramComplete_shown (group : Nat) (dies : List CopyTo) (s : State) : EndsShown (execProgramComplete group dies s) := by
  unfold execProgramComplete
  split
  · exact settled_shown _
  · split
    · exact settled_shown _
    · extract_lets s0
      split
      · exact settled_shown _
      · exact settled_shown _

theorem execProgramFailure_shown (n : QdiNo) (stream : Fin 4) (die : GroupDie) (moves : List GroupDie) (s : State) :
    EndsShown (execProgramFailure n stream die moves s) := by
  unfold execProgramFailure
  split
  · exact settled_shown _
  · exact .ite (settled_shown _) (settled_shown _)

theorem execEraseFailure_shown (n : QdiNo) (quire : Nat) (die : GroupDie) (s : State) :
    EndsShown (execEraseFailure n quire die s) :=
  .ite (settled_shown _) (.ite (settled_shown _) (settled_shown _))

theorem execQuireVerify_shown (n : QdiNo) (quire : Nat) (weak : List UnitMove) (s : State) :
    EndsShown (execQuireVerify n quire weak s) :=
  .ite (.ite (settled_shown _) (settled_shown _)) (settled_shown _)

theorem execGarbageCollection_shown (n : QdiNo) (moves : List CopyTo) (s : State) :
    EndsShown (execGarbageCollection n moves s) := by
  refine .ite (settled_shown _) ?_
  split
  · exact settled_shown _
  · exact settled_shown _

theorem execWearLevellingMove_shown (n : QdiNo) (moves : List CopyTo) (s : State) :
    EndsShown (execWearLevellingMove n moves s) := by
  refine .ite (settled_shown _) (.ite (settled_shown _) ?_)
  split
  · exact settled_shown _
  · exact settled_shown _

theorem execSubmissionDoorbellWrite_shown (c : Client) (q tail : Nat) (ids : List (Nat × Bool)) (ns : Nat) (s : State) :
    EndsShown (execSubmissionDoorbellWrite c q tail ids ns s) := by
  refine .ite (settled_shown _) ?_
  split
  · exact settled_shown _
  · exact .ite (settled_shown _) (settled_shown _)

theorem execCompletionDoorbellWrite_shown (c : Client) (q head : Nat) (s : State) :
    EndsShown (execCompletionDoorbellWrite c q head s) := by
  refine .ite (settled_shown _) ?_
  split
  · exact settled_shown _
  · exact .ite (settled_shown _) (settled_shown _)

theorem execCxlMemRead_shown (c : Client) (addr len : Nat) (ecc : List EccFault) (s : State) :
    EndsShown (execCxlMemRead c addr len ecc s) := by
  unfold execCxlMemRead
  split
  · exact settled_shown _
  · split
    · exact settled_shown _
    · exact .ite (settled_shown _) (.ite (settled_shown _) (settled_shown _))

theorem execCxlMemWrite_shown (c : Client) (addr : Nat) (data : List Byte) (poison : Bool) (dev : DevNo) (block : Nat)
    (s : State) : EndsShown (execCxlMemWrite c addr data poison dev block s) := by
  unfold execCxlMemWrite
  split
  · exact settled_shown _
  · split
    · exact settled_shown _
    · exact .ite (settled_shown _) (settled_shown _)

theorem execMergeBufferFlush_shown (d : DevNo) (block : Nat) (faults : List (Nat × WordFault)) (s : State) :
    EndsShown (execMergeBufferFlush d block faults s) := by
  unfold execMergeBufferFlush
  split
  · exact settled_shown _
  · exact settled_shown _

theorem execScrubRead_shown (fault : WordFault) (s : State) : EndsShown (execScrubRead fault s) := by
  refine .ite ?_ (settled_shown _)
  split
  · exact settled_shown _
  · exact settled_shown _

theorem execCcEnWrite_shown (c : Client) (v : Bool) (asqs acqs : Nat) (s : State) : EndsShown (execCcEnWrite c v asqs acqs s) :=
  .ite (settled_shown _) (.ite (.ite (settled_shown _) (settled_shown _)) (settled_shown _))

/-- Every command that answers a next state has settled it (R53). -/
theorem exec_shown (i : Instr) (s : State) : EndsShown (exec i s) := by
  cases i
  case registerWrite | lowerHalfWrite | upperHalfWrite | enable | disable | quiesceRequest | quiesceClear | blockReset =>
    exact s.writePage_shown _ _ (settled_shown _)
  case programComplete => exact execProgramComplete_shown _ _ _
  case programFailure => exact execProgramFailure_shown _ _ _ _ _
  case eraseFailure => exact execEraseFailure_shown _ _ _ _
  case quireVerify => exact execQuireVerify_shown _ _ _ _
  case garbageCollection => exact execGarbageCollection_shown _ _ _
  case wearLevellingMove => exact execWearLevellingMove_shown _ _ _
  case quireErase | fold | mapCheckpoint | dieFailure | spareDieMigration | retryRateWarning | hostLinkTraining =>
    exact .ite (settled_shown _) (settled_shown _)
  case submissionDoorbellWrite => exact execSubmissionDoorbellWrite_shown _ _ _ _ _ _
  case completionDoorbellWrite => exact execCompletionDoorbellWrite_shown _ _ _ _
  case ccEnWrite => exact execCcEnWrite_shown _ _ _ _ _
  case cxlMemRead => exact execCxlMemRead_shown _ _ _ _ _
  case cxlMemWrite => exact execCxlMemWrite_shown _ _ _ _ _ _ _
  case mergeBufferFlush => exact execMergeBufferFlush_shown _ _ _ _
  case scrubRead => exact execScrubRead_shown _ _
  all_goals exact settled_shown _

/-- Time that passes changes no register, no category and no routing (R68). -/
theorem Machine.State.idle_shown {s : State} (h : IrqShown s) : IrqShown s.idle := by
  obtain ⟨dt, tm, f, e⟩ := s.elapse_eq tickNs
  change s.idle = _ at e
  rw [e]
  exact h

/-- Settles O3: an idle step leaves what is shown and what is pending, and a command ends settled. -/
theorem everyStepShowsPendingInterrupts : Obligations.EveryStepShowsPendingInterrupts := by
  intro s t hs ht
  unfold step at ht
  split at ht
  · cases ht
    exact State.idle_shown hs
  · exact exec_shown _ _ t ht

end Sys2Proof
end

section
/-! Which registers an interrupt, a report and an event can change, register by register, and that each leaves the memories, the links
and the runs (R36, R51 to R53, R453 to R457, R557). -/

namespace Sys2Proof.Machine

open Safety

/-- All that a change of registers of a set can do beside bookkeeping: the other registers, the release of RB#, the memories, the links
and the runs stay. -/
structure Touches (S : Nat → Prop) (s t : State) : Prop where
  rd : ∀ k, ¬ S k → t.rd k = s.rd k
  released : t.released = s.released
  mem : SameMem s t
  links : t.links = s.links
  runs : t.sched.runs = s.sched.runs

section
variable {S S' : Nat → Prop} {s t u : State}

theorem Touches.refl (S : Nat → Prop) (s : State) : Touches S s s := ⟨fun _ _ => rfl, rfl, .refl s, rfl, rfl⟩

theorem Touches.trans (h1 : Touches S s t) (h2 : Touches S t u) : Touches S s u :=
  ⟨fun k hk => (h2.rd k hk).trans (h1.rd k hk), h2.released.trans h1.released, h1.mem.trans h2.mem, h2.links.trans h1.links,
    h2.runs.trans h1.runs⟩

theorem Touches.mono (h : Touches S s t) (hS : ∀ k, S k → S' k) : Touches S' s t :=
  ⟨fun k hk => h.rd k fun e => hk (hS k e), h.released, h.mem, h.links, h.runs⟩

theorem Touches.bit (h : Touches S s t) {k : Nat} (hk : ¬ S k) (i : Nat) : t.bit k i = s.bit k i := State.bit_congr (h.rd k hk) i

theorem Touches.present (h : Touches S s t) {p : Nat} (hk : ¬ S (R.PG_PRESENT p)) : t.present p = s.present p := by
  rw [State.present, h.rd _ hk, State.present]

theorem Touches.of_flags (h : FlagsOnly s t) (hr : ∀ k, ¬ S k → t.rd k = s.rd k) : Touches S s t :=
  ⟨hr, h.released, ⟨h.mem, h.memPoison, h.leaf, h.gather⟩, h.links, by rw [h.sched]⟩

theorem State.wr_touches (s : State) {k : Nat} (v : Nat) (h : S k) : Touches S s (s.wr k v) :=
  ⟨fun _ hk => s.rd_wr_ne v fun e => hk (e ▸ h), rfl, s.wr_sameMem k v, rfl, rfl⟩

end

/-! Interrupts. -/

/-- The registers that routing an interrupt can change: PG_IRQ_STAT of any page and IRQ_CAT_STAT (R51, R52). -/
def irqReg (k : Nat) : Prop := k % 0x10000 = 0x1C ∨ catReg k = true

theorem irqReg_pgIrqStat (p : Nat) : irqReg (R.PG_IRQ_STAT p) := .inl (by simp only [R.PG_IRQ_STAT]; omega)

/-- No register of a page's offset other than PG_IRQ_STAT's is among them, when the offset is not that of a client's block. -/
theorem not_irqReg {p o : Nat} (h : o < 0x10000) (ho : o % 0x800 ≠ 0) (h1 : o ≠ 0x1C) : ¬ irqReg (p * 0x10000 + o) := by
  rintro (e | e)
  · omega
  · simp only [catReg, Bool.and_eq_true, decide_eq_true_eq] at e
    omega

theorem not_irqReg_of_page {k : Nat} (h : k / 0x10000 ≠ 5) (h1 : k % 0x10000 ≠ 0x1C) : ¬ irqReg k := by
  rintro (e | e)
  · exact h1 e
  · simp only [catReg, Bool.and_eq_true, decide_eq_true_eq] at e
    omega

theorem State.settle_touches (s : State) : Touches irqReg s s.settle :=
  .of_flags s.settle_only.flags fun _ hk => s.settle_rd (Bool.eq_false_iff.mpr fun e => hk (.inr e))

theorem State.irqBit_touches (s : State) (p b c : Nat) : Touches irqReg s (s.irqBit p b c) :=
  (s.wr_touches _ (irqReg_pgIrqStat p)).trans ⟨fun _ _ => rfl, rfl, ⟨rfl, rfl, rfl, rfl⟩, rfl, rfl⟩

theorem State.setIrq_touches (s : State) (p b c : Nat) : Touches irqReg s (s.setIrq p b c) :=
  (s.irqBit_touches p b c).trans (State.settle_touches _)

/-- An interrupt sets its bit of PG_IRQ_STAT, and no other changes (R51). -/
theorem State.setIrq_irqStat (s : State) (p b c q i : Nat) (h : b < 64) :
    (s.setIrq p b c).bit (R.PG_IRQ_STAT q) i = if p = q ∧ b = i then true else s.bit (R.PG_IRQ_STAT q) i := by
  have hk : R.PG_IRQ_STAT p = R.PG_IRQ_STAT q ↔ p = q := by
    simp only [R.PG_IRQ_STAT]
    omega
  rw [State.setIrq, State.settle_bit _ (catReg_header q (by decide) (by decide))]
  refine (s.bit_setBit (R.PG_IRQ_STAT p) b (R.PG_IRQ_STAT q) i true h).trans ?_
  simp only [hk]

/-! Reports. -/

/-- The registers that a report can change: those of interrupts and ERR's own (R454 to R457). -/
def logReg (k : Nat) : Prop := irqReg k ∨ 0xC0100 ≤ k ∧ k < 0xD0000

theorem State.coalesce_touches {s t : State} {r : Report} (h : s.coalesce r = some t) : Touches logReg s t := by
  refine .of_flags (State.coalesce_flags h) fun k hk => ?_
  unfold State.coalesce at h
  split at h
  · cases h
  · split at h
    · cases h
    · cases h
      rw [State.rd_congr (State.logClients_regs _ _)]
      exact State.rd_wr_ne _ _ fun e => hk (.inr (by simp only [R.ERR_COAL] at e; omega))

theorem State.dropReport_touches (s : State) (r : Report) : Touches logReg s (s.dropReport r) := by
  have hc := catOf_lt r.code
  refine .of_flags (s.dropReport_flags r) fun k hk => ?_
  unfold State.dropReport
  extract_lets s1 e s2
  have h2 : s2.rd k = s1.rd k := rfl
  rw [(State.setIrq_touches _ _ _ _).rd k fun e => hk (.inl e), State.rd_congr (State.logClients_regs _ _), h2,
    State.rd_setBit_ne _ _ _ fun e => hk (.inr (by simp only [R.ERR_STAT] at e; omega))]
  exact s.rd_wr_ne _ fun e => hk (.inr (by simp only [R.ERR_OVF] at e; omega))

theorem State.report_touches (s : State) (r : Report) : Touches logReg s (s.report r) := by
  have hc := catOf_lt r.code
  unfold State.report
  extract_lets s0
  have h : Touches logReg s s0 := s.wr_touches _ (.inr (by simp only [R.ERR_CNT]; omega))
  have hq (e : ErrLog) : Touches logReg s0 { s0 with err := e } := ⟨fun _ _ => rfl, rfl, ⟨rfl, rfl, rfl, rfl⟩, rfl, rfl⟩
  split
  · exact h.trans (State.coalesce_touches ‹_›)
  · split
    · exact h.trans (hq _)
    · split
      · exact h.trans (hq _)
      · exact h.trans (State.dropReport_touches _ _)

/-! Events. -/

/-- The registers that an event of page p can change (R36, R524, R557). -/
def eventReg (p k : Nat) : Prop := logReg k ∨ k = R.PG_ERR p ∨ k = R.PG_STAT p ∨ k = R.SYS_ATTN

/-- An event's registers are among those that flags can change. -/
theorem eventReg.flag {p k : Nat} (h : eventReg p k) : flagReg k = true := by
  simp only [flagReg, Bool.or_eq_true, decide_eq_true_eq]
  rcases h with (h | h) | h | h | h
  · rcases h with h | h
    · omega
    · simp only [catReg, Bool.and_eq_true, decide_eq_true_eq] at h
      omega
  · omega
  · simp only [R.PG_ERR] at h
    omega
  · simp only [R.PG_STAT] at h
    omega
  · exact .inr h

/-- The header's other registers, PG_STAT of other pages among them, are none of an event's. -/
theorem not_eventReg {p q o : Nat} (h0 : 0 < o) (h : o < 0x100) (h1 : o ≠ 0x1C) (h2 : o ≠ 0x14) (h3 : o ≠ 0x10 ∨ p ≠ q) :
    ¬ eventReg p (q * 0x10000 + o) := by
  rintro ((e | e) | e | e | e)
  · exact not_irqReg (by omega) (by omega) h1 e
  · omega
  · simp only [R.PG_ERR] at e
    omega
  · simp only [R.PG_STAT] at e
    omega
  · simp only [R.SYS_ATTN] at e
    omega

theorem State.attend_touches (s : State) (p b : Nat) : Touches (eventReg p) s (s.attend b) := by
  unfold State.attend
  extract_lets was s1
  have h : Touches (eventReg p) s s1 :=
    (s.wr_touches _ (.inr (.inr (.inr rfl)))).trans ((State.setIrq_touches _ _ _ _).mono fun _ hk => .inl (.inl hk))
  split
  · exact h.trans ⟨fun _ _ => rfl, rfl, ⟨rfl, rfl, rfl, rfl⟩, rfl, rfl⟩
  · exact h

theorem State.joinPoison_touches (s : State) (p c : Nat) : Touches irqReg s (s.joinPoison p c) := by
  unfold State.joinPoison
  split
  · exact s.irqBit_touches p 1 c
  · exact .refl _ s

theorem State.flagEvent_touches (s : State) (p code : Nat) : Touches (eventReg p) s (s.flagEvent p code) := by
  have hi {t u : State} (h : Touches irqReg t u) : Touches (eventReg p) t u := h.mono fun _ hk => .inl (.inl hk)
  unfold State.flagEvent
  extract_lets s1
  have h : Touches (eventReg p) s s1 :=
    ((((s.wr_touches _ (.inr (.inl rfl))).trans (State.wr_touches _ _ (.inr (.inr (.inl rfl))))).trans
      (hi (State.irqBit_touches _ _ _ _))).trans (hi (State.joinPoison_touches _ _ _))).trans (hi (State.settle_touches _))
  split
  · exact h.trans (State.attend_touches _ p _)
  · exact h

/-- An event changes its page's PG_ERR, PG_STAT and PG_IRQ_STAT, SYS_ATTN, ERR and what interrupts change (R557). -/
theorem State.raise_touches (s : State) (p code : Nat) (client : Option Nat) (addr aux : Nat) :
    Touches (eventReg p) s (s.raise p code client addr aux) :=
  (s.flagEvent_touches p code).trans ((State.report_touches _ _).mono fun _ hk => .inl hk)

/-! Commands given by a write: they act on a state that differs in the halves held alone (R35). -/

/-- At most the halves of registers that clients hold differ. -/
def HeldOnly (s u : State) : Prop := ∃ w, u = { s with wrHold := w }

section
variable {s u : State}

theorem HeldOnly.regs (h : HeldOnly s u) : u.regs = s.regs := by
  obtain ⟨w, rfl⟩ := h
  rfl

theorem HeldOnly.rd (h : HeldOnly s u) (k : Nat) : u.rd k = s.rd k := State.rd_congr h.regs k

theorem HeldOnly.bit (h : HeldOnly s u) (k i : Nat) : u.bit k i = s.bit k i := State.bit_congr (h.rd k) i

theorem HeldOnly.present (h : HeldOnly s u) (p : Nat) : u.present p = s.present p := by
  rw [State.present, h.rd, State.present]

theorem HeldOnly.err (h : HeldOnly s u) : u.err = s.err := by
  obtain ⟨w, rfl⟩ := h
  rfl

theorem HeldOnly.ctrl (h : HeldOnly s u) (c : Nat) : u.ctrl c = s.ctrl c := by
  obtain ⟨w, rfl⟩ := h
  rfl

theorem HeldOnly.busyPage (h : HeldOnly s u) (p : Nat) : u.busyPage p = s.busyPage p := by
  obtain ⟨w, rfl⟩ := h
  rfl

theorem HeldOnly.touches (h : HeldOnly s u) (S : Nat → Prop) : Touches S s u := by
  obtain ⟨w, rfl⟩ := h
  exact ⟨fun _ _ => rfl, rfl, ⟨rfl, rfl, rfl, rfl⟩, rfl, rfl⟩

end

/-- A command whose write is taken has the effect of its register. -/
theorem State.command_effect {s : State} {c addr v : Nat} (eff : State → Nat → Nat → State) {h : RegHit} {new raw : Nat}
    (hb : s.reached c = true) (ha : s.answers (addr / 0x10000) = true) (hr : regHit (addr / 0x10000) (addr % 0x10000) = some h)
    (hv : s.verdict c (addr / 0x10000) h v = .take new raw) (hraw : raw < 2 ^ 64) :
    ∃ u, HeldOnly s u ∧ s.command c addr v eff = eff u new raw := by
  obtain ⟨w, e⟩ := s.command_take c addr v eff hb ha hr hv hraw
  exact ⟨_, ⟨w, rfl⟩, e⟩

end Sys2Proof.Machine
end

section
/-! The aggregation of interrupts and the error log: what a deferred message's end, the writer and a tail written come to
(R53, R453 to R461). -/

namespace Sys2Proof

open Machine Safety

/-- What has left before the interrupts are routed has left by the command's end. -/
theorem Safety.Sent.settle {s t : State} {p : Output → Prop} (h : Sent s t p) : Sent s t.settle p := by
  obtain ⟨o, l, e, ho, hp⟩ := h
  obtain ⟨l', e'⟩ := t.settle_out
  exact ⟨o, l ++ l', by rw [e', e, List.append_assoc], List.mem_append_left _ ho, hp⟩

end Sys2Proof

namespace Sys2Proof.Machine

open Safety

/-! Deferred messages (R53). -/

/-- A message of a vector that the table does not mask leaves (R405). -/
theorem State.sendCat_sent (s : State) (n c : Nat) (h : s.masked n (48 + c) = false) :
    Sent s (s.sendCat n c) fun o => o = .msix n (48 + c) := by
  refine ⟨_, [.msix n (48 + c)], ?_, List.mem_singleton_self _, rfl⟩
  simp only [State.sendCat, State.sendMsix, h, Bool.false_eq_true, if_false]
  rfl

/-- IRQ_MOD_INTERVAL_END of a deferred message whose interval has passed, for a category that still stands (R53). -/
theorem irqModIntervalEnd_sends {s : State} {n : Client} {cat : Fin 13} {d : Nat}
    (hd : kvFind s.irq.deferred (16 * n + cat) = some d) (hp : s.modPassed n cat = true)
    (hs : s.bit (R.IRQ_CAT_STAT n) cat = true) (he : s.bit (R.IRQ_CAT_EN n) cat = true) (hm : s.masked n (48 + cat) = false) :
    Runs (.irqModIntervalEnd n cat) s fun t => Sent s t fun o => o = .msix n (48 + cat) := by
  have hdue : ((kvFind s.irq.deferred (16 * n + cat)).isSome && s.modPassed n cat) = true := by rw [hd, hp]; rfl
  have hcat : (s.bit (R.IRQ_CAT_STAT n) cat && s.bit (R.IRQ_CAT_EN n) cat) = true := by rw [hs, he]; rfl
  have e : exec (.irqModIntervalEnd n cat) s = settled
      (State.sendCat { s with irq := { s.irq with deferred := kvErase s.irq.deferred (16 * n + cat) } } n cat) :=
    congrArg settled ((if_pos hdue).trans (if_pos hcat))
  exact ⟨_, e, Sent.settle (State.sendCat_sent _ n cat hm)⟩

/-! The writer of the error log (R453 to R455, R457). -/

/-- The client logs stand apart from the queue and the ring. -/
theorem State.logClients_err (s : State) (r : Report) :
    (s.logClients r).err.queue = s.err.queue ∧ (s.logClients r).err.ring = s.err.ring := by
  unfold State.logClients
  induction r.routes generalizing s with
  | nil => exact ⟨rfl, rfl⟩
  | cons n l ih =>
    rw [List.foldl_cons]
    refine (ih _).imp (·.trans ?_) (·.trans ?_)
    all_goals
      extract_lets old new e t1
      split
      · rfl
      · unfold State.aerEvent
        extract_lets x
        split <;> rfl

@[simp] theorem State.setIrq_err (s : State) (p b c : Nat) : (s.setIrq p b c).err = s.err := State.settle_err _

/-- An entry written: it stands in the slot at ERR_HEAD, which advances, and ERR raises its new-entry interrupt (R453, R460). -/
theorem State.writeEntry_spec (s : State) (r : Report) (h : s.rd R.ERR_HEAD < 2 ^ 64 - 1) :
    (s.writeEntry r).err.queue = s.err.queue ∧
      (s.writeEntry r).err.ring =
        kvPut s.err.ring (s.rd R.ERR_HEAD % 4096) { r with seq := s.rd R.ERR_HEAD % 2 ^ 32 } ∧
      (s.writeEntry r).rd R.ERR_HEAD = s.rd R.ERR_HEAD + 1 ∧ (s.writeEntry r).bit (R.PG_IRQ_STAT pageErr) 4 = true := by
  unfold State.writeEntry
  extract_lets hd s1 e en s2 s3 s4 s5
  have h1 : s1.err = s.err := by
    simp only [s1]
    split <;> rfl
  have h3 : s3.err.queue = s.err.queue ∧ s3.err.ring = kvPut s.err.ring (hd % 4096) e := by
    obtain ⟨a, b⟩ := (s2.wr R.ERR_HEAD (hd + 1)).logClients_err e
    refine ⟨a.trans (show s1.err.queue = _ by rw [h1]), b.trans ?_⟩
    show kvPut s1.err.ring _ _ = _
    rw [h1]
  have h3r : s3.rd R.ERR_HEAD = hd + 1 := by
    rw [State.rd_congr (State.logClients_regs _ _)]
    exact State.rd_wr_same _ _ _ (by omega)
  have h4 : s4.err = s3.err ∧ s4.rd R.ERR_HEAD = hd + 1 := by
    simp only [s4]
    split
    · exact ⟨rfl, h3r⟩
    · exact ⟨rfl, (State.rd_wr_ne _ _ (by decide)).trans h3r⟩
  have hno : ¬ irqReg R.ERR_HEAD := not_irqReg_of_page (by decide) (by decide)
  have h5 : s5.err = s3.err ∧ s5.rd R.ERR_HEAD = hd + 1 ∧ s5.bit (R.PG_IRQ_STAT pageErr) 4 = true :=
    ⟨(s4.setIrq_err _ _ _).trans h4.1, ((s4.setIrq_touches _ _ _).rd _ hno).trans h4.2,
      (s4.setIrq_irqStat _ _ _ _ _ (by decide)).trans (if_pos ⟨rfl, rfl⟩)⟩
  clear_value s5
  obtain ⟨h5e, h5h, h5b⟩ := h5
  split
  · refine ⟨by rw [State.setIrq_err, h5e, h3.1], by rw [State.setIrq_err, h5e]; exact h3.2, ?_, ?_⟩
    · exact ((s5.setIrq_touches _ _ _).rd _ hno).trans h5h
    · rw [State.setIrq_irqStat _ _ _ _ _ _ (by decide), h5b, ite_self]
  · exact ⟨by rw [h5e, h3.1], by rw [h5e]; exact h3.2, h5h, h5b⟩

/-- With no event request waiting, no event is delivered (R417). -/
theorem State.deliverAers_of_none {s : State} (h : ∀ n, (s.ctrl n).aers = []) : s.deliverAers = s := by
  have step (n : Nat) : s.deliverAer n = s := by
    unfold State.deliverAer
    extract_lets x
    rw [show x.aers = [] from h n]
  unfold State.deliverAers
  induction List.range 16 with
  | nil => rfl
  | cons n l ih => rw [List.foldl_cons, step, ih]

theorem FlagsOnly.aers {s t : State} (h : FlagsOnly s t) (ha : ∀ n, (s.ctrl n).aers = []) (n : Nat) : (t.ctrl n).aers = [] := by
  obtain ⟨_, _, _, _, _, _, _, _, hc⟩ := h
  obtain ⟨ev, e⟩ := hc n
  rw [e]
  exact ha n

theorem FlagsOnly.sameMem {s t : State} (h : FlagsOnly s t) : SameMem s t := ⟨h.mem, h.memPoison, h.leaf, h.gather⟩

theorem State.writeDropNote_of_none {s : State} (h : s.err.dropped = 0) : s.writeDropNote = s := by
  simp only [State.writeDropNote, h, decide_true, Bool.true_or, if_true]

/-- The writer with no report dropped, a first report that no written entry takes up, and room in the ring: it writes that report. -/
theorem State.writerTake_writes {s : State} {r : Report} {rest : List Report} (hq : s.err.queue = r :: rest)
    (hd : s.err.dropped = 0) (hm : s.recentMatch r = none) (hr : s.ringRoom = true) :
    s.writerTake = ({ s with err := { s.err with queue := rest } } : State).writeEntry r := by
  have hm' : ({ s with err := { s.err with queue := rest } } : State).recentMatch r = none := hm
  have hr' : ({ s with err := { s.err with queue := rest } } : State).ringRoom = true := hr
  unfold State.writerTake
  simp only [State.writeDropNote_of_none hd, hq, State.coalesce, hm', hr', if_true]

/-- ERR_WRITER_TAKE writes the first queued report at ERR_HEAD (R453 to R455, R460). -/
theorem errWriterTake_writes {s : State} {r : Report} {rest : List Report} (hq : s.err.queue = r :: rest)
    (hd : s.err.dropped = 0) (hm : s.recentMatch r = none) (hr : s.ringRoom = true) (hh : s.rd R.ERR_HEAD < 2 ^ 64 - 1)
    (ha : ∀ n, (s.ctrl n).aers = []) :
    Runs .errWriterTake s fun t => t.err.queue = rest ∧ t.rd R.ERR_HEAD = s.rd R.ERR_HEAD + 1 ∧
      kvFind t.err.ring (s.rd R.ERR_HEAD % 4096) = some { r with seq := s.rd R.ERR_HEAD % 2 ^ 32 } ∧
      (∀ k, k ≠ s.rd R.ERR_HEAD % 4096 → kvFind t.err.ring k = kvFind s.err.ring k) ∧
      t.bit (R.PG_IRQ_STAT pageErr) 4 = true ∧ Kept s t (fun _ => False) ∧ SameMem s t := by
  have hf := s.writerTake_flags
  have hset := hf.trans s.writerTake.settle_only.flags
  have hw := State.writerTake_writes hq hd hm hr
  obtain ⟨eq, er, eh, eb⟩ := State.writeEntry_spec { s with err := { s.err with queue := rest } } r hh
  rw [← hw] at eq er eh eb
  refine ⟨_, rfl, ?_⟩
  rw [State.deliverAers_of_none (hf.aers ha)]
  refine ⟨?_, ?_, ?_, fun k hk => ?_, ?_, fun k hk _ => hset.rd hk, hset.sameMem⟩
  · rw [State.settle_err, eq]
  · rw [State.settle_rd _ (by decide), eh]
    rfl
  · rw [State.settle_err, er, kvFind_kvPut]
    exact if_pos rfl
  · rw [State.settle_err, er, kvFind_kvPut]
    exact if_neg (Ne.symm hk)
  · rw [State.settle_bit _ (by decide), eb]

/-! ERR_TAIL (R455, R461). -/

/-- The row of ERR_TAIL (R461). -/
def errTailHit : RegHit := ⟨⟨0x110, 1, 0, 1, 0, true, 0xffffffffffffffff, 0, 0, 0, false, 0, false⟩, 0x110, false⟩

theorem regHit_errTail : regHit pageErr 0x110 = some errTailHit := by decide

/-- ERR_TAIL of an open ERR takes the value written. -/
theorem State.verdict_errTail {s : State} {c v : Nat} (ho : Open s c pageErr) (hv : v < 2 ^ 64) :
    s.verdict c pageErr errTailHit v = .take v v := by
  have hm : s.mayReach c pageErr errTailHit.base = true := ho.reach (by decide) (by decide) (.inl (by decide))
  have h := State.verdict_plain (v := v) (h := errTailHit) ho (fun _ => hm) rfl rfl rfl (by decide) (by decide)
  rw [show errTailHit.rwMask pageErr = 2 ^ 64 - 1 from rfl] at h
  rwa [show (0xFFFFFFFFFFFFFFFF : Nat) = 2 ^ 64 - 1 from rfl, Nat.xor_self, Nat.and_zero, Nat.zero_or,
    Nat.and_two_pow_sub_one_of_lt_two_pow hv] at h

/-- ERR_TAIL_WRITE to an open ERR is a value for the tail (R455). -/
theorem exec_errTailWrite {s : State} {c : Client} {v : BitVec 64} (ho : Open s c pageErr) :
    ∃ u, HeldOnly s u ∧ exec (.errTailWrite c v) s = settled (u.setTail v.toNat) := by
  obtain ⟨u, hu, e⟩ := State.command_effect (addr := R.ERR_TAIL) (fun t new _ => t.setTail new) ho.1 ho.2.1
    regHit_errTail (State.verdict_errTail ho v.isLt) v.isLt
  exact ⟨u, hu, congrArg settled e⟩

/-- With no report dropped and no event request waiting, a value of the ring is stored and nothing more (R455). -/
theorem State.setTail_of_ring {s : State} {v : Nat} (hd : s.err.dropped = 0) (ha : ∀ n, (s.ctrl n).aers = [])
    (h1 : v ≤ s.rd R.ERR_HEAD) (h2 : s.rd R.ERR_HEAD ≤ v + 4096) : s.setTail v = s.wr R.ERR_TAIL v := by
  have hin : ¬ (s.rd R.ERR_HEAD < v ∨ v + 4096 < s.rd R.ERR_HEAD) := by omega
  simp only [State.setTail, Bool.or_eq_true, decide_eq_true_eq, hin, if_false]
  rw [State.writeDropNote_of_none (s := s.wr R.ERR_TAIL v) hd, State.deliverAers_of_none (s := s.wr R.ERR_TAIL v) ha]

/-- A value outside the ring is dropped (R455). -/
theorem State.setTail_of_not_ring {s : State} {v : Nat} (h : s.rd R.ERR_HEAD < v ∨ v + 4096 < s.rd R.ERR_HEAD) :
    s.setTail v = s := by
  simp only [State.setTail, Bool.or_eq_true, decide_eq_true_eq, h, if_true]

/-- ERR_TAIL_WRITE of a value of the ring: it is the tail from then on (R455). -/
theorem errTailWrite_takes {s : State} {c : Client} {v : BitVec 64} (ho : Open s c pageErr) (hd : s.err.dropped = 0)
    (ha : ∀ n, (s.ctrl n).aers = []) (h1 : v.toNat ≤ s.rd R.ERR_HEAD) (h2 : s.rd R.ERR_HEAD ≤ v.toNat + 4096) :
    Runs (.errTailWrite c v) s fun t => t.rd R.ERR_TAIL = v.toNat ∧ t.rd R.ERR_HEAD = s.rd R.ERR_HEAD ∧
      Kept s t (fun _ => False) ∧ SameMem s t := by
  obtain ⟨u, hu, e⟩ := exec_errTailWrite (v := v) ho
  rw [State.setTail_of_ring (by rw [hu.err, hd]) (fun n => by rw [hu.ctrl, ha]) (by rwa [hu.rd]) (by rwa [hu.rd])] at e
  refine ⟨_, e, ?_, ?_, fun k hk _ => ?_, ((hu.touches irqReg).mem.trans (u.wr_sameMem _ _)).trans (State.settle_sameMem _)⟩
  · rw [State.settle_rd _ (by decide), State.rd_wr_same _ _ _ v.isLt]
  · rw [State.settle_rd _ (by decide), State.rd_wr_ne _ _ (by decide), hu.rd]
  · have hne : R.ERR_TAIL ≠ k := by
      rintro rfl
      exact absurd hk (by decide)
    rw [State.settle_rd _ (catReg_flagReg hk), State.rd_wr_ne _ _ hne, hu.rd]

/-- ERR_TAIL_WRITE of a value outside the ring changes no register (R455). -/
theorem errTailWrite_drops {s : State} {c : Client} {v : BitVec 64} (ho : Open s c pageErr)
    (h : s.rd R.ERR_HEAD < v.toNat ∨ v.toNat + 4096 < s.rd R.ERR_HEAD) :
    Runs (.errTailWrite c v) s fun t => t.rd R.ERR_TAIL = s.rd R.ERR_TAIL ∧ Kept s t (fun _ => False) ∧ SameMem s t := by
  obtain ⟨u, hu, e⟩ := exec_errTailWrite (v := v) ho
  rw [State.setTail_of_not_ring (by rwa [hu.rd])] at e
  refine ⟨_, e, ?_, fun k hk _ => ?_, (hu.touches irqReg).mem.trans (State.settle_sameMem _)⟩
  · rw [State.settle_rd _ (by decide), hu.rd]
  · rw [State.settle_rd _ (catReg_flagReg hk), hu.rd]

end Sys2Proof.Machine

namespace Sys2Proof

open Machine Safety

/-- Settles O10: each command comes to one operation of the interrupt aggregation or the error log, of which the lemmas above say what
it leaves. -/
theorem errorLogAndDeferredMessagesAdvance : Obligations.ErrorLogAndDeferredMessagesAdvance :=
  fun _ _ _ _ => ⟨fun _ hd hp hs he hm => irqModIntervalEnd_sends hd hp hs he hm,
    fun _ _ hq hd hm hr hh ha => errWriterTake_writes hq hd hm hr hh ha,
    fun _ ho hd ha => ⟨fun h1 h2 => errTailWrite_takes ho hd ha h1 h2, fun h => errTailWrite_drops ho h⟩⟩

end Sys2Proof
end

section
/-! Accesses that nothing answers, and accesses behind a closed guard (R32, R41, R44, R47, R478, R555). -/

namespace Sys2Proof.Machine

open Safety

/-! Pages that answer nothing (R30, R32). -/

/-- The reserved pages carry no block (R30). -/
theorem typeCode_reserved : ∀ p : Fin 256, (0xBE ≤ p.val ∧ p.val ≤ 0xBF) ∨ (0xE3 ≤ p.val ∧ p.val ≤ 0xEF) → typeCode p = 0 := by
  decide +kernel

theorem State.answers_of_noBlock (s : State) {p : Nat} (h : typeCode p = 0) : s.answers p = false := by
  simp [State.answers, h]

/-- The page of an absent unit answers nothing, but for the pages that always do (R32, R47). -/
theorem State.answers_of_absent {s : State} {p : Nat} (h : s.present p = 0) (hp : p ∉ [pageDir, pageSys, pageRst, pageTmb, pageErr]) :
    s.answers p = false := by
  simp only [List.mem_cons, List.not_mem_nil, or_false, not_or] at hp
  obtain ⟨h1, h2, h3, h4, h5⟩ := hp
  simp [State.answers, h, h1, h2, h3, h4, h5]

/-- Below the diagnostic pages no unlock opens a page (R478). -/
theorem State.diagOpen_of_low (s : State) (c : Nat) {p : Nat} (h : p < 0xF0) : s.diagOpen c p = false := by
  simp [State.diagOpen, Nat.not_le.mpr h]

/-- A diagnostic page that no unlock names stays shut (R478). -/
theorem State.diagOpen_of_locked {s : State} (c : Nat) {p : Nat}
    (h : s.bit R.SEC_STAT 2 = false ∨ s.sec.pages.testBit (p - 0xF0) = false) : s.diagOpen c p = false := by
  rcases h with h | h <;> simp [State.diagOpen, h]

theorem typeCode_diagnostic {p : Nat} (h : 0xF0 ≤ p) : typeCode p = 0 := by
  by_contra hne
  exact absurd (typeCode_low hne) (Nat.not_lt.mpr h)

/-- Reserved pages, pages of absent units and diagnostic pages that no unlock opens answer no access (R32). -/
theorem State.quiet_of_kind {s : State} (c : Nat) {p : Nat} (h256 : p < 256)
    (h : (0xBE ≤ p ∧ p ≤ 0xBF) ∨ (0xE3 ≤ p ∧ p ≤ 0xEF) ∨
      (p < 0xF0 ∧ s.present p = 0 ∧ p ∉ [pageDir, pageSys, pageRst, pageTmb, pageErr]) ∨
      (0xF0 ≤ p ∧ (s.bit R.SEC_STAT 2 = false ∨ s.sec.pages.testBit (p - 0xF0) = false))) :
    s.answers p = false ∧ s.diagOpen c p = false := by
  rcases h with h | h | ⟨hlt, habs, hp⟩ | ⟨hge, hlock⟩
  · exact ⟨s.answers_of_noBlock (typeCode_reserved ⟨p, h256⟩ (.inl h)), s.diagOpen_of_low c (by omega)⟩
  · exact ⟨s.answers_of_noBlock (typeCode_reserved ⟨p, h256⟩ (.inr h)), s.diagOpen_of_low c (by omega)⟩
  · exact ⟨State.answers_of_absent habs hp, s.diagOpen_of_low c hlt⟩
  · exact ⟨s.answers_of_noBlock (typeCode_diagnostic hge), State.diagOpen_of_locked c hlock⟩

/-! Accesses to them (R32). -/

/-- The registers but IRQ_CAT_STAT, the error log, the categories of interrupts and the memories stay. -/
def Still (s t : State) : Prop :=
  (∀ k, catReg k = false → t.rd k = s.rd k) ∧ t.err = s.err ∧ t.irq.cats = s.irq.cats ∧ SameMem s t

theorem State.settle_still (s : State) : Still s s.settle :=
  ⟨fun _ hk => s.settle_rd hk, s.settle_err, s.settle_only.cats.1, s.settle_sameMem⟩

theorem registerWrite_quiet {s : State} {c : Client} {addr : BitVec 24} {w : Width} {v : BitVec 64}
    (ha : s.answers (addr.toNat / 0x10000) = false) (hd : s.diagOpen c (addr.toNat / 0x10000) = false) :
    Runs (.registerWrite c addr w v) s (Still s) := by
  have hpage (o) : s.writePage c (addr.toNat / 0x10000) o = o := by
    rw [State.writePage, hd, Bool.and_false]
    rfl
  have hw : s.write c addr.toNat w (v.toNat % 2 ^ (8 * w.bytes)) = s := by
    rw [State.write, ha, Bool.not_false, Bool.or_true]
    rfl
  exact ⟨_, (hpage _).trans (congrArg settled hw), s.settle_still⟩

theorem readClearAccess_quiet {s : State} {c : Client} {addr : BitVec 24} {w : Width}
    (ha : s.answers (addr.toNat / 0x10000) = false) (hd : s.diagOpen c (addr.toNat / 0x10000) = false) :
    Runs (.readClearAccess c addr w) s fun t => Still s t ∧
      (s.reached c = true → Sent s t fun o => o = .readData c addr.toNat 0) := by
  have hr : s.read c addr.toNat w = (0, s) := by
    rw [State.read, ha, Bool.not_false]
    rfl
  cases hb : s.reached c with
  | false =>
    have e : s.readOut c addr.toNat w = s := by
      rw [State.readOut, hb]
      rfl
    exact ⟨_, congrArg settled e, s.settle_still, fun h => absurd h (by decide)⟩
  | true =>
    have e : s.readOut c addr.toNat w = s.emit (.readData c addr.toNat 0) := by
      simp only [State.readOut, hb, hd, hr, Bool.not_true, Bool.false_eq_true, if_false]
      rfl
    exact ⟨_, congrArg settled e, State.settle_still (s.emit _), fun _ => sent_settle_emit rfl rfl⟩

/-! DIAG_UNLOCK (R474, R478). -/

/-- A request keeps each register that its effect keeps, but for those that its response may change (R474). -/
theorem State.attest_rd (s : State) (path : AttPath) (h : MsgHead) (p : List Byte) (busy : Bool) (code : Nat) (unit : Bool)
    {eff : State → (Nat × List Byte) × State} {k : Nat} (hf : flagReg k = false) (hk : k ≠ R.SEC_ATT_ERR)
    (he : (eff s).2.rd k = s.rd k) : (s.attest path h p busy code unit eff).rd k = s.rd k := by
  have hsay (t : State) (st : Nat) (d : List Byte) : (t.respond path 0x7A90 h st d).rd k = t.rd k :=
    (t.respond_keeps path 0x7A90 h st d).2.2.1 k hf hk
  unfold State.attest
  extract_lets say
  split
  · rfl
  split
  · exact hsay _ _ _
  split
  · exact hsay _ _ _
  split
  · exact hsay _ _ _
  split
  · exact hsay _ _ _
  · exact (hsay _ _ _).trans he

/-- Without Talmel's signature DIAG_UNLOCK leaves SEC_STAT as it is, so that no unlock begins (R478). -/
theorem diagUnlock_unsigned {s t : State} {path : AttPath} {h : MsgHead} {p : List Byte} {busy : Bool}
    (ht : exec (.diagUnlock path h p busy false) s = .next t) : t.bit R.SEC_STAT 2 = s.bit R.SEC_STAT 2 := by
  cases ht
  rw [State.settle_bit _ (by decide)]
  refine State.bit_congr (s.attest_rd path h p busy 0x08 true (by decide) (by decide) ?_) 2
  split
  · rfl
  · simp only [Bool.false_and, Bool.false_eq_true, if_false]
    exact State.raise_rd _ _ _ _ _ _ (by decide)

/-! Access events (R44, R434). -/

/-- An access event changes HIF_ACC_LAST and what an event of HIF changes (R44, R434). -/
theorem State.accessEvent_touches (s : State) (code c addr : Nat) :
    Touches (fun k => k = R.HIF_ACC_LAST ∨ eventReg pageHif k) s (s.accessEvent code c addr) :=
  (s.wr_touches _ (.inl rfl)).trans ((State.raise_touches _ _ _ _ _ _).mono fun _ h => .inr h)

/-- HIF_ACC_LAST takes the client and the offset (R434). -/
theorem State.accessEvent_accLast (s : State) (code : Nat) {c addr : Nat} (hc : c < 16) (ha : addr < 2 ^ 24) :
    (s.accessEvent code c addr).rd R.HIF_ACC_LAST = addr + c * 2 ^ 24 := by
  rw [State.accessEvent, State.raise_rd _ _ _ _ _ _ (by decide), State.rd_wr_same _ _ _ (by omega)]
  omega

theorem State.accessEvent_pgErr (s : State) (code c addr : Nat) :
    (s.accessEvent code c addr).rd (R.PG_ERR pageHif) % 65536 = code % 65536 := State.raise_pgErr _ _ _ _ _ _

theorem State.accessEvent_out (s : State) (code c addr : Nat) : ∃ l, (s.accessEvent code c addr).out = s.out ++ l := by
  rw [State.accessEvent]
  obtain ⟨_, _, l, _, _, _, e, -⟩ :=
    (s.wr R.HIF_ACC_LAST (addr % 0x1000000 + c * 0x1000000)).raise_flags pageHif code (some c) addr 0
  exact ⟨l, by rw [e, State.wr_out]⟩

/-- What an access event of a client leaves at a command's end: its code, its place, and every register that events do not change. -/
def AccessTold (s t : State) (code c addr : Nat) : Prop :=
  t.rd R.HIF_ACC_LAST = addr + c * 2 ^ 24 ∧ t.rd (R.PG_ERR pageHif) % 65536 = code ∧
    ∀ k, flagReg k = false → k ≠ R.HIF_ACC_LAST → t.rd k = s.rd k

/-- A command that ends with an access event. -/
theorem State.accessEvent_told {s u t : State} {code c addr : Nat} (hu : ∀ k, flagReg k = false → u.rd k = s.rd k) (hc : c < 16)
    (ha : addr < 2 ^ 24) (hcode : code < 65536) (ht : ∀ k, catReg k = false → t.rd k = (u.accessEvent code c addr).rd k) :
    AccessTold s t code c addr := by
  refine ⟨?_, ?_, fun k hk hne => ?_⟩
  · rw [ht _ (by decide), State.accessEvent_accLast _ _ hc ha]
  · rw [ht _ (by decide), State.accessEvent_pgErr, Nat.mod_eq_of_lt hcode]
  · rw [ht _ (catReg_flagReg hk), (u.accessEvent_touches code c addr).rd, hu _ hk]
    rintro (e | e)
    · exact hne e
    · exact absurd e.flag (by rw [hk]; decide)

/-! Accesses behind a closed guard (R41). -/

/-- The block registers of every page start at 0x100 (R36). -/
theorem blockDefs_off : ∀ b ∈ regBlocks, ∀ d ∈ b.defs, 0x100 ≤ d.off := by decide +kernel

theorem RegDef.hit_base {d : RegDef} {o : Nat} {h : RegHit} (e : d.hit o = some h) : d.off ≤ h.base := by
  unfold RegDef.hit at e
  split at e
  · cases e
  · extract_lets r0 i r1 j r2 at e
    split at e
    · cases e
      show d.off ≤ o
      omega
    · split at e
      · next hw =>
        cases e
        have : r2 = 4 := (by simpa using hw : d.wide = true ∧ r2 = 4).2
        show d.off ≤ o - 4
        omega
      · cases e

/-- A register that a block's offset names lies among the block's registers whole. -/
theorem regHit_base {p o : Nat} {h : RegHit} (ho : 0x100 ≤ o) (e : regHit p o = some h) : 0x100 ≤ h.base := by
  unfold regHit at e
  split at e
  · cases e
  · next b hb =>
    rw [if_neg (Nat.not_lt.mpr ho)] at e
    obtain ⟨d, hd, hit⟩ := List.exists_of_findSome?_eq_some e
    exact Nat.le_trans (blockDefs_off b (List.mem_of_find?_eq_some hb) d hd) (RegDef.hit_base hit)

/-- Client c, not the supervisor, addresses a block register of a page in service, other than IRQ, whose guard is closed to it. -/
structure Guarded (s : State) (c addr : Nat) : Prop where
  reached : s.reached c = true
  answers : s.answers (addr / 0x10000) = true
  service : s.present (addr / 0x10000) = 3
  client : c ≠ 0
  guard : s.guardOpen (addr / 0x10000) c = false
  page : addr / 0x10000 ≠ 5
  block : 0x100 ≤ addr % 0x10000
  aligned : addr % 4 = 0

section
variable {s u : State} {c addr : Nat}

theorem Guarded.held (h : Guarded s c addr) (hu : HeldOnly s u) : Guarded u c addr := by
  obtain ⟨w, rfl⟩ := hu
  exact ⟨h.reached, h.answers, h.service, h.client, h.guard, h.page, h.block, h.aligned⟩

theorem Guarded.not_reach (h : Guarded s c addr) (o : Nat) : s.mayReach c (addr / 0x10000) o = false := by
  simp [State.mayReach, h.client, pageIrq, h.page, h.guard]

theorem Guarded.not_read (h : Guarded s c addr) : s.mayRead c (addr / 0x10000) (addr % 0x10000) = false := by
  simp [State.mayRead, Nat.not_lt.mpr h.block, h.service, h.not_reach]

theorem Guarded.verdict (h : Guarded s c addr) {r : RegHit} (hr : regHit (addr / 0x10000) (addr % 0x10000) = some r) (v : Nat) :
    s.verdict c (addr / 0x10000) r v = .refuse 0x1002 := by
  have hb := regHit_base h.block hr
  simp [State.verdict, h.service, hb, h.not_reach]

theorem Guarded.reservedWrite (h : Guarded s c addr) : s.reservedWrite c addr = s.accessEvent 0x1002 c addr := by
  simp [State.reservedWrite, h.block, h.service, h.not_reach]

theorem Guarded.wrWhole (h : Guarded s c addr) (v : Nat) : s.wrWhole c addr v = s.accessEvent 0x1002 c addr := by
  unfold State.wrWhole
  split
  · next r hr => simp only [State.writeBy, h.answers, hr, h.verdict hr, Bool.not_true, Bool.false_eq_true, if_false]
  · next hr => simp only [State.writeBy, h.answers, hr, h.reservedWrite, Bool.not_true, Bool.false_eq_true, if_false]

theorem State.dropHeld_heldOnly (s : State) (c p key : Nat) : HeldOnly s (s.dropHeld c p key) := s.dropHeld_eq c p key

theorem Guarded.writeUpper (h : Guarded s c addr) (r : RegHit) (v : Nat) :
    ∃ u, HeldOnly s u ∧ s.writeUpper c addr r v = u.accessEvent 0x1002 c addr := by
  unfold State.writeUpper
  extract_lets p key
  split
  · split
    · exact ⟨_, ⟨_, rfl⟩, (h.held ⟨_, rfl⟩).wrWhole _⟩
    · have hd := s.dropHeld_heldOnly c p key
      exact ⟨_, hd, (h.held hd).wrWhole _⟩
  · exact ⟨s, ⟨_, rfl⟩, h.wrWhole _⟩

theorem Guarded.writeLower (h : Guarded s c addr) {r : RegHit} (hr : regHit (addr / 0x10000) (addr % 0x10000) = some r) (v : Nat) :
    s.writeLower c addr r v = s.accessEvent 0x1002 c addr := by
  simp only [State.writeLower, h.verdict hr]

/-- A 32-bit write there is refused, whether it names a register, a half of one or none (R41, R555). -/
theorem Guarded.write32 (h : Guarded s c addr) (v : Nat) :
    ∃ u, HeldOnly s u ∧ s.write32 c addr v = u.accessEvent 0x1002 c addr := by
  have hd := s.dropHeld_heldOnly c (addr / 0x10000) addr
  unfold State.write32
  extract_lets p
  split
  · exact ⟨_, hd, (h.held hd).wrWhole _⟩
  · next r hr =>
    split
    · exact ⟨_, hd, (h.held hd).wrWhole _⟩
    · split
      · exact h.writeUpper r v
      · exact ⟨_, hd, (h.held hd).writeLower hr v⟩

/-- A 32-bit read there gives 0 (R41, R555). -/
theorem Guarded.read (h : Guarded s c addr) : s.read c addr .b32 = (0, s.accessEvent 0x1002 c addr) := by
  have h4 : addr % 0x10000 % 4 = 0 := by
    have := h.aligned
    omega
  simp only [State.read, accessForm, State.read32, State.readVerdict, h.answers, h4, h.not_read, Bool.not_true, Bool.not_false,
    Bool.false_eq_true, if_false, if_true]

end

/-- A write behind a closed guard is refused with event 0x1002 (R41, R44). -/
theorem registerWrite_guarded {s : State} {c : Client} {addr : BitVec 24} {v : BitVec 64} (h : Guarded s c addr.toNat) :
    Runs (.registerWrite c addr .b32 v) s fun t => AccessTold s t 0x1002 c addr.toNat := by
  have h4 : addr.toNat % 0x10000 % 4 = 0 := by
    have := h.aligned
    omega
  refine runs_registerWrite h.answers ?_
  obtain ⟨u, hu, e⟩ := h.write32 (v.toNat % 2 ^ (8 * Width.b32.bytes) % 2 ^ 32)
  rw [State.write_word _ h.reached h.answers h4, e]
  exact State.accessEvent_told (fun k _ => hu.rd k) c.isLt addr.isLt (by decide) fun _ hk => State.settle_rd _ hk

/-- A read behind a closed guard returns 0 and raises event 0x1002 (R41, R44). -/
theorem readClearAccess_guarded {s : State} {c : Client} {addr : BitVec 24} (h : Guarded s c addr.toNat) :
    Runs (.readClearAccess c addr .b32) s fun t => AccessTold s t 0x1002 c addr.toNat ∧
      Sent s t fun o => o = .readData c addr.toNat 0 := by
  have e : s.readOut c addr.toNat .b32 = (s.accessEvent 0x1002 c addr.toNat).emit (.readData c addr.toNat 0) := by
    have hr := h.read
    generalize s.accessEvent 0x1002 c addr.toNat = u at hr ⊢
    rw [State.readOut_eq h.reached h.answers, hr]
    rfl
  obtain ⟨l, ho⟩ := s.accessEvent_out 0x1002 c addr.toNat
  refine ⟨_, congrArg settled e, ?_, Sent.settle ⟨_, l ++ [.readData c addr.toNat 0], ?_, by simp, rfl⟩⟩
  · refine State.accessEvent_told (u := s) (fun _ _ => rfl) c.isLt addr.isLt (by decide) fun k hk => ?_
    rw [State.settle_rd _ hk, State.rd_congr (State.emit_regs _ _)]
  · rw [State.emit, ho, List.append_assoc]

end Sys2Proof.Machine

namespace Sys2Proof

open Machine Safety

/-- Settles O6: no access reaches a page that answers nothing, an unsigned DIAG_UNLOCK leaves SEC_STAT, and behind a closed guard each
access comes to the access event. -/
theorem refusedAccessesChangeNothing : Obligations.RefusedAccessesChangeNothing := by
  intro s c addr w v p quiet still
  refine ⟨State.quiet_of_kind c (by have := addr.isLt; omega), fun ha hd => ⟨registerWrite_quiet ha hd, readClearAccess_quiet ha hd⟩,
    fun _ _ _ _ _ ht hb => diagUnlock_unsigned ht ▸ hb, fun hb ha hp hc hg h5 ho h4 => ?_⟩
  have h : Guarded s c addr.toNat := ⟨hb, ha, hp, hc, hg, h5, ho, h4⟩
  refine ⟨registerWrite_guarded h, ?_⟩
  obtain ⟨t, e, ⟨h1, h2, h3⟩, h4⟩ := readClearAccess_guarded h
  exact ⟨t, e, h1, h2, h3, h4⟩

end Sys2Proof
end

section
/-! The page header's operations: a write of PG_CTL, PG_PRESENT with the directory, the end of a quiesce request, and what each of them
changes (R36 to R39, R48, R49). -/

namespace Sys2Proof.Machine

open Safety

/-! The registers. -/

/-- The registers that a write of PG_CTL can change beside PG_PRESENT's: the page's PG_CTL and PG_STAT, and those of interrupts. -/
def ctlReg (p k : Nat) : Prop := k = R.PG_CTL p ∨ k = R.PG_STAT p ∨ irqReg k

/-- The registers that a change of PG_PRESENT can change: it, the directory, and for a row what an event of SCH changes (R49, R227). -/
def presentReg (p k : Nat) : Prop :=
  k = R.PG_PRESENT p ∨ k = R.DIR_ENTRY p ∨ k = R.DIR_GEN ∨ (0x28 ≤ p ∧ p < 0x90 ∧ eventReg pageSch k)

theorem irqReg.flag {k : Nat} (h : irqReg k) : flagReg k = true := eventReg.flag (p := 0) (.inl (.inl h))

theorem ctlReg.flag {p k : Nat} (h : ctlReg p k) : flagReg k = true := by
  rcases h with rfl | rfl | h
  · exact flagReg_header p (o := 0xc) (by decide)
  · exact flagReg_header p (o := 0x10) (by decide)
  · exact h.flag

theorem presentReg.flag_or_dir {p k : Nat} (h : presentReg p k) : flagReg k = true ∨ k = R.DIR_ENTRY p ∨ k = R.DIR_GEN := by
  rcases h with rfl | h | h | ⟨-, -, h⟩
  · exact .inl (flagReg_header p (o := 8) (by decide))
  · exact .inr (.inl h)
  · exact .inr (.inr h)
  · exact .inl h.flag

/-- PG_CTL and PG_STAT of a page stand apart from its presence and from the directory. -/
theorem not_presentReg {p o : Nat} (h0 : 8 < o) (h : o < 0x14) : ¬ presentReg p (p * 0x10000 + o) := by
  rintro (e | e | e | ⟨h1, h2, e⟩)
  · simp only [R.PG_PRESENT] at e
    omega
  · simp only [R.DIR_ENTRY] at e
    omega
  · simp only [R.DIR_GEN] at e
    omega
  · exact not_eventReg (by omega) (by omega) (by omega) (by omega) (.inr (by simp only [pageSch]; omega)) e

theorem not_irqReg_header (p : Nat) {o : Nat} (h0 : 0 < o) (h : o < 0x100) (h1 : o ≠ 0x1C) : ¬ irqReg (p * 0x10000 + o) :=
  not_irqReg (by omega) (by omega) h1

/-! PG_PRESENT and the directory (R37, R48, R49). -/

theorem State.rowService_touches (s : State) (r : Nat) (on : Bool) : Touches (eventReg pageSch) s (s.rowService r on) := by
  have h (d) : Touches (eventReg pageSch) s { s with sched := { s.sched with degraded := d } } :=
    ⟨fun _ _ => rfl, rfl, ⟨rfl, rfl, rfl, rfl⟩, rfl, rfl⟩
  unfold State.rowService
  split
  · exact .refl _ s
  · next c _ =>
    extract_lets rest
    split
    · exact h rest
    · refine (h (rest ++ [(c, r, false)])).trans ?_
      generalize { s with sched := { s.sched with degraded := rest ++ [(c, r, false)] } } = u
      exact u.raise_touches _ _ _ _ _

/-- A presence that does not change leaves everything. -/
theorem State.setPresent_self {s : State} {p v : Nat} (h : s.present p = v) : s.setPresent p v = s := if_pos h

/-- PG_PRESENT with its field replaced, before the directory follows. -/
def State.putPresent (s : State) (p v : Nat) : State := s.setFld (R.PG_PRESENT p) 3 0 v

theorem State.putPresent_present (s : State) (p v : Nat) : (s.putPresent p v).present p = v % 16 := by
  have h := s.fld_setFld (R.PG_PRESENT p) 3 0 v (by decide) (by decide)
  simp only [State.fld, bits, Nat.pow_zero, Nat.div_one] at h
  exact h

/-- The directory's entry for a page with a presence, and DIR_GEN one further (R48, R49). -/
def State.putDir (s : State) (p v : Nat) : State :=
  (s.wr (R.DIR_ENTRY p) (typeCode p * 65536 + instanceNo p * 256 + v * 16)).countWrap R.DIR_GEN 1

/-- The directory shows a page with a presence, and its generation is one further than it was (R48, R49). -/
def DirFollows (p v : Nat) (s t : State) : Prop :=
  t.rd (R.DIR_ENTRY p) = typeCode p * 65536 + instanceNo p * 256 + v * 16 ∧ t.rd R.DIR_GEN = (s.rd R.DIR_GEN + 1) % 2 ^ 32

theorem flagReg_dirEntry {p : Nat} (h : p < 256) : flagReg (R.DIR_ENTRY p) = false := by
  simp only [flagReg, R.DIR_ENTRY, R.SYS_ATTN, Bool.or_eq_false_iff, decide_eq_false_iff_not]
  omega

theorem DirFollows.of_rd {p v : Nat} {s s' t t' : State} (h : DirFollows p v s t) (hp : p < 256)
    (h0 : s.rd R.DIR_GEN = s'.rd R.DIR_GEN) (ht : ∀ k, flagReg k = false → t'.rd k = t.rd k) : DirFollows p v s' t' :=
  ⟨(ht _ (flagReg_dirEntry hp)).trans h.1, (ht _ (by decide)).trans (h.2.trans (by rw [h0]))⟩

theorem typeCode_lt : ∀ p : Fin 256, typeCode p < 256 ∧ instanceNo p < 256 := by decide +kernel

theorem State.putDir_dir (s : State) {p v : Nat} (h : p < 256) (hv : v < 16) :
    DirFollows p v s (s.putDir p v) := by
  obtain ⟨h1, h2⟩ := typeCode_lt ⟨p, h⟩
  dsimp only at h1 h2
  have hne : R.DIR_ENTRY p ≠ R.DIR_GEN := by
    simp only [R.DIR_ENTRY, R.DIR_GEN]
    omega
  rw [State.putDir, State.countWrap_eq, State.rd_wr_ne _ _ hne]
  unfold DirFollows
  constructor
  · rw [State.rd_wr_ne _ _ hne.symm, State.rd_wr_same _ _ _ (by omega)]
  · rw [State.rd_wr_same _ _ _ (by omega)]
    rfl

/-- A change of presence: the field alone before RB#'s first release, with the directory and the row's service after it (R47 to R49). -/
theorem State.setPresent_cases {s : State} {p v : Nat} (h : s.present p ≠ v) :
    (s.released = false ∧ s.setPresent p v = s.putPresent p v) ∨
    (s.released = true ∧ ∃ t, Touches (fun k => 0x28 ≤ p ∧ p < 0x90 ∧ eventReg pageSch k) ((s.putPresent p v).putDir p v) t ∧
      s.setPresent p v = t) := by
  unfold State.setPresent
  rw [if_neg h]
  extract_lets s1 s2
  cases hr : s.released with
  | false => exact .inl ⟨rfl, if_neg (by rw [show s1.released = s.released from rfl, hr]; decide)⟩
  | true =>
    refine .inr ⟨rfl, _, ?_, if_pos hr⟩
    split
    · next hrow =>
      simp only [Bool.and_eq_true, decide_eq_true_eq] at hrow
      exact (s2.rowService_touches _ _).mono fun _ hk => ⟨hrow.1.1, hrow.1.2, hk⟩
    · exact .refl _ _

theorem State.setPresent_touches (s : State) (p v : Nat) : Touches (presentReg p) s (s.setPresent p v) := by
  by_cases h : s.present p = v
  · rw [State.setPresent_self h]
    exact .refl _ s
  · have h1 : Touches (presentReg p) s (s.putPresent p v) := s.wr_touches _ (.inl rfl)
    have h2 : Touches (presentReg p) (s.putPresent p v) ((s.putPresent p v).putDir p v) :=
      (State.wr_touches _ _ (.inr (.inl rfl))).trans (State.wr_touches _ _ (.inr (.inr (.inl rfl))))
    obtain ⟨-, e⟩ | ⟨-, t, ht, e⟩ := State.setPresent_cases h
    · rwa [e]
    · rw [e]
      exact (h1.trans h2).trans (ht.mono fun _ hk => .inr (.inr (.inr hk)))

theorem State.setPresent_present (s : State) {p v : Nat} (hv : v < 16) : (s.setPresent p v).present p = v := by
  by_cases h : s.present p = v
  · rw [State.setPresent_self h, h]
  · have h1 : (s.putPresent p v).present p = v := (s.putPresent_present p v).trans (Nat.mod_eq_of_lt hv)
    obtain ⟨-, e⟩ | ⟨-, t, ht, e⟩ := State.setPresent_cases h
    · rwa [e]
    · rw [e, ht.present fun hk => not_eventReg (by decide) (by decide) (by decide) (by decide) (.inl (by decide)) hk.2.2,
        State.present, State.putDir, State.countWrap_eq, State.rd_wr_ne, State.rd_wr_ne]
      · exact h1
      · simp only [R.DIR_ENTRY, R.PG_PRESENT]
        omega
      · simp only [R.DIR_GEN, R.PG_PRESENT]
        omega

/-- The directory follows a change of presence, once RB# has been released (R48, R49). -/
theorem State.setPresent_dir {s : State} {p v : Nat} (hp : p < 256) (hv : v < 16) (hr : s.released = true) (h : s.present p ≠ v) :
    DirFollows p v s (s.setPresent p v) := by
  have hd := (s.putPresent p v).putDir_dir hp hv
  obtain ⟨h0, -⟩ | ⟨-, t, ht, e⟩ := State.setPresent_cases h
  · rw [hr] at h0
    cases h0
  · rw [e]
    refine hd.of_rd hp (State.rd_setFld_ne _ _ _ _ ?_) fun k hk => ht.rd k fun hno => absurd hno.2.2.flag (by rw [hk]; decide)
    simp only [R.PG_PRESENT, R.DIR_GEN]
    omega

/-! The end of a quiesce request (R38). -/

/-- PG_STAT of a block that has quiesced (R38). -/
def State.markQuiet (s : State) (p : Nat) : State := (if p = pageSpt then s.sptHold else s).setFld (R.PG_STAT p) 1 0 3

/-- The interrupts of the end of a quiesce: bit 3, and bit 2 when the block was not idle (R38, R51). -/
def State.quietIrqs (s : State) (p : Nat) (idle : Bool) : State :=
  if idle then s.setIrq p 3 0 else (s.setIrq p 3 0).setIrq p 2 0

theorem State.markQuiet_touches (s : State) (p : Nat) : Touches (ctlReg p) s (s.markQuiet p) := by
  unfold State.markQuiet
  split
  · have h : Touches (ctlReg p) s s.sptHold := ⟨fun _ _ => rfl, rfl, ⟨rfl, rfl, rfl, rfl⟩, rfl, rfl⟩
    exact h.trans (State.wr_touches _ _ (.inr (.inl rfl)))
  · exact s.wr_touches _ (.inr (.inl rfl))

theorem State.markQuiet_stat (s : State) (p : Nat) : (s.markQuiet p).fld (R.PG_STAT p) 1 0 = 3 :=
  State.fld_setFld _ _ _ _ _ (by decide) (by decide)

/-- The marked block's PG_CTL and PG_PRESENT stand. -/
theorem State.markQuiet_rd (s : State) {p k : Nat} (h : k ≠ R.PG_STAT p) : (s.markQuiet p).rd k = s.rd k := by
  refine (State.rd_setFld_ne _ _ _ _ h.symm).trans ?_
  split <;> rfl

theorem State.quietIrqs_touches (s : State) (p : Nat) (idle : Bool) : Touches irqReg s (s.quietIrqs p idle) := by
  unfold State.quietIrqs
  split
  · exact s.setIrq_touches _ _ _
  · exact (s.setIrq_touches _ _ _).trans (State.setIrq_touches _ _ _ _)

theorem State.quietIrqs_irqStat (s : State) (p : Nat) (idle : Bool) : (s.quietIrqs p idle).bit (R.PG_IRQ_STAT p) 3 = true := by
  unfold State.quietIrqs
  split
  · rw [State.setIrq_irqStat _ _ _ _ _ _ (by decide), if_pos ⟨rfl, rfl⟩]
  · rw [State.setIrq_irqStat _ _ _ _ _ _ (by decide), State.setIrq_irqStat _ _ _ _ _ _ (by decide), if_neg (by simp),
      if_pos ⟨rfl, rfl⟩]

theorem pgStat_ne_pgCtl (p q : Nat) : R.PG_CTL p ≠ R.PG_STAT q := by
  simp only [R.PG_CTL, R.PG_STAT]
  omega

theorem pgStat_ne_pgPresent (p q : Nat) : R.PG_PRESENT p ≠ R.PG_STAT q := by
  simp only [R.PG_PRESENT, R.PG_STAT]
  omega

theorem State.markQuiet_ctl (s : State) (p i : Nat) : (s.markQuiet p).bit (R.PG_CTL p) i = s.bit (R.PG_CTL p) i :=
  State.bit_congr (s.markQuiet_rd (pgStat_ne_pgCtl p p)) i

theorem State.markQuiet_present (s : State) (p : Nat) : (s.markQuiet p).present p = s.present p := by
  rw [State.present, s.markQuiet_rd (pgStat_ne_pgPresent p p), State.present]

/-- A block that has quiesced, out of service when its page is disabled (R38, R39, R49). -/
def State.leave (s : State) (p : Nat) : State :=
  if !s.bit (R.PG_CTL p) 0 && s.present p = 3 then (s.markQuiet p).setPresent p 1 else s.markQuiet p

theorem State.quiesced_eq (s : State) (p : Nat) : s.quiesced p = (s.leave p).quietIrqs p (s.bit (R.PG_STAT p) 0) := by
  rw [State.leave, ← s.markQuiet_ctl p 0, ← s.markQuiet_present p]
  rfl

theorem State.leave_of_enabled {s : State} {p : Nat} (h : s.bit (R.PG_CTL p) 0 = true) : s.leave p = s.markQuiet p := by
  rw [State.leave, h]
  rfl

theorem State.leave_of_disabled {s : State} {p : Nat} (h : s.bit (R.PG_CTL p) 0 = false) (hp : s.present p = 3) :
    s.leave p = (s.markQuiet p).setPresent p 1 := by
  rw [State.leave, h, hp]
  rfl

theorem State.leave_rd (s : State) {p o : Nat} (h0 : 8 < o) (h : o < 0x14) :
    (s.leave p).rd (p * 0x10000 + o) = (s.markQuiet p).rd (p * 0x10000 + o) := by
  unfold State.leave
  split
  · exact ((s.markQuiet p).setPresent_touches p 1).rd _ (not_presentReg h0 h)
  · rfl

theorem State.leave_present {s : State} {p : Nat} (h : s.present p = 3) :
    (s.leave p).present p = if s.bit (R.PG_CTL p) 0 then 3 else 1 := by
  cases h0 : s.bit (R.PG_CTL p) 0 with
  | true => rw [State.leave_of_enabled h0, s.markQuiet_present, h, if_pos rfl]
  | false => rw [State.leave_of_disabled h0 h, State.setPresent_present _ (by decide), if_neg (by decide)]

theorem State.leave_touches (s : State) (p : Nat) : Touches (fun k => ctlReg p k ∨ presentReg p k) s (s.leave p) := by
  have hm := (s.markQuiet_touches p).mono fun k => Or.inl (b := presentReg p k)
  unfold State.leave
  split
  · exact hm.trans (((s.markQuiet p).setPresent_touches p 1).mono fun _ => .inr)
  · exact hm

theorem State.quiesced_rd (s : State) {p o : Nat} (h0 : 8 < o) (h : o < 0x14) :
    (s.quiesced p).rd (p * 0x10000 + o) = (s.markQuiet p).rd (p * 0x10000 + o) := by
  rw [s.quiesced_eq, ((s.leave p).quietIrqs_touches p _).rd _ (not_irqReg_header p (by omega) (by omega) (by omega)), s.leave_rd h0 h]

/-- The end of a quiesce leaves PG_CTL (R38). -/
theorem State.quiesced_ctl (s : State) (p : Nat) : (s.quiesced p).rd (R.PG_CTL p) = s.rd (R.PG_CTL p) :=
  (s.quiesced_rd (o := 0xc) (by decide) (by decide)).trans (s.markQuiet_rd (pgStat_ne_pgCtl p p))

/-- A block that has quiesced shows it in PG_STAT (R38). -/
theorem State.quiesced_stat (s : State) (p : Nat) : (s.quiesced p).fld (R.PG_STAT p) 1 0 = 3 :=
  (State.fld_congr (s.quiesced_rd (o := 0x10) (by decide) (by decide)) 1 0).trans (s.markQuiet_stat p)

/-- The end of a quiesce sets interrupt bit 3 (R38). -/
theorem State.quiesced_irqStat (s : State) (p : Nat) : (s.quiesced p).bit (R.PG_IRQ_STAT p) 3 = true := by
  rw [s.quiesced_eq, State.quietIrqs_irqStat]

/-- The end of a quiesce keeps an enabled page in service and takes a disabled one out of it (R38, R39). -/
theorem State.quiesced_present {s : State} {p : Nat} (h : s.present p = 3) :
    (s.quiesced p).present p = if s.bit (R.PG_CTL p) 0 then 3 else 1 := by
  rw [s.quiesced_eq, ((s.leave p).quietIrqs_touches p _).present (not_irqReg_header p (by decide) (by decide) (by decide)),
    State.leave_present h]

theorem State.quiesced_touches (s : State) (p : Nat) : Touches (fun k => ctlReg p k ∨ presentReg p k) s (s.quiesced p) := by
  rw [s.quiesced_eq]
  exact (s.leave_touches p).trans (((s.leave p).quietIrqs_touches p _).mono fun _ hk => .inl (.inr (.inr hk)))

theorem State.quiesced_touches_of_enabled {s : State} {p : Nat} (h : s.bit (R.PG_CTL p) 0 = true) :
    Touches (ctlReg p) s (s.quiesced p) := by
  rw [s.quiesced_eq, State.leave_of_enabled h]
  exact (s.markQuiet_touches p).trans (((s.markQuiet p).quietIrqs_touches p _).mono fun _ hk => .inr (.inr hk))

/-! PG_CTL and PG_STAT follow each other on a page in service or disabled (R38, R39). -/

section
variable {s : State} {p : Nat} (hp : s.present p = 3 ∨ s.present p = 1)
include hp

theorem State.there_of_present : (decide (s.present p ≠ 3) && decide (s.present p ≠ 1)) = false := by
  rcases hp with h | h <;> simp [h]

theorem State.quiesceSettle_asked (hq : s.quiescing p = true) (h1 : s.bit (R.PG_STAT p) 1 = false) :
    s.quiesceSettle p = if s.busyPage p then s else s.quiesced p := by
  simp only [State.quiesceSettle, State.there_of_present hp, hq, h1, Bool.false_eq_true, if_false, if_true]

theorem State.quiesceSettle_quiet (h1 : s.bit (R.PG_STAT p) 1 = true) (h0 : s.bit (R.PG_CTL p) 0 = true)
    (hq : s.quiescing p = true) : s.quiesceSettle p = s := by
  simp only [State.quiesceSettle, State.there_of_present hp, hq, h1, h0, Bool.not_true, Bool.false_and, Bool.false_eq_true, if_false,
    if_true]

theorem State.quiesceSettle_open (hq : s.quiescing p = false) :
    s.quiesceSettle p =
      if p = pageTier then (s.setBit (R.PG_STAT p) 1 false).askAgain else s.setBit (R.PG_STAT p) 1 false := by
  simp only [State.quiesceSettle, State.there_of_present hp, hq, Bool.false_eq_true, if_false]

end

theorem State.askAgain_touches (S : Nat → Prop) (s : State) : Touches S s s.askAgain :=
  ⟨fun _ _ => rfl, rfl, ⟨rfl, rfl, rfl, rfl⟩, rfl, rfl⟩

/-- A block that accepts work again: PG_STAT[1] clears, and nothing else that registers show changes (R38, R39). -/
theorem State.quiesceSettle_open_spec {s : State} {p : Nat} (hp : s.present p = 3 ∨ s.present p = 1) (hq : s.quiescing p = false) :
    Touches (ctlReg p) s (s.quiesceSettle p) ∧ (s.quiesceSettle p).bit (R.PG_STAT p) 1 = false ∧
      (s.quiesceSettle p).rd (R.PG_CTL p) = s.rd (R.PG_CTL p) := by
  have h : Touches (ctlReg p) s (s.setBit (R.PG_STAT p) 1 false) := s.wr_touches _ (.inr (.inl rfl))
  have hb : (s.setBit (R.PG_STAT p) 1 false).bit (R.PG_STAT p) 1 = false := by
    rw [State.bit_setBit _ _ _ _ _ _ (by decide), if_pos ⟨rfl, rfl⟩]
  have hc : (s.setBit (R.PG_STAT p) 1 false).rd (R.PG_CTL p) = s.rd (R.PG_CTL p) :=
    s.rd_setBit_ne _ _ (pgStat_ne_pgCtl p p).symm
  rw [State.quiesceSettle_open hp hq]
  split
  · exact ⟨h.trans (State.askAgain_touches _ _), hb, hc⟩
  · exact ⟨h, hb, hc⟩

/-- On an enabled page nothing but PG_STAT and interrupts follows PG_CTL (R38, R39). -/
theorem State.quiesceSettle_enabled {s : State} {p : Nat} (hp : s.present p = 3 ∨ s.present p = 1)
    (h0 : s.bit (R.PG_CTL p) 0 = true) :
    Touches (ctlReg p) s (s.quiesceSettle p) ∧ (s.quiesceSettle p).rd (R.PG_CTL p) = s.rd (R.PG_CTL p) := by
  cases hq : s.quiescing p with
  | false =>
    obtain ⟨ht, -, hc⟩ := State.quiesceSettle_open_spec hp hq
    exact ⟨ht, hc⟩
  | true =>
    cases h1 : s.bit (R.PG_STAT p) 1 with
    | true =>
      rw [State.quiesceSettle_quiet hp h1 h0 hq]
      exact ⟨.refl _ s, rfl⟩
    | false =>
      rw [State.quiesceSettle_asked hp hq h1]
      split
      · exact ⟨.refl _ s, rfl⟩
      · exact ⟨State.quiesced_touches_of_enabled h0, s.quiesced_ctl p⟩

/-! A write of PG_CTL (R36, R42). -/

/-- The row of PG_CTL (R36). -/
def pgCtlHit : RegHit := ⟨⟨0xc, 1, 0, 1, 0, false, 0x80000003, 0, 0, 0x80000000, false, 0, false⟩, 0xc, false⟩

theorem regHit_pgCtl {s : State} {p : Nat} (h : s.answers p = true) : regHit p 0xc = some pgCtlHit := by
  rw [regHit_header h (by decide)]
  decide

/-- The bits of PG_CTL that a client writes: the enable and the quiesce request, and for client 0 the supervisor lock (R42). -/
def ctlMask (c : Nat) : Nat := if c = 0 then 0x80000003 else 3

/-- The value that PG_CTL takes of a client's (R42). -/
def ctlMerge (c old v : Nat) : Nat := (old &&& (0xFFFFFFFFFFFFFFFF ^^^ ctlMask c)) ||| (v &&& ctlMask c)

theorem ctlMask_low (c : Nat) : (ctlMask c).testBit 0 = true ∧ (ctlMask c).testBit 1 = true := by
  unfold ctlMask
  split <;> decide

/-- The enable and the quiesce request are every client's (R38, R39). -/
theorem ctlMerge_low (c old v : Nat) {i : Nat} (hi : i < 2) : (ctlMerge c old v).testBit i = v.testBit i := by
  have hm : (ctlMask c).testBit i = true ∧ (0xFFFFFFFFFFFFFFFF : Nat).testBit i = true := by
    obtain rfl | rfl : i = 0 ∨ i = 1 := by omega
    · exact ⟨(ctlMask_low c).1, by decide⟩
    · exact ⟨(ctlMask_low c).2, by decide⟩
  rw [ctlMerge, Nat.testBit_or, Nat.testBit_and, Nat.testBit_and, Nat.testBit_xor, hm.1, hm.2, Bool.xor_self, Bool.and_false,
    Bool.false_or, Bool.and_true]

/-- A write of PG_CTL that leaves the supervisor lock is taken (R42). -/
theorem State.verdict_pgCtl {s : State} {c p v : Nat} (ho : Open s c p) (h31 : v.testBit 31 = s.bit (R.PG_CTL p) 31) :
    s.verdict c p pgCtlHit v = .take (ctlMerge c (s.rd (R.PG_CTL p)) v) v := by
  have hsup : (v ^^^ s.rd (R.PG_CTL p)) &&& (0x80000000 &&& 0x80000003) = 0 := by
    rw [show 0x80000000 &&& 0x80000003 = 2 ^ 31 from rfl, Nat.and_two_pow, Nat.testBit_xor, h31, State.bit, Bool.xor_self]
    rfl
  have hk : regKey c p pgCtlHit = R.PG_CTL p := by simp [regKey, pgCtlHit]
  have hrw : pgCtlHit.rwMask p = 0x80000003 := rfl
  have hbase : pgCtlHit.base = 0xc := rfl
  obtain ⟨hwo, hw1c, hs⟩ : pgCtlHit.rd.wo = false ∧ pgCtlHit.rd.w1c = 0 ∧ pgCtlHit.rd.sup = 0x80000000 := ⟨rfl, rfl, rfl⟩
  have hlow : decide (0x100 ≤ 0xc) = false := by decide
  unfold ctlMerge ctlMask
  by_cases hc : c = 0
  · subst hc
    simp only [State.verdict, hk, hrw, hbase, hwo, hw1c, hs, ho.shut, hlow, hsup, Bool.false_and, Bool.false_eq_true,
      if_false, if_true, ne_eq, not_true_eq_false, decide_false, Bool.and_false]
    simp
  · have hlock : s.bit (R.PG_CTL p) 31 = false := by
      obtain ⟨-, -, -, -, h⟩ := ho
      exact (h.resolve_left hc).2
    have hm : (0x80000003 : Nat) &&& (0xFFFFFFFFFFFFFFFF ^^^ 0x80000000) = 3 := by decide
    simp only [State.verdict, hk, hrw, hbase, hwo, hw1c, hs, ho.shut, hlow, hsup, hlock, hm, Bool.false_and, Bool.false_eq_true,
      if_false, ne_eq, not_true_eq_false, decide_false, Bool.and_false, hc]
    simp

/-- PG_CTL with bits 0 and 1 as a value has them (R38, R39). -/
def State.putCtl (s : State) (p new : Nat) : State := s.wr (R.PG_CTL p) (new % 0x100000000)

theorem State.putCtl_bit (s : State) (p new : Nat) {i : Nat} (h : i < 32) : (s.putCtl p new).bit (R.PG_CTL p) i = new.testBit i := by
  rw [State.putCtl, State.bit, State.rd_wr_same _ _ _ (by omega), show 0x100000000 = 2 ^ 32 from rfl, Nat.testBit_mod_two_pow,
    decide_eq_true h, Bool.true_and]

theorem State.putCtl_touches (s : State) (p new : Nat) : Touches (ctlReg p) s (s.putCtl p new) := s.wr_touches _ (.inl rfl)

theorem State.putCtl_rd (s : State) (new : Nat) {p k : Nat} (h : k ≠ R.PG_CTL p) : (s.putCtl p new).rd k = s.rd k :=
  s.rd_wr_ne _ h.symm

/-- What a block has in progress is not in PG_CTL. -/
theorem State.putCtl_busyPage (s : State) (p q new : Nat) : (s.putCtl p new).busyPage q = s.busyPage q := by
  have h : (s.putCtl p new).bit R.HIF_PMB_STAT 0 = s.bit R.HIF_PMB_STAT 0 :=
    State.bit_congr (s.putCtl_rd _ (by simp only [R.HIF_PMB_STAT, R.PG_CTL]; omega)) 0
  unfold State.busyPage
  rw [h]
  rfl

/-- A value of PG_CTL whose enable is set keeps a page in service (R38, R39). -/
theorem State.pageCtl_enabled {s : State} {p new : Nat} (hp : s.present p = 3 ∨ s.present p = 1) (h0 : new.testBit 0 = true) :
    s.pageCtl p new = ((s.putCtl p new).setPresent p 3).quiesceSettle p := by
  simp only [State.pageCtl, State.there_of_present hp, h0, Bool.false_eq_true, if_false, if_true, State.putCtl]

theorem State.pageCtl_disabled {s : State} {p new : Nat} (hp : s.present p = 3 ∨ s.present p = 1) (h0 : new.testBit 0 = false) :
    s.pageCtl p new = (s.putCtl p new).quiesceSettle p := by
  simp only [State.pageCtl, State.there_of_present hp, h0, Bool.false_eq_true, if_false, State.putCtl]

/-! A unit that accepts work again (R38, R352, R360). -/

theorem Touches.flagRd {S : Nat → Prop} {s t : State} (h : Touches S s t) (hS : ∀ k, S k → flagReg k = true) {k : Nat}
    (hk : flagReg k = false) : t.rd k = s.rd k := h.rd k fun e => absurd (hS k e) (by rw [hk]; decide)

theorem Touches.nothingWaits {S : Nat → Prop} {s t : State} (h : Touches S s t) {p : Nat} (hw : NothingWaits s p) :
    NothingWaits t p := by
  obtain ⟨h1, h2⟩ := hw
  exact ⟨by rw [State.linkUnit, h.links]; exact h1, by rw [h.runs]; exact h2⟩

/-- With no operation waiting, the releases that RED let wait are none (R164). -/
theorem State.resume_of_none {s : State} (h : ∀ e ∈ s.sched.runs, e.2.waitRow = none) : s.resume = s := by
  have hall : (s.sched.runs.filterMap fun e => e.2.waitRow.map fun w => (w.2, w.1, e.1)) = [] :=
    List.filterMap_eq_nil_iff.mpr fun e he => by rw [h e he]; rfl
  unfold State.resume
  rw [hall]
  rfl

/-- The registers but IRQ_CAT_STAT and the memories are those of another state. -/
structure Shows (v t : State) : Prop where
  rd : ∀ k, catReg k = false → t.rd k = v.rd k
  mem : SameMem v t

/-- Where nothing waits for a unit, or it takes no work yet, its turn changes no register and no memory. -/
theorem State.workAgain_shows {v : State} {p : Nat} (h : v.quiescing p = true ∨ NothingWaits v p) :
    (v.workAgain p).regs = v.regs ∧ SameMem v (v.workAgain p) := by
  cases hq : v.quiescing p with
  | true =>
    rw [State.workAgain, if_pos hq]
    exact ⟨rfl, .refl v⟩
  | false =>
    obtain ⟨hl, hr⟩ := h.resolve_left (by rw [hq]; decide)
    rw [State.workAgain, if_neg (by rw [hq]; decide)]
    split
    · rw [State.resume_of_none hr]
      exact ⟨rfl, .refl v⟩
    · split
      · rw [hl]
        exact ⟨rfl, rfl, rfl, rfl, rfl⟩
      · exact ⟨rfl, .refl v⟩

theorem State.workAgain_settle_shows {v : State} {p : Nat} (h : v.quiescing p = true ∨ NothingWaits v p) :
    Shows v (v.workAgain p).settle := by
  obtain ⟨hr, hm⟩ := State.workAgain_shows h
  exact ⟨fun k hk => (State.settle_rd _ hk).trans (State.rd_congr hr k), hm.trans (State.settle_sameMem _)⟩

section
variable {v t : State} (h : Shows v t)
include h

theorem Shows.header (p : Nat) {o : Nat} (h0 : 0 < o) (ho : o < 0x100) : t.rd (p * 0x10000 + o) = v.rd (p * 0x10000 + o) :=
  h.rd _ (catReg_header p h0 ho)

theorem Shows.present (p : Nat) : t.present p = v.present p := by
  rw [State.present, h.header p (by decide) (by decide), State.present]

theorem Shows.ctl (p i : Nat) : t.bit (R.PG_CTL p) i = v.bit (R.PG_CTL p) i :=
  State.bit_congr (h.header p (by decide) (by decide)) i

theorem Shows.stat (p i : Nat) : t.bit (R.PG_STAT p) i = v.bit (R.PG_STAT p) i :=
  State.bit_congr (h.header p (by decide) (by decide)) i

theorem Shows.statFld (p : Nat) : t.fld (R.PG_STAT p) 1 0 = v.fld (R.PG_STAT p) 1 0 :=
  State.fld_congr (h.header p (by decide) (by decide)) 1 0

theorem Shows.irqStat (p i : Nat) : t.bit (R.PG_IRQ_STAT p) i = v.bit (R.PG_IRQ_STAT p) i :=
  State.bit_congr (h.header p (by decide) (by decide)) i

/-- What the state shown keeps of another, the command keeps. -/
theorem Shows.kept {s : State} {q : Nat → Prop} (hk : Kept s v q) : Kept s t q := fun k hf hn =>
  (h.rd k (catReg_flagReg hf)).trans (hk k hf hn)

end

theorem Touches.kept {S q : Nat → Prop} {s t : State} (h : Touches S s t) (hS : ∀ k, S k → flagReg k = true ∨ q k) : Kept s t q :=
  fun k hf hn => h.rd k fun hk => (hS k hk).elim (fun e => absurd e (by rw [hf]; decide)) hn

/-! The commands that write one bit of PG_CTL (R38, R39). -/

/-- The registers of another page's header, and the page's others than PG_CTL and PG_STAT, are none of a write of PG_CTL's. -/
theorem not_ctlReg {p q o : Nat} (h0 : 0 < o) (h : o < 0x100) (h1 : o ≠ 0x1C) (h2 : o ≠ 0xC) (h3 : o ≠ 0x10) :
    ¬ ctlReg p (q * 0x10000 + o) := by
  rintro (e | e | e)
  · simp only [R.PG_CTL] at e
    omega
  · simp only [R.PG_STAT] at e
    omega
  · exact not_irqReg_header q h0 h h1 e

theorem not_ctlReg_present (p q : Nat) : ¬ ctlReg p (R.PG_PRESENT q) :=
  not_ctlReg (by decide) (by decide) (by decide) (by decide) (by decide)

/-- PG_CTL of page p has taken a value with an enable and a quiesce request, and nothing has followed it yet. -/
structure CtlTaken (p : Nat) (enable quiesce : Bool) (s w : State) : Prop where
  touches : Touches (ctlReg p) s w
  rest : ∀ k, k ≠ R.PG_CTL p → w.rd k = s.rd k
  busy : w.busyPage p = s.busyPage p
  enable : w.bit (R.PG_CTL p) 0 = enable
  quiesce : w.bit (R.PG_CTL p) 1 = quiesce

theorem State.putCtl_taken {s u : State} (hu : HeldOnly s u) (p new : Nat) :
    CtlTaken p (new.testBit 0) (new.testBit 1) s (u.putCtl p new) :=
  ⟨(hu.touches _).trans (u.putCtl_touches p new), fun k hk => (u.putCtl_rd new hk).trans (hu.rd k),
    (u.putCtl_busyPage p p new).trans (hu.busyPage p), u.putCtl_bit p new (by decide), u.putCtl_bit p new (by decide)⟩

section
variable {p : Nat} {e q : Bool} {s w : State} (h : CtlTaken p e q s w)
include h

theorem CtlTaken.present : w.present p = s.present p := h.touches.present (not_ctlReg_present p p)

theorem CtlTaken.stat (i : Nat) : w.bit (R.PG_STAT p) i = s.bit (R.PG_STAT p) i :=
  State.bit_congr (h.rest _ (pgStat_ne_pgCtl p p).symm) i

theorem CtlTaken.quiescing : w.quiescing p = (q || !e) := by rw [State.quiescing, h.enable, h.quiesce]

end

/-- A register with one bit replaced (R36). -/
theorem testBit_replaceBit (x i j : Nat) (b : Bool) : (putBits x i i b.toNat).testBit j = if j = i then b else x.testBit j := by
  rw [testBit_putBits _ _ _ _ _ (Nat.le_refl i)]
  by_cases hj : j = i
  · subst hj
    rw [if_pos ⟨Nat.le_refl _, Nat.le_refl _⟩, if_pos rfl, Nat.sub_self]
    cases b <;> rfl
  · rw [if_neg (by omega), if_neg hj]

/-- A command that writes PG_CTL with one bit replaced takes effect with that value of the enable and the quiesce request (R38 to
R40). -/
theorem State.command_pgCtl {s : State} {c p i : Nat} {b : Bool} (eff : State → Nat → Nat → State) (ho : Open s c p) (hi : i < 31) :
    ∃ u new, HeldOnly s u ∧ s.command c (R.PG_CTL p) (putBits (s.rd (R.PG_CTL p)) i i b.toNat) eff =
        eff u new (putBits (s.rd (R.PG_CTL p)) i i b.toNat) ∧
      ∀ j < 2, new.testBit j = if j = i then b else s.bit (R.PG_CTL p) j := by
  have hpage : R.PG_CTL p / 0x10000 = p ∧ R.PG_CTL p % 0x10000 = 0xc := by
    simp only [R.PG_CTL]
    omega
  have hbit := testBit_replaceBit (s.rd (R.PG_CTL p)) i (b := b)
  have hv := State.verdict_pgCtl (v := putBits (s.rd (R.PG_CTL p)) i i b.toNat) ho ((hbit 31).trans (if_neg (by omega)))
  obtain ⟨u, hu, e⟩ := State.command_effect (s := s) (c := c) (addr := R.PG_CTL p) eff ho.1
    (by rw [hpage.1]; exact ho.2.1) (by rw [hpage.1, hpage.2]; exact regHit_pgCtl ho.2.1) (by rw [hpage.1]; exact hv)
    (putBits_lt _ _ _ _ 64 (Nat.le_refl i) (by omega) (s.rd_lt _))
  exact ⟨u, _, hu, e, fun j hj => (ctlMerge_low c _ _ hj).trans (hbit j)⟩

section
variable {s : State} {c p i : Nat} {b : Bool} (ho : Open s c p) (hp : s.present p = 3 ∨ s.present p = 1) (hi : i < 2)
include ho hp hi

/-- A command of PG_CTL that leaves the page enabled: the page is in service and its quiesce request follows (R38, R39). -/
theorem State.ctlBit_enabled (h0 : (if i = 0 then b else s.bit (R.PG_CTL p) 0) = true) :
    ∃ w, CtlTaken p true (if i = 1 then b else s.bit (R.PG_CTL p) 1) s w ∧
      s.writePage c p (settled (s.ctlBit c p i b)) = settled (((w.setPresent p 3).quiesceSettle p).workAgain p) := by
  obtain ⟨u, new, hu, e, hn⟩ := State.command_pgCtl (b := b) (fun t new _ => (t.pageCtl p new).workAgain p) ho (by omega : i < 31)
  have h1 : new.testBit 0 = true := (hn 0 (by decide)).trans (by rw [← h0]; simp only [eq_comm])
  have hw := State.putCtl_taken hu p new
  rw [h1, hn 1 (by decide)] at hw
  simp only [eq_comm (a := 1)] at hw
  refine ⟨_, hw, (s.writePage_of_answers c _ ho.2.1).trans ?_⟩
  rw [State.ctlBit, e, State.pageCtl_enabled (by rwa [hu.present]) h1]

/-- A command of PG_CTL that disables the page: the end of its work follows (R39). -/
theorem State.ctlBit_disabled (h0 : (if i = 0 then b else s.bit (R.PG_CTL p) 0) = false) :
    ∃ w, CtlTaken p false (if i = 1 then b else s.bit (R.PG_CTL p) 1) s w ∧
      s.writePage c p (settled (s.ctlBit c p i b)) = settled ((w.quiesceSettle p).workAgain p) := by
  obtain ⟨u, new, hu, e, hn⟩ := State.command_pgCtl (b := b) (fun t new _ => (t.pageCtl p new).workAgain p) ho (by omega : i < 31)
  have h1 : new.testBit 0 = false := (hn 0 (by decide)).trans (by rw [← h0]; simp only [eq_comm])
  have hw := State.putCtl_taken hu p new
  rw [h1, hn 1 (by decide)] at hw
  simp only [eq_comm (a := 1)] at hw
  refine ⟨_, hw, (s.writePage_of_answers c _ ho.2.1).trans ?_⟩
  rw [State.ctlBit, e, State.pageCtl_disabled (by rwa [hu.present]) h1]

end

end Sys2Proof.Machine
end

section
/-! ENABLE and DISABLE (R37 to R39, R48, R49). -/

namespace Sys2Proof.Machine

open Safety

/-- The directory follows the end of a disable (R39, R49). -/
theorem State.quiesced_dir {s : State} {p : Page} (h : s.bit (R.PG_CTL p) 0 = false) (hp : s.present p = 3)
    (hr : s.released = true) : DirFollows p 1 s (s.quiesced p) := by
  have hm := s.markQuiet_touches p
  have hd : DirFollows p 1 (s.markQuiet p) ((s.markQuiet p).setPresent p 1) :=
    State.setPresent_dir p.isLt (by decide) (hm.released.trans hr) (by rw [s.markQuiet_present, hp]; decide)
  rw [s.quiesced_eq, State.leave_of_disabled h hp]
  exact hd.of_rd p.isLt (hm.flagRd (fun _ => ctlReg.flag) (by decide)) fun k hk =>
    (State.quietIrqs_touches _ p _).flagRd (fun _ => irqReg.flag) hk

section
variable {s : State} {c : Client} {p : Page} (ho : Open s c p)
include ho

/-- ENABLE puts a page in service at once, and the directory follows (R37, R39, R48, R49). -/
theorem enable_serves (hp : s.present p = 3 ∨ s.present p = 1) (hn : NothingWaits s p) :
    Runs (.enable c p) s fun t => t.present p = 3 ∧ t.bit (R.PG_CTL p) 0 = true ∧
      (s.released = true → s.present p = 1 → DirFollows p 3 s t) ∧
      Kept s t (fun k => k = R.DIR_ENTRY p ∨ k = R.DIR_GEN) ∧ SameMem s t := by
  obtain ⟨w, hw, e⟩ := State.ctlBit_enabled (b := true) ho hp (by decide) (if_pos rfl)
  have h3 : (w.setPresent p 3).present p = 3 := State.setPresent_present _ (by decide)
  have hc : (w.setPresent p 3).bit (R.PG_CTL p) 0 = true :=
    ((w.setPresent_touches p 3).bit (not_presentReg (o := 0xc) (by decide) (by decide)) 0).trans hw.enable
  obtain ⟨hv, hvc⟩ := State.quiesceSettle_enabled (.inl h3) hc
  have ht : Touches (fun k => ctlReg p k ∨ presentReg p k) s ((w.setPresent p 3).quiesceSettle p) :=
    ((hw.touches.mono fun _ => .inl).trans ((w.setPresent_touches p 3).mono fun _ => .inr)).trans (hv.mono fun _ => .inl)
  have hs := State.workAgain_settle_shows (.inr (ht.nothingWaits hn))
  refine ⟨_, e, ?_, ?_, fun hr h1 => ?_, hs.kept (ht.kept ?_), ht.mem.trans hs.mem⟩
  · rw [hs.present, hv.present (not_ctlReg_present p p), h3]
  · rw [hs.ctl, State.bit_congr hvc, hc]
  · have hd : DirFollows p 3 w (w.setPresent p 3) :=
      State.setPresent_dir p.isLt (by decide) (hw.touches.released.trans hr) (by rw [hw.present, h1]; decide)
    exact hd.of_rd p.isLt (hw.rest _ (by simp only [R.DIR_GEN, R.PG_CTL]; omega)) fun k hk =>
      (hs.rd k (catReg_flagReg hk)).trans (hv.flagRd (fun _ => ctlReg.flag) hk)
  · rintro k (hk | hk)
    · exact .inl hk.flag
    · exact hk.flag_or_dir

/-- DISABLE of a block with no work in progress completes: the page leaves service and the directory follows (R39, R49). -/
theorem disable_completes (h3 : s.present p = 3) (hq : s.bit (R.PG_STAT p) 1 = false) (hb : s.busyPage p = false) :
    Runs (.disable c p) s fun t => t.present p = 1 ∧ t.bit (R.PG_CTL p) 0 = false ∧
      t.fld (R.PG_STAT p) 1 0 = 3 ∧ t.bit (R.PG_IRQ_STAT p) 3 = true ∧ (s.released = true → DirFollows p 1 s t) ∧
      Kept s t (fun k => k = R.DIR_ENTRY p ∨ k = R.DIR_GEN) ∧ SameMem s t := by
  obtain ⟨w, hw, e⟩ := State.ctlBit_disabled (b := false) ho (.inl h3) (by decide) (if_pos rfl)
  have hwp : w.present p = 3 := hw.present.trans h3
  rw [State.quiesceSettle_asked (.inl hwp) (by rw [hw.quiescing]; simp) (by rw [hw.stat, hq]), hw.busy, hb,
    if_neg (by decide)] at e
  have hctl (i : Nat) : (w.quiesced p).bit (R.PG_CTL p) i = w.bit (R.PG_CTL p) i := State.bit_congr (w.quiesced_ctl p) i
  have ht := (hw.touches.mono fun _ => .inl).trans (w.quiesced_touches p)
  have hs := State.workAgain_settle_shows (v := w.quiesced p) (p := p) (.inl (by rw [State.quiescing, hctl, hctl, hw.enable]; simp))
  refine ⟨_, e, ?_, ?_, ?_, ?_, fun hr => ?_, hs.kept (ht.kept ?_), ht.mem.trans hs.mem⟩
  · rw [hs.present, State.quiesced_present hwp, hw.enable, if_neg (by decide)]
  · rw [hs.ctl, hctl, hw.enable]
  · rw [hs.statFld, w.quiesced_stat]
  · rw [hs.irqStat, w.quiesced_irqStat]
  · exact (State.quiesced_dir hw.enable hwp (hw.touches.released.trans hr)).of_rd p.isLt
      (hw.touches.flagRd (fun _ => ctlReg.flag) (by decide)) fun k hk => hs.rd k (catReg_flagReg hk)
  · rintro k (hk | hk)
    · exact .inl hk.flag
    · exact hk.flag_or_dir

/-- DISABLE of a block with work in progress: the page stays in service until the block has quiesced (R39). -/
theorem disable_waits (h3 : s.present p = 3) (hq : s.bit (R.PG_STAT p) 1 = false) (hb : s.busyPage p = true) :
    Runs (.disable c p) s fun t => t.present p = 3 ∧ t.bit (R.PG_CTL p) 0 = false ∧ t.bit (R.PG_STAT p) 1 = false ∧
      Kept s t (fun _ => False) ∧ SameMem s t := by
  obtain ⟨w, hw, e⟩ := State.ctlBit_disabled (b := false) ho (.inl h3) (by decide) (if_pos rfl)
  have hwp : w.present p = 3 := hw.present.trans h3
  have hwq : w.quiescing p = true := by rw [hw.quiescing]; simp
  have hws : w.bit (R.PG_STAT p) 1 = false := (hw.stat 1).trans hq
  rw [State.quiesceSettle_asked (.inl hwp) hwq hws, hw.busy, hb, if_pos rfl] at e
  have hs := State.workAgain_settle_shows (.inl hwq)
  exact ⟨_, e, by rw [hs.present, hwp], by rw [hs.ctl, hw.enable], by rw [hs.stat, hws],
    hs.kept (hw.touches.kept fun _ hk => .inl hk.flag), hw.touches.mem.trans hs.mem⟩

end

end Sys2Proof.Machine

namespace Sys2Proof

open Machine Safety

/-- Settles O7: each command takes PG_CTL, and what follows it is the change of presence or the end of the block's work. -/
theorem enableDisableSetPresentAndDirectory : Obligations.EnableDisableSetPresentAndDirectory :=
  fun _ _ _ ho hp => ⟨fun hn => enable_serves ho hp hn,
    fun h3 hq => ⟨fun hb => disable_completes ho h3 hq hb, fun hb => disable_waits ho h3 hq hb⟩⟩

end Sys2Proof
end

section
/-! Quiesce requests (R36, R38, R39). -/

namespace Sys2Proof.Machine

open Safety

section
variable {s : State} {c : Client} {p : Page} (ho : Open s c p) (h3 : s.present p = 3) (h0 : s.bit (R.PG_CTL p) 0 = true)
include ho h3 h0

/-- QUIESCE_REQUEST of an enabled page: its PG_CTL has the request, and what follows is the end of the block's work (R38). -/
theorem exec_quiesceRequest (hq : s.bit (R.PG_STAT p) 1 = false) :
    ∃ w, CtlTaken p true true s w ∧
      exec (.quiesceRequest c p) s = settled ((if s.busyPage p then w else w.quiesced p).workAgain p) := by
  obtain ⟨w, hw, e⟩ := State.ctlBit_enabled (i := 1) (b := true) ho (.inl h3) (by decide) h0
  rw [State.setPresent_self (hw.present.trans h3),
    State.quiesceSettle_asked (.inl (hw.present.trans h3)) hw.quiescing (by rw [hw.stat, hq]), hw.busy] at e
  exact ⟨w, hw, e⟩

/-- A quiesce request completes at once on a block with no work in progress (R38). -/
theorem quiesceRequest_completes (hq : s.bit (R.PG_STAT p) 1 = false) (hb : s.busyPage p = false) :
    Runs (.quiesceRequest c p) s fun t => t.fld (R.PG_STAT p) 1 0 = 3 ∧ t.bit (R.PG_CTL p) 1 = true ∧
      t.bit (R.PG_IRQ_STAT p) 3 = true ∧ t.present p = 3 ∧ Kept s t (fun _ => False) ∧ SameMem s t := by
  obtain ⟨w, hw, e⟩ := exec_quiesceRequest ho h3 h0 hq
  rw [hb, if_neg (by decide)] at e
  have hctl (i : Nat) : (w.quiesced p).bit (R.PG_CTL p) i = w.bit (R.PG_CTL p) i := State.bit_congr (w.quiesced_ctl p) i
  have ht := hw.touches.trans (State.quiesced_touches_of_enabled hw.enable)
  have hs := State.workAgain_settle_shows (v := w.quiesced p) (p := p) (.inl (by rw [State.quiescing, hctl, hw.quiesce]; rfl))
  refine ⟨_, e, ?_, ?_, ?_, ?_, hs.kept (ht.kept fun _ hk => .inl hk.flag), ht.mem.trans hs.mem⟩
  · rw [hs.statFld, w.quiesced_stat]
  · rw [hs.ctl, hctl, hw.quiesce]
  · rw [hs.irqStat, w.quiesced_irqStat]
  · rw [hs.present, State.quiesced_present (hw.present.trans h3), hw.enable, if_pos rfl]

/-- A quiesce request waits for the work in progress of its block (R38). -/
theorem quiesceRequest_waits (hq : s.bit (R.PG_STAT p) 1 = false) (hb : s.busyPage p = true) :
    Runs (.quiesceRequest c p) s fun t => t.rd (R.PG_STAT p) = s.rd (R.PG_STAT p) ∧ t.bit (R.PG_CTL p) 1 = true ∧
      Kept s t (fun _ => False) ∧ SameMem s t := by
  obtain ⟨w, hw, e⟩ := exec_quiesceRequest ho h3 h0 hq
  rw [hb, if_pos rfl] at e
  have hs := State.workAgain_settle_shows (.inl hw.quiescing)
  refine ⟨_, e, ?_, ?_, hs.kept (hw.touches.kept fun _ hk => .inl hk.flag), hw.touches.mem.trans hs.mem⟩
  · exact (hs.header p (by decide) (by decide)).trans (hw.rest _ (pgStat_ne_pgCtl p p).symm)
  · rw [hs.ctl, hw.quiesce]

/-- A quiesce request of an enabled page is cleared: the block accepts work again (R38). -/
theorem quiesceClear_opens (hn : NothingWaits s p) :
    Runs (.quiesceClear c p) s fun t => t.bit (R.PG_CTL p) 1 = false ∧ t.bit (R.PG_STAT p) 1 = false ∧ t.present p = 3 ∧
      Kept s t (fun _ => False) ∧ SameMem s t := by
  obtain ⟨w, hw, e⟩ := State.ctlBit_enabled (i := 1) (b := false) ho (.inl h3) (by decide) h0
  have hwp : w.present p = 3 := hw.present.trans h3
  rw [State.setPresent_self hwp] at e
  obtain ⟨hv, hstat, hctl⟩ := State.quiesceSettle_open_spec (.inl hwp) hw.quiescing
  have ht := hw.touches.trans hv
  have hs := State.workAgain_settle_shows (.inr (ht.nothingWaits hn))
  refine ⟨_, e, ?_, ?_, ?_, hs.kept (ht.kept fun _ hk => .inl hk.flag), ht.mem.trans hs.mem⟩
  · rw [hs.ctl, State.bit_congr hctl, hw.quiesce, if_pos rfl]
  · rw [hs.stat, hstat]
  · rw [hs.present, hv.present (not_ctlReg_present p p), hwp]

end

/-- A quiesce request or a disable completes when the block's work has ended (R38, R39). -/
theorem quiesceComplete_ends {s : State} {p : Page} (ha : s.answers p = true) (h3 : s.present p = 3) (hq : s.quiescing p = true)
    (h1 : s.bit (R.PG_STAT p) 1 = false) (hb : s.busyPage p = false) :
    Runs (.quiesceComplete p) s fun t => t.fld (R.PG_STAT p) 1 0 = 3 ∧ t.bit (R.PG_IRQ_STAT p) 3 = true ∧
      t.present p = (if s.bit (R.PG_CTL p) 0 then 3 else 1) := by
  have e : (if s.answers p && s.quiescing p then s.quiesceSettle p else s) = s.quiesced p := by
    rw [ha, hq, Bool.and_true, if_pos rfl, State.quiesceSettle_asked (.inl h3) hq h1, hb, if_neg (by decide)]
  have hs (k : Nat) (hk : catReg k = false) : (s.quiesced p).settle.rd k = (s.quiesced p).rd k := State.settle_rd _ hk
  refine ⟨_, congrArg settled e, ?_, ?_, ?_⟩
  · rw [State.fld_congr (hs _ (catReg_header p (by decide) (by decide))), s.quiesced_stat]
  · rw [State.bit_congr (hs _ (catReg_header p (by decide) (by decide))), s.quiesced_irqStat]
  · rw [State.present, hs _ (catReg_header p (by decide) (by decide)), ← State.quiesced_present h3, State.present]

end Sys2Proof.Machine

namespace Sys2Proof

open Machine Safety

/-- Settles O8: PG_CTL takes the bit, and the end of the block's work or its acceptance of work follows. -/
theorem quiesceCompletesWhenWorkEnds : Obligations.QuiesceCompletesWhenWorkEnds :=
  fun _ _ _ => ⟨fun ho h3 => ⟨fun hq h0 => ⟨quiesceRequest_completes ho h3 h0 hq, quiesceRequest_waits ho h3 h0 hq⟩,
    fun hn h0 => quiesceClear_opens ho h3 h0 hn⟩, fun ha h3 hq h1 hb => quiesceComplete_ends ha h3 hq h1 hb⟩

end Sys2Proof
end

section
/-! What the reset of a block's inside leaves of the page headers: each page's presence, PG_CTL, PG_OWNER and PG_GUARD (R40). -/

namespace Sys2Proof.Machine

open Safety

/-- PG_PRESENT, PG_CTL, PG_OWNER and PG_GUARD of the pages, by their offsets (R36). -/
def idReg (k : Nat) : Prop := k % 0x10000 = 8 ∨ k % 0x10000 = 0xC ∨ k % 0x10000 = 0x20 ∨ k % 0x10000 = 0x24

theorem idReg_header (p : Nat) : idReg (R.PG_PRESENT p) ∧ idReg (R.PG_CTL p) ∧ idReg (R.PG_OWNER p) ∧ idReg (R.PG_GUARD p) := by
  simp only [idReg, R.PG_PRESENT, R.PG_CTL, R.PG_OWNER, R.PG_GUARD]
  omega

/-- No register of a block is among them. -/
theorem not_idReg {k : Nat} (h : 0x100 ≤ k % 0x10000) : ¬ idReg k := by
  simp only [idReg]
  omega

theorem not_idReg_pgStat (p : Nat) : ¬ idReg (R.PG_STAT p) := by
  simp only [idReg, R.PG_STAT]
  omega

theorem irqReg.not_id {k : Nat} (h : irqReg k) : ¬ idReg k := by
  simp only [irqReg, catReg, Bool.and_eq_true, decide_eq_true_eq] at h
  simp only [idReg]
  omega

theorem eventReg.not_id {p k : Nat} (h : eventReg p k) : ¬ idReg k := by
  rcases h with (h | h) | rfl | rfl | rfl
  · exact h.not_id
  · simp only [idReg]
    omega
  · simp only [idReg, R.PG_ERR]
    omega
  · exact not_idReg_pgStat p
  · simp only [idReg, R.SYS_ATTN]
    omega

/-- The pages' presence, PG_CTL, PG_OWNER and PG_GUARD stay. -/
def KeepsId (s t : State) : Prop := ∀ k, idReg k → t.rd k = s.rd k

/-! One rule per operation: it keeps what the state it starts from kept. -/

section
variable {s t : State}

theorem KeepsId.refl (s : State) : KeepsId s s := fun _ _ => rfl

theorem KeepsId.trans {u : State} (h : KeepsId s t) (h' : KeepsId t u) : KeepsId s u := fun k hk => (h' k hk).trans (h k hk)

theorem KeepsId.of_regs {u : State} (h : KeepsId s t) (e : u.regs = t.regs) : KeepsId s u :=
  h.trans fun k _ => State.rd_congr e k

theorem Touches.keepsId {S : Nat → Prop} (h : Touches S s t) (hS : ∀ k, S k → ¬ idReg k) : KeepsId s t :=
  fun k hk => h.rd k fun e => hS k e hk

theorem KeepsId.foldl {β : Type} (f : State → β → State) (hf : ∀ t b, KeepsId t (f t b)) (l : List β) (h : KeepsId s t) :
    KeepsId s (l.foldl f t) := by
  induction l generalizing t with
  | nil => exact h
  | cons b l ih => exact ih (h.trans (hf t b))

variable (h : KeepsId s t)
include h

theorem KeepsId.wr {k : Nat} (v : Nat) (hk : ¬ idReg k) : KeepsId s (t.wr k v) :=
  h.trans fun _ hk' => t.rd_wr_ne v fun e => hk (e ▸ hk')

theorem KeepsId.setBit {k : Nat} (i : Nat) (b : Bool) (hk : ¬ idReg k) : KeepsId s (t.setBit k i b) := h.wr _ hk

theorem KeepsId.setFld {k : Nat} (hi lo v : Nat) (hk : ¬ idReg k) : KeepsId s (t.setFld k hi lo v) := h.wr _ hk

theorem KeepsId.count {k : Nat} (n : Nat) (hk : ¬ idReg k) : KeepsId s (t.count k n) := h.wr _ hk

theorem KeepsId.countSat {k : Nat} (n : Nat) (hk : ¬ idReg k) : KeepsId s (t.countSat k n) := h.wr _ hk

theorem KeepsId.setIrq (p b c : Nat) : KeepsId s (t.setIrq p b c) :=
  h.trans ((t.setIrq_touches p b c).keepsId fun _ hk => hk.not_id)

theorem KeepsId.raise (p code : Nat) (client : Option Nat) (addr aux : Nat) : KeepsId s (t.raise p code client addr aux) :=
  h.trans ((t.raise_touches p code client addr aux).keepsId fun _ hk => hk.not_id)

theorem KeepsId.settle : KeepsId s t.settle := h.trans (t.settle_touches.keepsId fun _ hk => hk.not_id)

theorem KeepsId.setIdle (p : Nat) (idle : Bool) : KeepsId s (t.setIdle p idle) := by
  have h1 := h.setBit (k := R.PG_STAT p) 0 idle (not_idReg_pgStat p)
  unfold State.setIdle
  split
  · exact h
  · extract_lets s1
    split
    · exact h1.setIrq p 2 0
    · exact h1

theorem KeepsId.poisonSeen (p : Nat) : KeepsId s (t.poisonSeen p) :=
  ((h.setBit (k := R.PG_STAT p) 3 true (not_idReg_pgStat p)).trans
    ((State.irqBit_touches _ p 1 4).keepsId fun _ hk => hk.not_id)).settle

end

/-! Memory devices: the open merge entries are written (R194, R196 to R199). -/

/-- The registers of a memory device that its accesses change. -/
theorem not_idReg_mem (p : Nat) : ¬ idReg (R.MEM_STAT p) ∧ ¬ idReg (R.MEM_CORR1 p) ∧ ¬ idReg (R.MEM_CORR2 p) ∧
    ¬ idReg (R.MEM_UNCORR p) ∧ ¬ idReg (R.MEM_ADDRERR p) ∧ ¬ idReg (R.MEM_LAST_ADDR p) ∧ ¬ idReg (R.MEM_LAST_SYN p) ∧
    ¬ idReg (R.MEM_MRG p) ∧ ¬ idReg (R.MEM_RMW p) := by
  simp only [idReg, R.MEM_STAT, R.MEM_CORR1, R.MEM_CORR2, R.MEM_UNCORR, R.MEM_ADDRERR, R.MEM_LAST_ADDR, R.MEM_LAST_SYN, R.MEM_MRG,
    R.MEM_RMW]
  omega

theorem KeepsId.bankCount {s t : State} (h : KeepsId s t) (d bank : Nat) (bad : Bool) : KeepsId s (t.bankCount d bank bad) :=
  h.of_regs rfl

theorem State.eccEvent_keepsId (s : State) (d addr bank : Nat) (k : EccClass) (syn : Nat × Bool) :
    KeepsId s (s.eccEvent d addr bank k syn) := by
  obtain ⟨-, h1, h2, hu, ha, hla, hls, -, -⟩ := not_idReg_mem (pageDev d)
  have h := KeepsId.refl s
  unfold State.eccEvent
  cases k with
  | clean => exact h
  | single _ => exact (((h.count 1 h1).bankCount d bank false).setIrq _ _ _).raise _ _ _ _ _
  | double _ _ => exact (((h.count 1 h2).bankCount d bank false).setIrq _ _ _).raise _ _ _ _ _
  | uncorrectable =>
    exact (((((h.countSat 1 hu).wr _ hla).wr _ hls).bankCount d bank true).setIrq _ _ _).poisonSeen _ |>.raise _ _ _ _ _
  | address =>
    exact (((((h.countSat 1 ha).wr _ hla).wr _ hls).bankCount d bank true).setIrq _ _ _).poisonSeen _ |>.raise _ _ _ _ _

theorem State.deviceDead_keepsId (s : State) (d addr : Nat) : KeepsId s (s.deviceDead d addr) := by
  obtain ⟨hs, -⟩ := not_idReg_mem (pageDev d)
  unfold State.deviceDead
  exact ((((KeepsId.refl s).setBit 2 true hs).setIrq _ _ _).poisonSeen _).raise _ _ _ _ _

theorem State.setDevWord_regs (s : State) (d addr : Nat) (w : BitVec 80) : (s.setDevWord d addr w).regs = s.regs := rfl

/-- The write-back of a corrected word, left out while a merge entry is open. -/
theorem KeepsId.correct {s t : State} (h : KeepsId s t) (open_ : Bool) (d addr : Nat) (w : BitVec 80) :
    KeepsId s (if open_ then t else t.setDevWord d addr w) := by
  split
  · exact h
  · exact h.of_regs (t.setDevWord_regs d addr w)

theorem State.demandRead_keepsId (s : State) (d addr : Nat) (f : WordFault) : KeepsId s (s.demandRead d addr f).2.2.2 := by
  have h (k syn) : KeepsId s (s.eccEvent d addr f.bank k syn) := s.eccEvent_keepsId d addr f.bank k syn
  -- Any classification will do, and the kernel does not come to evaluate this one.
  obtain ⟨classify, hc⟩ : ∃ classify, bchClassify = classify := ⟨_, rfl⟩
  unfold State.demandRead
  rw [hc]
  split
  · dsimp only
    exact s.deviceDead_keepsId d addr
  · dsimp only
    split
    · exact h _ _
    · exact (h _ _).correct _ _ _ _
    · exact (h _ _).correct _ _ _ _
    · exact (h _ _).correct _ _ _ _

theorem State.poisonSet_regs (s : State) (h w : Nat) (p : Bool) : (s.poisonSet h w p).regs = s.regs := rfl

theorem State.flushWord_keepsId (s : State) (d block : Nat) (e : MergeEntry) (faults : List (Nat × WordFault)) (k : Nat) :
    KeepsId s (s.flushWord d block e faults k) := by
  unfold State.flushWord
  extract_lets en by_ addr f
  split
  · exact (KeepsId.refl s).of_regs (State.setDevWord_regs _ _ _ _)
  · split
    · obtain ⟨-, -, -, -, -, -, -, -, hm⟩ := not_idReg_mem (pageDev d)
      have h := s.demandRead_keepsId d addr f
      generalize s.demandRead d addr f = r at h ⊢
      obtain ⟨old, poison, x, s1⟩ := r
      dsimp only at h ⊢
      have h2 (w) : KeepsId s ((s1.count (R.MEM_RMW (pageDev d)) 1).setDevWord d addr w) :=
        (h.count 1 hm).of_regs (State.setDevWord_regs _ _ _ _)
      split
      · exact (h2 _).of_regs (State.poisonSet_regs _ _ _ _)
      · exact h2 _
    · exact .refl s

theorem State.flushEntry_keepsId (s : State) (d block : Nat) (faults : List (Nat × WordFault)) :
    KeepsId s (s.flushEntry d block faults) := by
  unfold State.flushEntry
  split
  · exact .refl s
  · next e _ =>
    obtain ⟨-, -, -, -, -, -, -, hm, -⟩ := not_idReg_mem (pageDev d)
    refine KeepsId.wr (KeepsId.foldl _ (fun t k => t.flushWord_keepsId d block e faults k) (List.range 8) ?_) _ hm
    exact (KeepsId.refl s).of_regs rfl

theorem State.resetMem_keepsId (s : State) (d : Nat) : KeepsId s (s.resetMem d) := by
  unfold State.resetMem
  extract_lets mine s1
  have h : KeepsId s s1 := KeepsId.foldl _ (fun t _ => by
    split
    · exact t.flushEntry_keepsId d _ []
    · exact .refl t) _ (.refl s)
  exact h.of_regs rfl

/-! The security unit: a hold and a diagnostic unlock end (R478, R481). -/

theorem State.wake_regs (s : State) (r : Nat) : (s.wake r).regs = s.regs := by
  unfold State.wake
  extract_lets u
  split
  · rfl
  · split
    · rfl
    · split
      · rfl
      · rfl

theorem KeepsId.wake {s t : State} (h : KeepsId s t) (r : Nat) : KeepsId s (t.wake r) := h.of_regs (t.wake_regs r)

/-- The registers of a lane row that the end of a step changes. -/
theorem not_idReg_row (r : Nat) : ¬ idReg (R.ROW_STAT r) ∧ ¬ idReg (R.ROW_CTX r) ∧ ¬ idReg (R.ROW_CYC_BUSY r) ∧
    ¬ idReg (R.ROW_CYC_STARVE r) := by
  simp only [idReg, R.ROW_STAT, R.ROW_CTX, R.ROW_CYC_BUSY, R.ROW_CYC_STARVE]
  omega

theorem State.applyMap_keepsId (s : State) (m : KV Nat) : KeepsId s (s.applyMap m) := by
  unfold State.applyMap
  refine KeepsId.setIrq (KeepsId.foldl _ (fun t r => ?_) _ ?_) _ _ _
  · have h := (KeepsId.refl t).setBit 2 (kvFind m r).isSome (not_idReg_row r).1
    dsimp only
    split
    · exact h.wake r
    · exact h
  · exact (KeepsId.refl s).of_regs rfl

theorem State.applyEndpoint_regs (s : State) (e : Nat) (new : Endpoint) : (s.applyEndpoint e new).regs = s.regs := by
  unfold State.applyEndpoint
  extract_lets old kept
  split
  · rfl
  · rfl

theorem State.takeEffect_keepsId (s : State) : KeepsId s s.takeEffect := by
  unfold State.takeEffect
  split
  · exact .refl s
  · extract_lets s1 s2
    have h1 : KeepsId s s1 := (KeepsId.refl s).of_regs rfl
    have h2 : KeepsId s s2 := by
      simp only [s2]
      split
      · exact h1.trans (s1.applyMap_keepsId _)
      · exact h1
    refine KeepsId.setIrq (KeepsId.wr (KeepsId.count (KeepsId.foldl _ (fun t e => ?_) _ ?_) 1 ?_) _ ?_) _ _ _
    · exact (KeepsId.refl t).of_regs (t.applyEndpoint_regs e.1 e.2)
    · exact h2.of_regs rfl
    · exact not_idReg (by decide)
    · exact not_idReg (by decide)

theorem State.endHold_keepsId (s : State) : KeepsId s s.endHold := by
  unfold State.endHold
  split
  · have h : KeepsId s ((s.wr R.SEC_RIGHTS_CTL 0).setBit R.SEC_STAT 4 false) :=
      ((KeepsId.refl s).wr 0 (not_idReg (by decide))).setBit 4 false (not_idReg (by decide))
    unfold State.settleRights
    split
    · exact h
    · exact h.trans (State.takeEffect_keepsId _)
  · exact .refl s

theorem State.lockDiag_keepsId (s : State) : KeepsId s s.lockDiag := by
  unfold State.lockDiag
  split
  · refine KeepsId.raise (KeepsId.setIrq (KeepsId.setBit ?_ 2 false (not_idReg (by decide))) _ _ _) _ _ _ _ _
    exact (KeepsId.refl s).of_regs rfl
  · exact .refl s

theorem State.resetSec_keepsId (s : State) : KeepsId s s.resetSec :=
  (s.endHold_keepsId.trans s.endHold.lockDiag_keepsId).of_regs rfl

/-! DET: the replays go (R264, R268). -/

theorem State.waitOver_keepsId (s : State) (x : Run) : KeepsId s (s.waitOver x) := by
  unfold State.waitOver
  split
  · next r _ _ => exact (KeepsId.refl s).count _ (not_idReg_row r).2.2.2
  · exact .refl s

theorem State.runCharge_regs (s : State) (rn i n : Nat) : (s.runCharge rn i n).regs = s.regs := by
  unfold State.runCharge
  split
  · rfl
  · rfl

theorem State.repairBy_keepsId (s : State) (c old new : Nat) : KeepsId s (s.repairBy c old new) := by
  unfold State.repairBy
  refine KeepsId.setIrq (KeepsId.wake (KeepsId.setBit (KeepsId.setBit ?_ 2 false (not_idReg_row old).1) 2 true (not_idReg_row new).1) new)
    _ _ _
  exact (KeepsId.refl s).of_regs rfl

theorem State.repairAtEnd_keepsId (s : State) (rows : List Nat) : KeepsId s (s.repairAtEnd rows) :=
  KeepsId.foldl _ (fun t d => by
    split
    · exact t.repairBy_keepsId _ _ _
    · exact .refl t) _ (.refl s)

theorem State.endStep_keepsId (s : State) (rn : Nat) (x : Run) : KeepsId s (s.endStep rn x) := by
  have he : ¬ idReg (R.ACC_ENG_ROW x.client) := by
    simp only [idReg, R.ACC_ENG_ROW]
    omega
  unfold State.endStep
  refine KeepsId.trans (KeepsId.of_regs (KeepsId.count (KeepsId.foldl _ (fun t r => ?_) _ (s.waitOver_keepsId x)) _ he)
    (State.runCharge_regs _ _ _ _)) (State.repairAtEnd_keepsId _ _)
  obtain ⟨hs, hc, hb, -⟩ := not_idReg_row r
  exact (((((KeepsId.refl t).setBit 3 false hs).setBit 31 false hc).count _ hb).of_regs (State.setRow_regs _ _ _)).setIdle _ _

theorem State.tierShow_keepsId (s : State) : KeepsId s s.tierShow := by
  have hk : ¬ idReg R.TIER_STAT := not_idReg (by decide)
  unfold State.tierShow
  exact (((((KeepsId.refl s).setBit _ _ hk).setBit _ _ hk).setFld _ _ _ hk).setFld _ _ _ hk).setIdle _ _

theorem State.dropOfRun_keepsId (s : State) (rn : Nat) : KeepsId s (s.dropOfRun rn) := by
  unfold State.dropOfRun State.dropTransfers
  refine KeepsId.trans ?_ (State.tierShow_keepsId _)
  exact (KeepsId.refl s).of_regs rfl

theorem State.setCol_keepsId (s : State) (n : Nat) (u : ColUnit) : KeepsId s (s.setCol n u) := by
  unfold State.setCol
  refine KeepsId.setIdle (KeepsId.wr ?_ _ (not_idReg (by simp only [R.COL_STAT]; omega))) _ _
  exact (KeepsId.refl s).of_regs rfl

theorem State.colDrop_keepsId (s : State) (rn : Nat) : KeepsId s (s.colDrop rn) :=
  KeepsId.foldl _ (fun t e => by
    split
    · exact t.setCol_keepsId _ _
    · exact .refl t) _ (.refl s)

theorem State.setChan_keepsId (s : State) (ch : Nat) (u : ChanUnit) : KeepsId s (s.setChan ch u) := by
  unfold State.setChan
  refine KeepsId.setIdle (KeepsId.setFld ?_ _ _ _ (not_idReg (by simp only [R.CHN_STAT]; omega))) _ _
  exact (KeepsId.refl s).of_regs rfl

theorem State.dropJobs_keepsId (s : State) (rn : Nat) : KeepsId s (s.dropJobs rn) := by
  unfold State.dropJobs
  refine KeepsId.of_regs (t := s.search.engines.foldl _ s) (KeepsId.foldl _ (fun t e => ?_) _ (.refl s)) rfl
  split
  · refine KeepsId.trans ?_ (State.setChan_keepsId _ _ _)
    exact (KeepsId.refl t).of_regs rfl
  · exact .refl t

theorem State.windowBack_regs (s : State) (x : Run) : (s.windowBack x).regs = s.regs := by
  unfold State.windowBack
  split
  · rfl
  · rfl

theorem State.giveUp_keepsId (s : State) (rn : Nat) (x : Run) : KeepsId s (s.giveUp rn x) :=
  (((s.dropOfRun_keepsId rn).trans (State.colDrop_keepsId _ rn)).trans (State.dropJobs_keepsId _ rn)).of_regs (State.windowBack_regs _ x)

theorem State.leaveRun_regs (s : State) (x : Nat) : (s.leaveRun x).regs = s.regs := by
  unfold State.leaveRun
  split
  · rfl
  · rfl

theorem State.runOver_keepsId (s : State) (rn : Nat) : KeepsId s (s.runOver rn) := by
  unfold State.runOver
  split
  · exact .refl s
  · next x _ =>
    extract_lets s1 s2
    have h : KeepsId s s2 := by
      refine KeepsId.foldl _ (fun t m => ?_) _ (s.giveUp_keepsId rn x)
      exact (KeepsId.refl t).of_regs (t.leaveRun_regs m.ctx)
    split
    · refine KeepsId.foldl _ (fun t p => (KeepsId.refl t).setIdle p _) _ ?_
      exact h.of_regs (State.setRun_regs _ _ _)
    · exact h

theorem State.discardLandings_regs (s : State) (rn : Nat) : (s.discardLandings rn).regs = s.regs := rfl

theorem State.drLeave_keepsId (s : State) (rn : Nat) : KeepsId s (s.drLeave rn) := by
  unfold State.drLeave
  split
  · exact .refl s
  · next x _ =>
    extract_lets s1
    have h0 : KeepsId s (if x.phase.working then s.endStep rn x else s) := by
      split
      · exact s.endStep_keepsId rn x
      · exact .refl s
    have h : KeepsId s s1 := (h0.trans (State.runOver_keepsId _ rn)).of_regs (State.discardLandings_regs _ rn)
    split
    · exact h.of_regs (State.setRun_regs _ _ _)
    · exact h

theorem State.resetDet_keepsId (s : State) : KeepsId s s.resetDet := by
  unfold State.resetDet
  extract_lets s1
  have h : KeepsId s s1 := by
    refine KeepsId.foldl _ (fun t e => ?_) _ (.refl s)
    exact t.drLeave_keepsId e.1
  exact h.of_regs rfl

/-- The reset of a block's inside leaves every page's presence, PG_CTL, PG_OWNER and PG_GUARD (R40). -/
theorem State.resetInside_keepsId (s : State) (p : Nat) : KeepsId s (s.resetInside p) := by
  have h := KeepsId.refl s
  unfold State.resetInside
  split
  · exact h.of_regs rfl
  · exact h.of_regs rfl
  · exact h.of_regs rfl
  · exact h.of_regs rfl
  · exact s.resetDet_keepsId
  · exact h.of_regs rfl
  · exact s.resetSec_keepsId
  · exact h.of_regs rfl
  · exact s.resetMem_keepsId _
  · exact s.resetMem_keepsId _
  · exact h.of_regs rfl
  · exact h.of_regs rfl
  · exact h.of_regs rfl
  · exact h.of_regs rfl
  · exact h.of_regs rfl
  · exact h

end Sys2Proof.Machine
end

section
/-! BLOCK_RESET (R40). -/

namespace Sys2Proof.Machine

open Safety

/-! The registers of the page. -/

theorem State.dropRegs_rd (s : State) (d : Nat → Bool) (k : Nat) :
    (s.dropRegs d).rd k = if d k then (regDefault k).toNat else s.rd k := by
  rw [State.rd, State.dropRegs, kvFind_filter s.regs (fun k => !d k) k]
  cases d k with
  | true => rfl
  | false => rfl

/-- The registers that a block reset of page p drops (R40). -/
def resetDrops (p k : Nat) : Bool := pageOfKey k = p && !blockKeeps (typeCode p) (k % 0x10000)

theorem resetDrops_page (p : Page) {o : Nat} (h : o < 0x10000) : resetDrops p (p * 0x10000 + o) = !blockKeeps (typeCode p) o := by
  have hp : pageOfKey (p * 0x10000 + o) = p := by
    simp only [pageOfKey, bankStep]
    omega
  rw [resetDrops, hp, show (p.val * 0x10000 + o) % 0x10000 = o by omega, decide_eq_true rfl, Bool.true_and]

/-- The registers go to their reset values but for those kept, and then the block shows itself quiesced (R40). -/
theorem State.resetRegs_eq (s : State) (p : Nat) :
    ∃ t : State, (∀ k, t.rd k = if resetDrops p k then (regDefault k).toNat else s.rd k) ∧
      s.resetRegs p = (t.setBit (R.PG_CTL p) 1 true).setFld (R.PG_STAT p) 1 0 3 := by
  unfold State.resetRegs
  refine ⟨_, fun k => ?_, rfl⟩
  rw [← s.dropRegs_rd (resetDrops p) k]
  exact State.rd_congr rfl k

/-- A register of the page's own after its registers have gone to their reset values (R40). -/
theorem State.resetRegs_rd (s : State) (p : Page) {o : Nat} (h : o < 0x10000) (hc : o ≠ 0xC) (hs : o ≠ 0x10) :
    (s.resetRegs p).rd (p * 0x10000 + o) =
      if blockKeeps (typeCode p) o then s.rd (p * 0x10000 + o) else (regDefault (p * 0x10000 + o)).toNat := by
  obtain ⟨t, ht, e⟩ := s.resetRegs_eq p
  rw [e, State.rd_setFld_ne _ _ _ _ (by simp only [R.PG_STAT]; omega), State.rd_setBit_ne _ _ _ (by simp only [R.PG_CTL]; omega), ht,
    resetDrops_page p h]
  cases blockKeeps (typeCode p) o with
  | true => rfl
  | false => rfl

/-- PG_CTL keeps its enable and asks for quiesce (R40). -/
theorem State.resetRegs_ctl (s : State) (p : Page) (j : Nat) :
    (s.resetRegs p).bit (R.PG_CTL p) j = if j = 1 then true else s.bit (R.PG_CTL p) j := by
  have hk : resetDrops p (R.PG_CTL p) = false := by
    rw [R.PG_CTL, resetDrops_page p (by decide)]
    simp [blockKeeps]
  obtain ⟨t, ht, e⟩ := s.resetRegs_eq p
  have htc : t.rd (R.PG_CTL p) = s.rd (R.PG_CTL p) := (ht _).trans (by rw [hk, if_neg (by decide)])
  rw [e, State.bit_congr (State.rd_setFld_ne _ _ _ _ (pgStat_ne_pgCtl p p).symm), State.bit_setBit _ _ _ _ _ _ (by decide),
    State.bit_congr htc]
  simp only [true_and, eq_comm]

/-- The block is idle and quiesced (R40). -/
theorem State.resetRegs_stat (s : State) (p : Nat) : (s.resetRegs p).fld (R.PG_STAT p) 1 0 = 3 :=
  State.fld_setFld _ _ _ _ _ (by decide) (by decide)

/-- The page's presence, owner and guard stay (R40). -/
theorem State.resetRegs_id (s : State) (p : Page) : (s.resetRegs p).present p = s.present p ∧
    (s.resetRegs p).rd (R.PG_OWNER p) = s.rd (R.PG_OWNER p) ∧ (s.resetRegs p).rd (R.PG_GUARD p) = s.rd (R.PG_GUARD p) := by
  have hk : blockKeeps (typeCode p) 8 = true ∧ blockKeeps (typeCode p) 0x20 = true ∧ blockKeeps (typeCode p) 0x24 = true := by
    simp [blockKeeps]
  obtain ⟨h8, h20, h24⟩ := hk
  refine ⟨?_, ?_, ?_⟩
  · rw [State.present, State.present, R.PG_PRESENT, s.resetRegs_rd p (by decide) (by decide) (by decide), h8, if_pos rfl]
  · rw [R.PG_OWNER, s.resetRegs_rd p (by decide) (by decide) (by decide), h20, if_pos rfl]
  · rw [R.PG_GUARD, s.resetRegs_rd p (by decide) (by decide) (by decide), h24, if_pos rfl]

/-! The reset. -/

/-- The block sets no register anew after its reset and is not QNT, whose reset a step that holds it refuses (R40, R148). -/
def PlainReset (p : Nat) : Prop := typeCode p ∉ [0x04, 0x05, 0x06, 0x30, 0x31, 0x32, 0x40]

theorem State.resetAfter_of_plain (s : State) {p : Nat} (h : PlainReset p) : s.resetAfter p = s := by
  simp only [PlainReset, List.mem_cons, List.not_mem_nil, or_false, not_or] at h
  obtain ⟨h4, h5, h6, h30, h31, -, h40⟩ := h
  unfold State.resetAfter
  split
  · exact absurd ‹_› h4
  · exact absurd ‹_› h5
  · exact absurd ‹_› h6
  · exact absurd ‹_› h30
  · exact absurd ‹_› h31
  · exact absurd ‹_› h40
  · rfl

theorem PlainReset.ne {p : Nat} (h : PlainReset p) : p ≠ pageQnt ∧ p ≠ pageIrq := by
  constructor
  · rintro rfl
    exact h (by decide)
  · rintro rfl
    exact h (by decide)

/-- The reset of a quiesced block without registers set anew (R40). -/
theorem State.blockReset_of_quiet {s : State} {c p : Nat} (h : PlainReset p) (hq : s.bit (R.PG_STAT p) 1 = true) :
    s.blockReset c p = ((s.resetInside p).resetRegs p).settle := by
  have hp : decide (p = pageQnt) = false := decide_eq_false h.ne.1
  rw [State.blockReset, hq, hp, State.resetAfter_of_plain _ h]
  rfl

section
variable {s : State} {c : Client} {p : Page} (ho : Open s c p) (h3 : s.present p = 3)
include ho h3

/-- BLOCK_RESET of a quiesced enabled page: its PG_CTL asks for quiesce, and the block resets (R40). -/
theorem exec_blockReset_quiet (hq : s.bit (R.PG_STAT p) 1 = true) (h0 : s.bit (R.PG_CTL p) 0 = true) :
    ∃ w, CtlTaken p true true s w ∧ exec (.blockReset c p) s = settled (w.blockReset c p) := by
  obtain ⟨u, new, hu, e, hn⟩ := State.command_pgCtl (i := 2) (b := true) (fun t new raw => t.ctlWrite c p new raw) ho (by decide)
  have hbit (j : Nat) : (putBits new 1 1 1).testBit j = if j = 1 then true else new.testBit j := testBit_replaceBit new 1 j true
  have hw := State.putCtl_taken hu p (putBits new 1 1 1)
  rw [hbit, hbit, if_pos rfl, if_neg (by decide), hn 0 (by decide), if_neg (by decide), h0] at hw
  have hwp := hw.present.trans h3
  have hctl : u.ctlWrite c p new (putBits (s.rd (R.PG_CTL p)) 2 2 true.toNat) =
      (u.pageCtl p (putBits new 1 1 1)).blockReset c p := by
    simp only [State.ctlWrite, testBit_replaceBit, hu.present, h3, hu.bit, hq, Bool.true_and, decide_true, Bool.true_or, if_true]
  refine ⟨_, hw, (s.writePage_of_answers c _ ho.2.1).trans (congrArg settled ?_)⟩
  refine e.trans ?_
  rw [hctl, State.pageCtl_enabled (.inl (by rwa [hu.present])) (by rw [hbit, if_neg (by decide), hn 0 (by decide)]; exact h0),
    State.setPresent_self hwp, State.quiesceSettle_quiet (.inl hwp) (by rw [hw.stat, hq]) hw.enable hw.quiescing]

/-- A block reset clears the block's registers that are not kept, and keeps the page's place in the module (R40). -/
theorem blockReset_resets (hq : s.bit (R.PG_STAT p) 1 = true) (h0 : s.bit (R.PG_CTL p) 0 = true) (hp : PlainReset p) :
    Runs (.blockReset c p) s fun t => (∀ o, 0x100 ≤ o → o < 0x10000 → blockKeeps (typeCode p) o = false →
        t.rd (p * 0x10000 + o) = (regDefault (p * 0x10000 + o)).toNat) ∧
      t.present p = 3 ∧ t.rd (R.PG_OWNER p) = s.rd (R.PG_OWNER p) ∧ t.rd (R.PG_GUARD p) = s.rd (R.PG_GUARD p) ∧
      t.fld (R.PG_STAT p) 1 0 = 3 ∧ t.bit (R.PG_CTL p) 1 = true ∧ t.bit (R.PG_CTL p) 0 = true := by
  obtain ⟨w, hw, e⟩ := exec_blockReset_quiet ho h3 hq h0
  rw [State.blockReset_of_quiet hp ((hw.stat 1).trans hq)] at e
  have hin := w.resetInside_keepsId p
  obtain ⟨hpr, -, hown, hgrd⟩ := idReg_header p
  obtain ⟨kp, kown, kgrd⟩ := (w.resetInside p).resetRegs_id p
  have ht (k : Nat) (hk : catReg k = false) :
      ((w.resetInside p).resetRegs p).settle.settle.rd k = ((w.resetInside p).resetRegs p).rd k :=
    (State.settle_rd _ hk).trans (State.settle_rd _ hk)
  have hhead {o : Nat} (h : 0 < o) (h' : o < 0x100) := ht (p * 0x10000 + o) (catReg_header p h h')
  have hctl (j : Nat) (hj : j ≠ 1) : ((w.resetInside p).resetRegs p).bit (R.PG_CTL p) j = w.bit (R.PG_CTL p) j := by
    rw [State.resetRegs_ctl, if_neg hj, State.bit_congr (hin _ (idReg_header p).2.1)]
  refine ⟨_, e, fun o h1 h2 hd => ?_, ?_, ?_, ?_, ?_, ?_, ?_⟩
  · have hcat : catReg (p * 0x10000 + o) = false := by
      have := hp.ne.2
      simp only [pageIrq] at this
      simp only [catReg, Bool.and_eq_false_iff, decide_eq_false_iff_not]
      omega
    rw [ht _ hcat, State.resetRegs_rd _ p h2 (by omega) (by omega), hd, if_neg (by decide)]
  · rw [State.present, hhead (by decide) (by decide), ← State.present, kp, State.present, hin _ hpr, ← State.present, hw.present, h3]
  · rw [hhead (by decide) (by decide), kown, hin _ hown, hw.rest _ (by simp only [R.PG_OWNER, R.PG_CTL]; omega)]
  · rw [hhead (by decide) (by decide), kgrd, hin _ hgrd, hw.rest _ (by simp only [R.PG_GUARD, R.PG_CTL]; omega)]
  · rw [State.fld_congr (hhead (by decide) (by decide)), State.resetRegs_stat]
  · rw [State.bit_congr (hhead (by decide) (by decide)), State.resetRegs_ctl, if_pos rfl]
  · rw [State.bit_congr (hhead (by decide) (by decide)), hctl 0 (by decide), hw.enable]

/-- BLOCK_RESET of a page that is not quiesced is refused with event 0x1004 (R40, R44). -/
theorem blockReset_refused (hn : NothingWaits s p) (hq : s.bit (R.PG_STAT p) 1 = false) (ha : s.quiescing p = false) :
    Runs (.blockReset c p) s fun t => AccessTold s t 0x1004 c (R.PG_CTL p) ∧ SameMem s t := by
  obtain ⟨h1, h0⟩ : s.bit (R.PG_CTL p) 1 = false ∧ s.bit (R.PG_CTL p) 0 = true := by
    simpa only [State.quiescing, Bool.or_eq_false_iff, Bool.not_eq_false'] using ha
  obtain ⟨u, new, hu, e, hnew⟩ := State.command_pgCtl (i := 2) (b := true) (fun t new raw => t.ctlWrite c p new raw) ho (by decide)
  have hw := State.putCtl_taken hu p new
  have hn0 : new.testBit 0 = true := (hnew 0 (by decide)).trans h0
  rw [hn0, (hnew 1 (by decide)).trans h1] at hw
  have hwp := hw.present.trans h3
  have hctl : u.ctlWrite c p new (putBits (s.rd (R.PG_CTL p)) 2 2 true.toNat) =
      (((u.putCtl p new).quiesceSettle p).workAgain p).accessEvent 0x1004 c (R.PG_CTL p) := by
    simp only [State.ctlWrite, testBit_replaceBit, hu.present, h3, hu.bit, hq, Bool.true_and, decide_true, Bool.true_or, if_true,
      Bool.false_eq_true, if_false, State.pageCtl_enabled (s := u) (.inl (by rwa [hu.present])) hn0, State.setPresent_self hwp]
  obtain ⟨hv, -, -⟩ := State.quiesceSettle_open_spec (.inl hwp) hw.quiescing
  have ht := hw.touches.trans hv
  obtain ⟨hr, hm⟩ := State.workAgain_shows (.inr (ht.nothingWaits hn))
  refine ⟨_, (s.writePage_of_answers c _ ho.2.1).trans (congrArg settled (e.trans hctl)), ?_, ?_⟩
  · exact State.accessEvent_told (fun k hk => (State.rd_congr hr k).trans (ht.flagRd (fun _ => ctlReg.flag) hk)) c.isLt
      (by simp only [R.PG_CTL]; omega) (by decide) fun k hk => State.settle_rd _ hk
  · exact ((ht.mem.trans hm).trans (State.accessEvent_touches _ _ _ _).mem).trans (State.settle_sameMem _)

end

end Sys2Proof.Machine

namespace Sys2Proof

open Machine Safety

/-- Settles O9: what a block holds inside leaves the page headers, its registers go to their reset values, and a block at work refuses. -/
theorem blockResetClearsAndKeeps : Obligations.BlockResetClearsAndKeeps := by
  refine fun s c p ho h3 => ⟨fun hq h0 hp => blockReset_resets ho h3 hq h0 hp, fun hn hq ha => ?_⟩
  obtain ⟨t, e, ⟨hlast, herr, hkept⟩, hm⟩ := blockReset_refused ho h3 hn hq ha
  exact ⟨t, e, herr, hlast, hkept, hm⟩

end Sys2Proof
end

section
/-! Frames of the timebase and the measures: which bits of which registers an operation can change beside what events change, with the
memories left as they are (R53, R557). -/

namespace Sys2Proof.Machine

open Safety

/-- What a command keeps of registers and memories, when p names the registers that it may change. -/
def Within (p : Nat → Prop) (s t : State) : Prop := Kept s t p ∧ SameMem s t

/-- All that a change of the register bits in S can do beside what events do: every other bit of the registers stays, and the memories. -/
structure Alters (S : Nat → Nat → Prop) (s t : State) : Prop where
  bit : ∀ k i, flagReg k = false → ¬ S k i → t.bit k i = s.bit k i
  mem : SameMem s t

section
variable {S S' : Nat → Nat → Prop} {s t u : State}

theorem Alters.refl (S : Nat → Nat → Prop) (s : State) : Alters S s s := ⟨fun _ _ _ _ => rfl, .refl s⟩

theorem Alters.trans (h : Alters S s t) (h' : Alters S t u) : Alters S s u :=
  ⟨fun k i hf hk => (h'.bit k i hf hk).trans (h.bit k i hf hk), h.mem.trans h'.mem⟩

theorem Alters.mono (h : Alters S s t) (hS : ∀ k i, S k i → S' k i) : Alters S' s t :=
  ⟨fun k i hf hk => h.bit k i hf fun e => hk (hS k i e), h.mem⟩

theorem Alters.foldl {β : Type} (f : State → β → State) (hf : ∀ t b, Alters S t (f t b)) (l : List β) (s : State) :
    Alters S s (l.foldl f s) := by
  induction l generalizing s with
  | nil => exact .refl S s
  | cons b l ih => exact (hf s b).trans (ih _)

theorem Alters.of_flags (h : FlagsOnly s t) : Alters S s t := ⟨fun _ i hf _ => h.bit hf i, h.sameMem⟩

theorem Alters.of_regs (h : t.regs = s.regs) (hm : SameMem s t) : Alters S s t :=
  ⟨fun k i _ _ => State.bit_congr (State.rd_congr h k) i, hm⟩

theorem Alters.of_held (h : HeldOnly s t) : Alters S s t := .of_regs h.regs (h.touches irqReg).mem

theorem Alters.of_nor (h : NorOnly s t) (hS : ∀ k i, norReg k → S k i) : Alters S s t := by
  obtain ⟨_, _, _, _, _, _, _, _, _, _, _, rfl, hr, -⟩ := h
  exact ⟨fun k i hf hk => State.bit_congr (hr k hf fun e => hk (hS k i e)) i, rfl, rfl, rfl, rfl⟩

theorem State.wr_alters (s : State) {k : Nat} (v : Nat) (h : ∀ i, S k i) : Alters S s (s.wr k v) :=
  ⟨fun _ i _ hk => State.bit_congr (s.rd_wr_ne v fun e => hk (by rw [← e]; exact h i)) i, s.wr_sameMem k v⟩

theorem State.setFld_alters (s : State) {k hi lo : Nat} (v : Nat) (hl : lo ≤ hi) (h : ∀ i, lo ≤ i → i ≤ hi → S k i) :
    Alters S s (s.setFld k hi lo v) := by
  refine ⟨fun k' i _ hk => ?_, s.wr_sameMem k _⟩
  by_cases e : k = k'
  · subst e
    have hi' : ¬ (lo ≤ i ∧ i ≤ hi) := fun hi' => hk (h i hi'.1 hi'.2)
    simp only [State.bit, State.setFld, State.rd_wr, if_true, Nat.testBit_mod_two_pow, testBit_putBits _ _ _ _ _ hl, hi', if_false]
    by_cases h64 : i < 64
    · simp [h64]
    · have : (s.rd k).testBit i = false :=
        testBit_lt_two_pow (Nat.lt_of_lt_of_le (s.rd_lt k) (Nat.pow_le_pow_right (by decide) (Nat.not_lt.mp h64)))
      simp [this]
  · exact State.bit_congr (State.rd_setFld_ne s _ _ _ e) i

theorem State.setBit_alters (s : State) {k i : Nat} (b : Bool) (h : S k i) : Alters S s (s.setBit k i b) :=
  s.setFld_alters b.toNat (Nat.le_refl i) fun _ h1 h2 => Nat.le_antisymm h2 h1 ▸ h

theorem State.setIrq_alters (s : State) (p b c : Nat) : Alters S s (s.setIrq p b c) := .of_flags (s.setIrq_flags p b c)

theorem State.raise_alters (s : State) (p code : Nat) (client : Option Nat) (addr aux : Nat) :
    Alters S s (s.raise p code client addr aux) := .of_flags (s.raise_flags p code client addr aux)

theorem State.settle_alters (s : State) : Alters S s s.settle := .of_flags s.settle_only.flags

theorem State.emit_alters (s : State) (o : Output) : Alters S s (s.emit o) := .of_regs (s.emit_regs o) ⟨rfl, rfl, rfl, rfl⟩

variable (h : Alters S s t)
include h

theorem Alters.rd {k : Nat} (hf : flagReg k = false) (hk : ∀ i, ¬ S k i) : t.rd k = s.rd k :=
  Nat.eq_of_testBit_eq fun i => h.bit k i hf (hk i)

theorem Alters.fld {k hi lo : Nat} (hf : flagReg k = false) (hk : ∀ i, lo ≤ i → i ≤ hi → ¬ S k i) :
    t.fld k hi lo = s.fld k hi lo := by
  refine Nat.eq_of_testBit_eq fun i => ?_
  simp only [State.fld, bits, Nat.testBit_mod_two_pow, Nat.testBit_div_two_pow]
  by_cases hi' : i < hi + 1 - lo
  · have e := h.bit k (i + lo) hf (hk _ (by omega) (by omega))
    simp only [State.bit] at e
    simp [hi', e]
  · simp [hi']

theorem Alters.within {p : Nat → Prop} (hS : ∀ k i, S k i → flagReg k = true ∨ p k) : Within p s t :=
  ⟨fun _ hf hp => h.rd hf fun i hs => (hS _ i hs).elim (by rw [hf]; decide) hp, h.mem⟩

end

end Sys2Proof.Machine
end

section
/-! The state that reset leaves (R504, R510): the values of the register tables, log entries 2 and 20. -/
namespace Sys2Proof.Machine

open Safety

/-- Reset leaves RB# low, so there is nothing yet that R53 asks to be shown. -/
theorem irqShown_reset : IrqShown State.reset := fun h => absurd h (by decide)

end Sys2Proof.Machine

namespace Sys2Proof

open Machine Safety

/-- Settles O2: the values of the tables by evaluation, the memories' canonical form by the lemma on reset. -/
theorem resetLeavesTableValues : Obligations.ResetLeavesTableValues := by
  unfold Obligations.ResetLeavesTableValues
  exact ⟨by decide, by decide, by decide, rfl, rfl, rfl, rfl, Memory.wf_reset, by decide, by decide, by decide, by decide, by decide,
    by decide, by decide, irqShown_reset⟩

end Sys2Proof
end

section
/-! The announced measures as ranges (R74): a list of ranges that is out of order hides the measure just announced. -/
namespace Sys2Proof.Machine

open Safety

/-- A state whose measures run, and whose list of announced measures holds a range that ends before it begins. -/
def rangeReversed : State :=
  { State.reset.wr R.MSR_CTL 1 with msr := { State.reset.msr with nextM := 5, announced := [(100, 4)] } }

/-- After the command measure 5 counts as announced. -/
def announces5 (o : Host.Outcome State Fault Refusal) : Bool :=
  match o with
  | .next t => t.announcedM 5
  | _ => false

/-- Measure 5 joins the range, which then runs from 100 to 5 and holds no measure. -/
theorem rangeReversed_hides : announces5 (exec .measureAnnounce rangeReversed) = false := by decide +kernel

end Sys2Proof.Machine

namespace Sys2Proof

open Machine Safety

/-- Refutes O17: the announce of measure 5 after a range (100, 4) leaves the range (100, 5), so measure 5 does not count as announced. -/
theorem not_measuresAnnounceAndStrike : ¬ Obligations.MeasuresAnnounceAndStrike := by
  intro h
  obtain ⟨t, e, -, hm, -⟩ := (h rangeReversed).1 (by decide) (by decide) (by decide)
  have hides := rangeReversed_hides
  rw [e] at hides
  have hf : t.announcedM 5 = false := hides
  exact absurd (hf.symm.trans hm) (by decide)

end Sys2Proof
end

section
/-! A message that waits to be shown (R53) leaves at the end of whatever command runs next, a Delay_Req that is not ready included. -/
namespace Sys2Proof.Machine

open Safety

/-- A state with an interrupt of row 0 pending for client 0, not yet shown in IRQ_CAT_STAT, and with a Delay_Req already sent. -/
def messageWaits : State :=
  let s := ((State.reset.wr (R.PG_IRQ_STAT 0x28) 1).wr (R.PG_IRQ_EN 0x28) 1).wr (R.IRQ_CAT_EN 0) 1
  { s with
    released := true
    irq := { s.irq with cats := [(32 * 0x28, 1)] }
    tmb := { s.tmb with ptp := { s.tmb.ptp with sentAt := some 0, interval := 1000 } } }

/-- Has nothing left the module by the end of the command? -/
def sendsNothing (o : Host.Outcome State Fault Refusal) : Bool :=
  match o with
  | .next t => t.out.isEmpty
  | _ => false

/-- DELAY_REQ_SEND before its interval has passed sends the MSI-X message that waits. -/
theorem messageWaits_leaves : sendsNothing (exec (.delayReqSend 0) messageWaits) = false := by decide +kernel

end Sys2Proof.Machine

namespace Sys2Proof

open Machine Safety

/-- Refutes O14: a Delay_Req that is not ready leaves nothing of its own, but the command ends with the message of an interrupt that
was pending before it, so what has left the module grows. -/
theorem not_ptpMeasuresOffsetAndPpsOutRises : ¬ Obligations.PtpMeasuresOffsetAndPpsOutRises := by
  intro h
  obtain ⟨-, -, -, hearly, -⟩ := h messageWaits 0
  obtain ⟨t, e, -, hout, -⟩ := hearly 0 0 rfl (by decide)
  have leaves := messageWaits_leaves
  rw [e] at leaves
  have hne : t.out.isEmpty = false := leaves
  rw [hout] at hne
  exact absurd hne (by decide)

end Sys2Proof
end

section
/-! Bits that events set stay set while further events arise: PG_IRQ_STAT and SYS_ATTN (R51, R524). -/

namespace Sys2Proof.Machine

open Safety

/-- The registers whose bits only a client's write takes back: PG_IRQ_STAT of every page, and SYS_ATTN (R51, R524). -/
def raisedReg (k : Nat) : Prop := k % 0x10000 = 0x1C ∨ k = R.SYS_ATTN

/-- Every bit that was set in such a register stays set. -/
def KeepsRaised (s t : State) : Prop := ∀ k i, raisedReg k → s.bit k i = true → t.bit k i = true

theorem raisedReg_irqStat (p : Nat) : raisedReg (R.PG_IRQ_STAT p) := .inl (by simp only [R.PG_IRQ_STAT]; omega)

theorem raisedReg.not_catReg {k : Nat} (h : raisedReg k) : catReg k = false := by
  refine Bool.eq_false_iff.mpr fun e => ?_
  simp only [catReg, Bool.and_eq_true, decide_eq_true_eq] at e
  rcases h with h | h
  · omega
  · simp only [R.SYS_ATTN] at h
    omega

section
variable {s t u : State}

theorem KeepsRaised.refl (s : State) : KeepsRaised s s := fun _ _ _ => id

theorem KeepsRaised.trans (h : KeepsRaised s t) (h' : KeepsRaised t u) : KeepsRaised s u :=
  fun k i hk hb => h' k i hk (h k i hk hb)

theorem KeepsRaised.of_regs (h : t.regs = s.regs) : KeepsRaised s t := fun k i _ hb => by
  rwa [State.bit_congr (State.rd_congr h k)]

end

theorem State.wr_keepsRaised (s : State) {k : Nat} (v : Nat) (h : ¬ raisedReg k) : KeepsRaised s (s.wr k v) := fun k' i hk hb => by
  rwa [State.bit_congr (s.rd_wr_ne v fun e => h (by rw [e]; exact hk))]

theorem State.setBit_keepsRaised (s : State) (k : Nat) {i : Nat} (h : i < 64) : KeepsRaised s (s.setBit k i true) :=
  fun k' j _ hb => by
    rw [State.bit_setBit _ _ _ _ _ _ h]
    split
    · rfl
    · exact hb

theorem State.settle_keepsRaised (s : State) : KeepsRaised s s.settle := fun k i hk hb => by
  rwa [State.settle_bit _ hk.not_catReg]

theorem State.irqBit_keepsRaised (s : State) (p c : Nat) {b : Nat} (h : b < 64) : KeepsRaised s (s.irqBit p b c) :=
  (s.setBit_keepsRaised _ h).trans (.of_regs rfl)

theorem State.setIrq_keepsRaised (s : State) (p c : Nat) {b : Nat} (h : b < 64) : KeepsRaised s (s.setIrq p b c) :=
  (s.irqBit_keepsRaised p c h).trans (State.settle_keepsRaised _)

theorem State.joinPoison_keepsRaised (s : State) (p c : Nat) : KeepsRaised s (s.joinPoison p c) := by
  unfold State.joinPoison
  split
  · exact s.irqBit_keepsRaised p c (by decide)
  · exact .refl s

theorem attnOf_lt {code b : Nat} (h : attnOf code = some b) : b < 64 := by
  unfold attnOf at h
  split_ifs at h <;> injection h <;> omega

theorem State.attend_keepsRaised (s : State) {b : Nat} (h : b < 64) : KeepsRaised s (s.attend b) := by
  unfold State.attend
  extract_lets was s1
  have hs : KeepsRaised s s1 := (s.setBit_keepsRaised _ h).trans (State.setIrq_keepsRaised _ _ _ (by decide))
  split
  · exact hs.trans (.of_regs rfl)
  · exact hs

theorem State.flagEvent_keepsRaised (s : State) (p code : Nat) : KeepsRaised s (s.flagEvent p code) := by
  have herr : ¬ raisedReg (R.PG_ERR p) := by
    simp only [raisedReg, R.PG_ERR, R.SYS_ATTN]
    omega
  unfold State.flagEvent
  extract_lets s1
  have hs : KeepsRaised s s1 :=
    ((((s.wr_keepsRaised _ herr).trans (State.setBit_keepsRaised _ _ (by decide))).trans
      (State.irqBit_keepsRaised _ _ _ (by decide))).trans (State.joinPoison_keepsRaised _ _ _)).trans (State.settle_keepsRaised _)
  split
  · exact hs.trans (State.attend_keepsRaised _ (attnOf_lt ‹_›))
  · exact hs

theorem State.coalesce_keepsRaised {s t : State} {r : Report} (h : s.coalesce r = some t) : KeepsRaised s t := by
  unfold State.coalesce at h
  split at h
  · cases h
  · split at h
    · cases h
    · cases h
      refine KeepsRaised.trans ?_ (.of_regs (State.logClients_regs _ _))
      refine KeepsRaised.trans ?_ (State.wr_keepsRaised _ _ (by simp only [raisedReg, R.ERR_COAL, R.SYS_ATTN]; omega))
      exact .of_regs rfl

theorem State.dropReport_keepsRaised (s : State) (r : Report) : KeepsRaised s (s.dropReport r) := by
  have hc := catOf_lt r.code
  have hovf : ¬ raisedReg (R.ERR_OVF (catOf r.code)) := by
    simp only [raisedReg, R.ERR_OVF, R.SYS_ATTN]
    omega
  unfold State.dropReport
  extract_lets s1 e s2
  have h1 : KeepsRaised s s1 := (s.wr_keepsRaised _ hovf).trans (State.setBit_keepsRaised _ _ (by decide))
  have h2 : KeepsRaised s1 s2 := .of_regs rfl
  have h3 (r : Report) : KeepsRaised s2 (s2.logClients r) := .of_regs (State.logClients_regs _ _)
  exact ((h1.trans h2).trans (h3 _)).trans (State.setIrq_keepsRaised _ _ _ (by decide))

theorem State.report_keepsRaised (s : State) (r : Report) : KeepsRaised s (s.report r) := by
  have hc := catOf_lt r.code
  have hcnt : ¬ raisedReg (R.ERR_CNT (catOf r.code)) := by
    simp only [raisedReg, R.ERR_CNT, R.SYS_ATTN]
    omega
  unfold State.report
  extract_lets s0
  have h : KeepsRaised s s0 := s.wr_keepsRaised _ hcnt
  split
  · exact h.trans (State.coalesce_keepsRaised ‹_›)
  · split
    · exact h.trans (.of_regs rfl)
    · split
      · exact h.trans (.of_regs rfl)
      · exact h.trans (State.dropReport_keepsRaised _ _)

/-- An event takes back no interrupt and no attention cause (R51, R524). -/
theorem State.raise_keepsRaised (s : State) (p code : Nat) (client : Option Nat) (addr aux : Nat) :
    KeepsRaised s (s.raise p code client addr aux) := by
  unfold State.raise
  extract_lets s1
  exact (s.flagEvent_keepsRaised p code).trans (s1.report_keepsRaised _)

/-- An interrupt raised with an event stands in PG_IRQ_STAT after it (R51). -/
theorem State.setIrq_raise_irqStat (s : State) (p c code : Nat) (client : Option Nat) (addr aux : Nat) {b : Nat} (h : b < 64) :
    ((s.setIrq p b c).raise p code client addr aux).bit (R.PG_IRQ_STAT p) b = true :=
  State.raise_keepsRaised _ _ _ _ _ _ _ _ (raisedReg_irqStat p) (by rw [State.setIrq_irqStat _ _ _ _ _ _ h]; simp)

/-- An event that is an attention cause leaves its bit of SYS_ATTN set (R524). -/
theorem State.raise_sysAttn (s : State) (p code : Nat) (client : Option Nat) (addr aux : Nat) {b : Nat} (h : attnOf code = some b) :
    (s.raise p code client addr aux).bit R.SYS_ATTN b = true := by
  have hb := attnOf_lt h
  have hat (u : State) : (u.attend b).bit R.SYS_ATTN b = true := by
    have h1 : ((u.setBit R.SYS_ATTN b true).setIrq pageSys 4 0xC).bit R.SYS_ATTN b = true :=
      State.setIrq_keepsRaised _ _ _ (by decide) _ _ (.inr rfl) (by rw [State.bit_setBit _ _ _ _ _ _ hb]; simp)
    unfold State.attend
    extract_lets was s1
    split
    · exact h1
    · exact h1
  unfold State.raise
  extract_lets s1
  refine s1.report_keepsRaised _ _ _ (.inr rfl) ?_
  show (s.flagEvent p code).bit R.SYS_ATTN b = true
  unfold State.flagEvent
  simp only [h]
  exact hat _

end Sys2Proof.Machine
end

section
/-! The commands of the timebase and of the measures: each is one whole write of an open page's register, and comes to the effect of that
register (R35, R36, R91, R93). -/

namespace Sys2Proof.Machine

open Safety

section
variable {s : State} {c : Client}

/-- The timebase and the measures hold no client's blocks, so an open page is within reach (R41). -/
theorem State.mayReach_tmb (ho : Open s c pageTmb) (o : Nat) : s.mayReach c pageTmb o = true :=
  ho.reach (by simp [blockClient, pageTmb, pageIrq, pageSch, pageTier, pageDet, pageAcc, pageHif, pageCtx]) (by decide) (.inl (by decide))

theorem State.mayReach_msr (ho : Open s c pageMsr) (o : Nat) : s.mayReach c pageMsr o = true :=
  ho.reach (by simp [blockClient, pageMsr, pageIrq, pageSch, pageTier, pageDet, pageAcc, pageHif, pageCtx]) (by decide) (.inl (by decide))

/-- A command that writes a register which acts once has the effect of the value written (R8, R36). -/
theorem State.command_once {p o v : Nat} (eff : State → Nat → Nat → State) {h : RegHit} (ho : Open s c p) (hm : s.mayReach c p h.base = true)
    (hr : regHit p o = some h) (ho' : o < 0x10000) (hw : h.rd.wo = true) (hs : h.rd.sup = 0) (hv : v < 2 ^ 64) :
    ∃ u, HeldOnly s u ∧ s.command c (p * 0x10000 + o) v eff = eff u 0 v := by
  obtain ⟨hp, hq⟩ : (p * 0x10000 + o) / 0x10000 = p ∧ (p * 0x10000 + o) % 0x10000 = o := by omega
  exact s.command_effect eff ho.1 (by rw [hp]; exact ho.2.1) (by rw [hp, hq]; exact hr)
    (by rw [hp]; exact State.verdict_wo ho (fun _ => hm) hw (.inr (by rw [hs, Nat.and_zero]))) hv

/-- A command that writes a register with the writable bits of a mask has the effect of those bits replaced (R8, R36). -/
theorem State.command_stored {p o v m : Nat} (eff : State → Nat → Nat → State) {h : RegHit} (ho : Open s c p)
    (hm : s.mayReach c p h.base = true) (hr : regHit p o = some h) (ho' : o < 0x10000) (hw : h.rd.wo = false)
    (h1 : (if h.base = 0x1C then irqBitsOf (typeCode p) else h.rd.w1c) = 0) (hs : h.rd.sup = 0) (hmask : h.rwMask p = m) (h0 : m ≠ 0)
    (h64 : m < 2 ^ 64) (hk : regKey c p h = p * 0x10000 + o) (hv : v < 2 ^ 64) :
    ∃ u, HeldOnly s u ∧ s.command c (p * 0x10000 + o) v eff =
      eff u ((s.rd (p * 0x10000 + o) &&& (0xFFFFFFFFFFFFFFFF ^^^ m)) ||| (v &&& m)) v := by
  obtain ⟨hp, hq⟩ : (p * 0x10000 + o) / 0x10000 = p ∧ (p * 0x10000 + o) % 0x10000 = o := by omega
  subst hmask
  have hd := State.verdict_plain (v := v) ho (fun _ => hm) hw h1 hs h0 h64
  rw [hk] at hd
  exact s.command_effect eff ho.1 (by rw [hp]; exact ho.2.1) (by rw [hp, hq]; exact hr) (by rw [hp]; exact hd) hv

end

/-! The registers' rows (R91, R93). -/

def tmbCtlHit : RegHit := ⟨⟨0x100, 1, 0, 1, 0, false, 0xff1f, 0, 0, 0, false, 0x8000, false⟩, 0x100, false⟩
def tmbCmdHit : RegHit := ⟨⟨0x12C, 1, 0, 1, 0, false, 0, 0, 0, 0, true, 0, false⟩, 0x12C, false⟩
def msrCtlHit : RegHit := ⟨⟨0x100, 1, 0, 1, 0, false, 1, 0, 0, 0, false, 0, false⟩, 0x100, false⟩
def msrLeadHit : RegHit := ⟨⟨0x104, 1, 0, 1, 0, false, 0x7FF, 0, 0, 0, false, 256, false⟩, 0x104, false⟩
def changeAtHit : RegHit := ⟨⟨0x110, 1, 0, 1, 0, true, 0xffffffffffffffff, 0, 0, 0, false, 0, false⟩, 0x110, false⟩
def armCmdHit (slot : Nat) : RegHit := ⟨⟨0x100C, 256, 0x10, 1, 0, false, 0, 0, 0, 0, true, 0, false⟩, 0x100C + 0x10 * slot, false⟩

theorem regHit_tmbCtl : regHit pageTmb 0x100 = some tmbCtlHit := by decide
theorem regHit_tmbCmd : regHit pageTmb 0x12C = some tmbCmdHit := by decide
theorem regHit_msrCtl : regHit pageMsr 0x100 = some msrCtlHit := by decide
theorem regHit_msrLead : regHit pageMsr 0x104 = some msrLeadHit := by decide
theorem regHit_changeAt : regHit pageMsr 0x110 = some changeAtHit := by decide
theorem regHit_armCmd : ∀ slot : Fin 256, regHit pageMsr (0x100C + 0x10 * slot) = some (armCmdHit slot) := by decide +kernel

section
variable {s : State} {c : Client}

/-- TMB_CTL takes the bits of SRC, its flags and CALLER_PRI (R91). -/
theorem State.command_tmbCtl {v : Nat} (eff : State → Nat → Nat → State) (ho : Open s c pageTmb) (hv : v < 2 ^ 64) :
    ∃ u, HeldOnly s u ∧ s.command c R.TMB_CTL v eff =
      eff u ((s.rd R.TMB_CTL &&& (0xFFFFFFFFFFFFFFFF ^^^ 0xff1f)) ||| (v &&& 0xff1f)) v :=
  State.command_stored eff ho (State.mayReach_tmb ho _) regHit_tmbCtl (by decide) rfl rfl rfl rfl (by decide) (by decide) rfl hv

theorem State.command_tmbCmd {v : Nat} (eff : State → Nat → Nat → State) (ho : Open s c pageTmb) (hv : v < 2 ^ 64) :
    ∃ u, HeldOnly s u ∧ s.command c R.TMB_CMD v eff = eff u 0 v :=
  State.command_once eff ho (State.mayReach_tmb ho _) regHit_tmbCmd (by decide) rfl rfl hv

theorem State.command_msrCtl {v : Nat} (eff : State → Nat → Nat → State) (ho : Open s c pageMsr) (hv : v < 2 ^ 64) :
    ∃ u, HeldOnly s u ∧ s.command c R.MSR_CTL v eff = eff u ((s.rd R.MSR_CTL &&& (0xFFFFFFFFFFFFFFFF ^^^ 1)) ||| (v &&& 1)) v :=
  State.command_stored eff ho (State.mayReach_msr ho _) regHit_msrCtl (by decide) rfl rfl rfl rfl (by decide) (by decide) rfl hv

theorem State.command_msrLead {v : Nat} (eff : State → Nat → Nat → State) (ho : Open s c pageMsr) (hv : v < 2 ^ 64) :
    ∃ u, HeldOnly s u ∧ s.command c R.MSR_LEAD v eff =
      eff u ((s.rd R.MSR_LEAD &&& (0xFFFFFFFFFFFFFFFF ^^^ 0x7FF)) ||| (v &&& 0x7FF)) v :=
  State.command_stored eff ho (State.mayReach_msr ho _) regHit_msrLead (by decide) rfl rfl rfl rfl (by decide) (by decide) rfl hv

/-- MSR_CHANGE_AT takes a value whole (R73). -/
theorem State.command_changeAt {v : Nat} (eff : State → Nat → Nat → State) (ho : Open s c pageMsr) (hv : v < 2 ^ 64) :
    ∃ u, HeldOnly s u ∧ s.command c R.MSR_CHANGE_AT v eff = eff u v v := by
  obtain ⟨u, hu, e⟩ := State.command_stored (v := v) (m := 2 ^ 64 - 1) eff ho (State.mayReach_msr ho _) regHit_changeAt (by decide) rfl rfl rfl rfl
    (by decide) (by decide) rfl hv
  rw [show (0xFFFFFFFFFFFFFFFF : Nat) = 2 ^ 64 - 1 from rfl, Nat.xor_self, Nat.and_zero, Nat.zero_or,
    Nat.and_two_pow_sub_one_of_lt_two_pow hv] at e
  exact ⟨u, hu, e⟩

theorem State.command_armCmd {v : Nat} (slot : Fin 256) (eff : State → Nat → Nat → State) (ho : Open s c pageMsr) (hv : v < 2 ^ 64) :
    ∃ u, HeldOnly s u ∧ s.command c (R.ARM_CMD slot) v eff = eff u 0 v := by
  have hk : R.ARM_CMD slot = pageMsr * 0x10000 + (0x100C + 0x10 * slot) := by
    simp only [R.ARM_CMD, pageMsr]
    omega
  rw [hk]
  exact State.command_once eff ho (State.mayReach_msr ho _) (regHit_armCmd slot) (by have := slot.isLt; omega) rfl rfl hv

end

end Sys2Proof.Machine
end

section
/-! Arm slots: an arm taken, missed or refused, and taken back (R77 to R80, R93, R94). -/

namespace Sys2Proof.Machine

open Safety

/-! What a command keeps, from the effect on the written state to the command's end. -/

section
variable {p : Nat → Prop} {s t u : State}

theorem Within.refl (p : Nat → Prop) (s : State) : Within p s s := ⟨fun _ _ _ => rfl, .refl s⟩

theorem Within.trans (h : Within p s t) (h' : Within p t u) : Within p s u :=
  ⟨fun k hf hp => (h'.1 k hf hp).trans (h.1 k hf hp), h.2.trans h'.2⟩

theorem Within.of_flags (h : FlagsOnly s t) : Within p s t := ⟨fun _ hf _ => h.rd hf, h.sameMem⟩

theorem Within.settle (h : Within p s t) : Within p s t.settle := h.trans (.of_flags t.settle_only.flags)

/-- A command that comes to an effect on a state with other halves held. -/
theorem runs_of_effect {i : Instr} {f : State → State} {P : State → Prop} (he : ∃ u, HeldOnly s u ∧ exec i s = settled (f u))
    (h : ∀ w, P (f { s with wrHold := w }).settle) : Runs i s P := by
  obtain ⟨_, ⟨w, rfl⟩, e⟩ := he
  exact ⟨_, e, h w⟩

/-- A write dropped with an event of its page changes nothing else (R557). -/
theorem State.raise_dropped (s : State) (p code : Nat) (hc : code < 65536) :
    (s.raise p code none 0 0).settle.rd (R.PG_ERR p) % 65536 = code ∧ (s.raise p code none 0 0).settle.msr = s.msr ∧
      (s.raise p code none 0 0).settle.tmb = s.tmb ∧ (s.raise p code none 0 0).settle.dtime = s.dtime ∧
      Within (fun _ => False) s (s.raise p code none 0 0).settle := by
  refine ⟨?_, by simp, by simp, by simp, (Within.of_flags (s.raise_flags _ _ _ _ _)).settle⟩
  rw [State.settle_rd _ (catReg_header p (o := 0x14) (by decide) (by decide)), State.raise_pgErr, Nat.mod_eq_of_lt hc]

end

/-- What a write that its register drops with an event comes to (R93). -/
theorem State.dropped_spec {s t : State} {p code : Nat} (hc : code < 65536) (h : t = s.raise p code none 0 0) :
    t.settle.rd (R.PG_ERR p) % 65536 = code ∧ t.settle.msr = s.msr ∧ Within (fun _ => False) s t.settle := by
  subst h
  obtain ⟨he, hm, -, -, hk⟩ := s.raise_dropped p code hc
  exact ⟨he, hm, hk⟩

/-! A slot's state. -/

theorem flagReg_armCmd (slot : Fin 256) : flagReg (R.ARM_CMD slot) = false := by
  have := slot.isLt
  simp only [flagReg, R.ARM_CMD, R.SYS_ATTN, Bool.or_eq_false_iff, decide_eq_false_iff_not]
  omega

theorem armCmd_inj (i j : Nat) : R.ARM_CMD i = R.ARM_CMD j ↔ i = j := by
  simp only [R.ARM_CMD]
  omega

section
variable (s : State)

theorem State.armState_congr {t : State} {slot : Nat} (h : t.rd (R.ARM_CMD slot) = s.rd (R.ARM_CMD slot)) :
    t.armState slot = s.armState slot := State.fld_congr h 6 4

theorem State.armState_settle (slot : Fin 256) : s.settle.armState slot = s.armState slot :=
  s.armState_congr (s.settle_rd (catReg_flagReg (flagReg_armCmd slot)))

theorem State.armState_setArm (slot v k : Nat) : (s.setArm slot v).armState k = if slot = k then v % 8 else s.armState k := by
  split
  · next h =>
    subst h
    exact s.fld_setFld _ 6 4 v (by decide) (by decide)
  · next h => exact s.armState_congr (s.rd_setFld_ne 6 4 v fun e => h ((armCmd_inj _ _).mp e))

theorem State.setArm_alters (slot v : Nat) : Alters (fun k _ => k = R.ARM_CMD slot) s (s.setArm slot v) :=
  s.setFld_alters v (by decide) fun _ _ _ => rfl

theorem State.setArm_msr (slot v : Nat) : (s.setArm slot v).msr = s.msr := rfl

/-- What the failure of an arm writes: the slot's state and, but for a refusal, MSR_MISSED (R78, R93). -/
def State.markFailed (slot st : Nat) : State :=
  if st = 5 then s.setArm slot st else (s.setArm slot st).countSat R.MSR_MISSED 1

theorem State.armFails_eq (slot st code : Nat) : s.armFails slot st code =
    ((s.markFailed slot st).setIrq pageMsr 5 8).raise pageMsr code (some (s.armClient slot)) 0 0 := by
  unfold State.markFailed
  split
  · next h => simp only [State.armFails, h, if_true, State.armClient]
  · next h =>
    simp only [State.armFails, h, if_false]

theorem State.markFailed_alters (slot st : Nat) : Alters (fun k _ => k = R.ARM_CMD slot ∨ k = R.MSR_MISSED) s (s.markFailed slot st) := by
  have h := (s.setArm_alters slot st).mono (S' := fun k _ => k = R.ARM_CMD slot ∨ k = R.MSR_MISSED) fun _ _ => .inl
  unfold State.markFailed
  split
  · exact h
  · exact h.trans (State.wr_alters _ _ fun _ => .inr rfl)

theorem State.armState_markFailed (slot st k : Nat) :
    (s.markFailed slot st).armState k = if slot = k then st % 8 else s.armState k := by
  unfold State.markFailed
  split
  · exact s.armState_setArm slot st k
  · have hk : R.MSR_MISSED ≠ R.ARM_CMD k := by
      simp only [R.MSR_MISSED, R.ARM_CMD]
      omega
    rw [State.countSat_eq, State.armState_congr _ (State.rd_wr_ne _ _ hk), State.armState_setArm]

theorem State.armFails_flags (slot st code : Nat) : FlagsOnly (s.markFailed slot st) (s.armFails slot st code) := by
  rw [State.armFails_eq]
  exact (State.setIrq_flags _ _ _ _).trans (State.raise_flags _ _ _ _ _ _)

theorem State.armFails_alters (slot st code : Nat) :
    Alters (fun k _ => k = R.ARM_CMD slot ∨ k = R.MSR_MISSED) s (s.armFails slot st code) :=
  (s.markFailed_alters slot st).trans (.of_flags (s.armFails_flags slot st code))

theorem State.armState_armFails (slot st code : Nat) (k : Fin 256) :
    (s.armFails slot st code).armState k = if slot = k.val then st % 8 else s.armState k := by
  rw [State.armState_congr _ ((s.armFails_flags slot st code).rd (flagReg_armCmd k)), State.armState_markFailed]

theorem State.armFails_msr (slot st code : Nat) : (s.armFails slot st code).msr = s.msr := by
  rw [(s.armFails_flags slot st code).msr, State.markFailed]
  split
  · rfl
  · rfl

theorem State.armFails_dtime (slot st code : Nat) : (s.armFails slot st code).dtime = s.dtime := by
  rw [(s.armFails_flags slot st code).dtime, State.markFailed]
  split
  · rfl
  · rfl

/-- An arm that fails: the slot's state, the event, and interrupt 5 of MSR (R78, R93). -/
theorem State.armFails_spec (slot : Fin 256) {st code : Nat} (hst : st < 8) (hc : code < 65536) :
    (s.armFails slot st code).settle.armState slot = st ∧
      (s.armFails slot st code).settle.rd (R.PG_ERR pageMsr) % 65536 = code ∧
      (s.armFails slot st code).settle.bit (R.PG_IRQ_STAT pageMsr) 5 = true ∧
      Within (fun k => k = R.ARM_CMD slot ∨ k = R.MSR_MISSED) s (s.armFails slot st code).settle := by
  refine ⟨?_, ?_, ?_, ((s.armFails_alters slot st code).within fun _ _ h => .inr h).settle⟩
  · rw [State.armState_settle, State.armState_armFails, if_pos rfl, Nat.mod_eq_of_lt hst]
  · rw [State.settle_rd _ (by decide), State.armFails_eq, State.raise_pgErr, Nat.mod_eq_of_lt hc]
  · rw [State.settle_bit _ (by decide), State.armFails_eq]
    exact State.setIrq_raise_irqStat _ _ _ _ _ _ _ (by decide)

end

/-! ARM and CANCEL. -/

section
variable {s : State} {c : Client} {slot : Fin 256}

theorem exec_arm (ho : Open s c pageMsr) : ∃ u, HeldOnly s u ∧ exec (.arm c slot) s = settled (u.armSlot c slot) := by
  obtain ⟨u, hu, e⟩ := State.command_armCmd (v := 1) slot (fun t _ raw => t.armCmd c slot raw) ho (by decide)
  exact ⟨u, hu, congrArg settled e⟩

theorem State.armCmd_cancel (s : State) (c slot : Nat) : s.armCmd c slot 2 = if s.armState slot = 1 then s.setArm slot 6 else s := by
  simp [State.armCmd, show Nat.testBit 2 0 = false from rfl, show Nat.testBit 2 1 = true from rfl]

theorem exec_cancel (ho : Open s c pageMsr) :
    ∃ u, HeldOnly s u ∧ exec (.cancel c slot) s = settled (if u.armState slot = 1 then u.setArm slot 6 else u) := by
  obtain ⟨u, hu, e⟩ := State.command_armCmd (v := 2) slot (fun t _ raw => t.armCmd c slot raw) ho (by decide)
  exact ⟨u, hu, congrArg settled (e.trans (u.armCmd_cancel c slot))⟩

/-- CANCEL of an armed slot takes it back (R80). -/
theorem cancel_takesBack (ho : Open s c pageMsr) (h : s.armState slot = 1) : Runs (.cancel c slot) s fun t =>
    t.armState slot = 6 ∧ t.msr = s.msr ∧ Within (fun k => k = R.ARM_CMD slot) s t := by
  refine runs_of_effect (exec_cancel ho) fun w => ?_
  have hw : ({ s with wrHold := w } : State).armState slot = 1 := h
  rw [if_pos hw]
  refine ⟨?_, State.settle_msr _, ((State.setArm_alters _ slot 6).within fun _ _ h => .inr h).settle⟩
  rw [State.armState_settle, State.armState_setArm, if_pos rfl]

/-- The slot's arm is the client's (R94). -/
def State.putArmClient (s : State) (c slot : Nat) : State :=
  { s with msr := { s.msr with armClient := kvPut s.msr.armClient slot c } }

/-- Is another slot armed, or announced, on the same page for the same measure (R77)? -/
def State.armClash (s : State) (slot : Nat) : Bool :=
  (List.range 256).any fun k => k ≠ slot && (s.armState k = 1 || s.armState k = 2) && s.armPage k = s.armPage slot &&
    s.armTgt k = s.armTgt slot

theorem State.armClash_iff (s : State) (slot : Fin 256) : s.armClash slot = true ↔ ∃ k : Fin 256, k ≠ slot ∧
    (s.armState k = 1 ∨ s.armState k = 2) ∧ s.armPage k = s.armPage slot ∧ s.armTgt k = s.armTgt slot := by
  simp only [State.armClash, List.any_eq_true, List.mem_range, Bool.and_eq_true, Bool.or_eq_true, decide_eq_true_eq, and_assoc]
  constructor
  · rintro ⟨k, hk, hne, h⟩
    exact ⟨⟨k, hk⟩, fun e => hne (congrArg Fin.val e), h⟩
  · rintro ⟨k, hne, h⟩
    exact ⟨k, k.isLt, fun e => hne (Fin.ext e), h⟩

/-- ARM on a slot that neither waits nor is announced (R77, R78): its checks look at the slots' registers alone. -/
theorem State.armSlot_eq (s : State) (c slot : Nat) (h1 : s.armState slot ≠ 1) (h2 : s.armState slot ≠ 2) : s.armSlot c slot =
    if s.pastAnnounce (s.armTgt slot) then (s.putArmClient c slot).armFails slot 4 0x8007
    else if !(armable (s.armPage slot) (s.armCode slot) && s.inService (s.armPage slot) && s.guardOpen (s.armPage slot) c) then
      (s.putArmClient c slot).armFails slot 5 0x8006
    else if s.armClash slot then (s.putArmClient c slot).armFails slot 5 0x8005
    else (s.putArmClient c slot).setArm slot 1 := by
  have h12 : (decide (s.armState slot = 1) || decide (s.armState slot = 2)) = false := by simp [h1, h2]
  unfold State.armSlot
  simp only [h12, Bool.false_eq_true, if_false, Bool.not_and]
  rfl

section
variable (h1 : s.armState slot ≠ 1) (h2 : s.armState slot ≠ 2)
include h1 h2

theorem State.armSlot_late (hp : s.pastAnnounce (s.armTgt slot) = true) :
    s.armSlot c slot = (s.putArmClient c slot).armFails slot 4 0x8007 := by rw [State.armSlot_eq _ _ _ h1 h2, if_pos hp]

variable (hp : s.pastAnnounce (s.armTgt slot) = false)
include hp

theorem State.armSlot_shut (h : (armable (s.armPage slot) (s.armCode slot) && s.inService (s.armPage slot) && s.guardOpen (s.armPage slot) c) = false) :
    s.armSlot c slot = (s.putArmClient c slot).armFails slot 5 0x8006 := by
  rw [State.armSlot_eq _ _ _ h1 h2, if_neg (by rw [hp]; decide), if_pos (by rw [h]; rfl)]

variable (ha : (armable (s.armPage slot) (s.armCode slot) && s.inService (s.armPage slot) && s.guardOpen (s.armPage slot) c) = true)
include ha

theorem State.armSlot_clash (h : s.armClash slot = true) : s.armSlot c slot = (s.putArmClient c slot).armFails slot 5 0x8005 := by
  rw [State.armSlot_eq _ _ _ h1 h2, if_neg (by rw [hp]; decide), if_neg (by rw [ha]; decide), if_pos h]

theorem State.armSlot_free (h : s.armClash slot = false) : s.armSlot c slot = (s.putArmClient c slot).setArm slot 1 := by
  rw [State.armSlot_eq _ _ _ h1 h2, if_neg (by rw [hp]; decide), if_neg (by rw [ha]; decide), if_neg (by rw [h]; decide)]

end

/-- ARM refused or missed: the slot's state, the event and the interrupt of the failure (R78, R93). -/
theorem arm_fails (ho : Open s c pageMsr) {st code : Nat} (hst : st < 8) (hc : code < 65536)
    (h : ∀ w, ({ s with wrHold := w } : State).armSlot c slot =
      (({ s with wrHold := w } : State).putArmClient c slot).armFails slot st code) :
    Runs (.arm c slot) s fun t => t.armState slot = st ∧ t.rd (R.PG_ERR pageMsr) % 65536 = code ∧
      t.bit (R.PG_IRQ_STAT pageMsr) 5 = true ∧ Within (fun k => k = R.ARM_CMD slot ∨ k = R.MSR_MISSED) s t := by
  refine runs_of_effect (exec_arm ho) fun w => ?_
  rw [h w]
  exact State.armFails_spec _ slot hst hc

/-- ARM taken: the slot is armed, and is the client's (R77, R94). -/
theorem arm_taken (ho : Open s c pageMsr)
    (h : ∀ w, ({ s with wrHold := w } : State).armSlot c slot = (({ s with wrHold := w } : State).putArmClient c slot).setArm slot 1) :
    Runs (.arm c slot) s fun t => t.armState slot = 1 ∧ t.armClient slot = c ∧ Within (fun k => k = R.ARM_CMD slot) s t := by
  refine runs_of_effect (exec_arm ho) fun w => ?_
  rw [h w]
  refine ⟨?_, ?_, ?_⟩
  · rw [State.armState_settle, State.armState_setArm, if_pos rfl]
  · rw [State.armClient, State.settle_msr, State.setArm_msr]
    exact (kvGet_kvPut _ _ _ _ _).trans (if_pos rfl)
  · exact ((State.setArm_alters _ slot 1).within fun _ _ h => .inr h).settle

end

end Sys2Proof.Machine

namespace Sys2Proof

open Machine Safety

/-- Settles O18: the branches of ARM in the model's order, and CANCEL of an armed slot. -/
theorem armsAreTakenOrRefused : Obligations.ArmsAreTakenOrRefused := by
  intro s c slot ho
  refine ⟨fun h => cancel_takesBack ho h, ?_⟩
  intro h1 h2 p clash fails
  refine ⟨fun hp => ?_, fun hp => ⟨fun hs => ?_, fun ha => ⟨fun hc => ?_, fun hc => ?_⟩⟩⟩
  · exact arm_fails ho (by decide) (by decide) fun _ => State.armSlot_late h1 h2 hp
  · exact arm_fails ho (by decide) (by decide) fun _ => State.armSlot_shut h1 h2 hp hs
  · exact arm_fails ho (by decide) (by decide) fun _ => State.armSlot_clash h1 h2 hp ha ((s.armClash_iff slot).mpr hc)
  · have hfree : s.armClash slot = false := Bool.eq_false_iff.mpr fun e => hc ((s.armClash_iff slot).mp e)
    exact arm_taken ho fun _ => State.armSlot_free h1 h2 hp ha hfree

end Sys2Proof
end

section
/-! RUN and the settings of the grid (R70 to R74, R564). -/

namespace Sys2Proof.Machine

open Safety

/-! The first measure at or after an instant (R564). -/

/-- Without a pending change the first measure is the first whole number of periods past the origin. -/
theorem State.firstAt_plain {s : State} {x : Nat} (h : s.msr.change = none) (hp : 0 < s.period) :
    s.firstAt 0 x = s.originM + (x - s.origin + s.period - 1) / s.period := by
  simp only [State.firstAt, h, Nat.max_eq_left hp, Nat.zero_max]
  exact Nat.max_eq_right (Nat.le_add_right _ _)

theorem State.instant_plain {s : State} (h : s.msr.change = none) (m : Nat) : s.instant m = s.origin + (m - s.originM) * s.period := by
  simp only [State.instant, h, State.plainInstant]

/-- The first measure lies at or after the instant, and the one before it, when there is one, before it (R564). -/
theorem State.firstAt_spec {s : State} {x : Nat} (h : s.msr.change = none) (hp : 0 < s.period) :
    s.originM ≤ s.firstAt 0 x ∧ x ≤ s.instant (s.firstAt 0 x) ∧
      (s.firstAt 0 x = s.originM ∨ s.instant (s.firstAt 0 x - 1) < x) := by
  rw [State.firstAt_plain h hp, State.instant_plain h, State.instant_plain h]
  generalize s.period = p at *
  generalize s.origin = o
  generalize s.originM = m0
  set k := (x - o + p - 1) / p with hk
  have hlow : x - o ≤ k * p := by
    have h1 := Nat.lt_mul_div_succ (x - o + p - 1) hp
    rw [← hk, Nat.mul_add, Nat.mul_one, Nat.mul_comm] at h1
    omega
  have hhigh : k * p ≤ x - o + p - 1 := Nat.div_mul_le_self _ _
  refine ⟨Nat.le_add_right _ _, ?_, ?_⟩
  · rw [Nat.add_sub_cancel_left]
    omega
  · rcases Nat.eq_zero_or_pos k with h0 | h0
    · exact .inl (by omega)
    · refine .inr ?_
      obtain ⟨j, hj⟩ : ∃ j, k = j + 1 := ⟨k - 1, by omega⟩
      rw [hj, Nat.succ_mul] at hhigh
      rw [hj, show m0 + (j + 1) - 1 - m0 = j by omega]
      omega

/-! The slots that have missed (R80). -/

/-- Armed slots whose target lies before measure m. -/
def State.lateSlots (s : State) (m : Nat) : List Nat := (List.range 256).filter fun k => s.armState k = 1 && decide (s.armTgt k < m)

/-- Slots go to missed. -/
def State.missSlots (s : State) (l : List Nat) : State := l.foldl (fun t k => t.armFails k 4 0x8007) s

theorem State.missSlots_cons (s : State) (k : Nat) (l : List Nat) : s.missSlots (k :: l) = (s.armFails k 4 0x8007).missSlots l := by
  rw [State.missSlots, List.foldl_cons, State.missSlots]

theorem State.missSlots_alters (s : State) (l : List Nat) (hl : ∀ k ∈ l, k < 256) :
    Alters (fun k _ => k = R.MSR_MISSED ∨ ∃ slot : Fin 256, k = R.ARM_CMD slot) s (s.missSlots l) := by
  induction l generalizing s with
  | nil => exact .refl _ s
  | cons k l ih =>
    rw [State.missSlots_cons]
    refine Alters.trans ((s.armFails_alters k 4 0x8007).mono ?_) (ih _ fun j hj => hl j (.tail _ hj))
    rintro _ _ (e | e)
    · exact .inr ⟨⟨k, hl k (.head _)⟩, e⟩
    · exact .inl e

theorem State.missSlots_armState (s : State) (l : List Nat) (slot : Fin 256) :
    (s.missSlots l).armState slot = if slot.val ∈ l then 4 else s.armState slot := by
  induction l generalizing s with
  | nil => rfl
  | cons k l ih =>
    rw [State.missSlots_cons, ih, State.armState_armFails]
    by_cases h1 : slot.val ∈ l
    · simp [h1]
    · by_cases h2 : k = slot.val
      · simp [h2]
      · simp [h1, h2, Ne.symm h2]

theorem State.missSlots_msr (s : State) (l : List Nat) : (s.missSlots l).msr = s.msr := by
  induction l generalizing s with
  | nil => rfl
  | cons k l ih => rw [State.missSlots_cons, ih, State.armFails_msr]

theorem State.missSlots_dtime (s : State) (l : List Nat) : (s.missSlots l).dtime = s.dtime := by
  induction l generalizing s with
  | nil => rfl
  | cons k l ih => rw [State.missSlots_cons, ih, State.armFails_dtime]

/-! RUN rises (R564). -/

/-- The state in which measures run from m on, before the slots that missed are marked. -/
def State.running1 (s : State) (m : Nat) : State :=
  let s1 := s.wr R.MSR_CTL 1
  { s1 with msr := { s1.msr with
      nextM := m, announced := (s1.msr.announced.filter fun r => decide (r.1 < m)).map fun r => (r.1, min r.2 (m - 1))
      struckAt := if s1.msr.queue.isEmpty then none else s1.msr.struckAt } }

theorem State.startMeasures_eq {s : State} (h : s.running = false) (hq : s.msr.queue = []) :
    s.startMeasures = (s.running1 (s.firstAt 0 (s.dtime + s.lead))).missSlots
      ((s.running1 (s.firstAt 0 (s.dtime + s.lead))).lateSlots (s.firstAt 0 (s.dtime + s.lead))) := by
  have hlo : (s.msr.queue.map fun a => a.m + 1).foldl max 0 = 0 := by
    rw [hq]
    rfl
  unfold State.startMeasures
  simp only [h, hlo, Bool.false_eq_true, if_false]
  rfl

theorem State.running1_rd (s : State) (m : Nat) {k : Nat} (h : k ≠ R.MSR_CTL) : (s.running1 m).rd k = s.rd k :=
  State.rd_wr_ne s 1 (Ne.symm h)

theorem State.mem_lateSlots (s : State) (m : Nat) (slot : Fin 256) :
    slot.val ∈ (s.running1 m).lateSlots m ↔ s.armState slot = 1 ∧ s.armTgt slot < m := by
  have h1 : (s.running1 m).armState slot = s.armState slot :=
    s.armState_congr (s.running1_rd m (by simp only [R.ARM_CMD, R.MSR_CTL]; omega))
  have h2 : (s.running1 m).armTgt slot = s.armTgt slot := s.running1_rd m (by simp only [R.ARM_TGT, R.MSR_CTL]; omega)
  simp only [State.lateSlots, List.mem_filter, List.mem_range, Bool.and_eq_true, decide_eq_true_eq, h1, h2, slot.isLt, true_and]

/-- The registers that RUN changes when it rises: its own, and those of the slots that missed (R80, R564). -/
def runReg (k : Nat) : Prop := k = R.MSR_CTL ∨ k = R.MSR_MISSED ∨ ∃ slot : Fin 256, k = R.ARM_CMD slot

theorem State.startMeasures_alters {s : State} (h : s.running = false) (hq : s.msr.queue = []) :
    Alters (fun k _ => runReg k) s s.startMeasures := by
  rw [State.startMeasures_eq h hq]
  generalize s.firstAt 0 (s.dtime + s.lead) = m
  have h1 : Alters (fun k _ => runReg k) s (s.running1 m) :=
    (s.wr_alters (S := fun k _ => runReg k) 1 fun _ => .inl rfl).trans (.of_regs rfl ⟨rfl, rfl, rfl, rfl⟩)
  refine h1.trans ((State.missSlots_alters _ _ fun k hk => ?_).mono fun _ _ hk => .inr hk)
  exact List.mem_range.mp (List.mem_of_mem_filter hk)

/-- Measures run from the first whose announce still lies ahead, and slots armed for an earlier one have missed (R80, R564). -/
theorem State.startMeasures_spec {s : State} (h : s.running = false) (hq : s.msr.queue = []) :
    s.startMeasures.settle.running = true ∧ s.startMeasures.settle.dtime = s.dtime ∧
      s.startMeasures.settle.msr.nextM = s.firstAt 0 (s.dtime + s.lead) ∧
      ∀ slot : Fin 256, s.startMeasures.settle.armState slot =
        if s.armState slot = 1 ∧ s.armTgt slot < s.firstAt 0 (s.dtime + s.lead) then 4 else s.armState slot := by
  have hne {k : Nat} (hk : k ∈ (s.running1 (s.firstAt 0 (s.dtime + s.lead))).lateSlots (s.firstAt 0 (s.dtime + s.lead))) : k < 256 :=
    List.mem_range.mp (List.mem_of_mem_filter hk)
  rw [State.startMeasures_eq h hq]
  generalize s.firstAt 0 (s.dtime + s.lead) = m at hne ⊢
  refine ⟨?_, ?_, ?_, fun slot => ?_⟩
  · rw [State.running, State.settle_bit _ (by decide),
      (State.missSlots_alters _ _ fun _ => hne).bit _ _ (by decide) (by simp [R.MSR_CTL, R.MSR_MISSED, R.ARM_CMD]; omega)]
    have hr : (s.running1 m).rd R.MSR_CTL = 1 := State.rd_wr_same s R.MSR_CTL 1 (by decide)
    rw [State.bit, hr]
    rfl
  · rw [State.settle_dtime, State.missSlots_dtime]
    rfl
  · rw [State.settle_msr, State.missSlots_msr]
    rfl
  · rw [State.armState_settle, State.missSlots_armState]
    have hm := s.mem_lateSlots m slot
    by_cases hl : slot.val ∈ (s.running1 m).lateSlots m
    · rw [if_pos hl, if_pos (hm.mp hl)]
    · rw [if_neg hl, if_neg fun e => hl (hm.mpr e)]
      exact s.armState_congr (s.running1_rd m (by simp only [R.ARM_CMD, R.MSR_CTL]; omega))

/-! RUN falls (R72). -/

/-- The measures, T1 and T2, and RUN itself stay while changes of rights take effect. -/
structure KeepsGrid (s t : State) : Prop where
  msr : t.msr = s.msr
  mem : t.mem = s.mem
  run : t.rd R.MSR_CTL = s.rd R.MSR_CTL

theorem KeepsGrid.refl (s : State) : KeepsGrid s s := ⟨rfl, rfl, rfl⟩

theorem KeepsGrid.trans {s t u : State} (h : KeepsGrid s t) (h' : KeepsGrid t u) : KeepsGrid s u :=
  ⟨h'.msr.trans h.msr, h'.mem.trans h.mem, h'.run.trans h.run⟩

theorem KeepsGrid.foldl {β : Type} (f : State → β → State) (hf : ∀ t b, KeepsGrid t (f t b)) (l : List β) (s : State) :
    KeepsGrid s (l.foldl f s) := by
  induction l generalizing s with
  | nil => exact .refl s
  | cons b l ih => exact (hf s b).trans (ih _)

theorem KeepsGrid.of_flags {s t : State} (h : FlagsOnly s t) : KeepsGrid s t := ⟨h.msr, h.mem, h.rd (by decide)⟩

theorem State.wr_keepsGrid (s : State) {k : Nat} (v : Nat) (h : k ≠ R.MSR_CTL) : KeepsGrid s (s.wr k v) := ⟨rfl, rfl, s.rd_wr_ne v h⟩

theorem State.wake_keepsGrid (s : State) (r : Nat) : KeepsGrid s (s.wake r) := by
  unfold State.wake
  extract_lets u
  split_ifs
  · exact .refl s
  · exact ⟨rfl, rfl, rfl⟩
  · exact ⟨rfl, rfl, rfl⟩
  · exact .refl s

theorem State.applyMap_keepsGrid (s : State) (m : KV Nat) : KeepsGrid s (s.applyMap m) := by
  unfold State.applyMap
  extract_lets e s1 s2
  have h1 : KeepsGrid s s1 := ⟨rfl, rfl, rfl⟩
  have h2 : KeepsGrid s1 s2 := KeepsGrid.foldl _ (fun t r => by
    have h (b) := t.wr_keepsGrid (k := R.ROW_STAT r) b (by simp only [R.ROW_STAT, R.MSR_CTL]; omega)
    dsimp only
    split
    · exact (h _).trans (State.wake_keepsGrid _ r)
    · exact h _) _ s1
  exact (h1.trans h2).trans (.of_flags (s2.setIrq_flags _ _ _))

theorem State.applyEndpoint_keepsGrid (s : State) (e : Nat) (new : Endpoint) : KeepsGrid s (s.applyEndpoint e new) := by
  unfold State.applyEndpoint
  extract_lets old kept
  split
  · exact ⟨rfl, rfl, rfl⟩
  · exact ⟨rfl, rfl, rfl⟩

/-- Changes of rights that take effect leave the measures and the memories (R479). -/
theorem State.settleRights_keepsGrid (s : State) : KeepsGrid s s.settleRights := by
  unfold State.settleRights State.takeEffect
  split
  · exact .refl s
  · split
    · exact .refl s
    · extract_lets s1 s2 e s3
      have h1 : KeepsGrid s s1 := ⟨rfl, rfl, rfl⟩
      have h2 : KeepsGrid s1 s2 := by
        simp only [s2]
        split
        · exact s1.applyMap_keepsGrid _
        · exact .refl s1
      have h3 : KeepsGrid s2 s3 := KeepsGrid.trans (t := { s2 with spt := { s2.spt with staged := [] } }) ⟨rfl, rfl, rfl⟩
        (.foldl _ (fun t (b : Nat × Endpoint) => t.applyEndpoint_keepsGrid b.1 b.2) _ _)
      have h4 := (State.wr_keepsGrid s3 (k := R.SEC_RIGHTS_GEN) (s3.rd R.SEC_RIGHTS_GEN + 1) (by decide)).trans
        (State.wr_keepsGrid _ (k := R.SEC_RIGHTS_M) (s3.rd R.MSR_NOW) (by decide))
      exact (((h1.trans h2).trans h3).trans h4).trans (.of_flags (State.setIrq_flags _ _ _ _))

end Sys2Proof.Machine
end

section
/-! RUN_SET, RUN_CLEAR, MSR_LEAD_WRITE and PERIOD_CHANGE_SUBMIT, from the command to what it leaves (R72 to R74, R564). -/

namespace Sys2Proof.Machine

open Safety

section
variable {s : State} {c : Client}

/-! RUN (R72, R564). -/

theorem exec_runSet (ho : Open s c pageMsr) : ∃ u, HeldOnly s u ∧ exec (.runSet c) s = settled u.startMeasures := by
  obtain ⟨u, hu, e⟩ := State.command_msrCtl (v := 1) (fun t new _ => t.setMsrCtl new) ho (by decide)
  have hb : ((s.rd R.MSR_CTL &&& (0xFFFFFFFFFFFFFFFF ^^^ 1)) ||| (1 &&& 1)).testBit 0 = true := by
    rw [Nat.testBit_or]
    exact Bool.or_true _
  exact ⟨u, hu, congrArg settled (e.trans (by rw [State.setMsrCtl, hb, if_pos rfl]))⟩

theorem exec_runClear (ho : Open s c pageMsr) : ∃ u, HeldOnly s u ∧ exec (.runClear c) s = settled u.stopMeasures := by
  obtain ⟨u, hu, e⟩ := State.command_msrCtl (v := 0) (fun t new _ => t.setMsrCtl new) ho (by decide)
  have hb : ((s.rd R.MSR_CTL &&& (0xFFFFFFFFFFFFFFFF ^^^ 1)) ||| (0 &&& 1)).testBit 0 = false := by
    rw [Nat.testBit_or, Nat.testBit_and]
    exact (Bool.or_false _).trans (Bool.and_false _)
  exact ⟨u, hu, congrArg settled (e.trans (by rw [State.setMsrCtl, hb]; rfl))⟩

/-- RUN_SET of a module at rest (R564). -/
theorem runSet_starts (ho : Open s c pageMsr) (h : s.running = false) (hq : s.msr.queue = []) (hc : s.msr.change = none)
    (hp : 0 < s.rd R.MSR_PERIOD) : Runs (.runSet c) s fun t =>
      t.running = true ∧ t.dtime = s.dtime ∧ s.originM ≤ t.msr.nextM ∧ s.dtime + s.lead ≤ s.instant t.msr.nextM ∧
      (t.msr.nextM = s.originM ∨ s.instant (t.msr.nextM - 1) < s.dtime + s.lead) ∧
      (∀ slot : Fin 256, s.armState slot = 1 → s.armTgt slot < t.msr.nextM → t.armState slot = 4) ∧
      (∀ slot : Fin 256, s.armState slot = 1 → t.msr.nextM ≤ s.armTgt slot → t.armState slot = 1) ∧ Within runReg s t := by
  refine runs_of_effect (exec_runSet ho) fun w => ?_
  have hp' : 0 < s.period := Nat.mul_pos hp (by decide)
  obtain ⟨h1, h2, h3⟩ := s.firstAt_spec (x := s.dtime + s.lead) hc hp'
  obtain ⟨hrun, hd, hm, harm⟩ := State.startMeasures_spec (s := { s with wrHold := w }) h hq
  refine ⟨hrun, hd, by rw [hm]; exact h1, by rw [hm]; exact h2, by rw [hm]; exact h3, fun slot ha ht => ?_, fun slot ha ht => ?_, ?_⟩
  · rw [hm] at ht
    rw [harm]
    exact if_pos ⟨ha, ht⟩
  · rw [hm] at ht
    rw [harm]
    exact (if_neg fun e => Nat.not_lt.mpr ht e.2).trans ha
  · exact ((State.startMeasures_alters (s := { s with wrHold := w }) h hq).within fun _ _ hk => .inr hk).settle

/-- RUN at 0, before what follows from it. -/
def State.stopped (s : State) : State := { s.wr R.MSR_CTL 0 with tmb := { s.tmb with ownGrid := false } }

theorem State.stopMeasures_eq (h : s.running = true) : s.stopMeasures =
    if s.msr.queue.isEmpty then ({ s.stopped with msr := { s.msr with idleFrom := s.etime } }).settleRights else s.stopped := by
  simp only [State.stopMeasures, h, Bool.not_true, Bool.false_eq_true, if_false]
  rfl

theorem State.stopped_run (s : State) : s.stopped.rd R.MSR_CTL = 0 := State.rd_wr_same s R.MSR_CTL 0 (by decide)

/-- RUN_CLEAR: the announced measures stay in the queue, and idle ticks count from here when there is none (R72). -/
theorem State.stopMeasures_spec (h : s.running = true) : let t := s.stopMeasures.settle
    t.running = false ∧ t.msr.queue = s.msr.queue ∧ t.msr.nextM = s.msr.nextM ∧ (s.msr.queue = [] → t.msr.idleFrom = s.etime) ∧
      (s.msr.queue ≠ [] → Kept s t fun k => k = R.MSR_CTL) ∧ t.mem = s.mem := by
  have hrun {t : State} (e : t.rd R.MSR_CTL = 0) : t.settle.running = false := by
    rw [State.running, State.settle_bit _ (by decide), State.bit, e]
    rfl
  rw [State.stopMeasures_eq h]
  cases hq : s.msr.queue with
  | nil =>
    have hk := State.settleRights_keepsGrid { s.stopped with msr := { s.msr with idleFrom := s.etime } }
    have hmsr := hk.msr
    rw [List.isEmpty_nil, if_pos rfl]
    refine ⟨hrun (hk.run.trans s.stopped_run), ?_, ?_, fun _ => ?_, fun hne => absurd rfl hne, ?_⟩
    · rw [State.settle_msr, hmsr]
      exact hq
    · rw [State.settle_msr, hmsr]
    · rw [State.settle_msr, hmsr]
    · rw [State.settle_mem, hk.mem]
      rfl
  | cons a l =>
    rw [List.isEmpty_cons, if_neg (by decide)]
    refine ⟨hrun s.stopped_run, ?_, ?_, fun e => absurd e (List.cons_ne_nil a l), fun _ k hf hk => ?_, ?_⟩
    · rw [State.settle_msr]
      exact hq
    · rw [State.settle_msr]
      rfl
    · rw [State.settle_rd _ (catReg_flagReg hf)]
      exact s.rd_wr_ne 0 (Ne.symm hk)
    · rw [State.settle_mem]
      rfl

/-! MSR_LEAD (R74). -/

theorem exec_msrLeadWrite {v : BitVec 32} (ho : Open s c pageMsr) : ∃ u, HeldOnly s u ∧ exec (.msrLeadWrite c v) s =
    settled (u.setLead ((s.rd R.MSR_LEAD &&& 0xFFFFFFFFFFFFF800) ||| (v.toNat &&& 0x7FF))) := by
  obtain ⟨u, hu, e⟩ := State.command_msrLead (v := v.toNat) (fun t new _ => t.setLead new) ho (by have := v.isLt; omega)
  exact ⟨u, hu, congrArg settled e⟩

theorem State.setLead_refused {new : Nat} (h : new < 64 ∨ 1024 < new) : s.setLead new = s.raise pageMsr 0x8009 none 0 0 :=
  if_pos (by simpa using h)

theorem State.setLead_stopped {new : Nat} (h1 : 64 ≤ new) (h2 : new ≤ 1024) (h : s.running = false) :
    s.setLead new = s.wr R.MSR_LEAD new := by
  have hr : (s.wr R.MSR_LEAD new).running = false := (State.bit_congr (s.rd_wr_ne new (by decide)) 0).trans h
  simp only [State.setLead, Nat.not_lt.mpr h1, Nat.not_lt.mpr h2, decide_false, Bool.or_self, Bool.false_eq_true, if_false,
    State.announceDue, hr, Bool.false_and]

theorem State.setLead_stored {new : Nat} (h1 : 64 ≤ new) (h2 : new ≤ 1024) (h : s.running = false) :
    (s.setLead new).settle.rd R.MSR_LEAD = new ∧ (s.setLead new).settle.msr = s.msr ∧
      Within (fun k => k = R.MSR_LEAD) s (s.setLead new).settle := by
  rw [State.setLead_stopped h1 h2 h]
  refine ⟨?_, State.settle_msr _, ((s.wr_alters (S := fun k _ => k = R.MSR_LEAD) new fun _ => rfl).within fun _ _ => .inr).settle⟩
  rw [State.settle_rd _ (by decide), State.rd_wr_same _ _ _ (by omega)]

/-! A change of period (R73, R84). -/

theorem exec_periodChangeSubmit {at_ : BitVec 64} (ho : Open s c pageMsr) :
    ∃ u, HeldOnly s u ∧ exec (.periodChangeSubmit c at_) s = settled (u.submitChange at_.toNat) := by
  obtain ⟨u, hu, e⟩ := State.command_changeAt (v := at_.toNat) (fun t new _ => t.submitChange new) ho at_.isLt
  exact ⟨u, hu, congrArg settled e⟩

/-- Is a pending change too far on to be replaced: has the measure after it been announced (R73)? -/
def State.changeLate (s : State) : Bool :=
  match s.msr.change with
  | some (c, _) => s.announcedM (c + 1)
  | none => false

theorem State.submitChange_following {m : Nat} (h : s.tmbState = stFollowing) : s.submitChange m = s.raise pageMsr 0x800D none 0 0 :=
  if_pos h

theorem State.submitChange_eq {m : Nat} (h : s.tmbState ≠ stFollowing) : s.submitChange m =
    if s.rd R.MSR_NEXT_PERIOD < 250 || 1000000000 < s.rd R.MSR_NEXT_PERIOD || m < s.rd R.MSR_NOW + 2 || s.announcedM (m + 1) ||
        s.changeLate || (s.bit R.TMB_STAT 6 && s.plainInstant m < s.dtime + 10000 * tickUs) then
      s.raise pageMsr 0x8009 none 0 0
    else { s.wr R.MSR_CHANGE_AT m with msr := { s.msr with change := some (m, s.rd R.MSR_NEXT_PERIOD) } } := if_neg h

theorem State.submitChange_refused {m : Nat} (h : s.tmbState ≠ stFollowing)
    (hb : s.rd R.MSR_NEXT_PERIOD < 250 ∨ 1000000000 < s.rd R.MSR_NEXT_PERIOD ∨ m < s.rd R.MSR_NOW + 2 ∨ s.announcedM (m + 1) = true) :
    s.submitChange m = s.raise pageMsr 0x8009 none 0 0 := by
  rw [State.submitChange_eq h]
  refine if_pos ?_
  simp only [Bool.or_eq_true, decide_eq_true_eq]
  tauto

theorem State.submitChange_taken {m : Nat} (h : s.tmbState ≠ stFollowing) (hcaller : s.bit R.TMB_STAT 6 = false)
    (h1 : 250 ≤ s.rd R.MSR_NEXT_PERIOD) (h2 : s.rd R.MSR_NEXT_PERIOD ≤ 1000000000) (h3 : s.rd R.MSR_NOW + 2 ≤ m)
    (h4 : s.announcedM (m + 1) = false) (h5 : ∀ x, s.msr.change = some x → s.announcedM (x.1 + 1) = false) :
    s.submitChange m = { s.wr R.MSR_CHANGE_AT m with msr := { s.msr with change := some (m, s.rd R.MSR_NEXT_PERIOD) } } := by
  have hl : s.changeLate = false := by
    unfold State.changeLate
    split
    · next c p hx => exact h5 (c, p) hx
    · rfl
  rw [State.submitChange_eq h]
  refine if_neg ?_
  simp only [Nat.not_lt.mpr h1, Nat.not_lt.mpr h2, Nat.not_lt.mpr h3, h4, hl, hcaller, decide_false, Bool.false_and, Bool.or_self,
    Bool.false_eq_true, not_false_eq_true]

/-- A change that is taken is pending from its submission on (R73). -/
theorem State.pending_spec {t : State} {m : Nat} (hm : m < 2 ^ 64)
    (e : t = { s.wr R.MSR_CHANGE_AT m with msr := { s.msr with change := some (m, s.rd R.MSR_NEXT_PERIOD) } }) :
    t.settle.msr = { s.msr with change := some (m, s.rd R.MSR_NEXT_PERIOD) } ∧ t.settle.rd R.MSR_CHANGE_AT = m ∧
      Within (fun k => k = R.MSR_CHANGE_AT) s t.settle := by
  subst e
  refine ⟨State.settle_msr _, (State.settle_rd _ (by decide)).trans (State.rd_wr_same _ _ _ hm), Within.settle ?_⟩
  have hw : Within (fun k => k = R.MSR_CHANGE_AT) s (s.wr R.MSR_CHANGE_AT m) :=
    (s.wr_alters (S := fun k _ => k = R.MSR_CHANGE_AT) m fun _ => rfl).within fun _ _ => .inr
  exact ⟨hw.1, hw.2⟩

end

end Sys2Proof.Machine

namespace Sys2Proof

open Machine Safety

/-- Settles O16: RUN by the first measure that lies ahead and the slots before it, MSR_LEAD and the change of period by their checks. -/
theorem measuresStartStopAndChange : Obligations.MeasuresStartStopAndChange := by
  intro s c ho
  refine ⟨fun h hq hc hp => runSet_starts ho h hq hc hp, fun h => ?_, fun v => ?_,
    fun m => ⟨fun h => ?_, fun h hb => ?_, fun h hcaller h1 h2 h3 h4 h5 => ?_⟩⟩
  · exact runs_of_effect (exec_runClear ho) fun w => State.stopMeasures_spec (s := { s with wrHold := w }) h
  · intro new
    refine ⟨fun h => ?_, fun h1 h2 h => ?_⟩
    · exact runs_of_effect (exec_msrLeadWrite ho) fun w =>
        State.dropped_spec (s := { s with wrHold := w }) (by decide) (State.setLead_refused (s := { s with wrHold := w }) h)
    · exact runs_of_effect (exec_msrLeadWrite ho) fun w => State.setLead_stored (s := { s with wrHold := w }) h1 h2 h
  · exact runs_of_effect (exec_periodChangeSubmit ho) fun w =>
      State.dropped_spec (s := { s with wrHold := w }) (by decide) (State.submitChange_following (s := { s with wrHold := w }) h)
  · exact runs_of_effect (exec_periodChangeSubmit ho) fun w =>
      State.dropped_spec (s := { s with wrHold := w }) (by decide) (State.submitChange_refused (s := { s with wrHold := w }) h hb)
  · exact runs_of_effect (exec_periodChangeSubmit ho) fun w => State.pending_spec (s := { s with wrHold := w }) m.isLt
      (State.submitChange_taken (s := { s with wrHold := w }) h hcaller h1 h2 h3 h4 h5)

end Sys2Proof
end

section
/-! The timebase's own operations: what each of them can change, said once (R58, R59, R64, R65, R68). -/

namespace Sys2Proof.Machine

open Safety

/-! Time passes (R68). -/

/-- At most what the passing of time changes: both clocks, what is left of a correction, and the free values used. -/
def Passes (s t : State) : Prop :=
  ∃ e d f sl c, t = { s with etime := e, dtime := d, fresh := f, tmb := { s.tmb with slew := sl, slewCredit := c } }

theorem Passes.refl (s : State) : Passes s s := ⟨s.etime, s.dtime, s.fresh, s.tmb.slew, s.tmb.slewCredit, rfl⟩

theorem State.slewOver_passes (s : State) (d a : Nat) : Passes s (s.slewOver d a) := ⟨_, _, s.fresh, _, _, rfl⟩

theorem State.elapse_passes (s : State) (d : Nat) : Passes s (s.elapse d) := by
  unfold State.elapse
  split
  · exact ⟨_, _, s.fresh, s.tmb.slew, s.tmb.slewCredit, rfl⟩
  · exact ⟨_, _, s.fresh + 1, _, _, rfl⟩

/-- How much of a correction DTIME takes back while time passes until it reads x, when it is to be slewed back (R68). -/
def State.slewBack (s : State) (x : Nat) : Nat :=
  Config.freeNat s.fresh % (min ((s.tmb.slewCredit + (x - s.dtime) * 50) / 1000000) s.tmb.slew.natAbs + 1)

/-- How much of a correction DTIME gains meanwhile, when it is to be slewed forth (R68). -/
def State.slewForth (s : State) (x : Nat) : Nat :=
  Config.freeNat s.fresh % (min (min ((s.tmb.slewCredit + (x - s.dtime) * 50) / 1000050) s.tmb.slew.natAbs) (x - s.dtime) + 1)

theorem State.slewForth_le (s : State) (x : Nat) : s.slewForth x ≤ x - s.dtime :=
  Nat.le_trans (Nat.lt_succ_iff.mp (Nat.mod_lt _ (Nat.succ_pos _))) (Nat.min_le_right _ _)

theorem State.until_eq (s : State) (x : Nat) : s.until x =
    if s.dtime < x then
      if s.tmb.slew = 0 then { s with etime := s.etime + (x - s.dtime), dtime := x }
      else if s.tmb.slew < 0 then ({ s with fresh := s.fresh + 1 }).slewOver (x - s.dtime + s.slewBack x) (s.slewBack x)
      else ({ s with fresh := s.fresh + 1 }).slewOver (x - s.dtime - s.slewForth x) (s.slewForth x)
    else s := rfl

theorem State.until_passes (s : State) (x : Nat) : Passes s (s.until x) := by
  rw [State.until_eq]
  split_ifs
  · exact ⟨_, _, s.fresh, s.tmb.slew, s.tmb.slewCredit, rfl⟩
  · exact ⟨_, _, s.fresh + 1, _, _, rfl⟩
  · exact ⟨_, _, s.fresh + 1, _, _, rfl⟩
  · exact .refl s

/-- What is slewed over a stretch of time adds to DTIME, or is taken back (R68). -/
theorem State.slewOver_dtime (s : State) (d a : Nat) :
    (s.slewOver d a).dtime = if s.tmb.slew < 0 then s.dtime + d - a else s.dtime + d + a := by
  simp only [State.slewOver]
  split
  · omega
  · omega

/-- DTIME reads the given time, or what it read already (R68). -/
theorem State.until_dtime (s : State) (x : Nat) : (s.until x).dtime = max s.dtime x := by
  have hle := s.slewForth_le x
  rw [State.until_eq]
  split_ifs with hx h0 hneg
  · exact (Nat.max_eq_right (Nat.le_of_lt hx)).symm
  · rw [State.slewOver_dtime, if_pos hneg]
    show s.dtime + (x - s.dtime + s.slewBack x) - s.slewBack x = max s.dtime x
    omega
  · rw [State.slewOver_dtime, if_neg hneg]
    show s.dtime + (x - s.dtime - s.slewForth x) + s.slewForth x = max s.dtime x
    omega
  · exact (Nat.max_eq_left (Nat.not_lt.mp hx)).symm

section
variable {s t : State} (h : Passes s t)
include h

theorem Passes.regs : t.regs = s.regs := by
  obtain ⟨_, _, _, _, _, rfl⟩ := h
  rfl

theorem Passes.rd (k : Nat) : t.rd k = s.rd k := State.rd_congr h.regs k

theorem Passes.bit (k i : Nat) : t.bit k i = s.bit k i := State.bit_congr (h.rd k) i

theorem Passes.fld (k hi lo : Nat) : t.fld k hi lo = s.fld k hi lo := State.fld_congr (h.rd k) hi lo

theorem Passes.msr : t.msr = s.msr := by
  obtain ⟨_, _, _, _, _, rfl⟩ := h
  rfl

theorem Passes.out : t.out = s.out := by
  obtain ⟨_, _, _, _, _, rfl⟩ := h
  rfl

theorem Passes.links : t.links = s.links := by
  obtain ⟨_, _, _, _, _, rfl⟩ := h
  rfl

theorem Passes.mem : SameMem s t := by
  obtain ⟨_, _, _, _, _, rfl⟩ := h
  exact ⟨rfl, rfl, rfl, rfl⟩

theorem Passes.tmbState : t.tmbState = s.tmbState := h.fld _ _ _

theorem Passes.within (p : Nat → Prop) : Within p s t := ⟨fun k _ _ => h.rd k, h.mem⟩

theorem Passes.alters (S : Nat → Nat → Prop) : Alters S s t := .of_regs h.regs h.mem

end

/-! Retuning: the state, the frequency, the roles. -/

/-- The timebase beside what its state machine holds: the learnt frequency and its copy in NOR, the accumulated error, the log of the
lock, the start of the 16 s of R61, the reports of alignment, and what the neighbours were told. -/
def Timebase.kept (t : Timebase) : Timebase :=
  { t with
    learnt := 0, norLearnt := none, lossAt := none, hoAcc := 0, hoSaid := false, lockLog := [], okFrom := none
    misaligned := false, advert := (0, 0, 0) }

/-- All that retuning can do, when S names the register bits that it may change: both clocks and the measures stay, the memories, and the
timebase beside its state machine; outputs are only added. -/
structure Retunes (S : Nat → Nat → Prop) (s t : State) : Prop extends Alters S s t where
  dtime : t.dtime = s.dtime
  etime : t.etime = s.etime
  msr : t.msr = s.msr
  kept : t.tmb.kept = s.tmb.kept
  out : ∃ l, t.out = s.out ++ l

section
variable {S S' : Nat → Nat → Prop} {s t u : State}

theorem Retunes.refl (S : Nat → Nat → Prop) (s : State) : Retunes S s s := ⟨.refl S s, rfl, rfl, rfl, rfl, [], (List.append_nil _).symm⟩

theorem Retunes.trans (h : Retunes S s t) (h' : Retunes S t u) : Retunes S s u := by
  obtain ⟨l, e⟩ := h.out
  obtain ⟨l', e'⟩ := h'.out
  exact ⟨h.toAlters.trans h'.toAlters, h'.dtime.trans h.dtime, h'.etime.trans h.etime, h'.msr.trans h.msr, h'.kept.trans h.kept,
    l ++ l', by rw [e', e, List.append_assoc]⟩

theorem Retunes.mono (h : Retunes S s t) (hS : ∀ k i, S k i → S' k i) : Retunes S' s t :=
  ⟨h.toAlters.mono hS, h.dtime, h.etime, h.msr, h.kept, h.out⟩

theorem Retunes.foldl {β : Type} (f : State → β → State) (hf : ∀ t b, Retunes S t (f t b)) (l : List β) (s : State) :
    Retunes S s (l.foldl f s) := by
  induction l generalizing s with
  | nil => exact .refl S s
  | cons b l ih => exact (hf s b).trans (ih _)

theorem FlagsOnly.retunes (h : FlagsOnly s t) : Retunes S s t := by
  have ho : ∃ l, t.out = s.out ++ l := by
    obtain ⟨_, _, l, _, _, _, e, -⟩ := h
    exact ⟨l, by rw [e]⟩
  exact ⟨.of_flags h, h.dtime, h.etime, h.msr, by rw [h.tmb], ho⟩

theorem NorOnly.retunes (h : NorOnly s t) (hS : ∀ k i, norReg k → S k i) : Retunes S s t := by
  have ha : Alters S s t := .of_nor h hS
  obtain ⟨_, _, o, _, _, _, _, _, _, _, _, rfl, -⟩ := h
  exact ⟨ha, rfl, rfl, rfl, rfl, o, rfl⟩

/-- A change of the timebase that leaves what `kept` names. -/
theorem State.setTmb_retunes (s : State) {x : Timebase} (h : x.kept = s.tmb.kept) : Retunes S s { s with tmb := x } :=
  ⟨.of_regs rfl ⟨rfl, rfl, rfl, rfl⟩, rfl, rfl, rfl, h, [], (List.append_nil _).symm⟩

theorem State.wr_retunes (s : State) {k : Nat} (v : Nat) (h : ∀ i, S k i) : Retunes S s (s.wr k v) :=
  ⟨s.wr_alters v h, rfl, rfl, rfl, rfl, [], (List.append_nil _).symm⟩

theorem State.setFld_retunes (s : State) {k hi lo : Nat} (v : Nat) (hl : lo ≤ hi) (h : ∀ i, lo ≤ i → i ≤ hi → S k i) :
    Retunes S s (s.setFld k hi lo v) :=
  ⟨s.setFld_alters v hl h, rfl, rfl, rfl, rfl, [], (List.append_nil _).symm⟩

theorem State.setBit_retunes (s : State) {k i : Nat} (b : Bool) (h : S k i) : Retunes S s (s.setBit k i b) :=
  ⟨s.setBit_alters b h, rfl, rfl, rfl, rfl, [], (List.append_nil _).symm⟩

theorem State.raise_retunes (s : State) (p code : Nat) (client : Option Nat) (addr aux : Nat) :
    Retunes S s (s.raise p code client addr aux) := (s.raise_flags p code client addr aux).retunes

theorem State.setIrq_retunes (s : State) (p b c : Nat) : Retunes S s (s.setIrq p b c) := (s.setIrq_flags p b c).retunes

theorem Retunes.settle (h : Retunes S s t) : Retunes S s t.settle := h.trans t.settle_only.flags.retunes

end

/-- The registers of the frequency correction and of the holdover estimate (R91). -/
def freqBits (k : Nat) (_ : Nat) : Prop := k = R.TMB_FREQ_ADJ ∨ k = R.TMB_HO_EST

/-- The register bits that a new state of the timebase can change: STATE, the frequency, the holdover estimate (R59, R91). -/
def tuneBits (k i : Nat) : Prop := k = R.TMB_STAT ∧ i ≤ 2 ∨ freqBits k i

/-- The same, and the registers that saving the learnt frequency in NOR counts in (R65). -/
def stateBits (k i : Nat) : Prop := tuneBits k i ∨ norReg k

/-- The bits of the roles of R82: caller and hop count in TMB_STAT, TMB_CALLER and TMB_UP_LINK. -/
def roleBits (k i : Nat) : Prop :=
  k = R.TMB_STAT ∧ (i = 6 ∨ 12 ≤ i ∧ i ≤ 15) ∨ k = R.TMB_CALLER ∨ k = R.TMB_UP_LINK

/-- All that an election can change: the roles, the state, and ALIGNED (R81, R82, R89). -/
def electBits (k i : Nat) : Prop := stateBits k i ∨ roleBits k i ∨ k = R.TMB_STAT ∧ i = 5

theorem freqBits_adj (i : Nat) : freqBits R.TMB_FREQ_ADJ i := .inl rfl

theorem electBits.page {k i : Nat} (h : electBits k i) : k / 0x10000 = pageTmb ∨ norReg k := by
  simp only [electBits, stateBits, tuneBits, freqBits, roleBits] at h
  rcases h with ((⟨rfl, -⟩ | rfl | rfl) | h) | (⟨rfl, -⟩ | rfl | rfl) | ⟨rfl, -⟩
  any_goals exact .inl rfl
  exact .inr h

section
variable (s : State)

theorem State.steerFreq_retunes : Retunes freqBits s s.steerFreq := by
  have h (x : Timebase) (f v : Nat) (hx : x.kept = s.tmb.kept) :
      Retunes freqBits s { ({ s with fresh := f } : State).wr R.TMB_FREQ_ADJ v with tmb := x } :=
    ⟨⟨(s.wr_alters v freqBits_adj).bit, rfl, rfl, rfl, rfl⟩, rfl, rfl, rfl, hx, [], (List.append_nil _).symm⟩
  exact h _ (s.fresh + 1) _ rfl

theorem State.freeFreq_retunes : Retunes freqBits s s.freeFreq := s.wr_retunes _ freqBits_adj

theorem State.quot_eq (n : Int) (d : Nat) : ∃ f, (s.quot n d).2 = { s with fresh := f } := by
  unfold State.quot
  split
  · exact ⟨s.fresh, rfl⟩
  · exact ⟨s.fresh + 1, rfl⟩

theorem State.fresh_retunes {S : Nat → Nat → Prop} (f : Nat) : Retunes S s { s with fresh := f } :=
  ⟨.of_regs rfl ⟨rfl, rfl, rfl, rfl⟩, rfl, rfl, rfl, rfl, [], (List.append_nil _).symm⟩

/-- The frequency of HOLDOVER, by the sum and the number that the log of the lock gives (R59). -/
theorem State.averageFreq_eq : s.averageFreq =
    if (weighFreq (s.etime - lockSpan) s.etime s.tmb.lockLog).2 = 0 then s
    else (s.quot (weighFreq (s.etime - lockSpan) s.etime s.tmb.lockLog).1 (weighFreq (s.etime - lockSpan) s.etime s.tmb.lockLog).2).2.wr
      R.TMB_FREQ_ADJ (toTwos 32 (s.quot (weighFreq (s.etime - lockSpan) s.etime s.tmb.lockLog).1
        (weighFreq (s.etime - lockSpan) s.etime s.tmb.lockLog).2).1) := rfl

theorem State.averageFreq_retunes : Retunes freqBits s s.averageFreq := by
  rw [State.averageFreq_eq]
  split
  · exact .refl _ s
  · obtain ⟨f, e⟩ := s.quot_eq (weighFreq (s.etime - lockSpan) s.etime s.tmb.lockLog).1
      (weighFreq (s.etime - lockSpan) s.etime s.tmb.lockLog).2
    rw [e]
    exact (s.fresh_retunes f).trans (State.wr_retunes _ _ freqBits_adj)

theorem State.averageFreq_tmb : s.averageFreq.tmb = s.tmb := by
  rw [State.averageFreq_eq]
  split
  · rfl
  · obtain ⟨f, e⟩ := s.quot_eq (weighFreq (s.etime - lockSpan) s.etime s.tmb.lockLog).1
      (weighFreq (s.etime - lockSpan) s.etime s.tmb.lockLog).2
    rw [e]
    rfl

theorem State.enterState_retunes {S : Nat → Nat → Prop} (v : Nat) : Retunes S s (s.enterState v) := s.setTmb_retunes rfl

theorem State.enterState_norLearnt (v : Nat) : (s.enterState v).tmb.norLearnt = s.tmb.norLearnt := rfl

theorem State.trefSteers_retunes : Retunes freqBits s s.trefSteers := by
  unfold State.trefSteers
  split
  · exact s.steerFreq_retunes
  · exact .refl _ s

theorem State.beginAcquire_retunes : Retunes freqBits s s.beginAcquire := by
  unfold State.beginAcquire
  extract_lets tref e s1
  have h1 : Retunes freqBits s s1 := s.setTmb_retunes rfl
  split
  · exact h1.trans s1.steerFreq_retunes
  · exact h1

theorem State.saveFreq_retunes {S : Nat → Nat → Prop} (hS : ∀ k i, norReg k → S k i) : Retunes S s s.saveFreq := by
  have h : Retunes S s { s with tmb := { s.tmb with norLearnt := some s.tmb.learnt } } := s.setTmb_retunes rfl
  unfold State.saveFreq
  exact h.trans ((State.norLog_only _ logFreq (.freq s.tmb.norLearnt)).retunes hS)

theorem State.saveFreq_tmb : s.saveFreq.tmb = { s.tmb with norLearnt := some s.tmb.learnt } := by
  obtain ⟨_, _, _, _, _, _, _, _, _, _, _, e, -⟩ :=
    State.norLog_only { s with tmb := { s.tmb with norLearnt := some s.tmb.learnt } } logFreq (.freq s.tmb.norLearnt)
  rw [State.saveFreq, e]

/-! A new state (R59). -/

/-- What the states that are no lock do to the frequency on entry, and the lock's log (R59). -/
def State.enterFreq (v : Nat) : State :=
  if v = stAcquiring then (s.enterState v).beginAcquire
  else (if v = stHoldover then s.saveFreq.averageFreq else if v = stFree then s.freeFreq else s).enterState v

/-- The holdover error starts with the loss of a lock, and ends with a new one (R64). -/
def State.markLoss (old v : Nat) : State :=
  if v ≠ stLocked && v ≠ stFollowing && (old = stLocked || old = stFollowing) then
    { s with tmb := { s.tmb with lossAt := some s.etime, hoAcc := 0, hoSaid := false } }
  else if v = stLocked || v = stFollowing then
    { s.wr R.TMB_HO_EST 0 with tmb := { s.tmb with lossAt := none, hoAcc := 0, hoSaid := false } }
  else s

theorem State.markLoss_locked (old : Nat) : s.markLoss old stLocked =
    { s.wr R.TMB_HO_EST 0 with tmb := { s.tmb with lossAt := none, hoAcc := 0, hoSaid := false } } := by
  unfold State.markLoss
  rw [if_neg (by simp), if_pos (by simp)]

theorem State.setTmbState_self {v : Nat} (h : s.tmbState = v) : s.setTmbState v = s := if_pos h

theorem State.setTmbState_eq {v : Nat} (h : s.tmbState ≠ v) : s.setTmbState v =
    if v = stLocked || v = stFollowing then
      ((((s.setFld R.TMB_STAT 2 0 v).setIrq pageTmb 4 8).enterFreq v).markLoss s.tmbState v).raise pageTmb 0x8003 none 0 0
    else ((((s.setFld R.TMB_STAT 2 0 v).setIrq pageTmb 4 8).enterFreq v).markLoss s.tmbState v) := if_neg h

theorem State.enterFreq_retunes (v : Nat) : Retunes (fun k i => freqBits k i ∨ norReg k) s (s.enterFreq v) := by
  have hm {t u : State} (h : Retunes freqBits t u) : Retunes (fun k i => freqBits k i ∨ norReg k) t u := h.mono fun _ _ => .inl
  unfold State.enterFreq
  split
  · exact (s.enterState_retunes v).trans (hm (State.beginAcquire_retunes _))
  · refine Retunes.trans ?_ (State.enterState_retunes _ v)
    split
    · exact (s.saveFreq_retunes fun _ _ => .inr).trans (hm (State.averageFreq_retunes _))
    · split
      · exact hm s.freeFreq_retunes
      · exact .refl _ s

/-- NOR is written on entry to HOLDOVER alone (R65). -/
theorem State.enterFreq_tunes {v : Nat} (h : v ≠ stHoldover) : Retunes freqBits s (s.enterFreq v) := by
  unfold State.enterFreq
  rw [if_neg h]
  split
  · exact (s.enterState_retunes v).trans (State.beginAcquire_retunes _)
  · refine Retunes.trans ?_ (State.enterState_retunes _ v)
    split
    · exact s.freeFreq_retunes
    · exact .refl _ s

theorem State.markLoss_retunes (old v : Nat) : Retunes freqBits s (s.markLoss old v) := by
  unfold State.markLoss
  split
  · exact s.setTmb_retunes rfl
  · split
    · exact ⟨⟨(s.wr_alters (S := freqBits) 0 fun _ => .inr rfl).bit, rfl, rfl, rfl, rfl⟩, rfl, rfl, rfl, rfl, [],
        (List.append_nil _).symm⟩
    · exact .refl _ s

theorem State.putState_retunes (v : Nat) : Retunes tuneBits s ((s.setFld R.TMB_STAT 2 0 v).setIrq pageTmb 4 8) :=
  (s.setFld_retunes v (by decide) fun _ _ h => .inl ⟨rfl, h⟩).trans (State.setIrq_retunes _ _ _ _)

theorem freqBits.tune {k i : Nat} (h : freqBits k i) : tuneBits k i := .inr h

theorem State.setTmbState_retunes (v : Nat) : Retunes stateBits s (s.setTmbState v) := by
  by_cases h : s.tmbState = v
  · rw [s.setTmbState_self h]
    exact .refl _ s
  · have h1 := (((s.putState_retunes v).mono fun _ _ => Or.inl).trans ((State.enterFreq_retunes _ v).mono fun _ _ h =>
      h.imp freqBits.tune id)).trans ((State.markLoss_retunes _ s.tmbState v).mono fun _ _ h => .inl h.tune)
    rw [s.setTmbState_eq h]
    split
    · exact h1.trans (State.raise_retunes _ _ _ _ _ _)
    · exact h1

theorem State.setTmbState_tunes {v : Nat} (hv : v ≠ stHoldover) : Retunes tuneBits s (s.setTmbState v) := by
  by_cases h : s.tmbState = v
  · rw [s.setTmbState_self h]
    exact .refl _ s
  · have h1 := ((s.putState_retunes v).trans ((State.enterFreq_tunes _ hv).mono fun _ _ => freqBits.tune)).trans
      ((State.markLoss_retunes _ s.tmbState v).mono fun _ _ => freqBits.tune)
    rw [s.setTmbState_eq h]
    split
    · exact h1.trans (State.raise_retunes _ _ _ _ _ _)
    · exact h1

end

section
variable {s t : State}

/-- What leaves the bits of TMB_STAT leaves the state. -/
theorem Alters.tmbState {S : Nat → Nat → Prop} (h : Alters S s t) (hS : ∀ i, i ≤ 2 → ¬ S R.TMB_STAT i) : t.tmbState = s.tmbState :=
  h.fld (by decide) fun i _ hi => hS i hi

theorem State.enterFreq_tmbState (s : State) (v : Nat) : (s.enterFreq v).tmbState = s.tmbState :=
  (s.enterFreq_retunes v).tmbState fun i _ => by
    simp only [freqBits, norReg, R.TMB_STAT, R.TMB_FREQ_ADJ, R.TMB_HO_EST, R.NOR_LAST_SECT, R.NOR_SUSP]
    omega

theorem State.markLoss_tmbState (s : State) (old v : Nat) : (s.markLoss old v).tmbState = s.tmbState :=
  (s.markLoss_retunes old v).tmbState fun i _ => by
    simp only [freqBits, R.TMB_STAT, R.TMB_FREQ_ADJ, R.TMB_HO_EST]
    omega

theorem FlagsOnly.tmbState (h : FlagsOnly s t) : t.tmbState = s.tmbState := State.fld_congr (h.rd (by decide)) 2 0

/-- A new state of the timebase is the one asked for (R59). -/
theorem State.setTmbState_tmbState (s : State) {v : Nat} (hv : v < 8) : (s.setTmbState v).tmbState = v := by
  by_cases h : s.tmbState = v
  · rw [s.setTmbState_self h, h]
  · have h1 : ((s.setFld R.TMB_STAT 2 0 v).setIrq pageTmb 4 8).tmbState = v :=
      ((State.setIrq_flags _ _ _ _).tmbState).trans ((s.fld_setFld R.TMB_STAT 2 0 v (by decide) (by decide)).trans (Nat.mod_eq_of_lt hv))
    have h2 := (State.markLoss_tmbState _ s.tmbState v).trans ((State.enterFreq_tmbState _ v).trans h1)
    rw [s.setTmbState_eq h]
    split
    · exact ((State.raise_flags _ _ _ _ _ _).tmbState).trans h2
    · exact h2

/-- On entry to HOLDOVER the learnt frequency is saved (R65). -/
theorem State.setTmbState_norLearnt (s : State) (h : s.tmbState ≠ stHoldover) :
    (s.setTmbState stHoldover).tmb.norLearnt = some s.tmb.learnt := by
  have hm (u : State) (old : Nat) : (u.markLoss old stHoldover).tmb.norLearnt = u.tmb.norLearnt := by
    unfold State.markLoss
    split_ifs
    · rfl
    · rfl
    · rfl
  have hf (u : State) : (u.enterFreq stHoldover).tmb.norLearnt = some u.tmb.learnt := by
    unfold State.enterFreq
    rw [if_neg (by decide), if_pos rfl]
    rw [State.enterState_norLearnt, State.averageFreq_tmb, State.saveFreq_tmb]
  rw [s.setTmbState_eq h, if_neg (by decide), hm, hf, State.setIrq_tmb]
  rfl

/-- On lock the holdover error ends (R64). -/
theorem State.setTmbState_locked (s : State) (h : s.tmbState ≠ stLocked) :
    (s.setTmbState stLocked).tmb.lossAt = none ∧ (s.setTmbState stLocked).rd R.TMB_HO_EST = 0 := by
  rw [s.setTmbState_eq h, if_pos (by decide), State.raise_tmb, State.raise_rd _ _ _ _ _ _ (by decide)]
  generalize ((s.setFld R.TMB_STAT 2 0 stLocked).setIrq pageTmb 4 8).enterFreq stLocked = u
  rw [State.markLoss_locked]
  exact ⟨rfl, State.rd_wr_same u R.TMB_HO_EST 0 (by decide)⟩

/-! The source (R59). -/

theorem State.inLock_iff (s : State) : s.inLock = true ↔ s.tmbState = stLocked ∨ s.tmbState = stFollowing := by
  simp only [State.inLock, Bool.or_eq_true, decide_eq_true_eq]

theorem State.sourceLost_retunes (s : State) : Retunes stateBits s s.sourceLost := by
  unfold State.sourceLost
  split
  · exact (s.setTmbState_retunes _).trans (State.raise_retunes _ _ _ _ _ _)
  · exact s.setTmb_retunes rfl

theorem State.sourceLost_tmbState (s : State) : s.sourceLost.tmbState = if s.inLock then stHoldover else s.tmbState := by
  unfold State.sourceLost
  split
  · exact ((State.raise_flags _ _ _ _ _ _).tmbState).trans (s.setTmbState_tmbState (by decide))
  · rfl

theorem State.sourceLost_norLearnt (s : State) (h : s.inLock = true) : s.sourceLost.tmb.norLearnt = some s.tmb.learnt := by
  have hne : s.tmbState ≠ stHoldover := by
    rcases s.inLock_iff.mp h with e | e <;> rw [e] <;> decide
  rw [State.sourceLost, if_pos h, State.raise_tmb, s.setTmbState_norLearnt hne]

theorem State.tryAcquire_tunes (s : State) : Retunes tuneBits s s.tryAcquire := by
  unfold State.tryAcquire
  split
  · exact s.setTmbState_tunes (by decide)
  · exact .refl _ s

theorem State.tryAcquire_tmbState (s : State) : s.tryAcquire.tmbState =
    if (s.tmbState = stFree || s.tmbState = stHoldover) && s.srcValid then stAcquiring else s.tmbState := by
  unfold State.tryAcquire
  split
  · exact s.setTmbState_tmbState (by decide)
  · rfl

end

end Sys2Proof.Machine
end

section
/-! The election of the caller and the roles (R81, R82, R89). -/

namespace Sys2Proof.Machine

open Safety

section
variable (s : State)

/-! The neighbours hear what changed: outputs, and the note of what was told. -/

theorem State.advertiseOn_eq (l : Nat) : ∃ o, s.advertiseOn l = { s with out := s.out ++ o } := by
  unfold State.advertiseOn
  split
  · exact ⟨_, rfl⟩
  · exact ⟨[], by rw [List.append_nil]⟩

theorem State.advertiseAll_eq (ls : List Nat) : ∃ o, ls.foldl (fun t l => t.advertiseOn l) s = { s with out := s.out ++ o } := by
  induction ls generalizing s with
  | nil => exact ⟨[], by rw [List.append_nil]; rfl⟩
  | cons l ls ih =>
    obtain ⟨o, e⟩ := s.advertiseOn_eq l
    obtain ⟨o', e'⟩ := ih (s.advertiseOn l)
    exact ⟨o ++ o', by rw [List.foldl_cons, e', e, ← List.append_assoc]⟩

theorem State.advertise_eq : ∃ o a, s.advertise = { s with out := s.out ++ o, tmb := { s.tmb with advert := a } } := by
  unfold State.advertise
  extract_lets now e
  split
  · exact ⟨[], s.tmb.advert, by rw [List.append_nil]⟩
  · obtain ⟨o, e⟩ := State.advertiseAll_eq { s with tmb := { s.tmb with advert := now } }
      ((List.range 32).filter fun l => s.fld (R.LNK_STAT l) 2 0 = 4)
    exact ⟨o, now, e⟩

theorem State.advertise_regs : s.advertise.regs = s.regs := by
  obtain ⟨o, a, e⟩ := s.advertise_eq
  rw [e]

theorem State.advertise_retunes (S : Nat → Nat → Prop) : Retunes S s s.advertise := by
  obtain ⟨o, a, e⟩ := s.advertise_eq
  rw [e]
  exact ⟨.of_regs rfl ⟨rfl, rfl, rfl, rfl⟩, rfl, rfl, rfl, rfl, o, rfl⟩

/-! The roles (R82). -/

/-- The role registers take what a caller key gives: the caller's mark, the hop count and the upstream (R82, R91). -/
def State.putRole (key : Nat) (mine : Bool) (hops up : Nat) : State :=
  (((s.wr R.TMB_CALLER (callerReg key)).setBit R.TMB_STAT 6 mine).setFld R.TMB_STAT 15 12 hops).wr R.TMB_UP_LINK up

/-- The role, with an interrupt when the caller is another (R82, R91). -/
theorem State.takeRole_eq (key : Nat) : ∃ mine hops up, s.takeRole key =
    if s.rd R.TMB_CALLER = callerReg key then s.putRole key mine hops up else (s.putRole key mine hops up).setIrq pageTmb 5 8 :=
  ⟨_, _, _, rfl⟩

theorem State.putRole_retunes (key : Nat) (mine : Bool) (hops up : Nat) : Retunes roleBits s (s.putRole key mine hops up) := by
  have h1 := s.wr_retunes (S := roleBits) (callerReg key) (k := R.TMB_CALLER) fun _ => .inr (.inl rfl)
  have h2 := (s.wr R.TMB_CALLER (callerReg key)).setBit_retunes (S := roleBits) (k := R.TMB_STAT) (i := 6) mine (.inl ⟨rfl, .inl rfl⟩)
  have h3 (t : State) := t.setFld_retunes (S := roleBits) (k := R.TMB_STAT) (hi := 15) (lo := 12) hops (by decide)
    fun _ a b => .inl ⟨rfl, .inr ⟨a, b⟩⟩
  have h4 (t : State) := t.wr_retunes (S := roleBits) up (k := R.TMB_UP_LINK) fun _ => .inr (.inr rfl)
  exact ((h1.trans h2).trans (h3 _)).trans (h4 _)

theorem State.takeRole_retunes (key : Nat) : Retunes roleBits s (s.takeRole key) := by
  obtain ⟨mine, hops, up, e⟩ := s.takeRole_eq key
  rw [e]
  split
  · exact s.putRole_retunes key mine hops up
  · exact (s.putRole_retunes key mine hops up).trans (State.setIrq_retunes _ _ _ _)

theorem State.putRole_tmb (key : Nat) (mine : Bool) (hops up : Nat) : (s.putRole key mine hops up).tmb = s.tmb := by
  rw [State.putRole, State.wr_tmb, State.setFld, State.wr_tmb, State.setBit, State.setFld, State.wr_tmb, State.wr_tmb]

theorem State.takeRole_tmb (key : Nat) : (s.takeRole key).tmb = s.tmb := by
  obtain ⟨mine, hops, up, e⟩ := s.takeRole_eq key
  rw [e]
  split
  · rw [State.putRole_tmb]
  · rw [State.setIrq_tmb, State.putRole_tmb]

theorem callerReg_lt (key : Nat) : callerReg key < 2 ^ 64 := by
  have h1 := bits_lt key 22 11
  have h2 := bits_lt key 30 23
  have h3 := bits_lt key 31 31
  unfold callerReg
  split
  · decide
  · norm_num at h1 h2 h3 ⊢
    omega

/-- TMB_CALLER tells the caller that was elected (R91). -/
theorem State.takeRole_caller (key : Nat) : (s.takeRole key).rd R.TMB_CALLER = callerReg key := by
  obtain ⟨mine, hops, up, e⟩ := s.takeRole_eq key
  have h : (s.putRole key mine hops up).rd R.TMB_CALLER = callerReg key := by
    rw [State.putRole, State.rd_wr_ne _ _ (by decide), State.rd_setFld_ne _ _ _ _ (by decide), State.rd_setBit_ne _ _ _ (by decide),
      State.rd_wr_same _ _ _ (callerReg_lt key)]
  rw [e]
  split
  · exact h
  · rw [State.setIrq_rd _ _ _ _ (by decide), h]

theorem State.takeRole_tmbState (key : Nat) : (s.takeRole key).tmbState = s.tmbState :=
  (s.takeRole_retunes key).tmbState fun i hi h => by
    simp only [roleBits, R.TMB_STAT, R.TMB_CALLER, R.TMB_UP_LINK] at h
    omega

/-! Alignment (R89). -/

/-- The mark of alignment, which a module that is not aligned clears (R91). -/
def alignBit (k i : Nat) : Prop := k = R.TMB_STAT ∧ i = 5

theorem State.unalign_retunes : Retunes alignBit s (((s.setBit R.TMB_STAT 5 false).setIrq pageTmb 7 8).raise pageTmb 0x800C none 0 0) :=
  ((s.setBit_retunes false ⟨rfl, rfl⟩).trans (State.setIrq_retunes _ _ _ _)).trans (State.raise_retunes _ _ _ _ _ _)

theorem State.loseAlign_retunes : Retunes alignBit s s.loseAlign := by
  unfold State.loseAlign
  split
  · exact s.unalign_retunes
  · exact .refl _ s

theorem State.loseAlign_tmb : s.loseAlign.tmb = s.tmb := by
  unfold State.loseAlign
  split
  · rw [State.raise_tmb, State.setIrq_tmb]
    rfl
  · rfl

theorem State.loseAlign_aligned : s.loseAlign.bit R.TMB_STAT 5 = false := by
  unfold State.loseAlign
  split
  · rw [State.bit_congr (State.raise_rd _ _ _ _ _ _ (by decide)), State.bit_congr (State.setIrq_rd _ _ _ _ (by decide)),
      State.bit_setBit _ _ _ _ _ _ (by decide), if_pos ⟨rfl, rfl⟩]
  · next h => exact Bool.eq_false_iff.mpr h

theorem State.setMisaligned_retunes (S : Nat → Nat → Prop) : Retunes S s { s with tmb := { s.tmb with misaligned := true } } :=
  s.setTmb_retunes rfl

theorem State.misalign_retunes : Retunes alignBit s s.misalign := by
  unfold State.misalign
  split
  · exact s.loseAlign_retunes
  · have h := s.unalign_retunes
    generalize ((s.setBit R.TMB_STAT 5 false).setIrq pageTmb 7 8).raise pageTmb 0x800C none 0 0 = u at h
    exact h.trans (u.setMisaligned_retunes _)

theorem State.alignBit_tmbState {t : State} (h : Retunes alignBit s t) : t.tmbState = s.tmbState :=
  h.tmbState fun i hi e => by
    have := e.2
    omega

/-! The election (R81). -/

/-- The key that the election finds: the highest among this module's own and its neighbours', while FABRIC is set (R81). -/
def State.electKey : Nat := if s.bit R.TMB_CTL 4 then s.reachable.foldl (fun a e => max a e.2.best) s.ownKey else 0

/-- What an election makes of the state: a follower left without an upstream follows no longer (R81). -/
def State.electState : State :=
  if (s.takeRole s.electKey).tmbState = stFollowing && !(s.takeRole s.electKey).bit R.TMB_UP_LINK 7 then
    (s.takeRole s.electKey).loseAlign.sourceLost.tryAcquire
  else s.takeRole s.electKey

theorem State.elect_eq : s.elect =
    (if s.electState.tmbState = stFollowing && 8 < s.electState.fld R.TMB_STAT 15 12 then s.electState.misalign
      else s.electState).advertise := rfl

theorem State.elect_retunes : Retunes electBits s s.elect := by
  have hs {t u : State} (h : Retunes stateBits t u) : Retunes electBits t u := h.mono fun _ _ => .inl
  have hr := (s.takeRole_retunes s.electKey).mono (S' := electBits) fun _ _ h => .inr (.inl h)
  have ha {t u : State} (h : Retunes alignBit t u) : Retunes electBits t u := h.mono fun _ _ h => .inr (.inr h)
  have h1 : Retunes electBits s s.electState := by
    unfold State.electState
    split
    · exact ((hr.trans (ha (State.loseAlign_retunes _))).trans (hs (State.sourceLost_retunes _))).trans
        (hs ((State.tryAcquire_tunes _).mono fun _ _ => .inl))
    · exact hr
  rw [State.elect_eq]
  split
  · exact (h1.trans (ha (State.misalign_retunes _))).trans (State.advertise_retunes _ _)
  · exact h1.trans (State.advertise_retunes _ _)

/-- The election of a module that does not follow gives it its role, and no more (R81, R82). -/
theorem State.elect_plain {s : State} (h : s.tmbState ≠ stFollowing) : s.elect = (s.takeRole s.electKey).advertise := by
  have h1 : (s.takeRole s.electKey).tmbState ≠ stFollowing := by rwa [State.takeRole_tmbState]
  have h2 : s.electState = s.takeRole s.electKey := if_neg (by simp [h1])
  rw [State.elect_eq, h2, if_neg (by simp [h1])]

theorem State.elect_plain_retunes {s : State} (h : s.tmbState ≠ stFollowing) : Retunes roleBits s s.elect := by
  rw [State.elect_plain h]
  exact (s.takeRole_retunes _).trans (State.advertise_retunes _ _)

theorem State.elect_plain_tmbState {s : State} (h : s.tmbState ≠ stFollowing) : s.elect.tmbState = s.tmbState :=
  (State.elect_plain_retunes h).tmbState fun i hi h => by
    simp only [roleBits, R.TMB_STAT, R.TMB_CALLER, R.TMB_UP_LINK] at h
    omega

/-- It leaves the timebase but for what the neighbours were told. -/
theorem State.elect_plain_tmb {s : State} (h : s.tmbState ≠ stFollowing) : ∃ a, s.elect.tmb = { s.tmb with advert := a } := by
  obtain ⟨o, a, e⟩ := (s.takeRole s.electKey).advertise_eq
  rw [State.elect_plain h, e]
  exact ⟨a, by rw [State.takeRole_tmb]⟩

theorem State.elect_plain_lossAt {s : State} (h : s.tmbState ≠ stFollowing) : s.elect.tmb.lossAt = s.tmb.lossAt := by
  obtain ⟨a, e⟩ := State.elect_plain_tmb h
  rw [e]

theorem State.elect_plain_norLearnt {s : State} (h : s.tmbState ≠ stFollowing) : s.elect.tmb.norLearnt = s.tmb.norLearnt := by
  obtain ⟨a, e⟩ := State.elect_plain_tmb h
  rw [e]

end

end Sys2Proof.Machine
end

section
/-! LOAD_NOW, LOAD_AT_PPS, SAVE_FREQ and TMB_CTL_WRITE (R58, R59, R65, R68, R91, R92). -/

namespace Sys2Proof.Machine

open Safety

/-- A field of writable bits takes what was written (R8). -/
theorem bits_stored (old v m : Nat) {hi lo : Nat} (h64 : hi < 64) (hm : ∀ i, lo ≤ i → i ≤ hi → m.testBit i = true) :
    bits ((old &&& (0xFFFFFFFFFFFFFFFF ^^^ m)) ||| (v &&& m)) hi lo = bits v hi lo := by
  refine Nat.eq_of_testBit_eq fun i => ?_
  simp only [bits, Nat.testBit_mod_two_pow, Nat.testBit_div_two_pow]
  by_cases hi' : i < hi + 1 - lo
  · have hmi := hm (i + lo) (by omega) (by omega)
    have hfull : Nat.testBit 0xFFFFFFFFFFFFFFFF (i + lo) = true := by
      rw [show (0xFFFFFFFFFFFFFFFF : Nat) = 2 ^ 64 - 1 from rfl, Nat.testBit_two_pow_sub_one]
      exact decide_eq_true (by omega)
    simp [hmi, hfull]
  · simp [hi']

theorem bits_low (x n : Nat) : bits x n 0 = x % 2 ^ (n + 1) := by rw [bits, Nat.pow_zero, Nat.div_one, Nat.sub_zero]

/-! Loads (R68, R92). -/

section
variable {s : State} {c : Client}

theorem exec_loadNow (ho : Open s c pageTmb) : ∃ u, HeldOnly s u ∧ exec (.loadNow c) s = settled (u.tmbCmd 1) := by
  obtain ⟨u, hu, e⟩ := State.command_tmbCmd (v := 1) (fun t _ raw => t.tmbCmd raw) ho (by decide)
  exact ⟨u, hu, congrArg settled e⟩

theorem exec_loadAtPps (ho : Open s c pageTmb) : ∃ u, HeldOnly s u ∧ exec (.loadAtPps c) s = settled (u.tmbCmd 2) := by
  obtain ⟨u, hu, e⟩ := State.command_tmbCmd (v := 2) (fun t _ raw => t.tmbCmd raw) ho (by decide)
  exact ⟨u, hu, congrArg settled e⟩

theorem exec_saveFreq (ho : Open s c pageTmb) : ∃ u, HeldOnly s u ∧ exec (.saveFreq c) s = settled (u.tmbCmd 4) := by
  obtain ⟨u, hu, e⟩ := State.command_tmbCmd (v := 4) (fun t _ raw => t.tmbCmd raw) ho (by decide)
  exact ⟨u, hu, congrArg settled e⟩

theorem State.tmbCmd_now (s : State) : s.tmbCmd 1 = if s.running then s.raise pageTmb 0x800E none 0 0 else s.loadTime s.setValue := rfl

theorem State.tmbCmd_pps (s : State) : s.tmbCmd 2 =
    if s.running then s.raise pageTmb 0x800E none 0 0 else { s with tmb := { s.tmb with loadPending := true } } := rfl

theorem State.tmbCmd_save (s : State) : s.tmbCmd 4 = s.saveFreq := rfl

theorem State.loadTime_alters (s : State) (x : Nat) : Alters (fun k i => k = R.TMB_STAT ∧ i = 3) s (s.loadTime x) :=
  ⟨(s.setBit_alters (k := R.TMB_STAT) (i := 3) true ⟨rfl, rfl⟩).bit, rfl, rfl, rfl, rfl⟩

theorem State.loadTime_loaded (s : State) (x : Nat) : (s.loadTime x).bit R.TMB_STAT 3 = true := by
  rw [State.loadTime, State.bit_setBit _ _ _ _ _ _ (by decide), if_pos ⟨rfl, rfl⟩]

/-- A load takes the set registers, and ends a correction (R68, R92). -/
theorem State.tmbCmd_loads (h : s.running = false) : let t := (s.tmbCmd 1).settle
    t.dtime = s.setValue ∧ t.etime = s.etime ∧ t.bit R.TMB_STAT 3 = true ∧ t.tmb.slew = 0 ∧ Within (fun k => k = R.TMB_STAT) s t := by
  have hf : ¬ s.running = true := Bool.eq_false_iff.mp h
  rw [State.tmbCmd_now, if_neg hf]
  refine ⟨State.settle_dtime _, State.settle_etime _, ?_, congrArg Timebase.slew (State.settle_tmb _), ?_⟩
  · rw [State.settle_bit _ (by decide), State.loadTime_loaded]
  · exact ((s.loadTime_alters s.setValue).within fun _ _ h => .inr h.1).settle

theorem State.tmbCmd_awaits (h : s.running = false) : let t := (s.tmbCmd 2).settle
    t.tmb = { s.tmb with loadPending := true } ∧ t.dtime = s.dtime ∧ Within (fun _ => False) s t := by
  have hf : ¬ s.running = true := Bool.eq_false_iff.mp h
  rw [State.tmbCmd_pps, if_neg hf]
  exact ⟨State.settle_tmb _, State.settle_dtime _, Within.settle ⟨fun _ _ _ => rfl, rfl, rfl, rfl, rfl⟩⟩

theorem State.tmbCmd_saves (s : State) : let t := (s.tmbCmd 4).settle
    t.tmb = { s.tmb with norLearnt := some s.tmb.learnt } ∧ t.dtime = s.dtime ∧ Within norReg s t := by
  have h : Retunes (fun k _ => norReg k) s s.saveFreq := s.saveFreq_retunes fun _ _ h => h
  rw [State.tmbCmd_save]
  exact ⟨(State.settle_tmb _).trans s.saveFreq_tmb, (State.settle_dtime _).trans h.dtime, (h.within fun _ _ => .inr).settle⟩

/-- A load that is dropped with an event leaves both DTIME and what the timebase holds (R68). -/
theorem State.load_dropped {t : State} {p code : Nat} (hc : code < 65536) (h : t = s.raise p code none 0 0) :
    t.settle.dtime = s.dtime ∧ t.settle.tmb = s.tmb ∧ t.settle.rd (R.PG_ERR p) % 65536 = code ∧ Within (fun _ => False) s t.settle := by
  obtain ⟨he, -, ht, hd, hk⟩ := s.raise_dropped p code hc
  rw [h]
  exact ⟨hd, ht, he, hk⟩

theorem State.tmbCmd_running (h : s.running = true) : s.tmbCmd 1 = s.raise pageTmb 0x800E none 0 0 ∧
    s.tmbCmd 2 = s.raise pageTmb 0x800E none 0 0 := by
  rw [State.tmbCmd_now, State.tmbCmd_pps, if_pos h, if_pos h]
  exact ⟨rfl, rfl⟩

/-! TMB_CTL (R58, R59). -/

/-- What TMB_CTL comes to hold when v is written. -/
def ctlStored (s : State) (v : Nat) : Nat := (s.rd R.TMB_CTL &&& (0xFFFFFFFFFFFFFFFF ^^^ 0xff1f)) ||| (v &&& 0xff1f)

theorem exec_tmbCtlWrite {v : BitVec 32} (ho : Open s c pageTmb) :
    ∃ u, HeldOnly s u ∧ exec (.tmbCtlWrite c v) s = settled (u.setTmbCtl (ctlStored s v.toNat)) := by
  obtain ⟨u, hu, e⟩ := State.command_tmbCtl (v := v.toNat) (fun t new _ => t.setTmbCtl new) ho (by have := v.isLt; omega)
  exact ⟨u, hu, congrArg settled e⟩

theorem ctlStored_src (s : State) (v : Nat) : ctlStored s v % 8 = v % 8 := by
  have h := bits_stored (s.rd R.TMB_CTL) v 0xff1f (hi := 2) (lo := 0) (by decide) fun i _ h => by interval_cases i <;> rfl
  rwa [bits_low, bits_low] at h

theorem ctlStored_pri (s : State) (v : Nat) : bits (ctlStored s v) 15 8 = bits v 15 8 :=
  bits_stored _ v 0xff1f (by decide) fun i h1 h2 => by interval_cases i <;> rfl

theorem ctlStored_lt (s : State) (v : Nat) : ctlStored s v < 2 ^ 64 :=
  Nat.or_lt_two_pow (Nat.lt_of_le_of_lt Nat.and_le_left (s.rd_lt _)) (Nat.lt_of_le_of_lt Nat.and_le_right (by decide))

/-- What another SRC makes of the state: the source is acquired, acquired anew, or lost (R59). -/
def State.takeSrc (s : State) (old v : Nat) : State :=
  if s.tmbState = stFollowing then s
  else if v % 8 = 0 then s.setTmbState stFree
  else if v % 8 = old then s.tryAcquire
  else if s.tmbState = stLocked then (if s.srcValid then s.setTmbState stAcquiring else s.sourceLost)
  else if s.tmbState = stAcquiring then s.beginAcquire
  else s.tryAcquire

theorem State.setTmbCtl_eq (s : State) {v : Nat} (h : v % 8 < 6) :
    s.setTmbCtl v = ((s.wr R.TMB_CTL v).takeSrc s.tmbSrc v).elect := if_neg (Nat.not_le.mpr h)

theorem State.takeSrc_retunes (s : State) (old v : Nat) : Retunes stateBits s (s.takeSrc old v) := by
  have hm {t : State} (h : Retunes tuneBits s t) : Retunes stateBits s t := h.mono fun _ _ => .inl
  unfold State.takeSrc
  split_ifs
  · exact .refl _ s
  · exact s.setTmbState_retunes _
  · exact hm s.tryAcquire_tunes
  · exact s.setTmbState_retunes _
  · exact s.sourceLost_retunes
  · exact hm (s.beginAcquire_retunes.mono fun _ _ => freqBits.tune)
  · exact hm s.tryAcquire_tunes

/-- SRC 0 enters FREE, but for a module that follows (R59). -/
theorem State.takeSrc_free (s : State) (old : Nat) {v : Nat} (hv : v % 8 = 0) (h : s.tmbState ≠ stFollowing) :
    (s.takeSrc old v).tmbState = stFree := by
  rw [State.takeSrc, if_neg h, if_pos hv, s.setTmbState_tmbState (by decide)]

theorem electBits_ctl (i : Nat) : ¬ electBits R.TMB_CTL i := by
  simp only [electBits, stateBits, tuneBits, freqBits, roleBits, norReg, R.TMB_CTL, R.TMB_STAT, R.TMB_FREQ_ADJ, R.TMB_HO_EST,
    R.TMB_CALLER, R.TMB_UP_LINK, R.NOR_LAST_SECT, R.NOR_SUSP]
  omega

/-- A write of TMB_CTL with a defined SRC stores it, and changes the timebase's registers and the copy in NOR at most (R58, R59, R81). -/
theorem State.setTmbCtl_stores (s : State) {v new : Nat} (hv : new % 8 = v % 8) (hp : bits new 15 8 = bits v 15 8) (hlt : new < 2 ^ 64)
    (h : v % 8 < 6) : let t := (s.setTmbCtl new).settle
    t.rd R.TMB_CTL % 8 = v % 8 ∧ t.fld R.TMB_CTL 15 8 = bits v 15 8 ∧ t.dtime = s.dtime ∧
      (v % 8 = 0 → s.tmbState ≠ stFollowing → t.tmbState = stFree) ∧ Within (fun k => k / 0x10000 = pageTmb ∨ norReg k) s t := by
  rw [s.setTmbCtl_eq (by rwa [hv])]
  have h1 := (State.takeSrc_retunes (s.wr R.TMB_CTL new) s.tmbSrc new).mono (S' := electBits) fun _ _ => .inl
  have h2 := (h1.trans (State.elect_retunes _)).settle
  have hr := (h2.rd (k := R.TMB_CTL) (by decide) electBits_ctl).trans (s.rd_wr_same R.TMB_CTL new hlt)
  have hw : Within (fun k => k / 0x10000 = pageTmb ∨ norReg k) s (s.wr R.TMB_CTL new) :=
    (s.wr_alters (S := fun k _ => k = R.TMB_CTL) new fun _ => rfl).within fun _ _ h => .inr (.inl (by rw [h]; rfl))
  refine ⟨?_, ?_, h2.dtime, fun h0 hf => ?_, hw.trans (h2.within fun _ _ h => .inr h.page)⟩
  · rw [hr, hv]
  · rw [State.fld, hr, hp]
  · have hs : (s.wr R.TMB_CTL new).tmbState ≠ stFollowing := by
      rwa [show (s.wr R.TMB_CTL new).tmbState = s.tmbState from State.fld_congr (s.rd_wr_ne new (by decide)) 2 0]
    have hfree := State.takeSrc_free (s.wr R.TMB_CTL new) s.tmbSrc (hv.trans h0) hs
    have hne : ((s.wr R.TMB_CTL new).takeSrc s.tmbSrc new).tmbState ≠ stFollowing := by rw [hfree]; decide
    rw [State.tmbState, State.settle_fld _ (by decide)]
    exact (State.elect_plain_tmbState hne).trans hfree

end

end Sys2Proof.Machine

namespace Sys2Proof

open Machine Safety

/-- Settles O11: each time command is one write, whose effect is a load, a saved frequency, or another SRC and the election after it. -/
theorem timeCommandsLoadSaveAndSelect : Obligations.TimeCommandsLoadSaveAndSelect := by
  intro s c ho
  refine ⟨fun h => ⟨?_, ?_⟩, fun h i hi => ?_, ?_, fun v => ⟨fun h => ?_, fun h => ?_⟩⟩
  · exact runs_of_effect (exec_loadNow ho) fun w => State.tmbCmd_loads (s := { s with wrHold := w }) h
  · exact runs_of_effect (exec_loadAtPps ho) fun w => State.tmbCmd_awaits (s := { s with wrHold := w }) h
  · rcases List.mem_pair.mp hi with rfl | rfl
    · exact runs_of_effect (exec_loadNow ho) fun w =>
        State.load_dropped (s := { s with wrHold := w }) (by decide) (State.tmbCmd_running (s := { s with wrHold := w }) h).1
    · exact runs_of_effect (exec_loadAtPps ho) fun w =>
        State.load_dropped (s := { s with wrHold := w }) (by decide) (State.tmbCmd_running (s := { s with wrHold := w }) h).2
  · exact runs_of_effect (exec_saveFreq ho) fun w => State.tmbCmd_saves { s with wrHold := w }
  · have hsrc : 6 ≤ ctlStored s v.toNat % 8 := by rwa [ctlStored_src]
    refine runs_of_effect (exec_tmbCtlWrite ho) fun w => ?_
    rw [State.setTmbCtl, if_pos hsrc]
    obtain ⟨he, -, ht, -, hk⟩ := State.raise_dropped { s with wrHold := w } pageTmb 0x8009 (by decide)
    exact ⟨he, ht, hk⟩
  · exact runs_of_effect (exec_tmbCtlWrite ho) fun w => State.setTmbCtl_stores { s with wrHold := w } (ctlStored_src s v.toNat)
      (ctlStored_pri s v.toNat) (ctlStored_lt s v.toNat) h

end Sys2Proof
end

section
/-! LOCK_ACHIEVED, OVEN_READY, LEARNT_FREQUENCY_SAVE and HOLDOVER_LIMIT_EXCEEDED (R61, R63 to R65). -/

namespace Sys2Proof.Machine

open Safety

section
variable {s t : State}

/-! Lock (R61). -/

/-- Whether the source is valid hangs on TMB_CTL and on the marks of the signals. -/
theorem Alters.srcValid {S : Nat → Nat → Prop} (h : Alters S s t) (hc : ∀ i, ¬ S R.TMB_CTL i) (hs : ∀ i, 7 ≤ i → i ≤ 9 → ¬ S R.TMB_STAT i) :
    t.srcValid = s.srcValid := by
  have hsrc : t.tmbSrc = s.tmbSrc := State.fld_congr (h.rd (by decide) hc) 2 0
  have hb {i : Nat} (h7 : 7 ≤ i) (h9 : i ≤ 9) : t.bit R.TMB_STAT i = s.bit R.TMB_STAT i := h.bit _ i (by decide) (hs i h7 h9)
  simp only [State.srcValid, hsrc, hb (i := 7) (by decide) (by decide), hb (i := 8) (by decide) (by decide),
    hb (i := 9) (by decide) (by decide)]

theorem tuneBits_ctl (i : Nat) : ¬ tuneBits R.TMB_CTL i := by
  simp only [tuneBits, freqBits, R.TMB_CTL, R.TMB_STAT, R.TMB_FREQ_ADJ, R.TMB_HO_EST]
  omega

theorem tuneBits_stat {i : Nat} (h : 2 < i) : ¬ tuneBits R.TMB_STAT i := by
  simp only [tuneBits, freqBits, R.TMB_STAT, R.TMB_FREQ_ADJ, R.TMB_HO_EST]
  omega

theorem Retunes.srcValid (h : Retunes tuneBits s t) : t.srcValid = s.srcValid :=
  h.toAlters.srcValid tuneBits_ctl fun _ h7 _ => tuneBits_stat (by omega)

theorem tuneBits.page {k i : Nat} (h : tuneBits k i) : k / 0x10000 = pageTmb := by
  simp only [tuneBits, freqBits] at h
  rcases h with ⟨rfl, -⟩ | rfl | rfl
  any_goals rfl

theorem roleBits.page {k i : Nat} (h : roleBits k i) : k / 0x10000 = pageTmb := by
  simp only [roleBits] at h
  rcases h with ⟨rfl, -⟩ | rfl | rfl
  any_goals rfl

/-- Time to the end of the 16 s that began at an elapsed time (R61). -/
def State.sixteen (s : State) (a : Nat) : State := if s.etime < a + 16 * tickSec then s.elapse (a + 16 * tickSec - s.etime) else s

theorem State.sixteen_passes (s : State) (a : Nat) : Passes s (s.sixteen a) := by
  unfold State.sixteen
  split
  · exact s.elapse_passes _
  · exact .refl s

theorem State.sixteen_etime (s : State) (a : Nat) : a + 16 * tickSec ≤ (s.sixteen a).etime := by
  unfold State.sixteen
  split
  · rw [State.elapse_etime]
    omega
  · omega

/-- A source acquired whose 16 s have begun is locked when they end, if it is valid still (R61). -/
theorem lockAchieved_locks {a : Nat} (hs : s.tmbState = stAcquiring) (hv : s.srcValid = true) (ha : s.tmb.okFrom = some a) :
    exec .lockAchieved s = settled ((s.sixteen a).setTmbState stLocked).elect := by
  have hp := s.sixteen_passes a
  have h1 : ((s.sixteen a).setTmbState stLocked).srcValid = true :=
    ((State.setTmbState_tunes _ (by decide)).srcValid.trans
      ((hp.alters fun _ _ => False).srcValid (fun _ => id) fun _ _ _ => id)).trans hv
  show settled (match s.tmb.okFrom with
    | some t => if s.tmbState = stAcquiring then
        (if ((s.sixteen t).setTmbState stLocked).srcValid then (s.sixteen t).setTmbState stLocked
          else ((s.sixteen t).setTmbState stLocked).sourceLost).elect
      else s
    | none => s) = _
  rw [ha]
  simp only [hs, h1, if_true]

theorem lockAchieved_spec (hs : s.tmbState = stAcquiring) (hv : s.srcValid = true) (ho : s.tmb.okFrom.isSome = true) :
    Runs .lockAchieved s fun t => t.tmbState = stLocked ∧ t.rd R.TMB_HO_EST = 0 ∧ t.tmb.lossAt = none ∧
      (∀ a, s.tmb.okFrom = some a → a + 16 * tickSec ≤ t.etime) ∧ Within (fun k => k / 0x10000 = pageTmb) s t := by
  obtain ⟨a, ha⟩ := Option.isSome_iff_exists.mp ho
  have hp := s.sixteen_passes a
  have hne : (s.sixteen a).tmbState ≠ stLocked := by rw [hp.tmbState, hs]; decide
  have h1 := State.setTmbState_tunes (s.sixteen a) (v := stLocked) (by decide)
  have hst := State.setTmbState_tmbState (s.sixteen a) (v := stLocked) (by decide)
  obtain ⟨hloss, hest⟩ := State.setTmbState_locked _ hne
  have hnf : ((s.sixteen a).setTmbState stLocked).tmbState ≠ stFollowing := by rw [hst]; decide
  have h2 := (State.elect_plain_retunes hnf).settle
  refine ⟨_, lockAchieved_locks hs hv ha, ?_, ?_, ?_, fun b hb => ?_, ?_⟩
  · rw [State.tmbState, State.settle_fld _ (by decide)]
    exact (State.elect_plain_tmbState hnf).trans hst
  · have hr (i : Nat) : ¬ roleBits R.TMB_HO_EST i := by
      simp only [roleBits, R.TMB_HO_EST, R.TMB_STAT, R.TMB_CALLER, R.TMB_UP_LINK]
      omega
    exact (h2.rd (by decide) hr).trans hest
  · rw [State.settle_tmb, State.elect_plain_lossAt hnf, hloss]
  · rw [Option.some.inj (hb.symm.trans ha), h2.etime, h1.etime]
    exact s.sixteen_etime a
  · exact ((hp.within _).trans (h1.within fun _ _ h => .inr h.page)).trans (h2.within fun _ _ h => .inr h.page)

theorem lockAchieved_waits (h : s.tmb.okFrom = none) : exec .lockAchieved s = settled s := by
  show settled (match s.tmb.okFrom with
    | some t => _
    | none => s) = _
  rw [h]

/-! The holdover error (R63, R64). -/

/-- The rate at which the error grows, in parts per billion (R64). -/
def State.hoRate (s : State) : Nat := if s.bit R.TMB_STAT 4 then 5 else 100

theorem State.hoError_some {a : Nat} (h : s.tmb.lossAt = some a) : s.hoError = some (s.tmb.hoAcc + (s.etime - a) * s.hoRate) := by
  unfold State.hoError
  rw [h]
  rfl

theorem State.hoError_none (h : s.tmb.lossAt = none) : s.hoError = none := by
  unfold State.hoError
  rw [h]

theorem State.hoError_lossAt {e : Nat} (h : s.hoError = some e) : ∃ a, s.tmb.lossAt = some a ∧ e = s.tmb.hoAcc + (s.etime - a) * s.hoRate := by
  cases ha : s.tmb.lossAt with
  | none => rw [State.hoError_none ha] at h; cases h
  | some a => exact ⟨a, rfl, Option.some.inj (h.symm.trans (State.hoError_some ha))⟩

/-- OVEN_READY, with what the error has come to so far kept (R63). -/
theorem State.oven_spec {u : State} (hd : u.regs = s.regs) (hm : SameMem s u) (he : u.hoError = s.hoError)
    (hl : ∀ a, u.tmb.lossAt = some a → a = u.etime) : let t := (u.setBit R.TMB_STAT 4 true).settle
    t.bit R.TMB_STAT 4 = true ∧ t.hoError = s.hoError ∧ Within (fun k => k = R.TMB_STAT) s t := by
  have hw : Within (fun k => k = R.TMB_STAT) u (u.setBit R.TMB_STAT 4 true) :=
    (u.setBit_alters (S := fun k _ => k = R.TMB_STAT) (i := 4) true rfl).within fun _ _ => .inr
  refine ⟨?_, ?_, (Within.trans ⟨fun k _ _ => State.rd_congr hd k, hm⟩ hw).settle⟩
  · rw [State.settle_bit _ (by decide), State.bit_setBit _ _ _ _ _ _ (by decide), if_pos ⟨rfl, rfl⟩]
  · rw [← he]
    have ht : (u.setBit R.TMB_STAT 4 true).settle.tmb = u.tmb := State.settle_tmb _
    have het : (u.setBit R.TMB_STAT 4 true).settle.etime = u.etime := State.settle_etime _
    cases ha : u.tmb.lossAt with
    | none => rw [State.hoError_none ha, State.hoError_none (by rw [ht]; exact ha)]
    | some a =>
      rw [State.hoError_some ha, State.hoError_some (by rw [ht]; exact ha), ht, het, hl a ha, Nat.sub_self, Nat.zero_mul, Nat.zero_mul]

theorem ovenReady_spec (s : State) : Runs .ovenReady s fun t =>
    t.bit R.TMB_STAT 4 = true ∧ t.hoError = s.hoError ∧ Within (fun k => k = R.TMB_STAT) s t := by
  cases he : s.hoError with
  | none =>
    have e : exec .ovenReady s = settled (s.setBit R.TMB_STAT 4 true) := by
      show settled (match s.hoError with
        | some e => _
        | none => s.setBit R.TMB_STAT 4 true) = _
      rw [he]
    refine ⟨_, e, ?_⟩
    rw [← he]
    refine State.oven_spec rfl (.refl s) rfl fun a ha => ?_
    rw [State.hoError_some ha] at he
    cases he
  | some x =>
    have e : exec .ovenReady s =
        settled (({ s with tmb := { s.tmb with hoAcc := x, lossAt := some s.etime } } : State).setBit R.TMB_STAT 4 true) := by
      show settled (match s.hoError with
        | some e => ({ s with tmb := { s.tmb with hoAcc := e, lossAt := some s.etime } } : State).setBit R.TMB_STAT 4 true
        | none => s.setBit R.TMB_STAT 4 true) = _
      rw [he]
    refine ⟨_, e, ?_⟩
    rw [← he]
    refine State.oven_spec rfl ⟨rfl, rfl, rfl, rfl⟩ ?_ fun a ha => (Option.some.inj ha).symm
    rw [he, State.hoError_some (a := s.etime) rfl]
    simp

/-- The learnt frequency goes to NOR while the timebase is in lock (R65). -/
theorem learntFrequencySave_saves (h : s.tmbState = stLocked ∨ s.tmbState = stFollowing) : Runs .learntFrequencySave s fun t =>
    t.tmb = { s.tmb with norLearnt := some s.tmb.learnt } ∧ Within norReg s t := by
  have hc : (decide (s.tmbState = stLocked) || decide (s.tmbState = stFollowing)) = true := by simpa using h
  have hr : Retunes (fun k _ => norReg k) s s.saveFreq := s.saveFreq_retunes fun _ _ h => h
  exact ⟨_, congrArg settled (if_pos hc), (State.settle_tmb _).trans s.saveFreq_tmb, (hr.within fun _ _ => .inr).settle⟩

/-! The limit (R64). -/

/-- The error that exceeds the limit, at its least. -/
def State.hoNeed (s : State) : Nat := s.rd R.TMB_HO_LIMIT * 16000000000 + 1

theorem hoNs_exceeds {limit e : Nat} (h : limit * 16000000000 + 1 ≤ e) : limit < hoNs e := by
  unfold hoNs
  omega

/-- The state in which the estimate has passed its limit, before the event. -/
def State.pastLimit (s : State) (e : Nat) : State :=
  let s1 := s.elapse ((s.hoNeed - e + s.hoRate - 1) / s.hoRate)
  { s1 with tmb := { s1.tmb with hoSaid := true } }

theorem holdoverLimit_exec {e : Nat} (he : s.hoError = some e) (hsaid : s.tmb.hoSaid = false)
    (hs : s.tmbState = stFree ∨ s.tmbState = stHoldover) : exec .holdoverLimitExceeded s =
      settled (((s.pastLimit e).setIrq pageTmb 6 8).raise pageTmb 0x8004 none 0 0) := by
  have hc : (s.tmb.hoSaid || (decide (s.tmbState ≠ stFree) && decide (s.tmbState ≠ stHoldover))) = false := by
    rcases hs with h | h <;> simp [hsaid, h]
  show settled (match s.hoError with
    | some e => if (s.tmb.hoSaid || (decide (s.tmbState ≠ stFree) && decide (s.tmbState ≠ stHoldover))) = true then s
        else ((s.pastLimit e).setIrq pageTmb 6 8).raise pageTmb 0x8004 none 0 0
    | none => s) = _
  rw [he]
  simp only [hc, Bool.false_eq_true, if_false]

/-- Time passes until the error exceeds the limit (R64). -/
theorem State.pastLimit_error {e : Nat} (he : s.hoError = some e) (hl : ∀ a, s.tmb.lossAt = some a → a ≤ s.etime) :
    ∃ e', (s.pastLimit e).hoError = some e' ∧ s.hoNeed ≤ e' := by
  obtain ⟨a, ha, rfl⟩ := State.hoError_lossAt he
  have hrate : (s.pastLimit (s.tmb.hoAcc + (s.etime - a) * s.hoRate)).hoRate = s.hoRate := by
    unfold State.hoRate
    rw [show (s.pastLimit _).bit R.TMB_STAT 4 = s.bit R.TMB_STAT 4 from (s.elapse_passes _).bit _ _]
  have hpos : 0 < s.hoRate := by unfold State.hoRate; split <;> decide
  have htmb : (s.pastLimit (s.tmb.hoAcc + (s.etime - a) * s.hoRate)).tmb.lossAt = some a ∧
      (s.pastLimit (s.tmb.hoAcc + (s.etime - a) * s.hoRate)).tmb.hoAcc = s.tmb.hoAcc := by
    unfold State.pastLimit
    obtain ⟨_, _, _, _, _, e⟩ := s.elapse_passes ((s.hoNeed - (s.tmb.hoAcc + (s.etime - a) * s.hoRate) + s.hoRate - 1) / s.hoRate)
    rw [e]
    exact ⟨ha, rfl⟩
  have hle := hl a ha
  refine ⟨_, State.hoError_some htmb.1, ?_⟩
  rw [htmb.2, hrate]
  have het : (s.pastLimit (s.tmb.hoAcc + (s.etime - a) * s.hoRate)).etime =
      s.etime + (s.hoNeed - (s.tmb.hoAcc + (s.etime - a) * s.hoRate) + s.hoRate - 1) / s.hoRate := s.elapse_etime _
  rw [het]
  generalize s.hoRate = r at hpos ⊢
  generalize s.hoNeed = n
  generalize hx : s.tmb.hoAcc + (s.etime - a) * r = x
  have h1 := Nat.lt_mul_div_succ (n - x + r - 1) hpos
  rw [Nat.mul_add, Nat.mul_one, Nat.mul_comm] at h1
  have h2 : (s.etime + (n - x + r - 1) / r - a) * r = (s.etime - a) * r + (n - x + r - 1) / r * r := by
    rw [← Nat.add_mul, Nat.sub_add_comm hle]
  omega

theorem holdoverLimit_spec {e : Nat} (he : s.hoError = some e) (hsaid : s.tmb.hoSaid = false)
    (hs : s.tmbState = stFree ∨ s.tmbState = stHoldover) (hl : ∀ a, s.tmb.lossAt = some a → a ≤ s.etime) :
    Runs .holdoverLimitExceeded s fun t => t.tmb.hoSaid = true ∧ t.rd (R.PG_ERR pageTmb) % 65536 = 0x8004 ∧
      t.bit (R.PG_IRQ_STAT pageTmb) 6 = true ∧ t.bit R.SYS_ATTN 10 = true ∧
      (∃ e', t.hoError = some e' ∧ s.rd R.TMB_HO_LIMIT < hoNs e') ∧ Within (fun _ => False) s t := by
  have hp : Within (fun _ => False) s (s.pastLimit e) :=
    ⟨fun k _ _ => (s.elapse_passes _).rd k, (s.elapse_passes _).mem⟩
  obtain ⟨e', he', hn⟩ := State.pastLimit_error he hl
  have hsd : (s.pastLimit e).tmb.hoSaid = true := rfl
  refine ⟨_, holdoverLimit_exec he hsaid hs, ?_⟩
  generalize s.pastLimit e = u at *
  have hf := ((u.setIrq_flags pageTmb 6 8).trans (State.raise_flags _ pageTmb 0x8004 none 0 0)).trans
    (State.settle_only ((u.setIrq pageTmb 6 8).raise pageTmb 0x8004 none 0 0)).flags
  refine ⟨by rw [hf.tmb]; exact hsd, ?_, ?_, ?_, ⟨e', ?_, hoNs_exceeds hn⟩, hp.trans (.of_flags hf)⟩
  · rw [State.settle_rd _ (by decide), State.raise_pgErr]
  · rw [State.settle_bit _ (by decide), State.setIrq_raise_irqStat _ _ _ _ _ _ _ (by decide)]
  · rw [State.settle_bit _ (by decide), State.raise_sysAttn _ _ _ _ _ _ (by decide)]
  · rw [← he']
    unfold State.hoError
    rw [hf.tmb, hf.etime, hf.bit (by decide)]

end

end Sys2Proof.Machine

namespace Sys2Proof

open Machine Safety

/-- Settles O13: lock by the end of the 16 s, and the error by the time since the loss. -/
theorem lockAndHoldover : Obligations.LockAndHoldover := by
  intro s
  refine ⟨fun hs hv ho => lockAchieved_spec hs hv ho, fun h => ?_, ovenReady_spec s, fun h => learntFrequencySave_saves h,
    fun e he hsaid hs hl => holdoverLimit_spec he hsaid hs hl⟩
  exact ⟨_, lockAchieved_waits h, State.settle_tmb s, (Within.refl _ s).settle⟩

end Sys2Proof
end

section
/-! PPS_IN, TREF_10M and IEEE 1588 as references: stamped, rejected, acquired and lost (R57 to R60, R69, R91, R92). -/

namespace Sys2Proof.Machine

open Safety

section
variable {s t u : State}

/-! Corrections of the phase (R69). -/

/-- The timebase beside its state machine and the correction being slewed. -/
def Timebase.still (t : Timebase) : Timebase := { t.kept with slew := 0, slewCredit := 0 }

/-- The registers that a correction can change: the phase error and the frequency (R91). -/
def phaseBits (k i : Nat) : Prop := k = R.TMB_PHASE_ERR ∨ freqBits k i

/-- All that a correction can do: DTIME steps or is slewed, and the frequency is steered (R68, R69). -/
structure Corrects (s t : State) : Prop extends Alters phaseBits s t where
  msr : t.msr = s.msr
  etime : t.etime = s.etime
  still : t.tmb.still = s.tmb.still

theorem Retunes.still {S : Nat → Nat → Prop} (h : Retunes S s t) : t.tmb.still = s.tmb.still := by
  unfold Timebase.still
  rw [h.kept]

/-- Since when the error lies within the lock bound, after an error measured (R61). -/
def State.okSince (s : State) (err : Int) : State :=
  { s with tmb := { s.tmb with
      okFrom := if err.natAbs ≤ (if srcPps s.tmbSrc then 10 else 50) * tickNs then some (s.tmb.okFrom.getD s.etime) else none } }

/-- The frequency after an error measured: TREF_10M keeps it to itself (R58). -/
def State.steered (s : State) (err : Int) : State :=
  if ((s.wr R.TMB_PHASE_ERR (sat32 err)).okSince err).tmbState ≠ stFollowing &&
      srcTref ((s.wr R.TMB_PHASE_ERR (sat32 err)).okSince err).tmbSrc then
    (s.wr R.TMB_PHASE_ERR (sat32 err)).okSince err
  else ((s.wr R.TMB_PHASE_ERR (sat32 err)).okSince err).steerFreq

theorem State.correct_eq (s : State) (err : Int) (may : Bool) : s.correct err may =
    if may && !s.running && s.bit R.TMB_CTL 3 && tickUs < err.natAbs then (true, (s.steered err).stepTime (-err))
    else (false, (s.steered err).slewTime (-err)) := rfl

theorem State.okSince_retunes (s : State) (S : Nat → Nat → Prop) (err : Int) : Retunes S s (s.okSince err) := s.setTmb_retunes rfl

theorem State.steered_retunes (s : State) (err : Int) : Retunes phaseBits s (s.steered err) := by
  have h1 := (s.wr_retunes (S := phaseBits) (k := R.TMB_PHASE_ERR) (sat32 err) fun _ => .inl rfl).trans
    (State.okSince_retunes _ phaseBits err)
  unfold State.steered
  split
  · exact h1
  · exact h1.trans ((State.steerFreq_retunes _).mono fun _ _ => .inr)

theorem State.correct_corrects (s : State) (err : Int) (may : Bool) : Corrects s (s.correct err may).2 := by
  have h := s.steered_retunes err
  rw [State.correct_eq]
  generalize s.steered err = u at h
  split
  · exact ⟨⟨h.bit, h.mem⟩, h.msr, h.etime, h.still⟩
  · exact ⟨⟨h.bit, h.mem⟩, h.msr, h.etime, h.still⟩

theorem phaseBits.page {k i : Nat} (h : phaseBits k i) : k / 0x10000 = pageTmb := by
  simp only [phaseBits, freqBits] at h
  rcases h with rfl | rfl | rfl
  any_goals rfl

/-! The stamp of PPS_IN (R91). -/

/-- TMB_PPSIN, and the mark of PPS_IN in TMB_STAT (R91). -/
def stampBits (k i : Nat) : Prop :=
  k = R.TMB_PPSIN_FRAC ∨ k = R.TMB_PPSIN_NS ∨ k = R.TMB_PPSIN_SEC_LO ∨ k = R.TMB_PPSIN_SEC_HI ∨ k = R.TMB_STAT ∧ i = 8

theorem stampBits.page {k i : Nat} (h : stampBits k i) : k / 0x10000 = pageTmb := by
  simp only [stampBits] at h
  rcases h with rfl | rfl | rfl | rfl | ⟨rfl, -⟩
  any_goals rfl

theorem State.stampPps_alters (s : State) (x : Nat) : Alters stampBits s (s.stampPps x) := by
  have h1 (t : State) (v : Nat) := t.wr_alters (S := stampBits) (k := R.TMB_PPSIN_FRAC) v fun _ => .inl rfl
  have h2 (t : State) (v : Nat) := t.wr_alters (S := stampBits) (k := R.TMB_PPSIN_NS) v fun _ => .inr (.inl rfl)
  have h3 (t : State) (v : Nat) := t.wr_alters (S := stampBits) (k := R.TMB_PPSIN_SEC_LO) v fun _ => .inr (.inr (.inl rfl))
  have h4 (t : State) (v : Nat) := t.wr_alters (S := stampBits) (k := R.TMB_PPSIN_SEC_HI) v fun _ => .inr (.inr (.inr (.inl rfl)))
  have h5 (t : State) := t.setBit_alters (S := stampBits) (k := R.TMB_STAT) (i := 8) true (.inr (.inr (.inr (.inr ⟨rfl, rfl⟩))))
  have h := ((((h1 s (dtFrac x)).trans (h2 _ (dtNs x))).trans (h3 _ (dtSec x % 2 ^ 32))).trans (h4 _ (dtSec x / 2 ^ 32))).trans (h5 _)
  exact ⟨h.bit, h.mem⟩

/-- What the timebase's registers tell of an accepted edge (R91). -/
structure Stamped (s : State) (x : Nat) : Prop where
  frac : s.rd R.TMB_PPSIN_FRAC = dtFrac x
  ns : s.rd R.TMB_PPSIN_NS = dtNs x
  lo : s.rd R.TMB_PPSIN_SEC_LO = dtSec x % 2 ^ 32
  hi : s.rd R.TMB_PPSIN_SEC_HI = dtSec x / 2 ^ 32
  valid : s.bit R.TMB_STAT 8 = true

theorem State.stampPps_stamped (s : State) {x : Nat} (h : dtSec x < 2 ^ 48) : Stamped (s.stampPps x) x := by
  have hf : dtFrac x < 2 ^ 64 := by
    unfold dtFrac tickNs
    omega
  have hn : dtNs x < 2 ^ 64 := by
    unfold dtNs
    omega
  unfold State.stampPps
  extract_lets s1 s2 e
  have hset {k : Nat} (hk : R.TMB_STAT ≠ k) : s2.rd k = (s1.wr R.TMB_PPSIN_SEC_HI (dtSec x / 2 ^ 32)).rd k :=
    State.rd_setBit_ne _ _ _ hk
  refine ⟨?_, ?_, ?_, ?_, ?_⟩
  · exact (hset (by decide)).trans (by
      rw [State.rd_wr_ne _ _ (by decide), State.rd_wr_ne _ _ (by decide), State.rd_wr_ne _ _ (by decide), State.rd_wr_same _ _ _ hf])
  · exact (hset (by decide)).trans (by
      rw [State.rd_wr_ne _ _ (by decide), State.rd_wr_ne _ _ (by decide), State.rd_wr_same _ _ _ hn])
  · exact (hset (by decide)).trans (by
      rw [State.rd_wr_ne _ _ (by decide), State.rd_wr_same _ _ _ (by omega)])
  · exact (hset (by decide)).trans (State.rd_wr_same _ _ _ (by omega))
  · exact (State.bit_setBit (s1.wr R.TMB_PPSIN_SEC_HI (dtSec x / 2 ^ 32)) R.TMB_STAT 8 R.TMB_STAT 8 true (by decide)).trans
      (if_pos ⟨rfl, rfl⟩)

/-- Nothing but a new edge changes a stamp (R91). -/
theorem Stamped.keep {x : Nat} {S : Nat → Nat → Prop} (h : Stamped s x) (ha : Alters S s t)
    (hS : ∀ k i, S k i → k ≠ R.TMB_PPSIN_FRAC ∧ k ≠ R.TMB_PPSIN_NS ∧ k ≠ R.TMB_PPSIN_SEC_LO ∧ k ≠ R.TMB_PPSIN_SEC_HI ∧
      (k = R.TMB_STAT → i ≠ 8)) : Stamped t x :=
  ⟨(ha.rd (by decide) fun i e => (hS _ i e).1 rfl).trans h.frac, (ha.rd (by decide) fun i e => (hS _ i e).2.1 rfl).trans h.ns,
    (ha.rd (by decide) fun i e => (hS _ i e).2.2.1 rfl).trans h.lo, (ha.rd (by decide) fun i e => (hS _ i e).2.2.2.1 rfl).trans h.hi,
    (ha.bit _ 8 (by decide) fun e => (hS _ 8 e).2.2.2.2 rfl rfl).trans h.valid⟩

end

end Sys2Proof.Machine
end

section
/-! PPS_IN_EDGE, PPS_IN_EDGE_MISSING, TREF_10M_LOSS, PTP_SYNC_TIMEOUT and TREF_10M_VALID (R57, R59, R60). -/

namespace Sys2Proof.Machine

open Safety

section
variable {s t u : State}

/-! An accepted edge (R57, R91, R92). -/

/-- What an accepted edge does to a pending load: it is performed, or dropped while measures run (R68, R92). -/
def State.edgeLoads (s : State) (late : Nat) : State :=
  let s2 := { s with tmb := { s.tmb with loadPending := false } }
  if s2.running then s2.raise pageTmb 0x800E none 0 0 else (s2.loadTime (s2.setValue + late)).tryAcquire

/-- What an accepted edge does when no load waits for it: PPS_IN may be acquired, and the phase is corrected (R59, R69). -/
def State.edgeCorrects (s : State) (x : Nat) : State :=
  if srcPps s.tryAcquire.tmbSrc && (s.tryAcquire.tmbState = stAcquiring || s.tryAcquire.tmbState = stLocked) then
    (s.tryAcquire.correct (secondError x) (s.tryAcquire.tmbState = stAcquiring)).2
  else s.tryAcquire

theorem ppsInEdge_exec (s : State) (x : Nat) : exec (.ppsInEdge x) s = settled (if (s.until x).ppsAccepts x then
      (if ((s.until x).stampPps x).tmb.loadPending then ((s.until x).stampPps x).edgeLoads ((s.until x).dtime - x)
        else ((s.until x).stampPps x).edgeCorrects x)
    else (s.until x).rejectRef.ppsBadEdge) := rfl

theorem State.stampPps_tmb (s : State) (x : Nat) :
    (s.stampPps x).tmb = { s.tmb with ppsLast := some s.etime, ppsBad := 0 } := by
  unfold State.stampPps
  rfl

theorem State.stampPps_ppsBad (s : State) (x : Nat) : (s.stampPps x).tmb.ppsBad = 0 := by rw [State.stampPps_tmb]

theorem State.stampPps_loadPending (s : State) (x : Nat) : (s.stampPps x).tmb.loadPending = s.tmb.loadPending := by
  rw [State.stampPps_tmb]

/-- The register bits that an accepted edge can change once its stamp is kept. -/
def edgeBits (k i : Nat) : Prop := tuneBits k i ∨ phaseBits k i ∨ k = R.TMB_STAT ∧ i = 3

theorem edgeBits.page {k i : Nat} (h : edgeBits k i) : k / 0x10000 = pageTmb := by
  rcases h with h | h | ⟨rfl, -⟩
  · exact h.page
  · exact h.page
  · rfl

theorem edgeBits.not_stamp {k i : Nat} (h : edgeBits k i) : k ≠ R.TMB_PPSIN_FRAC ∧ k ≠ R.TMB_PPSIN_NS ∧ k ≠ R.TMB_PPSIN_SEC_LO ∧
    k ≠ R.TMB_PPSIN_SEC_HI ∧ (k = R.TMB_STAT → i ≠ 8) := by
  simp only [edgeBits, tuneBits, phaseBits, freqBits, R.TMB_PPSIN_FRAC, R.TMB_PPSIN_NS, R.TMB_PPSIN_SEC_LO, R.TMB_PPSIN_SEC_HI,
    R.TMB_STAT, R.TMB_FREQ_ADJ, R.TMB_HO_EST, R.TMB_PHASE_ERR] at h ⊢
  omega

theorem Retunes.edge (h : Retunes tuneBits s t) : Alters edgeBits s t := h.toAlters.mono fun _ _ => .inl

theorem State.edgeLoads_alters (s : State) (d : Nat) : Alters edgeBits s (s.edgeLoads d) := by
  have h1 : Alters edgeBits s { s with tmb := { s.tmb with loadPending := false } } := .of_regs rfl ⟨rfl, rfl, rfl, rfl⟩
  unfold State.edgeLoads
  extract_lets e s2
  split
  · exact h1.trans (State.raise_alters _ _ _ _ _ _)
  · exact (h1.trans ((State.loadTime_alters _ _).mono fun _ _ h => .inr (.inr h))).trans (State.tryAcquire_tunes _).edge

theorem State.edgeLoads_tmb (s : State) (d : Nat) :
    (s.edgeLoads d).tmb.loadPending = false ∧ (s.edgeLoads d).tmb.ppsBad = s.tmb.ppsBad := by
  unfold State.edgeLoads
  extract_lets e s2
  split
  · rw [State.raise_tmb]
    exact ⟨rfl, rfl⟩
  · have h := (State.tryAcquire_tunes (s2.loadTime (s2.setValue + d))).kept
    have h1 := congrArg Timebase.loadPending h
    have h2 := congrArg Timebase.ppsBad h
    exact ⟨h1, h2⟩

/-- A pending load is performed at the edge, with the time since it (R92). -/
theorem State.edgeLoads_loads (h : s.running = false) (d : Nat) :
    (s.edgeLoads d).dtime = s.setValue + d ∧ (s.edgeLoads d).bit R.TMB_STAT 3 = true := by
  unfold State.edgeLoads
  extract_lets e s2
  have hr : ¬ s2.running = true := Bool.eq_false_iff.mp h
  have ht := State.tryAcquire_tunes (s2.loadTime (s2.setValue + d))
  rw [if_neg hr]
  exact ⟨ht.dtime, (ht.bit _ 3 (by decide) (tuneBits_stat (by decide))).trans (State.loadTime_loaded _ _)⟩

theorem State.edgeCorrects_spec (s : State) (x : Nat) :
    Alters edgeBits s (s.edgeCorrects x) ∧ (s.edgeCorrects x).tmb.still = s.tmb.still := by
  have h1 := s.tryAcquire_tunes
  have h2 := s.tryAcquire.correct_corrects (secondError x) (s.tryAcquire.tmbState = stAcquiring)
  unfold State.edgeCorrects
  split
  · exact ⟨h1.edge.trans (h2.toAlters.mono fun _ _ h => .inr (.inl h)), h2.still.trans h1.still⟩
  · exact ⟨h1.edge, h1.still⟩

/-- What an accepted edge leaves: its stamp, no bad edge counted, no load pending (R57, R60, R91, R92). -/
structure EdgeTaken (s t : State) (x : Nat) : Prop where
  stamp : Stamped t x
  ppsBad : t.tmb.ppsBad = 0
  loaded : t.tmb.loadPending = false
  load : s.tmb.loadPending = true → s.running = false → t.dtime = s.setValue + (s.dtime - x) ∧ t.bit R.TMB_STAT 3 = true
  kept : Within (fun k => k / 0x10000 = pageTmb) s t

theorem ppsInEdge_taken {x : Nat} (hx : dtSec x < 2 ^ 48) (ha : (s.until x).ppsAccepts x = true) :
    Runs (.ppsInEdge x) s fun t => EdgeTaken s t x := by
  have hp := s.until_passes x
  have hlate : (s.until x).dtime - x = s.dtime - x := by
    rw [s.until_dtime x]
    omega
  have hlp : (s.until x).tmb.loadPending = s.tmb.loadPending := by
    obtain ⟨_, _, _, _, _, e⟩ := hp
    rw [e]
  have hs := State.stampPps_stamped (s.until x) hx
  have hsa := State.stampPps_alters (s.until x) x
  have hset : ((s.until x).stampPps x).setValue = s.setValue := by
    have h (k : Nat) (hf : flagReg k = false) (hk : ∀ i, ¬ stampBits k i) : ((s.until x).stampPps x).rd k = s.rd k :=
      (hsa.rd hf hk).trans (hp.rd k)
    unfold State.setValue
    rw [h _ (by decide) (by simp [stampBits]), h _ (by decide) (by simp [stampBits]), h _ (by decide) (by simp [stampBits])]
  have hrun : ((s.until x).stampPps x).running = s.running :=
    (hsa.bit R.MSR_CTL 0 (by decide) (by simp [stampBits])).trans (hp.bit _ _)
  have hw {v : State} (hv : Alters edgeBits ((s.until x).stampPps x) v) : Within (fun k => k / 0x10000 = pageTmb) s v.settle :=
    (((hp.within _).trans (hsa.within fun _ _ h => .inr h.page)).trans (hv.within fun _ _ h => .inr h.page)).settle
  have hst {v : State} (hv : Alters edgeBits ((s.until x).stampPps x) v) : Stamped v.settle x :=
    hs.keep (hv.trans v.settle_alters) fun _ _ h => h.not_stamp
  have hbad : ((s.until x).stampPps x).tmb.ppsBad = 0 := State.stampPps_ppsBad _ x
  have hpend : ((s.until x).stampPps x).tmb.loadPending = s.tmb.loadPending :=
    (State.stampPps_loadPending _ x).trans hlp
  have e := ppsInEdge_exec s x
  rw [if_pos ha, hpend, hlate] at e
  refine ⟨_, e, ?_⟩
  generalize (s.until x).stampPps x = v at hset hrun hw hst hbad hpend ⊢
  cases hl : s.tmb.loadPending with
  | true =>
    rw [if_pos rfl]
    obtain ⟨h1, h2⟩ := v.edgeLoads_tmb (s.dtime - x)
    have hva := v.edgeLoads_alters (s.dtime - x)
    refine ⟨hst hva, ?_, ?_, fun _ hr => ?_, hw hva⟩
    · rw [State.settle_tmb, h2, hbad]
    · rw [State.settle_tmb, h1]
    · obtain ⟨h3, h4⟩ := State.edgeLoads_loads (hrun.trans hr) (s.dtime - x)
      rw [State.settle_dtime, State.settle_bit _ (by decide), h3, hset]
      exact ⟨rfl, h4⟩
  | false =>
    rw [if_neg (by decide)]
    obtain ⟨hva, hvs⟩ := v.edgeCorrects_spec x
    have h1 := congrArg Timebase.ppsBad hvs
    have h2 := congrArg Timebase.loadPending hvs
    refine ⟨hst hva, ?_, ?_, fun h => absurd (hl.symm.trans h) (by decide), hw hva⟩
    · rw [State.settle_tmb]
      exact h1.trans hbad
    · rw [State.settle_tmb]
      exact h2.trans (hpend.trans hl)

end

end Sys2Proof.Machine
end

section
/-! Rejected and lost references, and TREF_10M_VALID (R59, R60). -/

namespace Sys2Proof.Machine

open Safety

section
variable {s t u : State}

/-! Rejection (R60, R90). -/

theorem State.rejectRef_alters (s : State) : Alters (fun k _ => k = R.TMB_REJECT) s s.rejectRef :=
  (s.wr_alters (S := fun k _ => k = R.TMB_REJECT) _ fun _ => rfl).trans (State.raise_alters _ _ _ _ _ _)

theorem State.rejectRef_tmb (s : State) : s.rejectRef.tmb = s.tmb := by rw [State.rejectRef, State.raise_tmb, State.countSat_eq, State.wr_tmb]

theorem State.rejectRef_count (s : State) : s.rejectRef.rd R.TMB_REJECT = min (s.rd R.TMB_REJECT + 1) 0xFFFFFFFF := by
  rw [State.rejectRef, State.raise_rd _ _ _ _ _ _ (by decide), State.countSat_eq,
    State.rd_wr_same _ _ _ (Nat.lt_of_le_of_lt (Nat.min_le_right _ _) (by decide))]

theorem State.rejectRef_pgErr (s : State) : s.rejectRef.rd (R.PG_ERR pageTmb) % 65536 = 0x8002 := State.raise_pgErr _ _ _ _ _ _

/-- The first two bad edges in a row are only counted (R60). -/
theorem State.ppsBadEdge_few (h : s.tmb.ppsBad < 2) : s.ppsBadEdge = { s with tmb := { s.tmb with ppsBad := s.tmb.ppsBad + 1 } } :=
  if_pos (by omega)

theorem State.ppsBadEdge_regs (h : s.tmb.ppsBad < 2) : s.ppsBadEdge.regs = s.regs := by rw [State.ppsBadEdge_few h]

theorem State.ppsBadEdge_mem (h : s.tmb.ppsBad < 2) : SameMem s s.ppsBadEdge := by
  rw [State.ppsBadEdge_few h]
  exact ⟨rfl, rfl, rfl, rfl⟩

theorem State.ppsBadEdge_count (h : s.tmb.ppsBad < 2) : s.ppsBadEdge.tmb.ppsBad = s.tmb.ppsBad + 1 := by rw [State.ppsBadEdge_few h]

/-- An edge rejected: TMB_REJECT, event 0x8002, and one more bad edge in a row (R60, R90). -/
theorem State.rejectBad_spec (hb : s.tmb.ppsBad < 2) : let t := s.rejectRef.ppsBadEdge.settle
    t.rd R.TMB_REJECT = min (s.rd R.TMB_REJECT + 1) 0xFFFFFFFF ∧ t.rd (R.PG_ERR pageTmb) % 65536 = 0x8002 ∧
      t.tmb.ppsBad = s.tmb.ppsBad + 1 ∧ Within (fun k => k = R.TMB_REJECT) s t := by
  have hb' : s.rejectRef.tmb.ppsBad < 2 := by rwa [State.rejectRef_tmb]
  have hr (k : Nat) : s.rejectRef.ppsBadEdge.rd k = s.rejectRef.rd k := State.rd_congr (State.ppsBadEdge_regs hb') k
  refine ⟨?_, ?_, ?_, ?_⟩
  · rw [State.settle_rd _ (by decide), hr, State.rejectRef_count]
  · rw [State.settle_rd _ (by decide), hr, State.rejectRef_pgErr]
  · rw [State.settle_tmb, State.ppsBadEdge_count hb', State.rejectRef_tmb]
  · exact ((s.rejectRef_alters.within fun _ _ => .inr).trans ⟨fun k _ _ => hr k, State.ppsBadEdge_mem hb'⟩).settle

theorem Passes.ppsBad (h : Passes s t) : t.tmb.ppsBad = s.tmb.ppsBad := by
  obtain ⟨_, _, _, _, _, rfl⟩ := h
  rfl

theorem ppsInEdge_rejected {x : Nat} (ha : (s.until x).ppsAccepts x = false) (hb : s.tmb.ppsBad < 2) : Runs (.ppsInEdge x) s fun t =>
    t.rd R.TMB_REJECT = min (s.rd R.TMB_REJECT + 1) 0xFFFFFFFF ∧ t.rd (R.PG_ERR pageTmb) % 65536 = 0x8002 ∧
      t.tmb.ppsBad = s.tmb.ppsBad + 1 ∧ Within (fun k => k = R.TMB_REJECT) s t := by
  have hp := s.until_passes x
  have e := ppsInEdge_exec s x
  rw [if_neg (by rw [ha]; decide)] at e
  obtain ⟨h1, h2, h3, h4⟩ := State.rejectBad_spec (s := s.until x) (by rwa [hp.ppsBad])
  rw [hp.rd] at h1
  rw [hp.ppsBad] at h3
  exact ⟨_, e, h1, h2, h3, (hp.within _).trans h4⟩

theorem ppsInEdgeMissing_few (hb : s.tmb.ppsBad < 2) : Runs .ppsInEdgeMissing s fun t =>
    t.tmb = { s.tmb with ppsBad := s.tmb.ppsBad + 1 } ∧ Within (fun _ => False) s t :=
  ⟨_, congrArg settled (State.ppsBadEdge_few hb), State.settle_tmb _, Within.settle ⟨fun _ _ _ => rfl, rfl, rfl, rfl, rfl⟩⟩

/-! Loss (R59, R60). -/

/-- What the loss of the reference leaves of a timebase that was locked to it (R59, R65). -/
structure Lost (u t : State) : Prop where
  state : t.tmbState = stHoldover
  saved : t.tmb.norLearnt = some u.tmb.learnt
  alters : Alters electBits u t
  kept : t.tmb.kept = u.tmb.kept

theorem State.sourceLost_lost (h : u.tmbState = stLocked) : Lost u u.sourceLost.elect.settle := by
  have hin : u.inLock = true := u.inLock_iff.mpr (.inl h)
  have h1 := u.sourceLost_retunes
  have hst : u.sourceLost.tmbState = stHoldover := by rw [u.sourceLost_tmbState, if_pos hin]
  have hne : u.sourceLost.tmbState ≠ stFollowing := by rw [hst]; decide
  have h2 := (State.elect_plain_retunes hne).settle
  refine ⟨?_, ?_, ?_, h2.kept.trans h1.kept⟩
  · rw [State.tmbState, State.settle_fld _ (by decide)]
    exact (State.elect_plain_tmbState hne).trans hst
  · rw [State.settle_tmb, State.elect_plain_norLearnt hne, u.sourceLost_norLearnt hin]
  · exact (h1.toAlters.mono fun _ _ => .inl).trans (h2.toAlters.mono fun _ _ h => .inr (.inl h))

theorem electBits_valid {i : Nat} (h7 : 7 ≤ i) (h9 : i ≤ 9) : ¬ electBits R.TMB_STAT i := by
  simp only [electBits, stateBits, tuneBits, freqBits, roleBits, norReg, R.TMB_STAT, R.TMB_FREQ_ADJ, R.TMB_HO_EST, R.TMB_CALLER,
    R.TMB_UP_LINK, R.NOR_LAST_SECT, R.NOR_SUSP]
  omega

/-- A reference whose mark has cleared was lost: the timebase goes to HOLDOVER with its frequency saved (R59, R60, R65). -/
theorem Lost.spec (h : Lost u t) {i : Nat} (h7 : 7 ≤ i) (h9 : i ≤ 9) (hb : u.bit R.TMB_STAT i = false)
    (hl : u.tmb.learnt = s.tmb.learnt) (hu : Within (fun k => k / 0x10000 = pageTmb) s u) :
    t.tmbState = stHoldover ∧ t.bit R.TMB_STAT i = false ∧ t.tmb.norLearnt = some s.tmb.learnt ∧
      Within (fun k => k / 0x10000 = pageTmb ∨ norReg k) s t := by
  refine ⟨h.state, (h.alters.bit _ i (by decide) (electBits_valid h7 h9)).trans hb, by rw [h.saved, hl], ?_⟩
  exact (Within.trans ⟨fun k hf hk => hu.1 k hf fun e => hk (.inl e), hu.2⟩ (h.alters.within fun _ _ h => .inr h.page))

/-- A mark of TMB_STAT cleared, beside what else the timebase holds. -/
theorem State.unmark_spec (s : State) {i : Nat} (hi : i < 64) (h2 : 2 < i) {x : Timebase} (hx : x.learnt = s.tmb.learnt) :
    let u : State := { s.setBit R.TMB_STAT i false with tmb := x }
    u.bit R.TMB_STAT i = false ∧ u.tmbState = s.tmbState ∧ u.tmbSrc = s.tmbSrc ∧ u.tmb.learnt = s.tmb.learnt ∧
      Within (fun k => k / 0x10000 = pageTmb) s u := by
  have ha := s.setBit_alters (S := fun k j => k = R.TMB_STAT ∧ j = i) (k := R.TMB_STAT) (i := i) false ⟨rfl, rfl⟩
  have hw := ha.within (p := fun k => k / 0x10000 = pageTmb) fun _ _ h => .inr (by rw [h.1]; rfl)
  refine ⟨?_, ?_, ?_, hx, hw.1, hw.2⟩
  · exact (s.bit_setBit R.TMB_STAT i R.TMB_STAT i false hi).trans (if_pos ⟨rfl, rfl⟩)
  · exact ha.tmbState fun j hj e => by
      have := e.2
      omega
  · exact ha.fld (by decide) fun _ _ _ e => absurd e.1 (by decide)

theorem srcLost_exec (hs : s.tmbState = stLocked) {src : Nat → Bool} (hsrc : src s.tmbSrc = true) (h1 : u.tmbState = s.tmbState)
    (h2 : u.tmbSrc = s.tmbSrc) : (if src u.tmbSrc && u.tmbState ≠ stFollowing then u.sourceLost.elect else u) = u.sourceLost.elect := by
  have hne : u.tmbState ≠ stFollowing := by rw [h1, hs]; decide
  rw [if_pos]
  simp [h2, hsrc, hne]

/-- The third bad edge in a row loses PPS_IN (R60). -/
theorem ppsInEdgeMissing_loses (hs : s.tmbState = stLocked) (hb : s.tmb.ppsBad = 2) (hsrc : srcPps s.tmbSrc = true) :
    Runs .ppsInEdgeMissing s fun t => t.tmbState = stHoldover ∧ t.bit R.TMB_STAT 8 = false ∧ t.tmb.norLearnt = some s.tmb.learnt ∧
      Within (fun k => k / 0x10000 = pageTmb ∨ norReg k) s t := by
  obtain ⟨hbit, h1, h2, hl, hw⟩ := s.unmark_spec (i := 8) (x := { s.tmb with ppsBad := 0, ppsLast := none }) (by decide) (by decide) rfl
  have hn : ¬ s.tmb.ppsBad + 1 < 3 := by omega
  have e : s.ppsBadEdge = (if srcPps ({ s.setBit R.TMB_STAT 8 false with tmb := { s.tmb with ppsBad := 0, ppsLast := none } } : State).tmbSrc &&
      ({ s.setBit R.TMB_STAT 8 false with tmb := { s.tmb with ppsBad := 0, ppsLast := none } } : State).tmbState ≠ stFollowing then
        ({ s.setBit R.TMB_STAT 8 false with tmb := { s.tmb with ppsBad := 0, ppsLast := none } } : State).sourceLost.elect
      else ({ s.setBit R.TMB_STAT 8 false with tmb := { s.tmb with ppsBad := 0, ppsLast := none } } : State)) := if_neg hn
  generalize ({ s.setBit R.TMB_STAT 8 false with tmb := { s.tmb with ppsBad := 0, ppsLast := none } } : State) = u at *
  rw [srcLost_exec hs hsrc h1 h2] at e
  exact ⟨_, congrArg settled e, (State.sourceLost_lost (h1.trans hs)).spec (by decide) (by decide) hbit hl hw⟩

/-- Missing cycles lose TREF_10M (R60). -/
theorem tref10mLoss_loses (hs : s.tmbState = stLocked) (hsrc : srcTref s.tmbSrc = true) :
    Runs .tref10mLoss s fun t => t.tmbState = stHoldover ∧ t.bit R.TMB_STAT 7 = false ∧ t.tmb.norLearnt = some s.tmb.learnt ∧
      Within (fun k => k / 0x10000 = pageTmb ∨ norReg k) s t := by
  obtain ⟨hbit, h1, h2, hl, hw⟩ := s.unmark_spec (i := 7) (x := s.tmb) (by decide) (by decide) rfl
  have e : exec .tref10mLoss s = settled (if srcTref ({ s.setBit R.TMB_STAT 7 false with tmb := s.tmb } : State).tmbSrc &&
      ({ s.setBit R.TMB_STAT 7 false with tmb := s.tmb } : State).tmbState ≠ stFollowing then
        ({ s.setBit R.TMB_STAT 7 false with tmb := s.tmb } : State).sourceLost.elect
      else ({ s.setBit R.TMB_STAT 7 false with tmb := s.tmb } : State)) := rfl
  generalize ({ s.setBit R.TMB_STAT 7 false with tmb := s.tmb } : State) = u at *
  rw [srcLost_exec hs hsrc h1 h2] at e
  exact ⟨_, e, (State.sourceLost_lost (h1.trans hs)).spec (by decide) (by decide) hbit hl hw⟩

/-- Missing Sync messages lose IEEE 1588, and the masters with it (R60). -/
theorem ptpSyncTimeout_loses (hs : s.tmbState = stLocked) (hsrc : srcPtp s.tmbSrc = true) :
    Runs .ptpSyncTimeout s fun t => t.tmbState = stHoldover ∧ t.bit R.TMB_STAT 9 = false ∧ t.tmb.norLearnt = some s.tmb.learnt ∧
      t.tmb.ptp.masters = [] ∧ Within (fun k => k / 0x10000 = pageTmb ∨ norReg k) s t := by
  obtain ⟨hbit, h1, h2, hl, hw⟩ := s.unmark_spec (i := 9)
    (x := { s.tmb with ptp := { s.tmb.ptp with masters := [], sync := none, t1 := none, t2 := none } }) (by decide) (by decide) rfl
  have hm : ({ s.setBit R.TMB_STAT 9 false with tmb := { s.tmb with ptp := { s.tmb.ptp with
      masters := [], sync := none, t1 := none, t2 := none } } } : State).tmb.ptp.masters = [] := rfl
  have e : exec .ptpSyncTimeout s = settled (if srcPtp ({ s.setBit R.TMB_STAT 9 false with tmb := { s.tmb with ptp := { s.tmb.ptp with
      masters := [], sync := none, t1 := none, t2 := none } } } : State).tmbSrc &&
      ({ s.setBit R.TMB_STAT 9 false with tmb := { s.tmb with ptp := { s.tmb.ptp with
        masters := [], sync := none, t1 := none, t2 := none } } } : State).tmbState ≠ stFollowing then
        ({ s.setBit R.TMB_STAT 9 false with tmb := { s.tmb with ptp := { s.tmb.ptp with
          masters := [], sync := none, t1 := none, t2 := none } } } : State).sourceLost.elect
      else ({ s.setBit R.TMB_STAT 9 false with tmb := { s.tmb with ptp := { s.tmb.ptp with
        masters := [], sync := none, t1 := none, t2 := none } } } : State)) := rfl
  generalize ({ s.setBit R.TMB_STAT 9 false with tmb := { s.tmb with ptp := { s.tmb.ptp with
    masters := [], sync := none, t1 := none, t2 := none } } } : State) = u at *
  rw [srcLost_exec hs hsrc h1 h2] at e
  have hlost := State.sourceLost_lost (h1.trans hs)
  obtain ⟨h3, h4, h5, h6⟩ := hlost.spec (by decide) (by decide) hbit hl hw
  have hk := congrArg (fun x : Timebase => x.ptp.masters) hlost.kept
  exact ⟨_, e, h3, h4, h5, hk.trans hm, h6⟩

/-! TREF_10M_VALID (R59, R60). -/

/-- The 16 s of R61 start anew with the cycles, where they are the whole source (R61). -/
def State.cyclesFrom (s : State) (ppm : Int) : State :=
  if s.tmbSrc = 1 && s.tmbState = stAcquiring && (ppm ≠ 0 || s.tmb.okFrom.isNone) then
    { s with tmb := { s.tmb with okFrom := some s.etime } }
  else s

theorem tref10mValid_exec (s : State) (ppm : Int) : exec (.tref10mValid ppm) s =
    settled (if ppm.natAbs ≤ 10 then ((s.setBit R.TMB_STAT 7 true).tryAcquire.cyclesFrom ppm).trefSteers else s.rejectRef) := rfl

theorem State.cyclesFrom_retunes (s : State) (S : Nat → Nat → Prop) (ppm : Int) : Retunes S s (s.cyclesFrom ppm) := by
  unfold State.cyclesFrom
  split
  · exact s.setTmb_retunes rfl
  · exact .refl S s

theorem State.cyclesFrom_tmbState (s : State) (ppm : Int) : (s.cyclesFrom ppm).tmbState = s.tmbState :=
  (s.cyclesFrom_retunes (fun _ _ => False) ppm).tmbState fun _ _ => id

theorem State.trefSteers_tmbState (s : State) : s.trefSteers.tmbState = s.tmbState :=
  s.trefSteers_retunes.tmbState fun i _ => by simp [freqBits]

/-- Valid cycles mark TREF_10M valid, and are acquired when SRC selects them alone (R59, R60). -/
theorem tref10mValid_marks (s : State) {ppm : Int} (h : ppm.natAbs ≤ 10) : Runs (.tref10mValid ppm) s fun t =>
    t.bit R.TMB_STAT 7 = true ∧ (s.tmbState = stFree → s.tmbSrc = 1 → t.tmbState = stAcquiring) ∧
      Within (fun k => k / 0x10000 = pageTmb) s t := by
  have ha := s.setBit_alters (S := fun k i => k = R.TMB_STAT ∧ i = 7) (k := R.TMB_STAT) (i := 7) true ⟨rfl, rfl⟩
  have hb : (s.setBit R.TMB_STAT 7 true).bit R.TMB_STAT 7 = true :=
    (s.bit_setBit R.TMB_STAT 7 R.TMB_STAT 7 true (by decide)).trans (if_pos ⟨rfl, rfl⟩)
  have hst : (s.setBit R.TMB_STAT 7 true).tmbState = s.tmbState := ha.tmbState fun j hj e => by
    have := e.2
    omega
  have hsrc : (s.setBit R.TMB_STAT 7 true).tmbSrc = s.tmbSrc := ha.fld (by decide) fun _ _ _ e => absurd e.1 (by decide)
  have hw := ha.within (p := fun k => k / 0x10000 = pageTmb) fun _ _ h => .inr (by rw [h.1]; rfl)
  have e := tref10mValid_exec s ppm
  rw [if_pos h] at e
  generalize s.setBit R.TMB_STAT 7 true = u at *
  have h1 := u.tryAcquire_tunes
  have h2 := h1.trans ((State.cyclesFrom_retunes _ tuneBits ppm).trans ((State.trefSteers_retunes _).mono fun _ _ => freqBits.tune))
  refine ⟨_, e, ?_, fun hf h1s => ?_, (hw.trans (h2.within fun _ _ h => .inr h.page)).settle⟩
  · rw [State.settle_bit _ (by decide), h2.bit _ 7 (by decide) (tuneBits_stat (by decide)), hb]
  · have hv : u.srcValid = true := by
      simp only [State.srcValid, hsrc, h1s, hb]
      rfl
    rw [State.tmbState, State.settle_fld _ (by decide)]
    refine (State.trefSteers_tmbState _).trans ((State.cyclesFrom_tmbState _ ppm).trans (u.tryAcquire_tmbState.trans (if_pos ?_)))
    rw [hst, hf, hv]
    rfl

theorem tref10mValid_rejects (s : State) {ppm : Int} (h : 10 < ppm.natAbs) : Runs (.tref10mValid ppm) s fun t =>
    t.rd R.TMB_REJECT = min (s.rd R.TMB_REJECT + 1) 0xFFFFFFFF ∧ t.rd (R.PG_ERR pageTmb) % 65536 = 0x8002 ∧
      Within (fun k => k = R.TMB_REJECT) s t := by
  have e := tref10mValid_exec s ppm
  rw [if_neg (Nat.not_le.mpr h)] at e
  refine ⟨_, e, ?_, ?_, (s.rejectRef_alters.within fun _ _ => .inr).settle⟩
  · rw [State.settle_rd _ (by decide), State.rejectRef_count]
  · rw [State.settle_rd _ (by decide), State.rejectRef_pgErr]

end

end Sys2Proof.Machine

namespace Sys2Proof

open Machine Safety

/-- Settles O12: the edges accepted, rejected and missing, the losses, and the cycles of TREF_10M, each by its own statement. -/
theorem referencesAcquireAndLose : Obligations.ReferencesAcquireAndLose := by
  intro s
  refine ⟨fun x hx ha => ?_, fun x ha hb => ppsInEdge_rejected ha hb, fun hb => ppsInEdgeMissing_few hb, fun hs => ⟨fun hb hsrc => ?_,
    fun hsrc => tref10mLoss_loses hs hsrc, fun hsrc => ptpSyncTimeout_loses hs hsrc⟩,
    fun ppm => ⟨fun h => tref10mValid_marks s h, fun h => tref10mValid_rejects s h⟩⟩
  · obtain ⟨t, e, h⟩ := ppsInEdge_taken hx ha
    exact ⟨t, e, h.stamp.frac, h.stamp.ns, h.stamp.lo, h.stamp.hi, h.stamp.valid, h.ppsBad, h.loaded, h.load, h.kept⟩
  · exact ppsInEdgeMissing_loses hs hb hsrc

end Sys2Proof
end

section
/-! Stamped messages of TIME and CAL: what leaves on a link, and what its departure counts (R57, R83, R87, R352, R376). -/

namespace Sys2Proof.Machine

open Safety

/-- The registers that a stamped message's departure counts in: the link's flits, and ACC (R236, R376). -/
def departReg (l k : Nat) : Prop := k = R.LNK_FLITS_TX l ∨ k / 0x10000 = pageAcc

/-- Registers of S counted in, with the remainders of their energy (R237). -/
def Charged (S : Nat → Prop) (s t : State) : Prop :=
  ∃ rg ar, t = { s with regs := rg, accRem := ar } ∧ ∀ k, ¬ S k → t.rd k = s.rd k

section
variable {S : Nat → Prop} {s t u : State}

theorem Charged.refl (S : Nat → Prop) (s : State) : Charged S s s := ⟨s.regs, s.accRem, rfl, fun _ _ => rfl⟩

theorem Charged.trans (h : Charged S s t) (h' : Charged S t u) : Charged S s u := by
  obtain ⟨rg, ar, rfl, e⟩ := h
  obtain ⟨rg', ar', rfl, e'⟩ := h'
  exact ⟨rg', ar', rfl, fun k hk => (e' k hk).trans (e k hk)⟩

theorem State.count_charged (s : State) {k : Nat} (n : Nat) (h : S k) : Charged S s (s.count k n) :=
  ⟨_, s.accRem, rfl, fun _ hk => s.rd_wr_ne _ fun e => hk (e ▸ h)⟩

theorem State.energy_charged (s : State) {i : Nat} (k n : Nat) (h : S (R.ACC_ENERGY_UJ i)) : Charged S s (s.energy i k n) := by
  unfold State.energy
  split
  · extract_lets e
    exact Charged.trans (t := { s with accRem := kvPut s.accRem i (e % 256000000) }) ⟨s.regs, _, rfl, fun _ _ => rfl⟩
      (State.count_charged _ _ h)
  · exact .refl S s

theorem State.charge_charged (s : State) {i key : Nat} (k n : Nat) (h : S key) (he : S (R.ACC_ENERGY_UJ i)) :
    Charged S s (s.charge i key k n) := (s.count_charged n h).trans (State.energy_charged _ k n he)

/-- The flits of TIME and CAL are charged to the module block (R236). -/
theorem State.chargeLink_charged (s : State) (l : LinkNo) (tx rx : Nat) : Charged (departReg l) s (s.chargeLink 16 l tx rx) := by
  have hl := l.isLt
  have hacc {k : Nat} (h : k / 0x10000 = pageAcc) : departReg l k := .inr h
  have he : departReg l (R.ACC_ENERGY_UJ 16) := hacc (by decide)
  refine (s.charge_charged 9 tx (hacc ?_) he).trans (State.charge_charged _ 9 rx (hacc ?_) he)
  · simp only [R.ACC_LINK_TX, pageAcc]
    omega
  · simp only [R.ACC_LINK_RX, pageAcc]
    omega

/-- What a stamped message's departure leaves: one more flit on the link's wire and held for retry, counted and charged (R352). -/
structure Departs (l : Nat) (s t : State) : Prop where
  rd : ∀ k, ¬ departReg l k → t.rd k = s.rd k
  mem : SameMem s t
  dtime : t.dtime = s.dtime
  msr : t.msr = s.msr
  tmb : t.tmb = s.tmb
  retry : (t.linkUnit l).retry.length = (s.linkUnit l).retry.length + 1
  out : ∃ f, t.out = s.out ++ [f]

theorem State.flitBlock_time (s : State) (m : TimeMessage) : s.flitBlock (.time m) = some 16 := rfl
theorem State.flitBlock_cal (s : State) (m : CalLeg) : s.flitBlock (.cal m) = some 16 := rfl

theorem State.launch_departs (s : State) (l : LinkNo) {b : FlitBody} (hs : sequenced b = true) (hb : ∀ t : State, t.flitBlock b = some 16) :
    Departs l s (s.launch l b) := by
  have hcount (t : State) := t.count_charged (S := departReg l) (k := R.LNK_FLITS_TX l) 1 (.inl rfl)
  unfold State.launch State.flitOut
  extract_lets u v u' s1 s1'
  have hr : v.retry.length = u.retry.length + 1 := List.length_append
  rw [hb]
  have hs1 : s1' = s1.count (R.LNK_FLITS_TX l) 1 := if_pos hs
  have h1 : Charged (departReg l) s1 (s1'.chargeLink 16 l 240 0) := by
    rw [hs1]
    exact (hcount s1).trans (State.chargeLink_charged _ l 240 0)
  have hlink : (s1.linkUnit l) = v := kvGet_kvPut _ _ _ _ _ |>.trans (if_pos rfl)
  obtain ⟨rg, ar, e, hk⟩ := h1
  have h2 (k : Nat) (hd : ¬ departReg l k) : (s1'.chargeLink 16 l 240 0).rd k = s.rd k := hk k hd
  dsimp only
  rw [e] at h2 ⊢
  exact ⟨h2, ⟨rfl, rfl, rfl, rfl⟩, rfl, rfl, rfl, by rw [← hr, ← hlink]; rfl, _, rfl⟩

end

end Sys2Proof.Machine
end

section
/-! Time messages and calibrations that leave: what a send keeps, and when it goes (R57, R83, R87). -/

namespace Sys2Proof.Machine

open Safety

/-- At most what sending does, when S names the registers that count it, and what time passing does: the registers beside S stay, the
memories and the measures; outputs are only added. -/
structure Sends (S : Nat → Prop) (s t : State) : Prop where
  rd : ∀ k, ¬ S k → t.rd k = s.rd k
  mem : SameMem s t
  msr : t.msr = s.msr
  out : ∃ l, t.out = s.out ++ l

section
variable {S : Nat → Prop} {s t u : State}

theorem Sends.refl (S : Nat → Prop) (s : State) : Sends S s s := ⟨fun _ _ => rfl, .refl s, rfl, [], (List.append_nil _).symm⟩

theorem Sends.trans (h : Sends S s t) (h' : Sends S t u) : Sends S s u := by
  obtain ⟨l, e⟩ := h.out
  obtain ⟨l', e'⟩ := h'.out
  exact ⟨fun k hk => (h'.rd k hk).trans (h.rd k hk), h.mem.trans h'.mem, h'.msr.trans h.msr, l ++ l', by rw [e', e, List.append_assoc]⟩

theorem Sends.mono {S' : Nat → Prop} (h : Sends S s t) (hS : ∀ k, S k → S' k) : Sends S' s t :=
  ⟨fun k hk => h.rd k fun e => hk (hS k e), h.mem, h.msr, h.out⟩

theorem Sends.foldl {β : Type} (f : State → β → State) (l : List β) (hf : ∀ t, ∀ b ∈ l, Sends S t (f t b)) (s : State) :
    Sends S s (l.foldl f s) := by
  induction l generalizing s with
  | nil => exact .refl S s
  | cons b l ih => exact (hf s b (List.mem_cons_self ..)).trans (ih (fun t b hb => hf t b (List.mem_cons_of_mem _ hb)) _)

theorem Sends.alters (h : Sends S s t) : Alters (fun k _ => S k) s t := ⟨fun k i _ hk => State.bit_congr (h.rd k hk) i, h.mem⟩

theorem Sends.within {p : Nat → Prop} (h : Sends S s t) (hp : ∀ k, S k → p k) : Within p s t :=
  ⟨fun k _ hk => h.rd k fun e => hk (hp k e), h.mem⟩

theorem Passes.sends (h : Passes s t) : Sends S s t := ⟨fun k _ => h.rd k, h.mem, h.msr, [], h.out.trans (List.append_nil _).symm⟩

/-- What has been sent stays sent. -/
theorem sent_mono {p : Output → Prop} (h : Sent s t p) (e : ∃ l, u.out = t.out ++ l) : Sent s u p := by
  obtain ⟨o, l, el, ho, hp⟩ := h
  obtain ⟨l', e⟩ := e
  exact ⟨o, l ++ l', by rw [e, el, List.append_assoc], List.mem_append_left _ ho, hp⟩

theorem sent_after {p : Output → Prop} (e : ∃ l, t.out = s.out ++ l) (h : Sent t u p) : Sent s u p := by
  obtain ⟨l, e⟩ := e
  obtain ⟨o, l', el, ho, hp⟩ := h
  exact ⟨o, l ++ l', by rw [el, e, List.append_assoc], List.mem_append_right _ ho, hp⟩

theorem departReg.page {l k : Nat} (h : departReg l k) : k / 0x10000 = pageLnk l ∨ k / 0x10000 = pageAcc := by
  rcases h with rfl | h
  · refine .inl ?_
    simp only [R.LNK_FLITS_TX, pageLnk]
    omega
  · exact .inr h

/-- The state of a link is none of the registers that count a departure. -/
theorem departReg_lnkStat (l l' : Nat) : ¬ departReg l (R.LNK_STAT l') := by
  simp only [departReg, R.LNK_STAT, R.LNK_FLITS_TX, pageAcc]
  omega

/-! Stamped messages. -/

section
variable {b : FlitBody} {l : LinkNo} (hs : sequenced b = true) (hb : ∀ t : State, t.flitBlock b = some 16) (o : Output)
include hs hb

theorem State.sendStamped_departs (hm : s.maySendNow l b = true) : Departs l (s.emit o) (s.sendStamped l b o) := by
  rw [State.sendStamped, if_pos hm]
  exact State.launch_departs _ l hs hb

theorem State.sendStamped_sent (hm : s.maySendNow l b = true) : Sent s (s.sendStamped l b o) fun x => x = o := by
  obtain ⟨f, e⟩ := (State.sendStamped_departs hs hb o hm).out
  exact ⟨o, [o, f], e.trans (List.append_assoc s.out [o] [f]), List.mem_cons_self .., rfl⟩

theorem State.sendStamped_sends : Sends (departReg l) s (s.sendStamped l b o) := by
  by_cases hm : s.maySendNow l b = true
  · have h := State.sendStamped_departs hs hb o hm
    obtain ⟨f, e⟩ := h.out
    exact ⟨h.rd, h.mem, h.msr, [o, f], e.trans (List.append_assoc s.out [o] [f])⟩
  · rw [State.sendStamped, if_neg hm]
    exact .refl _ s

end

theorem State.maySendNow_time {l : Nat} (m : TimeMessage) (hl : s.linkUp l = true) (hr : (s.linkUnit l).retry.length < 1024) :
    s.maySendNow l (.time m) = true := by
  have h1 : s.linkState l = lkUp := of_decide_eq_true hl
  rw [State.maySendNow, h1, decide_eq_true hr]
  rfl

theorem State.maySendNow_cal {l : Nat} (leg : CalLeg) (hl : s.linkState l = lkUp ∨ s.linkState l = lkStandby)
    (hr : (s.linkUnit l).retry.length < 1024) : s.maySendNow l (.cal leg) = true := by
  rw [State.maySendNow, decide_eq_true hr]
  rcases hl with h | h
  · rw [h]
    rfl
  · rw [h]
    rfl

theorem State.sendTime_sends (l : LinkNo) (m : TimeMessage) : Sends (departReg l) s (s.sendTime l m) :=
  State.sendStamped_sends (b := .time m) rfl (fun _ => rfl) _

theorem State.sendCal_sends (l : LinkNo) (leg : CalLeg) (o : Output) : Sends (departReg l) s (s.sendCal l leg o) :=
  State.sendStamped_sends (b := .cal leg) rfl (fun _ => rfl) _

/-- The caller's message carries its DTIME, its grid, its key and its hops (R83). -/
theorem timeMessageSend_spec {link : LinkNo} (h6 : s.bit R.TMB_STAT 6 = true) (hl : s.linkUp link = true)
    (hr : (s.linkUnit link).retry.length < 1024) : Runs (.timeMessageSend link) s fun t =>
      (Sent s t fun o => ∃ m : TimeMessage, o = .timeMessage link m ∧ m.departure = s.dtime ∧ m.origin = s.origin ∧
        m.originM = s.originM ∧ m.period = s.rd R.MSR_PERIOD ∧ m.change = s.msr.change ∧ m.key = BitVec.ofNat 32 s.ownKey) ∧
      Kept s t (fun k => k / 0x10000 = pageLnk link ∨ k / 0x10000 = pageAcc) ∧ SameMem s t := by
  have e : exec (.timeMessageSend link) s = settled (s.sendTime link s.timeMessage) := congrArg settled (if_pos h6)
  have hsent := State.sendStamped_sent (s := s) (b := .time s.timeMessage) (l := link) rfl (fun _ => rfl)
    (.timeMessage link s.timeMessage) (State.maySendNow_time _ hl hr)
  have hkey : s.timeMessage.key = BitVec.ofNat 32 s.ownKey := by
    rw [State.timeMessage, if_pos h6]
  have hw : Within _ s (s.sendTime link s.timeMessage).settle := ((State.sendTime_sends link _).within fun _ => departReg.page).settle
  obtain ⟨o, l, el, ho, rfl⟩ := sent_mono hsent (State.settle_out _)
  exact ⟨_, e, ⟨_, l, el, ho, _, rfl, rfl, rfl, rfl, rfl, rfl, hkey⟩, hw.1, hw.2⟩

end

end Sys2Proof.Machine
end

section
/-! Neighbours, their keys, and the grid that a follower takes (R81 to R84, R86, R88, R89). -/

namespace Sys2Proof.Machine

open Safety

section
variable {s t : State}

/-! The election's result (R81). -/

theorem lnkStat_plain (l : Nat) : flagReg (R.LNK_STAT l) = false ∧ ∀ i, ¬ electBits (R.LNK_STAT l) i := by
  refine ⟨?_, fun i => ?_⟩
  · simp only [flagReg, R.LNK_STAT, R.SYS_ATTN, Bool.or_eq_false_iff, decide_eq_false_iff_not]
    omega
  · simp only [electBits, stateBits, tuneBits, freqBits, roleBits, norReg, R.LNK_STAT, R.TMB_STAT, R.TMB_FREQ_ADJ, R.TMB_HO_EST,
      R.TMB_CALLER, R.TMB_UP_LINK, R.NOR_LAST_SECT, R.NOR_SUSP]
    omega

theorem stateBits_caller (i : Nat) : ¬ stateBits R.TMB_CALLER i ∧ ¬ stateBits R.TMB_UP_LINK i := by
  simp only [stateBits, tuneBits, freqBits, norReg, R.TMB_STAT, R.TMB_FREQ_ADJ, R.TMB_HO_EST, R.TMB_CALLER, R.TMB_UP_LINK,
    R.NOR_LAST_SECT, R.NOR_SUSP]
  omega

theorem alignBit_caller (i : Nat) : ¬ alignBit R.TMB_CALLER i ∧ ¬ alignBit R.TMB_UP_LINK i := by
  simp only [alignBit, R.TMB_STAT, R.TMB_CALLER, R.TMB_UP_LINK]
  omega

/-- TMB_CALLER tells the key that the election found (R81, R91). -/
theorem State.elect_caller (s : State) : s.elect.rd R.TMB_CALLER = callerReg s.electKey := by
  have hs {t u : State} (h : Retunes stateBits t u) : u.rd R.TMB_CALLER = t.rd R.TMB_CALLER := h.rd (by decide) fun i => (stateBits_caller i).1
  have ha {t u : State} (h : Retunes alignBit t u) : u.rd R.TMB_CALLER = t.rd R.TMB_CALLER := h.rd (by decide) fun i => (alignBit_caller i).1
  have h1 : s.electState.rd R.TMB_CALLER = callerReg s.electKey := by
    unfold State.electState
    split
    · rw [hs ((State.tryAcquire_tunes _).mono fun _ _ => .inl), hs (State.sourceLost_retunes _), ha (State.loseAlign_retunes _),
        State.takeRole_caller]
    · exact s.takeRole_caller _
  rw [State.elect_eq, State.rd_congr (State.advertise_regs _)]
  split
  · rw [ha (State.misalign_retunes _), h1]
  · exact h1

theorem State.reachable_congr (hn : t.tmb.neighbours = s.tmb.neighbours) (hr : ∀ l, t.rd (R.LNK_STAT l) = s.rd (R.LNK_STAT l)) :
    t.reachable = s.reachable := by
  unfold State.reachable State.bit State.fld
  simp only [hn, hr]

/-! A neighbour speaks (R81, R82). -/

/-- A neighbour's entry; one that has no key and follows no caller has none (R81). -/
def State.told (s : State) (link : Nat) (n : Neighbour) : State :=
  { s with tmb := { s.tmb with
      neighbours := if n.best = 0 then kvErase s.tmb.neighbours link else kvPut s.tmb.neighbours link n } }

theorem State.heard_eq (s : State) (link : Nat) (n : Neighbour) : s.heard link n = (s.told link n).elect := rfl

theorem State.heard_alters (s : State) (link : Nat) (n : Neighbour) : Alters electBits s (s.heard link n) :=
  .trans (t := s.told link n) (.of_regs rfl ⟨rfl, rfl, rfl, rfl⟩) (State.elect_retunes _).toAlters

theorem State.heard_ownGrid (s : State) (link : Nat) (n : Neighbour) : (s.heard link n).tmb.ownGrid = s.tmb.ownGrid := by
  have h := congrArg Timebase.ownGrid (s.told link n).elect_retunes.kept
  exact h

theorem State.heard_neighbours (s : State) (link : Nat) (n : Neighbour) :
    (s.heard link n).tmb.neighbours = (s.told link n).tmb.neighbours := by
  have h := congrArg Timebase.neighbours (s.told link n).elect_retunes.kept
  exact h

theorem State.told_find (s : State) (link : Nat) (n : Neighbour) :
    kvFind (s.told link n).tmb.neighbours link = if n.best = 0 then none else some n := by
  unfold State.told
  split
  · exact (kvFind_kvErase _ _ _).trans (if_pos rfl)
  · exact (kvFind_kvPut _ _ _ _).trans (if_pos rfl)

/-- What is heard decides the caller: the highest key among this module's own and the reachable neighbours' (R81). -/
theorem State.heard_caller (link : Nat) (n : Neighbour) (h4 : s.bit R.TMB_CTL 4 = true) :
    (s.heard link n).rd R.TMB_CALLER = callerReg ((s.heard link n).reachable.foldl (fun a e => max a e.2.best) s.ownKey) := by
  have hr : (s.heard link n).reachable = (s.told link n).reachable :=
    State.reachable_congr (s.heard_neighbours link n) fun l => (State.elect_retunes _).rd (lnkStat_plain l).1 (lnkStat_plain l).2
  rw [hr, s.heard_eq, State.elect_caller]
  exact congrArg callerReg (if_pos h4)

theorem State.heard_spec (s : State) (link : Nat) (n : Neighbour) : let t := (s.heard link n).settle
      kvFind t.tmb.neighbours link = (if n.best = 0 then none else some n) ∧
      (s.bit R.TMB_CTL 4 = true → t.rd R.TMB_CALLER = callerReg (t.reachable.foldl (fun a e => max a e.2.best) s.ownKey)) ∧
      Kept s t (fun k => k / 0x10000 = pageTmb ∨ norReg k) ∧ SameMem s t := by
  have hw : Within (fun k => k / 0x10000 = pageTmb ∨ norReg k) s (s.heard link n).settle :=
    ((s.heard_alters link n).within fun _ _ h => .inr h.page).settle
  have hr : (s.heard link n).settle.reachable = (s.heard link n).reachable :=
    State.reachable_congr (by rw [State.settle_tmb]) fun l => (State.settle_only _).flags.rd (lnkStat_plain l).1
  refine ⟨?_, fun h4 => ?_, hw.1, hw.2⟩
  · rw [State.settle_tmb, s.heard_neighbours, s.told_find]
  · rw [hr, State.settle_rd _ (by decide)]
    exact State.heard_caller _ n h4

/-! The grid is copied (R84, R86). -/

/-- The measures that count as announced on a copied grid (R86). -/
def State.knownOn (s : State) (m : TimeMessage) : List (Nat × Nat) :=
  if s.gridDiffers m then s.msr.queue.map fun a => (a.m, a.m) else s.msr.announced

/-- A grid that is copied: its registers, its pending change, the measures announced on it (R84). -/
def State.takeGrid (s : State) (m : TimeMessage) : State :=
  { s.setGrid m.origin m.originM m.period with msr := { s.msr with change := m.change, announced := s.knownOn m } }

/-- While measures do not run, a follower's grid is the caller's (R84). -/
theorem State.copyGrid_stopped (m : TimeMessage) (hr : s.running = false) (ho : s.tmb.ownGrid = false) :
    s.copyGrid m = s.takeGrid m := by
  unfold State.copyGrid
  rw [if_neg (by simp [ho]), if_neg (by simp [hr])]
  refine if_neg ?_
  split
  · simp [hr]
  · decide

/-- The registers of the grid (R93). -/
def gridReg (k : Nat) : Prop :=
  k = R.MSR_ORIGIN_FRAC ∨ k = R.MSR_ORIGIN_NS ∨ k = R.MSR_ORIGIN_SEC_LO ∨ k = R.MSR_ORIGIN_SEC_HI ∨ k = R.MSR_ORIGIN_M ∨ k = R.MSR_PERIOD

theorem State.takeGrid_alters (s : State) (m : TimeMessage) : Alters (fun k _ => gridReg k) s (s.takeGrid m) := by
  have h (t : State) {k : Nat} (v : Nat) (hk : gridReg k) := t.wr_alters (S := fun k _ => gridReg k) v fun _ => hk
  have hall : Alters (fun k _ => gridReg k) s (s.setGrid m.origin m.originM m.period) := by
    unfold State.setGrid
    exact (((((h _ _ (.inl rfl)).trans (h _ _ (.inr (.inl rfl)))).trans (h _ _ (.inr (.inr (.inl rfl))))).trans
      (h _ _ (.inr (.inr (.inr (.inl rfl)))))).trans (h _ _ (.inr (.inr (.inr (.inr (.inl rfl))))))).trans
      (h _ _ (.inr (.inr (.inr (.inr (.inr rfl))))))
  exact ⟨hall.bit, hall.mem⟩

/-- What the registers and the state of the measures tell of a copied grid (R84, R93). -/
structure OnGrid (m : TimeMessage) (s : State) : Prop where
  period : s.rd R.MSR_PERIOD = m.period % 2 ^ 64
  originM : s.originM = m.originM % 2 ^ 64
  ns : s.rd R.MSR_ORIGIN_NS = dtNs m.origin
  change : s.msr.change = m.change

theorem State.takeGrid_onGrid (s : State) (m : TimeMessage) : OnGrid m (s.takeGrid m) := by
  have hns : dtNs m.origin < 2 ^ 64 := by
    unfold dtNs
    omega
  refine ⟨?_, ?_, ?_, rfl⟩
  · exact (State.rd_wr _ _ _ _).trans (if_pos rfl)
  · show (s.setGrid m.origin m.originM m.period).rd R.MSR_ORIGIN_M = m.originM % 2 ^ 64
    rw [State.setGrid, State.rd_wr_ne _ _ (by decide), State.rd_wr, if_pos rfl]
  · show (s.setGrid m.origin m.originM m.period).rd R.MSR_ORIGIN_NS = dtNs m.origin
    rw [State.setGrid, State.rd_wr_ne _ _ (by decide), State.rd_wr_ne _ _ (by decide), State.rd_wr_ne _ _ (by decide),
      State.rd_wr_ne _ _ (by decide), State.rd_wr_same _ _ _ hns]

theorem OnGrid.keep {m : TimeMessage} {S : Nat → Nat → Prop} (h : OnGrid m s) (ha : Alters S s t) (hm : t.msr = s.msr)
    (hS : ∀ k i, gridReg k → ¬ S k i) : OnGrid m t := by
  have hk {k : Nat} (hf : flagReg k = false) (hg : gridReg k) : t.rd k = s.rd k := ha.rd hf fun i => hS k i hg
  exact ⟨(hk (by decide) (.inr (.inr (.inr (.inr (.inr rfl)))))).trans h.period,
    (hk (by decide) (.inr (.inr (.inr (.inr (.inl rfl)))))).trans h.originM, (hk (by decide) (.inr (.inl rfl))).trans h.ns,
    (congrArg Measures.change hm).trans h.change⟩

/-! Alignment by the measured offset, and the way downstream (R83, R89). -/

theorem State.alignBy_retunes (s : State) (off : Int) : Retunes alignBit s (s.alignBy off) := by
  unfold State.alignBy
  split
  · have h : Retunes alignBit s { s with tmb := { s.tmb with misaligned := false } } := s.setTmb_retunes rfl
    exact h.trans (State.setBit_retunes _ _ ⟨rfl, rfl⟩)
  · exact s.misalign_retunes

/-- The registers that count the departures on any link (R236, R376). -/
def anyDepart (k : Nat) : Prop := ∃ l, departReg l k

theorem State.forwardTime_sends (s : State) (link : Nat) (m : TimeMessage) : Sends anyDepart s (s.forwardTime link m) :=
  Sends.foldl _ _ (fun t l hl => (t.sendTime_sends ⟨l, List.mem_range.mp (List.mem_filter.mp hl).1⟩ _).mono fun _ h => ⟨l, h⟩) s

theorem anyDepart_page {k : Nat} (h : anyDepart k) : k / 0x10000 = pageAcc ∨ 0xC0 ≤ k / 0x10000 := by
  obtain ⟨l, h⟩ := h
  rcases h.page with h | h
  · refine .inr ?_
    rw [h]
    exact Nat.le_add_right _ _
  · exact .inl h

end

end Sys2Proof.Machine
end

section
/-! Following the caller, and losing the upstream (R83 to R86, R88). -/

namespace Sys2Proof.Machine

open Safety

section
variable {s t u : State} {link : LinkNo} {m : TimeMessage}

theorem alignBit_grid {k i : Nat} (h : gridReg k) : ¬ alignBit k i := by
  rintro ⟨rfl, -⟩
  simp only [gridReg, R.TMB_STAT, R.MSR_ORIGIN_FRAC, R.MSR_ORIGIN_NS, R.MSR_ORIGIN_SEC_LO, R.MSR_ORIGIN_SEC_HI, R.MSR_ORIGIN_M,
    R.MSR_PERIOD] at h
  omega

theorem gridReg_page {k : Nat} (h : gridReg k) : k / 0x10000 = pageMsr := by
  rcases h with rfl | rfl | rfl | rfl | rfl | rfl
  any_goals rfl

/-- A follower before the grid is copied: its state is FOLLOWING and its phase is corrected (R84, R88). -/
def State.followPhase (s : State) (link : Nat) (m : TimeMessage) (arrival : Nat) : State :=
  (((s.upOffset link m.departure arrival).2.setTmbState stFollowing).correct (s.upOffset link m.departure arrival).1 false).2

theorem State.follow_eq (s : State) (link : Nat) (m : TimeMessage) (arrival : Nat) : s.follow link m arrival =
    (((s.followPhase link m arrival).copyGrid m).alignBy (s.upOffset link m.departure arrival).1).forwardTime link m := rfl

/-- What setting the phase of a follower can change: its state, the frequency, the phase error. -/
def followBits (k i : Nat) : Prop := tuneBits k i ∨ phaseBits k i

theorem State.followPhase_alters (s : State) (link : Nat) (m : TimeMessage) (arrival : Nat) :
    Alters followBits s (s.followPhase link m arrival) ∧ (s.followPhase link m arrival).tmbState = stFollowing ∧
      (s.followPhase link m arrival).tmb.ownGrid = s.tmb.ownGrid := by
  obtain ⟨f, e⟩ := s.quot_eq (2 * ((arrival : Int) - m.departure - s.fld (R.TMB_LDLY link) 23 0) + signedOf 16 (s.rd (R.TMB_LASYM link))) 2
  have h0 : Retunes tuneBits s (s.upOffset link m.departure arrival).2 := by
    rw [State.upOffset, e]
    exact s.fresh_retunes f
  have h1 := h0.trans (State.setTmbState_tunes _ (v := stFollowing) (by decide))
  have hst := State.setTmbState_tmbState (s.upOffset link m.departure arrival).2 (v := stFollowing) (by decide)
  have h2 := State.correct_corrects ((s.upOffset link m.departure arrival).2.setTmbState stFollowing)
    (s.upOffset link m.departure arrival).1 false
  have hg := congrArg Timebase.ownGrid (h2.still.trans h1.still)
  unfold State.followPhase
  refine ⟨(h1.toAlters.mono fun _ _ => .inl).trans (h2.toAlters.mono fun _ _ => .inr), (h2.toAlters.tmbState fun i _ => ?_).trans hst, hg⟩
  simp only [phaseBits, freqBits, R.TMB_STAT, R.TMB_PHASE_ERR, R.TMB_FREQ_ADJ, R.TMB_HO_EST]
  omega

theorem followBits.page {k i : Nat} (h : followBits k i) : k / 0x10000 = pageTmb := h.elim tuneBits.page phaseBits.page

/-- A follower whose measures do not run stands on its caller's grid (R84). -/
theorem State.follow_spec (arrival : Nat) (hr : s.running = false) (ho : s.tmb.ownGrid = false) :
    (s.follow link m arrival).tmbState = stFollowing ∧ OnGrid m (s.follow link m arrival) ∧ SameMem s (s.follow link m arrival) := by
  obtain ⟨ha, hst, hg⟩ := s.followPhase_alters link m arrival
  have hrun : (s.followPhase link m arrival).running = false :=
    (ha.bit R.MSR_CTL 0 (by decide) fun h => absurd h.page (by decide)).trans hr
  rw [State.follow_eq, State.copyGrid_stopped m hrun (hg.trans ho)]
  generalize s.followPhase link m arrival = u at ha hst
  generalize (s.upOffset link m.departure arrival).1 = off
  have h1 := u.takeGrid_alters m
  have h2 := (u.takeGrid m).alignBy_retunes off
  have h3 := ((u.takeGrid m).alignBy off).forwardTime_sends link m
  have hgrid := ((u.takeGrid_onGrid m).keep h2.toAlters h2.msr fun _ _ => alignBit_grid).keep h3.alters h3.msr
    fun k _ hk hd => by
      have hp := gridReg_page hk
      have := anyDepart_page hd
      rw [hp] at this
      exact absurd this (by decide)
  refine ⟨?_, hgrid, ((ha.mem.trans h1.mem).trans h2.mem).trans h3.mem⟩
  have e3 := h3.alters.tmbState fun _ _ hd => absurd (anyDepart_page hd) (by decide)
  have e1 := h1.tmbState fun _ _ hk => absurd (gridReg_page hk) (by decide)
  exact ((e3.trans (State.alignBit_tmbState _ h2)).trans e1).trans hst

theorem electBits_msrCtl (i : Nat) : ¬ electBits R.MSR_CTL i := by
  intro h
  rcases h.page with e | e | e
  any_goals exact absurd e (by decide)

theorem timeMessageReceive_follows {arrival : Nat} (h4 : s.bit R.TMB_CTL 4 = true)
    (hup : ((s.until arrival).heard link { s.knownOf link with caller := m.key.toNat, hops := m.hops }).rd R.TMB_UP_LINK = link + 0x80)
    (hr : s.running = false) (ho : s.tmb.ownGrid = false) :
    Runs (.timeMessageReceive link m arrival false) s fun t => t.tmbState = stFollowing ∧
      t.rd R.MSR_PERIOD = m.period % 2 ^ 64 ∧ t.originM = m.originM % 2 ^ 64 ∧ t.rd R.MSR_ORIGIN_NS = dtNs m.origin ∧
      t.msr.change = m.change ∧ SameMem s t := by
  have hp := s.until_passes arrival
  have hg : (s.until arrival).tmb.ownGrid = s.tmb.ownGrid := by
    obtain ⟨_, _, _, _, _, e⟩ := hp
    rw [e]
  have hn : (s.until arrival).knownOf link = s.knownOf link := by
    obtain ⟨_, _, _, _, _, e⟩ := hp
    rw [e]
    rfl
  generalize hnb : ({ s.knownOf link with caller := m.key.toNat, hops := m.hops } : Neighbour) = n at hup
  have he : exec (.timeMessageReceive link m arrival false) s = settled (((s.until arrival).heard link n).follow link m arrival) := by
    have e1 : ({ (s.until arrival).knownOf link with caller := m.key.toNat, hops := m.hops } : Neighbour) = n := by rw [hn, hnb]
    have hb : ¬ (!(s.until arrival).bit R.TMB_CTL 4) = true := by rw [hp.bit, h4]; decide
    show settled (if !(s.until arrival).bit R.TMB_CTL 4 then s.until arrival else
      if ((s.until arrival).heard link { (s.until arrival).knownOf link with caller := m.key.toNat, hops := m.hops }).rd R.TMB_UP_LINK =
          link.val + 0x80 then
        ((s.until arrival).heard link { (s.until arrival).knownOf link with caller := m.key.toNat, hops := m.hops }).follow link m arrival
      else (s.until arrival).heard link { (s.until arrival).knownOf link with caller := m.key.toNat, hops := m.hops }) = _
    rw [if_neg hb, e1, if_pos hup]
  have hh := (s.until arrival).heard_alters link n
  have hrun : ((s.until arrival).heard link n).running = false :=
    (hh.bit R.MSR_CTL 0 (by decide) (electBits_msrCtl 0)).trans ((hp.bit _ _).trans hr)
  obtain ⟨h1, h2, h3⟩ := State.follow_spec (link := link) (m := m) arrival hrun (((s.until arrival).heard_ownGrid link n).trans (hg.trans ho))
  have h2' := h2.keep (State.settle_alters (S := fun _ _ => False) _) (State.settle_msr _) fun _ _ _ => id
  refine ⟨_, he, ?_, h2'.period, h2'.originM, h2'.ns, h2'.change, ((hp.mem.trans hh.mem).trans h3).trans (State.settle_only _).flags.sameMem⟩
  exact (State.settle_only _).flags.tmbState.trans h1

/-- A retried message is discarded and counted (R83, R92). -/
theorem timeMessageReceive_retried (s : State) (link : LinkNo) (m : TimeMessage) (arrival : Nat) :
    Runs (.timeMessageReceive link m arrival true) s fun t =>
      t.rd R.TMB_DISCARD = min (s.rd R.TMB_DISCARD + 1) 0xFFFFFFFF ∧ t.tmb.neighbours = s.tmb.neighbours ∧ t.msr = s.msr ∧
      Kept s t (fun k => k = R.TMB_DISCARD) ∧ SameMem s t := by
  have hp := s.until_passes arrival
  have hn : (s.until arrival).tmb.neighbours = s.tmb.neighbours := by
    obtain ⟨_, _, _, _, _, e⟩ := hp
    rw [e]
  refine ⟨((s.until arrival).countSat R.TMB_DISCARD 1).settle, rfl, ?_⟩
  have hw : Within (fun k => k = R.TMB_DISCARD) s ((s.until arrival).countSat R.TMB_DISCARD 1).settle :=
    ((hp.within _).trans (((s.until arrival).wr_alters (S := fun k _ => k = R.TMB_DISCARD) _ fun _ => rfl).within fun _ _ => .inr)).settle
  refine ⟨?_, ?_, ?_, hw.1, hw.2⟩
  · rw [State.settle_rd _ (by decide), State.countSat_eq, State.rd_wr_same _ _ _ (by omega), hp.rd]
  · rw [State.settle_tmb, State.countSat_eq, State.wr_tmb, hn]
  · rw [State.settle_msr]
    exact hp.msr

end

end Sys2Proof.Machine
end

section
/-! The loss of the upstream (R58, R59, R85). -/

namespace Sys2Proof.Machine

open Safety

section
variable {s t u : State}

theorem State.markLoss_saved (s : State) (old v : Nat) : (s.markLoss old v).tmb.norLearnt = s.tmb.norLearnt := by
  unfold State.markLoss
  split_ifs
  · rfl
  · rfl
  · rfl

theorem State.beginAcquire_norLearnt (s : State) : s.beginAcquire.tmb.norLearnt = s.tmb.norLearnt := by
  have hs (u : State) : u.steerFreq.tmb.norLearnt = u.tmb.norLearnt := rfl
  unfold State.beginAcquire
  extract_lets tref e s1
  split
  · exact hs s1
  · rfl

/-- The word in NOR stays while a source is acquired (R65). -/
theorem State.tryAcquire_norLearnt (s : State) : s.tryAcquire.tmb.norLearnt = s.tmb.norLearnt := by
  have hf (u : State) : (u.enterFreq stAcquiring).tmb.norLearnt = u.tmb.norLearnt := by
    unfold State.enterFreq
    rw [if_pos rfl, State.beginAcquire_norLearnt, State.enterState_norLearnt]
  unfold State.tryAcquire
  split
  · by_cases h : s.tmbState = stAcquiring
    · rw [s.setTmbState_self h]
    · rw [s.setTmbState_eq h, if_neg (by decide), State.markLoss_saved, hf, State.setIrq_tmb]
      rfl
  · rfl

/-- The neighbour on a link is known no longer. -/
def State.forget (s : State) (link : Nat) : State := { s with tmb := { s.tmb with neighbours := kvErase s.tmb.neighbours link } }

/-- A follower whose upstream is lost: HOLDOVER, and no neighbour on that link (R85). -/
def State.cutOff (s : State) : State := (s.sourceLost.raise pageTmb 0x800B none 0 0).forget (s.fld R.TMB_UP_LINK 4 0)

/-- Without an upstream a module takes its own source (R58, R59). -/
def State.ownSource (s : State) : State := if s.bit R.TMB_UP_LINK 7 then s else s.tryAcquire

theorem upstreamLoss_exec (hs : s.tmbState = stFollowing) (h7 : s.bit R.TMB_UP_LINK 7 = true) :
    exec .upstreamLoss s = settled s.cutOff.elect.loseAlign.ownSource := congrArg settled (if_pos (by simp [hs, h7]))

/-- What the loss of the upstream leaves before the module looks for a source of its own (R85). -/
structure Alone (s t : State) : Prop extends Alters electBits s t where
  state : t.tmbState = stHoldover
  saved : t.tmb.norLearnt = some s.tmb.learnt
  gone : kvFind t.tmb.neighbours (s.fld R.TMB_UP_LINK 4 0) = none

theorem Alone.forget (ha : Alters electBits s t) (hst : t.tmbState = stHoldover) (hs : t.tmb.norLearnt = some s.tmb.learnt) :
    Alone s (t.forget (s.fld R.TMB_UP_LINK 4 0)) :=
  ⟨⟨ha.bit, ha.mem⟩, hst, hs, (kvFind_kvErase _ _ _).trans (if_pos rfl)⟩

theorem State.cutOff_alone (hs : s.tmbState = stFollowing) : Alone s s.cutOff := by
  have hin : s.inLock = true := s.inLock_iff.mpr (.inr hs)
  have h1 := s.sourceLost_retunes.trans (State.raise_retunes _ pageTmb 0x800B none 0 0)
  have hst : (s.sourceLost.raise pageTmb 0x800B none 0 0).tmbState = stHoldover := by
    rw [(State.raise_flags _ _ _ _ _ _).tmbState, s.sourceLost_tmbState, if_pos hin]
  have hsv : (s.sourceLost.raise pageTmb 0x800B none 0 0).tmb.norLearnt = some s.tmb.learnt := by
    rw [State.raise_tmb, s.sourceLost_norLearnt hin]
  exact .forget (h1.toAlters.mono fun _ _ => .inl) hst hsv

theorem Alone.elect (h : Alone s t) : Alone s t.elect.loseAlign := by
  have hne : t.tmbState ≠ stFollowing := by rw [h.state]; decide
  have h1 := State.elect_plain_retunes hne
  have h2 := t.elect.loseAlign_retunes
  obtain ⟨a, e⟩ := State.elect_plain_tmb hne
  refine ⟨(h.toAlters.trans (h1.toAlters.mono fun _ _ h => .inr (.inl h))).trans (h2.toAlters.mono fun _ _ h => .inr (.inr h)), ?_, ?_, ?_⟩
  · exact ((State.alignBit_tmbState _ h2).trans (State.elect_plain_tmbState hne)).trans h.state
  · rw [State.loseAlign_tmb, e]
    exact h.saved
  · rw [State.loseAlign_tmb, e]
    exact h.gone

theorem tuneBits_upLink (i : Nat) : ¬ tuneBits R.TMB_UP_LINK i := fun h => (stateBits_caller i).2 (.inl h)

theorem State.ownSource_tunes (s : State) : Retunes tuneBits s s.ownSource := by
  unfold State.ownSource
  split
  · exact .refl _ s
  · exact s.tryAcquire_tunes

theorem State.ownSource_norLearnt (s : State) : s.ownSource.tmb.norLearnt = s.tmb.norLearnt := by
  unfold State.ownSource
  split
  · rfl
  · exact s.tryAcquire_norLearnt

theorem State.ownSource_tmbState (h : s.tmbState = stHoldover) :
    s.ownSource.tmbState = if s.srcValid && !s.bit R.TMB_UP_LINK 7 then stAcquiring else stHoldover := by
  unfold State.ownSource
  cases hb : s.bit R.TMB_UP_LINK 7 with
  | true => simpa using h
  | false => simp [State.tryAcquire_tmbState, h]

theorem Alone.spec (h : Alone s u) (h5 : u.bit R.TMB_STAT 5 = false) : let t := u.ownSource.settle
    t.tmbState = (if s.srcValid && !t.bit R.TMB_UP_LINK 7 then stAcquiring else stHoldover) ∧ t.bit R.TMB_STAT 5 = false ∧
      kvFind t.tmb.neighbours (s.fld R.TMB_UP_LINK 4 0) = none ∧ t.tmb.norLearnt = some s.tmb.learnt ∧
      Kept s t (fun k => k / 0x10000 = pageTmb ∨ norReg k) ∧ SameMem s t := by
  have ht := u.ownSource_tunes
  have hv : u.srcValid = s.srcValid := h.toAlters.srcValid electBits_ctl fun _ => electBits_valid
  have hup : u.ownSource.bit R.TMB_UP_LINK 7 = u.bit R.TMB_UP_LINK 7 := ht.bit _ 7 (by decide) (tuneBits_upLink 7)
  have hk := congrArg Timebase.neighbours ht.kept
  have hw : Within (fun k => k / 0x10000 = pageTmb ∨ norReg k) s u.ownSource.settle :=
    ((h.toAlters.trans (ht.toAlters.mono fun _ _ h => .inl (.inl h))).within fun _ _ h => .inr h.page).settle
  refine ⟨?_, ?_, ?_, ?_, hw.1, hw.2⟩
  · rw [(State.settle_only _).flags.tmbState, u.ownSource_tmbState h.state, State.settle_bit _ (by decide), hup, hv]
  · rw [State.settle_bit _ (by decide), ht.bit _ 5 (by decide) (tuneBits_stat (by decide)), h5]
  · rw [State.settle_tmb]
    exact (congrArg (fun ns => kvFind ns (s.fld R.TMB_UP_LINK 4 0)) hk).trans h.gone
  · rw [State.settle_tmb, u.ownSource_norLearnt, h.saved]

/-- Without its upstream a follower leaves FOLLOWING, to its own source if that is valid (R58, R59, R85). -/
theorem upstreamLoss_spec (hs : s.tmbState = stFollowing) (h7 : s.bit R.TMB_UP_LINK 7 = true) : Runs .upstreamLoss s fun t =>
    t.tmbState = (if s.srcValid && !t.bit R.TMB_UP_LINK 7 then stAcquiring else stHoldover) ∧ t.bit R.TMB_STAT 5 = false ∧
      kvFind t.tmb.neighbours (s.fld R.TMB_UP_LINK 4 0) = none ∧ t.tmb.norLearnt = some s.tmb.learnt ∧
      Kept s t (fun k => k / 0x10000 = pageTmb ∨ norReg k) ∧ SameMem s t :=
  ⟨_, upstreamLoss_exec hs h7, (State.cutOff_alone hs).elect.spec (State.loseAlign_aligned _)⟩

end

end Sys2Proof.Machine
end

section
/-! Calibration of a link: requests, replies, the mean delay (R87). -/

namespace Sys2Proof.Machine

open Safety

section
variable {s t u : State} {link : LinkNo}

/-! Requests and their exchanges. -/

/-- One exchange that the link lets go: the request leaves, and time passes to its reply's arrival (R87). -/
def State.exchange (s : State) (link : Nat) (x : CalSample) : State :=
  (s.sendCal link (.request s.dtime) (.calRequest link s.dtime)).until x.t4

theorem State.exchanges_cons (s : State) (link : Nat) (x : CalSample) (xs : List CalSample) : s.exchanges link (x :: xs) =
    if !(s.until x.t1).maySendNow link (.cal (.request (s.until x.t1).dtime)) then (s.until x.t1).exchanges link xs
    else ({ x with t1 := (s.until x.t1).dtime, t4 := ((s.until x.t1).exchange link x).dtime } ::
        (((s.until x.t1).exchange link x).exchanges link xs).1, (((s.until x.t1).exchange link x).exchanges link xs).2) := rfl

theorem State.exchange_sends (s : State) (link : LinkNo) (x : CalSample) : Sends (departReg link) s (s.exchange link x) :=
  (State.sendCal_sends link _ _).trans (Sends.mono (State.until_passes _ _).sends fun _ => id)

theorem State.exchange_sent (x : CalSample) (hm : s.maySendNow link (.cal (.request s.dtime)) = true) :
    Sent s (s.exchange link x) fun o => o = .calRequest link s.dtime :=
  sent_mono (State.sendStamped_sent rfl (fun _ => rfl) _ hm) ⟨[], by rw [State.exchange, (State.until_passes _ _).out, List.append_nil]; rfl⟩

/-- The link and the clock after an exchange: one more flit held, and the arrival of the reply. -/
theorem State.exchange_after (x : CalSample) (hm : s.maySendNow link (.cal (.request s.dtime)) = true) :
    (s.exchange link x).linkState link = s.linkState link ∧ (s.exchange link x).dtime = max s.dtime x.t4 ∧
      ((s.exchange link x).linkUnit link).retry.length = (s.linkUnit link).retry.length + 1 := by
  have hd : Departs link (s.emit (.calRequest link s.dtime)) (s.sendCal link (.request s.dtime) (.calRequest link s.dtime)) :=
    State.sendStamped_departs rfl (fun _ => rfl) _ hm
  have hp := State.until_passes (s.sendCal link (.request s.dtime) (.calRequest link s.dtime)) x.t4
  unfold State.exchange
  refine ⟨(hp.fld _ _ _).trans (State.fld_congr (hd.rd _ (departReg_lnkStat _ _)) _ _), ?_, ?_⟩
  · rw [State.until_dtime, hd.dtime]
    rfl
  · rw [State.linkUnit, hp.links]
    exact hd.retry

/-- Exchanges count departures on the link alone, and each of them has sent its request (R87). -/
theorem State.exchanges_sends (link : LinkNo) (xs : List CalSample) (s : State) : Sends (departReg link) s (s.exchanges link xs).2 ∧
    ∀ x ∈ (s.exchanges link xs).1, Sent s (s.exchanges link xs).2 fun o => o = .calRequest link x.t1 := by
  induction xs generalizing s with
  | nil => exact ⟨.refl _ s, fun _ h => absurd h List.not_mem_nil⟩
  | cons x xs ih =>
    have hp : Sends (departReg link) s (s.until x.t1) := (s.until_passes x.t1).sends
    rw [State.exchanges_cons]
    generalize s.until x.t1 = v at hp
    split
    · obtain ⟨h1, h2⟩ := ih v
      exact ⟨hp.trans h1, fun y hy => sent_after hp.out (h2 y hy)⟩
    · next hm =>
      have hm : v.maySendNow link (.cal (.request v.dtime)) = true := by simpa using hm
      have hx := v.exchange_sends link x
      have hsent := State.exchange_sent x hm
      obtain ⟨h1, h2⟩ := ih (v.exchange link x)
      generalize v.exchange link x = w at *
      refine ⟨(hp.trans hx).trans h1, fun y hy => sent_after hp.out ?_⟩
      rcases List.mem_cons.mp hy with rfl | hy
      · exact sent_mono hsent h1.out
      · exact sent_after hx.out (h2 y hy)

/-- On a link that lets all requests go, each departs at its t1 and its reply arrives at its t4 (R57, R87). -/
theorem State.exchanges_all (link : LinkNo) (xs : List CalSample) (s : State) (hl : s.linkState link = lkUp ∨ s.linkState link = lkStandby)
    (ht : ∀ x ∈ xs, s.dtime ≤ x.t1 ∧ x.t1 ≤ x.t4) (hp : xs.Pairwise fun x y => x.t4 ≤ y.t1)
    (hr : (s.linkUnit link).retry.length + xs.length ≤ 1024) : (s.exchanges link xs).1 = xs := by
  induction xs generalizing s with
  | nil => rfl
  | cons x xs ih =>
    obtain ⟨h1, h4⟩ := ht x (List.mem_cons_self ..)
    obtain ⟨hx, hp⟩ := List.pairwise_cons.mp hp
    have hpass := s.until_passes x.t1
    have hd : (s.until x.t1).dtime = x.t1 := by rw [State.until_dtime, Nat.max_eq_right h1]
    have hl : (s.until x.t1).linkState link = lkUp ∨ (s.until x.t1).linkState link = lkStandby := by
      rw [State.linkState, hpass.fld]
      exact hl
    have hr : ((s.until x.t1).linkUnit link).retry.length + (xs.length + 1) ≤ 1024 := by
      rw [State.linkUnit, hpass.links]
      exact hr
    rw [State.exchanges_cons]
    generalize s.until x.t1 = v at *
    have hm := State.maySendNow_cal (.request v.dtime) hl (by omega)
    obtain ⟨e1, e2, e3⟩ := State.exchange_after x hm
    rw [if_neg (by rw [hm]; decide), ih (v.exchange link x) (by rwa [e1]) (fun y hy => ⟨?_, (ht y (List.mem_cons_of_mem _ hy)).2⟩) hp (by omega),
      e2, hd, Nat.max_eq_right h4]
    have := hx y hy
    omega

/-! The delay of a link. -/

/-- The doubles of the delays that count, in order (R87). -/
def goodTwice (exch : Nat) (xs : List CalSample) : List Int := sortInts (((xs.take exch).filter fun x => !x.retried).map CalSample.twice)

/-- Do the delays spread over more than 8 of their doubles (R87)? -/
def spreads (good : List Int) : Bool := decide (8 < good.getD (good.length - 1) 0 - good.getD 0 0)

theorem State.calibrate_eq (s : State) (link exch : Nat) (xs : List CalSample) : s.calibrate link exch xs =
    if 2 * (goodTwice exch xs).length < exch ∨ spreads (goodTwice exch xs) = true then
      ((s.setBit (R.TMB_LDLY link) 31 false).raise pageTmb 0x800A none link 0).elect
    else ((s.quot (medianTwice (goodTwice exch xs)) 4).2.wr (R.TMB_LDLY link)
      ((s.quot (medianTwice (goodTwice exch xs)) 4).1.toNat % 2 ^ 24 + 2 ^ 31)).elect := by
  unfold State.calibrate goodTwice spreads
  simp only [Bool.or_eq_true, decide_eq_true_eq]

/-- A quarter is rounded to a whole number next to it. -/
theorem State.quot_four (s : State) (n : Int) : (4 * (s.quot n 4).1 - n).natAbs ≤ 3 := by
  unfold State.quot
  split
  · dsimp only
    omega
  · dsimp only
    omega

/-- What a calibration can change: the link's delay, and what an election changes (R82, R87). -/
def calBits (link k i : Nat) : Prop := k = R.TMB_LDLY link ∨ electBits k i

theorem ldly_plain (link : LinkNo) : flagReg (R.TMB_LDLY link) = false ∧ ∀ i, ¬ electBits (R.TMB_LDLY link) i := by
  have := link.isLt
  refine ⟨?_, fun i => ?_⟩
  · simp only [flagReg, R.TMB_LDLY, R.SYS_ATTN, Bool.or_eq_false_iff, decide_eq_false_iff_not]
    omega
  · simp only [electBits, stateBits, tuneBits, freqBits, roleBits, norReg, R.TMB_LDLY, R.TMB_STAT, R.TMB_FREQ_ADJ, R.TMB_HO_EST,
      R.TMB_CALLER, R.TMB_UP_LINK, R.NOR_LAST_SECT, R.NOR_SUSP]
    omega

theorem calBits.page {k i : Nat} (h : calBits link k i) : k / 0x10000 = pageTmb ∨ norReg k := by
  rcases h with rfl | h
  · have := link.isLt
    refine .inl ?_
    simp only [R.TMB_LDLY, pageTmb]
    omega
  · exact h.page

theorem State.calibrate_retunes (s : State) (link exch : Nat) (xs : List CalSample) : Retunes (calBits link) s (s.calibrate link exch xs) := by
  have he {v : State} (h : Retunes (calBits link) s v) : Retunes (calBits link) s v.elect := h.trans (v.elect_retunes.mono fun _ _ => .inr)
  rw [State.calibrate_eq]
  split
  · exact he ((s.setBit_retunes false (.inl rfl)).trans (State.raise_retunes _ _ _ _ _ _))
  · obtain ⟨f, e⟩ := s.quot_eq (medianTwice (goodTwice exch xs)) 4
    rw [e]
    exact he ((s.fresh_retunes f).trans (State.wr_retunes _ _ fun _ => .inl rfl))

theorem State.elect_ldly (s : State) (link : LinkNo) : s.elect.rd (R.TMB_LDLY link) = s.rd (R.TMB_LDLY link) :=
  s.elect_retunes.rd (ldly_plain link).1 (ldly_plain link).2

/-- A calibration with too few good exchanges, or with delays that spread too far, clears the link's validity (R87). -/
theorem State.calibrate_fails {exch : Nat} {xs : List CalSample} (h : 2 * (goodTwice exch xs).length < exch ∨ spreads (goodTwice exch xs) = true) :
    (s.calibrate link exch xs).bit (R.TMB_LDLY link) 31 = false := by
  rw [State.calibrate_eq, if_pos h, State.bit_congr (State.elect_ldly _ link), State.bit_congr (State.raise_rd _ _ _ _ _ _ (ldly_plain link).1),
    State.bit_setBit _ _ _ _ _ _ (by decide), if_pos ⟨rfl, rfl⟩]

/-- Else it gives the mean delay (R87). -/
theorem State.calibrate_gives {exch : Nat} {xs : List CalSample} (h : exch ≤ 2 * (goodTwice exch xs).length)
    (hw : spreads (goodTwice exch xs) = false) : ∃ d : Int, (4 * d - medianTwice (goodTwice exch xs)).natAbs ≤ 3 ∧
      (s.calibrate link exch xs).rd (R.TMB_LDLY link) = d.toNat % 2 ^ 24 + 2 ^ 31 := by
  refine ⟨_, s.quot_four _, ?_⟩
  rw [State.calibrate_eq, if_neg (by rw [hw]; simpa using h), State.elect_ldly, State.rd_wr_same _ _ _ (by omega)]

end

end Sys2Proof.Machine
end

section
/-! LINK_CALIBRATION and CAL_MESSAGE_RECEIVE (R87). -/

namespace Sys2Proof.Machine

open Safety

section
variable {s t : State} {link : LinkNo}

/-- How many exchanges a calibration takes, and those whose replies have arrived (R87). -/
def State.calExch (s : State) : Nat := s.fld R.TMB_CAL_CTL 23 16
def State.calHad (s : State) (link : Nat) : List CalSample := kvGet [] s.tmb.calReplies link

/-- The exchanges that a calibration makes itself, and what they leave (R87). -/
def State.calOwn (s : State) (link : Nat) (samples : List CalSample) : List CalSample × State :=
  s.exchanges link (samples.take (s.calExch - (s.calHad link).length))

/-- The replies that arrived on a link have been taken. -/
def State.takeReplies (s : State) (link : Nat) : State := { s with tmb := { s.tmb with calReplies := kvErase s.tmb.calReplies link } }

/-- What a calibration makes of a state. -/
def State.calibrated (s : State) (link : Nat) (samples : List CalSample) : State :=
  ((s.calOwn link samples).2.takeReplies link).calibrate link s.calExch (s.calHad link ++ (s.calOwn link samples).1)

theorem linkCalibration_exec {samples : List CalSample} (h4 : s.bit R.TMB_CTL 4 = true)
    (hl : s.linkState link = lkUp ∨ s.linkState link = lkStandby) :
    exec (.linkCalibration link samples) s = settled (s.calibrated link samples) := by
  have h : ¬ (!s.bit R.TMB_CTL 4 || (s.linkState link ≠ lkUp && s.linkState link ≠ lkStandby)) = true := by
    rcases hl with h | h
    · simp [h4, h]
    · simp [h4, h]
  exact congrArg settled (if_neg h)

/-- What every calibration leaves: its requests have been sent, all of them on a link that lets them go (R87). -/
theorem State.calibrated_frame (samples : List CalSample) (hl : s.linkState link = lkUp ∨ s.linkState link = lkStandby) :
    let t := (s.calibrated link samples).settle
    (∀ x ∈ (s.calOwn link samples).1, Sent s t fun o => o = .calRequest link x.t1) ∧
      (let xs := samples.take (s.calExch - (s.calHad link).length)
       (∀ x ∈ xs, s.dtime ≤ x.t1 ∧ x.t1 ≤ x.t4) → xs.Pairwise (fun x y => x.t4 ≤ y.t1) →
         (s.linkUnit link).retry.length + xs.length ≤ 1024 → (s.calOwn link samples).1 = xs) ∧
      Kept s t (fun k => k / 0x10000 = pageTmb ∨ k / 0x10000 = pageLnk link ∨ k / 0x10000 = pageAcc ∨ norReg k) ∧ SameMem s t := by
  obtain ⟨h1, h2⟩ := State.exchanges_sends link (samples.take (s.calExch - (s.calHad link).length)) s
  have h3 := (((s.calOwn link samples).2.takeReplies link).calibrate_retunes link s.calExch
    (s.calHad link ++ (s.calOwn link samples).1)).settle
  have h2' : ∀ x ∈ (s.calOwn link samples).1, Sent s (s.calOwn link samples).2 fun o => o = .calRequest link x.t1 := h2
  have hw1 : Within (fun k => k / 0x10000 = pageTmb ∨ k / 0x10000 = pageLnk link ∨ k / 0x10000 = pageAcc ∨ norReg k) s
      ((s.calOwn link samples).2.takeReplies link) := by
    have := h1.within (p := fun k => k / 0x10000 = pageTmb ∨ k / 0x10000 = pageLnk link ∨ k / 0x10000 = pageAcc ∨ norReg k)
      fun k hk => hk.page.elim (fun e => .inr (.inl e)) fun e => .inr (.inr (.inl e))
    exact ⟨this.1, this.2⟩
  have hw := hw1.trans (h3.toAlters.within fun k i hk => .inr (hk.page.elim .inl fun e => .inr (.inr (.inr e))))
  exact ⟨fun x hx => sent_mono (h2' x hx) h3.out, fun ht hp hr => State.exchanges_all link _ s hl ht hp hr, hw.1, hw.2⟩

theorem linkCalibration_fails {samples : List CalSample} (h4 : s.bit R.TMB_CTL 4 = true)
    (hl : s.linkState link = lkUp ∨ s.linkState link = lkStandby) {P : State → Prop} (hP : P (s.calibrated link samples).settle)
    (h : 2 * (goodTwice s.calExch (s.calHad link ++ (s.calOwn link samples).1)).length < s.calExch ∨
      spreads (goodTwice s.calExch (s.calHad link ++ (s.calOwn link samples).1)) = true) :
    Runs (.linkCalibration link samples) s fun t => t.bit (R.TMB_LDLY link) 31 = false ∧ P t :=
  ⟨_, linkCalibration_exec h4 hl, (State.bit_congr ((State.settle_only _).flags.rd (ldly_plain link).1) 31).trans
    (State.calibrate_fails h), hP⟩

theorem linkCalibration_gives {samples : List CalSample} (h4 : s.bit R.TMB_CTL 4 = true)
    (hl : s.linkState link = lkUp ∨ s.linkState link = lkStandby) {P : State → Prop} (hP : P (s.calibrated link samples).settle)
    (h : s.calExch ≤ 2 * (goodTwice s.calExch (s.calHad link ++ (s.calOwn link samples).1)).length)
    (hw : spreads (goodTwice s.calExch (s.calHad link ++ (s.calOwn link samples).1)) = false) :
    Runs (.linkCalibration link samples) s fun t =>
      (∃ d : Int, (4 * d - medianTwice (goodTwice s.calExch (s.calHad link ++ (s.calOwn link samples).1))).natAbs ≤ 3 ∧
        t.rd (R.TMB_LDLY link) = d.toNat % 2 ^ 24 + 2 ^ 31) ∧ P t := by
  obtain ⟨d, hd, e⟩ := ((s.calOwn link samples).2.takeReplies link).calibrate_gives (link := link) h hw
  exact ⟨_, linkCalibration_exec h4 hl, ⟨d, hd, ((State.settle_only _).flags.rd (ldly_plain link).1).trans e⟩, hP⟩

/-! Requests and replies of the neighbour. -/

/-- A request is answered with its arrival and the reply's departure (R87). -/
theorem calRequest_answered (t1 arrival : Nat) (hl : s.linkState link = lkUp ∨ s.linkState link = lkStandby)
    (hr : (s.linkUnit link).retry.length < 1024) :
    Runs (.calMessageReceive link (.request t1) arrival false) s fun t =>
      (Sent s t fun o => o = .calReply link t1 arrival (max s.dtime arrival)) ∧ t.tmb.neighbours = s.tmb.neighbours ∧ SameMem s t := by
  have hp := s.until_passes arrival
  have hn : (s.until arrival).tmb.neighbours = s.tmb.neighbours := by
    obtain ⟨_, _, _, _, _, e⟩ := hp
    rw [e]
  have hd := s.until_dtime arrival
  have hl : (s.until arrival).linkState link = lkUp ∨ (s.until arrival).linkState link = lkStandby := by
    rw [State.linkState, hp.fld]
    exact hl
  have hr : ((s.until arrival).linkUnit link).retry.length < 1024 := by
    rw [State.linkUnit, hp.links]
    exact hr
  have ho : ∃ l, (s.until arrival).out = s.out ++ l := ⟨[], hp.out.trans (List.append_nil _).symm⟩
  have he : exec (.calMessageReceive link (.request t1) arrival false) s = settled ((s.until arrival).sendCal link
      (.reply t1 arrival (s.until arrival).dtime) (.calReply link t1 arrival (s.until arrival).dtime)) := rfl
  have hmem := hp.mem
  rw [hd] at he
  generalize s.until arrival = v at *
  have hm := State.maySendNow_cal (.reply t1 arrival (max s.dtime arrival)) hl hr
  have hsent := sent_after ho (State.sendStamped_sent (b := .cal (.reply t1 arrival (max s.dtime arrival))) rfl (fun _ => rfl)
    (.calReply link t1 arrival (max s.dtime arrival)) hm)
  have hdep := State.sendStamped_departs (b := .cal (.reply t1 arrival (max s.dtime arrival))) rfl (fun _ => rfl)
    (.calReply link t1 arrival (max s.dtime arrival)) hm
  refine ⟨_, he, sent_mono hsent (State.settle_out _), ?_, ?_⟩
  · rw [State.settle_tmb, State.sendCal, hdep.tmb]
    exact hn
  · exact (hmem.trans (State.sendCal_sends link _ _).mem).trans (State.settle_only _).flags.sameMem

/-- A reply completes an exchange with its arrival as t4 (R87). -/
theorem calReply_kept (s : State) (link : LinkNo) (t1 t2 t3 arrival : Nat) :
    Runs (.calMessageReceive link (.reply t1 t2 t3) arrival false) s fun t =>
      kvGet [] t.tmb.calReplies link = kvGet [] s.tmb.calReplies link ++ [⟨t1, t2, t3, arrival, false⟩] ∧ Kept s t (fun _ => False) ∧
        SameMem s t := by
  have hp := s.until_passes arrival
  have hc : (s.until arrival).tmb.calReplies = s.tmb.calReplies := by
    obtain ⟨_, _, _, _, _, e⟩ := hp
    rw [e]
  have hw0 := hp.within fun _ => False
  generalize hx : (⟨t1, t2, t3, arrival, false⟩ : CalSample) = x
  have he : exec (.calMessageReceive link (.reply t1 t2 t3) arrival false) s = settled { s.until arrival with
      tmb := { (s.until arrival).tmb with
        calReplies := kvPut (s.until arrival).tmb.calReplies link (kvGet [] (s.until arrival).tmb.calReplies link ++ [x]) } } := by
    rw [← hx]
    rfl
  generalize s.until arrival = v at *
  have hw : Within (fun _ => False) s ({ v with
      tmb := { v.tmb with calReplies := kvPut v.tmb.calReplies link (kvGet [] v.tmb.calReplies link ++ [x]) } } : State).settle :=
    Within.settle ⟨hw0.1, hw0.2⟩
  refine ⟨_, he, ?_, hw.1, hw.2⟩
  rw [State.settle_tmb, ← hc]
  exact (kvGet_kvPut _ _ _ _ _).trans (if_pos rfl)

end

end Sys2Proof.Machine

namespace Sys2Proof

open Machine Safety

/-- Settles O15: time messages, keys, the loss of the upstream and calibration, each by what it does to the election, the grid and the
link's sends. -/
theorem fabricTimeFollowsCaller : Obligations.FabricTimeFollowsCaller := by
  intro s link
  refine ⟨timeMessageSend_spec, fun msg arrival => timeMessageReceive_retried s link msg arrival,
    fun msg arrival h4 hup hr ho => timeMessageReceive_follows h4 hup hr ho, fun key hops => ?_, upstreamLoss_spec, ?_,
    fun t1 arrival hl hr => calRequest_answered t1 arrival hl hr, fun t1 t2 t3 arrival => calReply_kept s link t1 t2 t3 arrival⟩
  · exact ⟨_, rfl, State.heard_spec s link _⟩
  · intro samples h4 hl exch had own good wide frame
    have hf := State.calibrated_frame samples hl
    exact ⟨fun h => linkCalibration_fails h4 hl hf h, fun h hw => linkCalibration_gives h4 hl hf h hw⟩

end Sys2Proof
end

section
/-! What leaves the measures as they are: registers, completions, stores and charges. The measures' own state changes only where the
grid, an arm or a strike changes it (R70 to R80); each lemma here says so of one operation. -/

namespace Sys2Proof.Machine

open Safety

section
variable (s : State)

/-- A fold of steps that leave the measures leaves them. -/
theorem State.foldl_msr {β : Type} (f : State → β → State) (h : ∀ t b, (f t b).msr = t.msr) (l : List β) (s : State) :
    (l.foldl f s).msr = s.msr := by
  induction l generalizing s with
  | nil => rfl
  | cons b l ih => exact (ih _).trans (h s b)

/-! Registers and interrupts. -/

@[simp] theorem State.setBit_msr (k i : Nat) (b : Bool) : (s.setBit k i b).msr = s.msr := rfl
@[simp] theorem State.setFld_msr (k hi lo v : Nat) : (s.setFld k hi lo v).msr = s.msr := rfl
@[simp] theorem State.count_msr (k n : Nat) : (s.count k n).msr = s.msr := rfl
@[simp] theorem State.countSat_msr (k n : Nat) : (s.countSat k n).msr = s.msr := rfl
@[simp] theorem State.countWrap_msr (k n : Nat) : (s.countWrap k n).msr = s.msr := rfl
@[simp] theorem State.raiseTo_msr (k v : Nat) : (s.raiseTo k v).msr = s.msr := rfl

@[simp] theorem State.setIdle_msr (p : Nat) (idle : Bool) : (s.setIdle p idle).msr = s.msr := by
  unfold State.setIdle
  split
  · rfl
  · extract_lets s1
    have h1 : s1.msr = s.msr := s.setBit_msr _ _ _
    clear_value s1
    split
    · rw [State.setIrq_msr, h1]
    · exact h1

@[simp] theorem State.poisonSeen_msr (p : Nat) : (s.poisonSeen p).msr = s.msr := by
  rw [State.poisonSeen, State.poisonAs, State.settle_msr, (State.irqBit_flags _ _ _ _).msr, State.setBit_msr]

@[simp] theorem State.runEvent_msr (x : Run) (p code : Nat) : (s.runEvent x p code).msr = s.msr := by
  rw [State.runEvent, State.raise_msr]

/-! Completions (R412, R434). -/

@[simp] theorem State.latSeen_msr (c : Nat) (a : Option Nat) : (s.latSeen c a).msr = s.msr := by
  cases a with
  | none => rfl
  | some a => rfl

@[simp] theorem State.sendMsix_msr (c v : Nat) : (s.sendMsix c v).msr = s.msr := by
  simp [State.sendMsix, apply_ite State.msr]

@[simp] theorem State.placeCqe_msr (c cq : Nat) (q : CplQ) (e : Cqe) : (s.placeCqe c cq q e).msr = s.msr := by
  simp [State.placeCqe, apply_ite State.msr]

@[simp] theorem State.post_msr (c cq : Nat) (e : Cqe) : (s.post c cq e).msr = s.msr := by
  unfold State.post
  extract_lets s1 s2
  have h2 : s2.msr = s.msr := by simp [s2, s1, apply_ite State.msr]
  split
  · exact h2
  · simp [h2, apply_ite State.msr]

@[simp] theorem State.finishDelete_msr (c q : Nat) : (s.finishDelete c q).msr = s.msr := by
  unfold State.finishDelete
  extract_lets x
  split
  · split
    · simp [apply_ite State.msr]
    · rfl
  · rfl

@[simp] theorem State.completeMailbox_msr (id sct sc : Nat) (dnr : Bool) (dw0 dw1 : Nat) :
    (s.completeMailbox id sct sc dnr dw0 dw1).msr = s.msr := by
  unfold State.completeMailbox
  extract_lets status s1 s2 s3
  have h1 : s1.msr = s.msr := by rw [State.wr_msr, State.wr_msr, State.wr_msr, State.wr_msr]
  clear_value s1
  have h2 : s2.msr = s.msr := (s1.count_msr _ _).trans h1
  clear_value s2
  have h3 : s3.msr = s.msr := by
    unfold s3
    split
    · exact h2
    · exact (s2.count_msr _ _).trans h2
  clear_value s3
  rw [State.setIdle_msr, State.setIrq_msr, State.wr_msr, h3]

@[simp] theorem State.completeRun_msr (cid : Cid) (sct sc : Nat) (dnr : Bool) (dw0 dw1 : Nat) (a : Option Nat) :
    (s.completeRun cid sct sc dnr dw0 dw1 a).msr = s.msr := by
  simp [State.completeRun, apply_ite State.msr]

/-! Memories, contexts and transfers. -/

@[simp] theorem State.memBytes_msr (h o : Nat) (bs : List Byte) : (s.memBytes h o bs).msr = s.msr := by
  induction bs generalizing s o with
  | nil => rfl
  | cons b bs ih => exact ih (s.memSet h o b) (o + 1)

@[simp] theorem State.memWrite_msr (h o : Nat) (bs : List Byte) (p : Bool) : (s.memWrite h o bs p).msr = s.msr := by
  unfold State.memWrite
  extract_lets s1 w0 w1
  have h1 : s1.msr = s.msr := s.memBytes_msr h o bs
  split
  · exact h1
  · refine (State.foldl_msr _ (fun t i => ?_) _ _).trans h1
    simp [apply_ite State.msr, State.poisonSet]

@[simp] theorem State.leafPut_msr (r a : Nat) (w : LeafWord) : (s.leafPut r a w).msr = s.msr := by
  unfold State.leafPut
  extract_lets s1
  have h1 : s1.msr = s.msr := rfl
  clear_value s1
  split
  · rw [State.poisonSeen_msr, State.countSat_msr, h1]
  · exact h1

@[simp] theorem State.gatherPut_msr (g : Nat) (w : LeafWord) : (s.gatherPut g w).msr = s.msr := by
  simp [State.gatherPut, apply_ite State.msr]

@[simp] theorem State.setCtx_msr (x : Nat) (e : Ctx) : (s.setCtx x e).msr = s.msr := rfl

@[simp] theorem State.leaveRun_msr (x : Nat) : (s.leaveRun x).msr = s.msr := by
  simp [State.leaveRun, apply_ite State.msr]

@[simp] theorem State.ctxPoisoned_msr (x : Run) (ctx : Nat) : (s.ctxPoisoned x ctx).msr = s.msr := by
  simp [State.ctxPoisoned, apply_ite State.msr]

@[simp] theorem State.tierShow_msr : s.tierShow.msr = s.msr := by
  simp [State.tierShow]

@[simp] theorem State.dropTransfers_msr (p : Transfer → Bool) : (s.dropTransfers p).msr = s.msr := by
  simp [State.dropTransfers]

@[simp] theorem State.askAgain_msr : s.askAgain.msr = s.msr := rfl

/-! Charges (R236, R237). -/

@[simp] theorem State.energy_msr (i k n : Nat) : (s.energy i k n).msr = s.msr := by
  simp [State.energy, apply_ite State.msr]

@[simp] theorem State.charge_msr (i key k n : Nat) : (s.charge i key k n).msr = s.msr := by
  simp [State.charge]

@[simp] theorem State.chargeT1_msr (i rd wr : Nat) : (s.chargeT1 i rd wr).msr = s.msr := by
  simp [State.chargeT1]

@[simp] theorem State.chargeLink_msr (i l tx rx : Nat) : (s.chargeLink i l tx rx).msr = s.msr := by
  simp [State.chargeLink]

@[simp] theorem State.runCharge_msr (rn i n : Nat) : (s.runCharge rn i n).msr = s.msr := by
  unfold State.runCharge
  split
  · rfl
  · rfl

@[simp] theorem State.runEnergy_msr (rn c k n : Nat) : (s.runEnergy rn c k n).msr = s.msr := by
  simp [State.runEnergy]

@[simp] theorem State.runT1_msr (rn c rd wr : Nat) : (s.runT1 rn c rd wr).msr = s.msr := by
  simp [State.runT1]

@[simp] theorem State.recordHeld_msr (rn cyc : Nat) : (s.recordHeld rn cyc).msr = s.msr := by
  unfold State.recordHeld
  split
  · rfl
  · rfl

/-! Quiescing (R38). -/

@[simp] theorem State.rowService_msr (r : Nat) (on : Bool) : (s.rowService r on).msr = s.msr := by
  unfold State.rowService
  split
  · rfl
  · simp [apply_ite State.msr]

@[simp] theorem State.setPresent_msr (p v : Nat) : (s.setPresent p v).msr = s.msr := by
  unfold State.setPresent
  split
  · rfl
  · extract_lets s1 s2
    have h1 : s1.msr = s.msr := s.setFld_msr _ _ _ _
    clear_value s1
    have h2 : s2.msr = s.msr := by rw [State.countWrap_msr, State.wr_msr, h1]
    clear_value s2
    split
    · split
      · rw [State.rowService_msr, h2]
      · exact h2
    · exact h1

@[simp] theorem State.sptHold_msr : s.sptHold.msr = s.msr := rfl

@[simp] theorem State.quiesced_msr (p : Nat) : (s.quiesced p).msr = s.msr := by
  unfold State.quiesced
  extract_lets idle s1 s2 s3
  have h1 : s1.msr = s.msr := by
    unfold s1
    rw [State.setFld_msr]
    split
    · exact s.sptHold_msr
    · rfl
  clear_value s1
  have h2 : s2.msr = s.msr := by
    unfold s2
    split
    · rw [State.setPresent_msr, h1]
    · exact h1
  clear_value s2
  have h3 : s3.msr = s.msr := by rw [State.setIrq_msr, h2]
  clear_value s3
  split
  · exact h3
  · rw [State.setIrq_msr, h3]

@[simp] theorem State.quiesceSettle_msr (p : Nat) : (s.quiesceSettle p).msr = s.msr := by
  unfold State.quiesceSettle
  extract_lets s1
  have h1 : s1.msr = s.msr := s.setBit_msr _ _ _
  clear_value s1
  split_ifs
  · rfl
  · rw [State.setPresent_msr]
  · rfl
  · rfl
  · rw [State.quiesced_msr]
  · rw [State.askAgain_msr, h1]
  · exact h1

@[simp] theorem State.setQuiesce_msr (p : Nat) (b : Bool) : (s.setQuiesce p b).msr = s.msr := by
  rw [State.setQuiesce, State.quiesceSettle_msr, State.setBit_msr]

/-! Snapshots (R273). -/

@[simp] theorem State.snap_msr (p m : Nat) : (s.snap p m).msr = s.msr := by
  unfold State.snap
  rw [State.wr_msr]
  exact State.foldl_msr _ (fun t j => t.wr_msr _ _) _ s

end

end Sys2Proof.Machine
end

section
/-! What leaves the measures as they are: links, rows, journals, Collators, channels, setpoints and the end of a run. -/

namespace Sys2Proof.Machine

open Safety

section
variable (s : State)

/-! Links (R352, R376, R381). -/

@[simp] theorem State.flitOut_msr (l seq : Nat) (b : FlitBody) : (s.flitOut l seq b).msr = s.msr := by
  unfold State.flitOut
  extract_lets u s1
  have h1 : s1.msr = s.msr := s.emit_msr _
  clear_value s1
  split
  · rw [State.count_msr, h1]
  · exact h1

@[simp] theorem State.launch_msr (l : Nat) (b : FlitBody) : (s.launch l b).msr = s.msr := by
  unfold State.launch
  extract_lets u v s1
  have h1 : s1.msr = s.msr := by rw [State.flitOut_msr, State.setLink_msr]
  clear_value s1
  split
  · rw [State.chargeLink_msr, h1]
  · exact h1

@[simp] theorem State.drainLink_msr (l : Nat) (bs : List FlitBody) : (s.drainLink l bs).msr = s.msr := by
  induction bs generalizing s with
  | nil => exact s.setLink_msr _ _
  | cons b bs ih =>
    unfold State.drainLink
    split
    · exact s.setLink_msr _ _
    · exact (ih (s.launch l b)).trans (s.launch_msr l b)

@[simp] theorem State.sendFlit_msr (l : Nat) (b : FlitBody) : (s.sendFlit l b).msr = s.msr := by
  unfold State.sendFlit
  split
  · exact s.drainLink_msr _ _
  · split
    · exact s.flitOut_msr _ _ _
    · rfl

@[simp] theorem State.sendArmed_msr (l client : Nat) : (s.sendArmed l client).msr = s.msr := s.setLink_msr _ _

@[simp] theorem State.sendCredits_msr (l : Nat) : (s.sendCredits l).msr = s.msr := State.sendFlit_msr { s with fresh := s.fresh + 14 } l _

theorem State.postBuffer_msr {rn region off len l : Nat} {t : State} (h : s.postBuffer rn region off len l = some t) : t.msr = s.msr := by
  unfold State.postBuffer at h
  extract_lets k u at h
  split at h
  · cases h
  · cases h
    rw [State.sendCredits_msr, State.setLink_msr]

@[simp] theorem State.postMessage_msr (rn client l : Nat) (timed poison : Bool) (bs : List Byte) :
    (s.postMessage rn client l timed poison bs).msr = s.msr := s.setLink_msr _ _

/-! Rows, their stages and their monitors. -/

@[simp] theorem State.monAdd_msr (k n : Nat) : (s.monAdd k n).2.msr = s.msr := s.wr_msr _ _

@[simp] theorem State.monSat_msr (m : Nat) : (s.monSat m).msr = s.msr := by
  unfold State.monSat
  split
  · rfl
  · rw [State.raise_msr, State.setIrq_msr, State.setBit_msr]

@[simp] theorem State.convert_msr (c m ctl : Nat) (x r : BitVec 32) : (s.convert c m ctl x r).msr = s.msr := by
  have hk (t : State) (k n k' n' : Nat) : ((t.monAdd k n).2.monAdd k' n').2.msr = t.msr := by rw [State.monAdd_msr, State.monAdd_msr]
  have hs (t u : State) (f : Bool) (h : u.msr = t.msr) : (if f then u.monSat m else u).msr = t.msr := by
    split
    · rw [State.monSat_msr, h]
    · exact h
  unfold State.convert
  split
  · exact s.countSat_msr _ _
  · split
    · rfl
    · dsimp only
      split
      · exact hs _ _ _ (hk s _ _ _ _)
      · exact hs _ _ _ (hk s _ _ _ _)
      · exact hs _ _ _ (hk s _ _ _ _)

@[simp] theorem State.fillStage_msr (r word : Nat) : (s.fillStage r word).msr = s.msr := by
  rw [State.fillStage, State.setBit_msr, State.setRow_msr]

@[simp] theorem State.shiftStage_msr (r : Nat) (fmt : Fmt) (grid : GridRef) : (s.shiftStage r fmt grid).msr = s.msr := by
  unfold State.shiftStage
  rw [State.setBit_msr, State.setFld_msr, State.setRow_msr]

@[simp] theorem State.fetchAhead_msr (x : Run) (r : Nat) (ops : List StepOp) : (s.fetchAhead x r ops).msr = s.msr := by
  unfold State.fetchAhead
  split
  · split
    · exact s.fillStage_msr _ _
    · rfl
  · rfl

@[simp] theorem State.trimWrite_msr (r : Nat) (dst : TrimDst) (word : Nat) (es : List TrimElt) : (s.trimWrite r dst word es).msr = s.msr := by
  unfold State.trimWrite
  exact State.foldl_msr _ (fun t i => t.leafPut_msr _ _ _) _ s

@[simp] theorem State.wake_msr (r : Nat) : (s.wake r).msr = s.msr := by
  unfold State.wake
  extract_lets u
  split_ifs
  · rfl
  · exact s.setRow_msr _ _
  · exact s.setRow_msr _ _
  · rfl

@[simp] theorem State.flagUnits_msr (rn b : Nat) (of : List Nat) (n : Nat) (units : List Nat) :
    (s.flagUnits rn b of n units).msr = s.msr := by
  unfold State.flagUnits
  split
  · rfl
  · exact s.setRun_msr _ _

@[simp] theorem State.repairBy_msr (c old new : Nat) : (s.repairBy c old new).msr = s.msr := by
  unfold State.repairBy
  extract_lets x s1
  have h1 : s1.msr = s.msr := rfl
  clear_value s1
  rw [State.setIrq_msr, State.wake_msr, State.setBit_msr, State.setBit_msr, h1]

@[simp] theorem State.repairAtEnd_msr (rows : List Nat) : (s.repairAtEnd rows).msr = s.msr := by
  unfold State.repairAtEnd
  refine State.foldl_msr _ (fun t d => ?_) _ s
  split
  · exact t.repairBy_msr _ _ _
  · rfl

/-! Setpoints (R386 to R398). -/

@[simp] theorem State.sptEvent_msr (code e : Nat) (client : Option Nat) : (s.sptEvent code e client).msr = s.msr := by
  unfold State.sptEvent
  split
  · rfl
  · rw [State.raise_msr]

@[simp] theorem State.sptEnter_msr (r : SetRecord) : (s.sptEnter r).msr = s.msr := by
  unfold State.sptEnter
  split
  · extract_lets again x s1
    have h1 : s1.msr = s.msr := rfl
    clear_value s1
    split
    · rw [State.countSat_msr, h1]
    · exact h1
  · extract_lets again x s1
    have h1 : s1.msr = s.msr := rfl
    clear_value s1
    split
    · rw [State.countSat_msr, h1]
    · exact h1

@[simp] theorem State.submitRecord_msr (r : SetRecord) : (s.submitRecord r).msr = s.msr := by
  unfold State.submitRecord
  extract_lets e
  split
  · rw [State.sptEvent_msr, State.setIrq_msr, State.countSat_msr]
  · split
    · rw [State.sptEnter_msr, State.sptEvent_msr, State.setIrq_msr, State.countSat_msr]
    · exact s.sptEnter_msr r

/-! Journals (R260 to R273). -/

@[simp] theorem State.setJournal_msr (n : Nat) (j : Journal) : (s.setJournal n j).msr = s.msr := rfl

@[simp] theorem State.jPut_msr (n : Nat) (r : JRecord) : (s.jPut n r).msr = s.msr := by
  unfold State.jPut State.jShow
  rw [State.wr_msr, State.wr_msr, State.setJournal_msr]

@[simp] theorem State.jGapDue_msr (n : Nat) : (s.jGapDue n).msr = s.msr := by
  unfold State.jGapDue
  extract_lets j s1
  have h1 : s1.msr = s.msr := by rw [State.jPut_msr, State.setJournal_msr]
  clear_value s1
  split
  · rfl
  · rw [State.raise_msr, State.setIrq_msr, State.countSat_msr, h1]

@[simp] theorem State.jAppend_msr (n : Nat) (r : JRecord) (must : Bool) : (s.jAppend n r must).2.msr = s.msr := by
  unfold State.jAppend
  extract_lets s1 j
  have h1 : s1.msr = s.msr := s.jGapDue_msr n
  clear_value s1
  split
  · rw [State.jPut_msr, h1]
  · rw [State.setJournal_msr, h1]

@[simp] theorem State.jRun_msr (rn ctx type : Nat) (payload : List Byte) (poison : Bool) :
    (s.jRun rn ctx type payload poison).msr = s.msr := by
  unfold State.jRun
  split
  · rfl
  · split
    · rfl
    · split
      next kept s1 h =>
        have h1 : s1.msr = s.msr := by
          rw [← State.jAppend_msr s, h]
        split
        · exact h1
        · split
          · rw [State.setRun_msr, h1]
          · exact h1

@[simp] theorem State.jTorn_msr (rn : Nat) (x : Run) : (s.jTorn rn x).msr = s.msr := by
  unfold State.jTorn
  exact State.foldl_msr _ (fun t e => t.jRun_msr _ _ _ _ _) _ s

@[simp] theorem State.jLink_msr (rn : Nat) (x : Run) (link at_ : Nat) (data : List Byte) (poison : Bool) :
    (s.jLink rn x link at_ data poison).msr = s.msr := by
  unfold State.jLink
  exact State.foldl_msr _ (fun t e => t.jRun_msr _ _ _ _ _) _ s

@[simp] theorem State.setDjCtl_msr (n v : Nat) : (s.setDjCtl n v).msr = s.msr := by
  unfold State.setDjCtl
  extract_lets rise s1
  have h1 : s1.msr = s.msr := s.wr_msr _ _
  clear_value s1
  split
  · rw [State.setJournal_msr, State.setBit_msr, h1]
  · exact h1

/-- An arm's action on a journal leaves the measures (R273). -/
@[simp] theorem State.jArm_msr (n code m : Nat) : (s.jArm n code m).msr = s.msr := by
  unfold State.jArm
  split_ifs
  · exact s.setDjCtl_msr _ _
  · exact s.setBit_msr _ _ _
  · exact s.jAppend_msr _ _ _

/-! Collators and channels. -/

@[simp] theorem State.setCol_msr (n : Nat) (u : ColUnit) : (s.setCol n u).msr = s.msr := by
  unfold State.setCol
  rw [State.setIdle_msr, State.wr_msr]

@[simp] theorem State.colEnqueue_msr (n : Nat) (q : QDesc) : (s.colEnqueue n q).msr = s.msr := s.setCol_msr _ _

@[simp] theorem State.colDrop_msr (rn : Nat) : (s.colDrop rn).msr = s.msr := by
  unfold State.colDrop
  refine State.foldl_msr _ (fun t e => ?_) _ s
  split
  · exact t.setCol_msr _ _
  · rfl

@[simp] theorem State.setChan_msr (ch : Nat) (u : ChanUnit) : (s.setChan ch u).msr = s.msr := by
  unfold State.setChan
  extract_lets mask lc x
  exact (State.setIdle_msr _ _ _).trans (State.setFld_msr _ _ _ _ _)

/-- The blocks that jobs held are held no longer. -/
def State.freeHolds (hs : List Nat) : State := { s with ftl := { s.ftl with active := s.ftl.active.filter fun h => !hs.contains h } }

/-- A channel drops the jobs of a run. -/
def State.dropJobsOf (rn : Nat) (e : Nat × ChanUnit) : State :=
  if e.2.queue.any (fun j => j.run = rn) || e.2.slots.any (fun k => k.2.run = rn) then
    (s.freeHolds ((e.2.slots.filter fun k => k.2.run = rn).map fun k => k.2.hold)).setChan e.1
      { e.2 with queue := e.2.queue.filter (fun j => j.run ≠ rn), slots := e.2.slots.filter fun k => k.2.run ≠ rn }
  else s

/-- Every channel drops the jobs of a run. -/
def State.dropAllJobs (rn : Nat) : State := s.search.engines.foldl (fun t e => t.dropJobsOf rn e) s

theorem State.dropJobs_eq (rn : Nat) : s.dropJobs rn = { s.dropAllJobs rn with search := { (s.dropAllJobs rn).search with
    queries := kvDropRange (s.dropAllJobs rn).search.queries (queryKey rn 0) (queryKey (rn + 1) 0)
    finished := kvDropRange (s.dropAllJobs rn).search.finished (jobKey rn 0 0) (jobKey (rn + 1) 0 0) } } := rfl

theorem State.dropJobsOf_msr (rn : Nat) (e : Nat × ChanUnit) : (s.dropJobsOf rn e).msr = s.msr := by
  unfold State.dropJobsOf
  split
  · rw [State.setChan_msr]
    rfl
  · rfl

@[simp] theorem State.dropJobs_msr (rn : Nat) : (s.dropJobs rn).msr = s.msr := by
  rw [State.dropJobs_eq]
  exact State.foldl_msr _ (fun t e => t.dropJobsOf_msr rn e) _ s

end

end Sys2Proof.Machine
end

section
/-! What leaves the measures as they are: the end of a run, replays, and the tree (R210, R229, R266, R360). -/

namespace Sys2Proof.Machine

open Safety

section
variable (s : State)

/-! The end of a run. -/

@[simp] theorem State.showWork_msr : s.showWork.msr = s.msr := by
  unfold State.showWork
  exact State.foldl_msr _ (fun t p => t.setIdle_msr _ _) _ s

@[simp] theorem State.windowBack_msr (x : Run) : (s.windowBack x).msr = s.msr := by
  unfold State.windowBack
  split
  · rfl
  · rfl

@[simp] theorem State.dropOfRun_msr (rn : Nat) : (s.dropOfRun rn).msr = s.msr := s.dropTransfers_msr _

@[simp] theorem State.waitOver_msr (x : Run) : (s.waitOver x).msr = s.msr := by
  unfold State.waitOver
  split
  · exact s.count_msr _ _
  · rfl

/-- A row's step has ended (R210). -/
def State.endRow (cyc r : Nat) : State :=
  let t1 := ((s.setBit (R.ROW_STAT r) 3 false).setBit (R.ROW_CTX r) 31 false).count (R.ROW_CYC_BUSY r) cyc
  (t1.setRow r { t1.rowUnit r with idleFrom := t1.etime }).setIdle (pageRow r) true

theorem State.endRow_msr (cyc r : Nat) : (s.endRow cyc r).msr = s.msr := by
  unfold State.endRow
  extract_lets t1
  have h1 : t1.msr = s.msr := by rw [State.count_msr, State.setBit_msr, State.setBit_msr]
  clear_value t1
  rw [State.setIdle_msr, State.setRow_msr, h1]

/-- The rows of a step that ends (R210). -/
def State.endRows (cyc : Nat) (rows : List Nat) : State := rows.foldl (fun t r => t.endRow cyc r) s

theorem State.endRows_msr (cyc : Nat) (rows : List Nat) : (s.endRows cyc rows).msr = s.msr := by
  induction rows generalizing s with
  | nil => rfl
  | cons r rs ih =>
    rw [State.endRows, List.foldl_cons]
    exact (ih (s.endRow cyc r)).trans (s.endRow_msr cyc r)

theorem State.endStep_eq (rn : Nat) (x : Run) : s.endStep rn x =
    ((((s.waitOver x).endRows (Machine.cyclesFrom x.admitAt s.etime) x.rows).count (R.ACC_ENG_ROW x.client)
      (Machine.cyclesFrom x.admitAt s.etime * x.rows.length)).runCharge rn 0
      (Machine.cyclesFrom x.admitAt s.etime * x.rows.length)).repairAtEnd x.rows := rfl

@[simp] theorem State.endStep_msr (rn : Nat) (x : Run) : (s.endStep rn x).msr = s.msr := by
  rw [State.endStep_eq, State.repairAtEnd_msr, State.runCharge_msr, State.count_msr, State.endRows_msr, State.waitOver_msr]

@[simp] theorem State.giveUp_msr (rn : Nat) (x : Run) : (s.giveUp rn x).msr = s.msr := by
  rw [State.giveUp, State.windowBack_msr, State.dropJobs_msr, State.colDrop_msr, State.dropOfRun_msr]

@[simp] theorem State.discardLandings_msr (rn : Nat) : (s.discardLandings rn).msr = s.msr := rfl

@[simp] theorem State.runOver_msr (rn : Nat) : (s.runOver rn).msr = s.msr := by
  unfold State.runOver
  split
  · rfl
  · extract_lets s1 s2
    have h1 : s1.msr = s.msr := s.giveUp_msr _ _
    clear_value s1
    have h2 : s2.msr = s.msr := (State.foldl_msr _ (fun t m => t.leaveRun_msr _) _ _).trans h1
    clear_value s2
    split
    · rw [State.showWork_msr, State.setRun_msr, h2]
    · exact h2

@[simp] theorem State.boundBroken_msr (x : Run) (cause : Nat) : (s.boundBroken x cause).msr = s.msr := by
  unfold State.boundBroken
  extract_lets c s1
  have h1 : s1.msr = s.msr := by rw [State.wr_msr, State.wr_msr, State.countSat_msr]
  clear_value s1
  rw [State.raise_msr, State.setIrq_msr, State.count_msr, h1]

theorem State.postEach_msr (x : Run) (post : State → RunCmd × Nat → Bool → Nat → State)
    (h : ∀ t e b n, (post t e b n).msr = t.msr) : (s.postEach x post).msr = s.msr := by
  have key (l : List (RunCmd × Nat)) (a : Bool × State) : (l.foldl (fun (a : Bool × State) e =>
      let (broken, b) := a.2.boundNow x e.1
      let t := if broken && !a.1 then a.2.boundBroken x b else a.2
      (a.1 || broken, post t e broken b)) a).2.msr = a.2.msr := by
    induction l generalizing a with
    | nil => rfl
    | cons e l ih =>
      refine (ih _).trans ?_
      dsimp only
      rw [h]
      split
      · exact State.boundBroken_msr _ _ _
      · rfl
  exact key _ (false, s)

@[simp] theorem State.failRun_msr (x : Run) (status event : Nat) : (s.failRun x status event).msr = s.msr := by
  unfold State.failRun
  exact State.postEach_msr _ _ _ fun t e _ b => t.completeRun_msr _ _ _ _ _ _ _

/-! Replays (R266 to R269). -/

@[simp] theorem State.drStop_msr (n code fld : Nat) : (s.drStop n code fld).msr = s.msr := by
  unfold State.drStop
  extract_lets dst replayed runs mine s0 x j s1 dig s2 s3
  have h0 : s0.msr = s.msr := (State.foldl_msr _ (fun t (e : Nat × Run) => t.windowBack_msr e.2) _ _).trans (s.dropTransfers_msr _)
  clear_value s0
  have h1 : s1.msr = s.msr := h0
  clear_value s1
  have h2 : s2.msr = s.msr := by
    unfold s2
    rw [State.foldl_msr _ (fun t i => t.wr_msr _ _), State.leaveRun_msr, h1]
  clear_value s2
  have h3 : s3.msr = s.msr := by rw [State.setIrq_msr, State.wr_msr, State.wr_msr, h2]
  clear_value s3
  split_ifs
  · rw [State.raise_msr, h3]
  · rw [State.raise_msr, h3]
  · exact h3

@[simp] theorem State.addRun_msr (x : Run) : (s.addRun x).msr = s.msr := rfl

@[simp] theorem State.drLoad_msr (dst : Nat) (r : JRecord) : (s.drLoad dst r).msr = s.msr := by
  unfold State.drLoad
  rw [State.setCtx_msr, State.memWrite_msr]

@[simp] theorem State.drNext_msr (n : Nat) (rs : List JRecord) : (s.drNext n rs).msr = s.msr := by
  induction rs generalizing s with
  | nil => exact s.drStop_msr _ _ _
  | cons r rs ih =>
    unfold State.drNext
    extract_lets j dst e hash ctl x
    split
    · exact s.drStop_msr _ _ _
    · split
      · split
        · exact s.drStop_msr _ _ _
        · rw [ih, State.drLoad_msr]
      · split
        · split
          · exact s.drStop_msr _ _ _
          · rw [State.addRun_msr, State.setJournal_msr, State.setCtx_msr]
        · exact ih s

@[simp] theorem State.drTake_msr (n type skip : Nat) : (s.drTake n type skip).2.msr = s.msr := by
  unfold State.drTake
  split
  · split
    · exact s.setJournal_msr _ _
    · rfl
  · rfl

@[simp] theorem State.drLanding_msr (n : Nat) : (s.drLanding n).2.msr = s.msr := by
  unfold State.drLanding
  split
  · extract_lets seqOf here
    split
    · exact s.setJournal_msr _ _
    · rfl
  · rfl

@[simp] theorem State.drMissing_msr (n : Nat) : (s.drMissing n).msr = s.msr := by
  unfold State.drMissing
  split
  · exact s.drStop_msr _ _ _
  · exact s.drStop_msr _ _ _

@[simp] theorem State.drLeave_msr (rn : Nat) : (s.drLeave rn).msr = s.msr := by
  unfold State.drLeave
  split
  · rfl
  · extract_lets s1
    have h1 : s1.msr = s.msr := by
      unfold s1
      rw [State.discardLandings_msr, State.runOver_msr]
      split
      · exact s.endStep_msr _ _
      · rfl
    clear_value s1
    split
    · rw [State.setRun_msr, h1]
    · exact h1

@[simp] theorem State.drTorn_msr (n : Nat) (colo : List Byte) : (s.drTorn n colo).msr = s.msr := by
  unfold State.drTorn
  extract_lets rs
  cases rs with
  | nil => exact s.drStop_msr _ _ _
  | cons r rest =>
    dsimp only
    split
    · rw [State.drNext_msr, State.wr_msr]
    · exact s.drStop_msr _ _ _

/-- A run torn down leaves its contexts faulted (R229). -/
def State.faultCtx (x : Run) (event : Nat) (m : RunCmd) : State :=
  let e := s.ctx m.ctx
  if e.state = 0 then s
  else if x.replayOf.isSome then s.setCtx m.ctx { e with inRun := true }
  else s.setCtx m.ctx { e with state := 3, lastEvent := event }

theorem State.faultCtx_msr (x : Run) (event : Nat) (m : RunCmd) : (s.faultCtx x event m).msr = s.msr := by
  unfold State.faultCtx
  extract_lets e
  split_ifs
  · rfl
  · exact s.setCtx_msr _ _
  · exact s.setCtx_msr _ _

@[simp] theorem State.teardown_msr (rn event : Nat) : (s.teardown rn event).msr = s.msr := by
  unfold State.teardown
  split
  · rfl
  · next x hx =>
    split
    · rfl
    · extract_lets s1 s2 s3 s4 s5
      have h1 : s1.msr = s.msr := by
        unfold s1
        split
        · exact s.endStep_msr _ _
        · rfl
      clear_value s1
      have h2 : s2.msr = s.msr := (s1.jTorn_msr _ _).trans h1
      clear_value s2
      have h3 : s3.msr = s.msr := by rw [State.discardLandings_msr, State.runOver_msr, h2]
      clear_value s3
      have h4 : s4.msr = s.msr := (State.foldl_msr _ (fun t m => t.faultCtx_msr x event m) x.cmds s3).trans h3
      clear_value s4
      have h5 : s5.msr = s.msr := by rw [State.count_msr, State.setIrq_msr, State.setIrq_msr, h4]
      clear_value s5
      split
      · rw [State.drTorn_msr, State.drLeave_msr, h5]
      · rw [State.failRun_msr, h5]

/-! The tree (R360 to R374). -/

@[simp] theorem State.redShow_msr : s.redShow.msr = s.msr := by
  unfold State.redShow
  rw [State.setIdle_msr, State.setFld_msr, State.setBit_msr, State.setBit_msr]

@[simp] theorem State.sendStarts_msr (seq : Nat) (b : Bucket) : (s.sendStarts seq b).msr = s.msr := by
  unfold State.sendStarts
  refine State.foldl_msr _ (fun t tr => ?_) _ s
  split
  · exact t.sendFlit_msr _ _
  · rfl

@[simp] theorem State.restartBuckets_msr : s.restartBuckets.msr = s.msr := by
  unfold State.restartBuckets
  refine State.foldl_msr _ (fun t e => ?_) _ s
  split
  · rfl
  · rw [State.sendStarts_msr, State.raise_msr, State.countSat_msr, State.setBucket_msr]

@[simp] theorem State.setTset_msr (mask gen : Nat) : (s.setTset mask gen).msr = s.msr := by
  unfold State.setTset
  extract_lets s1 s2
  have h1 : s1.msr = s.msr := s.wr_msr _ _
  clear_value s1
  have h2 : s2.msr = s.msr := by
    unfold s2
    split
    · exact h1
    · rw [State.restartBuckets_msr, State.setIrq_msr, h1]
  clear_value s2
  rw [State.redShow_msr, h2]

@[simp] theorem State.joinTrees_msr : s.joinTrees.msr = s.msr := by
  unfold State.joinTrees
  split
  · rfl
  · rw [State.setTset_msr]

/-- A stop goes out on the links that are UP (R373). -/
def State.sendStop (code cause rank l : Nat) : State :=
  if s.linkState l = lkUp then s.sendFlit l (.mgmt (.stop code cause rank)) else s

theorem State.sendStop_msr (code cause rank l : Nat) : (s.sendStop code cause rank l).msr = s.msr := by
  unfold State.sendStop
  split
  · exact s.sendFlit_msr _ _
  · rfl

@[simp] theorem State.redStop_msr (code cause rank addr : Nat) (heard : Bool) : (s.redStop code cause rank addr heard).msr = s.msr := by
  unfold State.redStop
  split
  · rfl
  · extract_lets s1 s2
    have h1 : s1.msr = s.msr := by rw [State.raise_msr, State.setIrq_msr, State.wr_msr, State.setBit_msr]
    clear_value s1
    have h2 : s2.msr = s.msr := (State.foldl_msr _ (fun t l => t.sendStop_msr code cause rank l) _ s1).trans h1
    clear_value s2
    refine (State.foldl_msr _ (fun t e => ?_) _ s2).trans h2
    split
    · rfl
    · exact t.teardown_msr _ _

/-- A release that is taken or met with another size leaves the measures (R360, R361). -/
theorem State.releaseBucket_msr {rn g mib region off : Nat} {x : Run} {t : State}
    (h : s.releaseBucket rn x g mib region off = .taken t ∨ s.releaseBucket rn x g mib region off = .mismatch t) : t.msr = s.msr := by
  unfold State.releaseBucket at h
  extract_lets size owned s1 seq heard wrong kids b at h
  have h1 : s1.msr = s.msr := s.joinTrees_msr
  clear_value s1
  split_ifs at h
  · rcases h with h | h
    · cases h
    · cases h
  · rcases h with h | h
    · cases h
    · cases h
  · rcases h with h | h
    · cases h
    · cases h
      exact h1
  · rcases h with h | h
    · cases h
      rw [State.redShow_msr, State.sendStarts_msr, State.setBucket_msr, State.wr_msr, h1]
    · cases h

end

end Sys2Proof.Machine
end

section
/-! What leaves the measures as they are: the operations of a step, and the action of an arm (R78, R95 to R120, R210, R360, R376). -/

namespace Sys2Proof.Machine

open Safety

section
variable (s : State)

/-! Operations of a row. -/

theorem State.rowFault_msr (x : Run) (r cause : Nat) : (s.rowFault x r cause).1.msr = s.msr := by
  unfold State.rowFault
  dsimp only
  rw [State.runEvent_msr, State.setIrq_msr, State.wr_msr]

theorem State.loadLaneScales_msr (x : Run) (r word : Nat) : (s.loadLaneScales x r word).1.msr = s.msr := by
  unfold State.loadLaneScales
  split
  · exact s.rowFault_msr _ _ _
  · exact s.setRow_msr _ _

theorem State.loadTokenScales_msr (x : Run) (r word tokens : Nat) : (s.loadTokenScales x r word tokens).1.msr = s.msr := by
  unfold State.loadTokenScales
  split
  · exact s.rowFault_msr _ _ _
  · split
    · exact s.rowFault_msr _ _ _
    · exact s.setRow_msr _ _

theorem State.loadBlock_msr (x : Run) (r : Nat) (fmt : Fmt) (grid : GridRef) (word : Nat) : (s.loadBlock x r fmt grid word).1.msr = s.msr := by
  unfold State.loadBlock
  split
  · exact s.rowFault_msr _ _ _
  · split
    · exact s.rowFault_msr _ _ _
    · extract_lets u late s1 y s2
      have h1 : s1.msr = s.msr := (State.shiftStage_msr _ _ _ _).trans (s.fillStage_msr _ _)
      clear_value s1
      have h2 : s2.msr = s.msr := (s1.setRow_msr _ _).trans h1
      clear_value s2
      dsimp only
      rw [State.count_msr, State.count_msr, State.count_msr, h2]

theorem State.feedTile_msr (rn : Nat) (x : Run) (r : Nat) (fmt : Fmt) (word tokens : Nat) (first : Bool) :
    (s.feedTile rn x r fmt word tokens first).1.msr = s.msr := by
  unfold State.feedTile
  extract_lets u n ws late
  split
  · exact s.rowFault_msr _ _ _
  · split
    · exact s.rowFault_msr _ _ _
    · split
      · exact s.rowFault_msr _ _ _
      · split
        next acc sats _ =>
          extract_lets s1 s2 s3 s4
          have h1 : s1.msr = s.msr := s.setRow_msr _ _
          clear_value s1
          have h2 : s2.msr = s.msr := by rw [State.runEnergy_msr, State.count_msr, State.count_msr, h1]
          clear_value s2
          have h4 : s4.msr = s.msr := by rw [State.flagUnits_msr, State.countSat_msr, h2]
          clear_value s4
          dsimp only
          split
          · rw [State.runEvent_msr, State.setIrq_msr, h4]
          · exact h4

theorem State.converts_msr (c : Nat) (mons : Nat → Nat) (l : List (Nat × BitVec 32 × BitVec 32)) :
    (l.foldl (fun t e => t.convert c e.1 (mons e.1) e.2.1 e.2.2) s).msr = s.msr := by
  induction l generalizing s with
  | nil => rfl
  | cons e l ih =>
    rw [List.foldl_cons, ih, State.convert_msr]

theorem State.trimDone_msr (rn : Nat) (x : Run) (r : Nat) (dst : TrimDst) (es : List TrimElt) (cyc n : Nat) (sp : List Nat)
    (conv : List (Nat × BitVec 32 × BitVec 32)) : (s.trimDone rn x r dst es cyc n sp conv).1.msr = s.msr := by
  unfold State.trimDone
  extract_lets out
  have ho (t : State) (h : out = some t) : t.msr = s.msr := by
    unfold out at h
    split at h
    · split at h
      · cases h
        exact s.trimWrite_msr _ _ _ _
      · cases h
    · split at h
      · cases h
        exact s.setRow_msr _ _
      · cases h
        rfl
  clear_value out
  split
  · exact s.rowFault_msr _ _ _
  · next s1 =>
    have h1 : s1.msr = s.msr := ho s1 rfl
    extract_lets s2
    have h2 : s2.msr = s.msr := (s1.converts_msr x.client (fun i => x.mons.getD i 0) conv).trans h1
    clear_value s2
    split
    next w s3 h3 =>
      have h3 : s3.msr = s.msr := by
        split at h3
        · cases h3
          exact h2
        · cases h3
          exact h2
      extract_lets s4 s5 u s6
      have h5 : s5.msr = s.msr := by rw [State.countSat_msr, State.runEnergy_msr, State.count_msr, h3]
      clear_value s5
      split
      · exact h5
      · have h6 : s6.msr = s.msr := by rw [State.flagUnits_msr, State.setRow_msr, h5]
        clear_value s6
        dsimp only
        split
        · exact h6
        · rw [State.runEvent_msr, State.setIrq_msr, h6]

theorem State.trimPass_msr (rn : Nat) (x : Run) (r n : Nat) (ops : List TrimOp) (dst : TrimDst) :
    (s.trimPass rn x r n ops dst).1.msr = s.msr := by
  unfold State.trimPass
  split
  · exact s.rowFault_msr _ _ _
  · split
    · exact s.rowFault_msr _ _ _
    · exact (State.trimDone_msr _ _ _ _ _ _ _ _ _ _).trans (s.setRow_msr _ _)

theorem State.drainPass_msr (rn : Nat) (x : Run) (r tokens : Nat) (ops : List TrimOp) (dst : TrimDst) :
    (s.drainPass rn x r tokens ops dst).1.msr = s.msr := by
  unfold State.drainPass
  split
  · exact s.rowFault_msr _ _ _
  · split
    · exact s.rowFault_msr _ _ _
    · split
      · exact s.rowFault_msr _ _ _
      · exact (State.trimDone_msr _ _ _ _ _ _ _ _ _ _).trans (s.setRow_msr _ _)

theorem State.mergeParts_msr (x : Run) (parts : List (Nat × Nat)) (n : Nat) (fmt : PartFmt) (g : Nat) (order : List Nat) :
    (s.mergeParts x parts n fmt g order).1.msr = s.msr := by
  unfold State.mergeParts
  extract_lets words byOrder width els bad per
  split
  · exact s.rowFault_msr _ _ _
  · exact State.foldl_msr _ (fun t i => t.gatherPut_msr _ _) _ s

end

end Sys2Proof.Machine
end

section
/-! What leaves the measures as they are: a step's operations in turn, and the action of an arm (R78, R210). -/

namespace Sys2Proof.Machine

open Safety

/-- The state that a part of a step ends in. -/
def OpEnd.state : OpEnd → State
  | .go s => s
  | .wait s _ => s
  | .fault s _ => s
  | .gone s => s

theorem OpEnd.state_go (s : State) : (OpEnd.go s).state = s := rfl
theorem OpEnd.state_wait (s : State) (r : Option Nat) : (OpEnd.wait s r).state = s := rfl
theorem OpEnd.state_fault (s : State) (e : Nat) : (OpEnd.fault s e).state = s := rfl
theorem OpEnd.state_gone (s : State) : (OpEnd.gone s).state = s := rfl

theorem Went.done_state (w : Went) : w.done.state = w.1 := by
  unfold Went.done
  split
  · rfl
  · rfl

section
variable (s : State)

/-! Operations that a journal answers in a replay (R266, R268). -/

theorem State.drTaken_msr {n type skip : Nat} {d : Option (List Byte)} {t : State} (h : s.drTake n type skip = (d, t)) : t.msr = s.msr := by
  rw [← s.drTake_msr n type skip, h]

theorem State.drLanded_msr {n : Nat} {d : Option (List Byte)} {t : State} (h : s.drLanding n = (d, t)) : t.msr = s.msr := by
  rw [← s.drLanding_msr n, h]

theorem State.receiveOp_msr (rn : Nat) (x : Run) (g : Bool) (site : Nat) (links : List LinkNo) :
    (s.receiveOp rn x g site links).state.msr = s.msr := by
  unfold State.receiveOp
  extract_lets names named
  split
  · split
    · next s1 h => rw [OpEnd.state_gone, State.drMissing_msr, State.drLeave_msr, s.drTaken_msr h]
    · next p s1 h =>
      have h1 := s.drTaken_msr h
      extract_lets link data
      split
      · rw [OpEnd.state_go, h1]
      · extract_lets s2
        have h2 : s2.msr = s.msr := by rw [State.runT1_msr, State.memWrite_msr, h1]
        clear_value s2
        split
        · rw [OpEnd.state_go, State.setRun_msr, h2]
        · rw [OpEnd.state_gone, h2]
  · split
    · rfl
    · rw [OpEnd.state_go, State.jLink_msr, State.setRun_msr]

theorem State.releaseOp_msr (rn : Nat) (x : Run) (r g mib region off : Nat) (wait : Bool) :
    (s.releaseOp rn x r g mib region off wait).state.msr = s.msr := by
  unfold State.releaseOp
  split
  · split
    · next s1 h =>
      have h1 := s.drLanded_msr h
      split
      · rw [OpEnd.state_gone, State.drMissing_msr, State.drLeave_msr, h1]
      · rw [OpEnd.state_go, h1]
    · next data s1 h => rw [OpEnd.state_go, State.memWrite_msr, State.memWrite_msr, s.drLanded_msr h]
  · extract_lets seq
    split
    · rw [OpEnd.state_fault, State.raise_msr]
    · rfl
    · next s1 h => rw [OpEnd.state_gone, State.redStop_msr, s.releaseBucket_msr (.inr h)]
    · next s1 h =>
      have h1 := s.releaseBucket_msr (.inl h)
      split
      · rw [OpEnd.state_go]
        split
        · rw [State.setRun_msr, h1]
        · exact h1
      · rw [OpEnd.state_gone, h1]

/-! Operations of the rows. -/

theorem State.collateOp_msr (rn : Nat) (x : Run) (r : Nat) (d : Desc) : (s.collateOp rn x r d).state.msr = s.msr := by
  unfold State.collateOp
  split
  · rfl
  · split
    · rw [OpEnd.state_go, State.colEnqueue_msr]
    · rfl

theorem State.faultOp_msr (x : Run) (p cause : Nat) : (s.rowFault x p cause).done.state.msr = s.msr := by
  rw [Went.done_state, State.rowFault_msr]

theorem State.jRuns_msr (rn type : Nat) (payload : List Byte) (ms : List RunCmd) :
    (ms.foldl (fun t m => t.jRun rn m.ctx type payload false) s).msr = s.msr := by
  induction ms generalizing s with
  | nil => rfl
  | cons m ms ih => rw [List.foldl_cons, ih, State.jRun_msr]

/-- No operation of a step changes the measures' state (R95 to R120, R247, R252, R360, R376, R386). -/
theorem State.rowOp_msr (rn : Nat) (x : Run) (g : Bool) (site : Nat) (op : RowOp) : (s.rowOp rn x g site op).state.msr = s.msr := by
  have went (w : Went) (h : w.1.msr = s.msr) : w.done.state.msr = s.msr := by rw [Went.done_state, h]
  unfold State.rowOp
  extract_lets onRow
  have hrow (r : Nat) (f : Nat → OpEnd) (h : ∀ p, (f p).state.msr = s.msr) : (onRow r f).state.msr = s.msr := by
    unfold onRow
    split
    · exact h _
    · rfl
  clear_value onRow
  cases op with
  | laneScales r word => exact hrow _ _ fun p => went _ (s.loadLaneScales_msr _ _ _)
  | block r fmt grid word => exact hrow _ _ fun p => went _ (s.loadBlock_msr _ _ _ _ _)
  | feed r fmt word tokens first => exact hrow _ _ fun p => went _ (s.feedTile_msr _ _ _ _ _ _ _)
  | tokenScales r word tokens => exact hrow _ _ fun p => went _ (s.loadTokenScales_msr _ _ _ _)
  | drain r tokens chain dst => exact hrow _ _ fun p => went _ (s.drainPass_msr _ _ _ _ _ _)
  | trim r n chain dst => exact hrow _ _ fun p => went _ (s.trimPass_msr _ _ _ _ _ _)
  | merge parts n fmt g => exact went _ (s.mergeParts_msr _ _ _ _ _ _)
  | collate r d _ => exact s.collateOp_msr _ _ _ _
  | commit r word count xi off =>
    refine hrow _ _ fun p => ?_
    split
    · exact s.faultOp_msr _ _ _
    · rw [OpEnd.state_go, State.runT1_msr, State.setRun_msr]
  | result r word bytes xi search =>
    refine hrow _ _ fun p => ?_
    extract_lets n
    split
    · exact s.faultOp_msr _ _ _
    · rw [OpEnd.state_go, State.runT1_msr, State.setRun_msr]
  | setpoint r word xi =>
    refine hrow _ _ fun p => ?_
    split
    · exact s.faultOp_msr _ _ _
    · rw [OpEnd.state_go, State.submitRecord_msr]
  | readTime r word =>
    refine hrow _ _ fun p => ?_
    split
    · exact s.faultOp_msr _ _ _
    · split
      · split
        · next s1 h => rw [OpEnd.state_gone, State.drMissing_msr, State.drLeave_msr, s.drTaken_msr h]
        · next d s1 h => rw [OpEnd.state_go, State.leafPut_msr, s.drTaken_msr h]
      · rw [OpEnd.state_go, State.jRuns_msr, State.leafPut_msr]
  | release r g mib region off wait => exact s.releaseOp_msr _ _ _ _ _ _ _ _
  | peer xi off bytes link timed =>
    dsimp only
    split
    · rfl
    · split
      · rw [OpEnd.state_fault, State.raise_msr]
      · split
        · next m _ =>
          rw [OpEnd.state_go, State.postMessage_msr, State.runT1_msr]
          split
          · exact s.ctxPoisoned_msr _ _
          · rfl
        · rfl
  | post link xi off len =>
    dsimp only
    split
    · split
      · rw [OpEnd.state_go, State.setRun_msr]
      · split
        · next s1 h => rw [OpEnd.state_go, s.postBuffer_msr h]
        · rfl
    · rfl
  | receive links => exact s.receiveOp_msr _ _ _ _ _

/-! The operations of a step in turn (R210). -/

theorem State.runOps_msr (rn : Nat) (g : Bool) (d : StepDef) (pc : Nat) (ops : List StepOp) : (s.runOps rn g d pc ops).msr = s.msr := by
  induction ops generalizing s pc with
  | nil => rfl
  | cons o ops ih =>
    unfold State.runOps
    split
    · rfl
    · split
      · rfl
      · next x0 _ _ =>
        extract_lets x
        have hend : (if o.skipped x.cmds.length then OpEnd.go s else (s.setRun rn x).rowOp rn x g (d.sites pc) o.op).state.msr = s.msr := by
          split
          · rfl
          · rw [State.rowOp_msr, State.setRun_msr]
        generalize (if o.skipped x.cmds.length then OpEnd.go s else (s.setRun rn x).rowOp rn x g (d.sites pc) o.op) = e at hend
        cases e with
        | go s1 =>
          rw [OpEnd.state_go] at hend
          dsimp only
          split
          · next y _ =>
            have h2 : ((s1.waitOver y).setRun rn { y with pc := pc + 1, endAt := max y.endAt s1.etime, waitRow := none }).msr = s.msr := by
              rw [State.setRun_msr, State.waitOver_msr, hend]
            rw [ih]
            split
            · rw [State.fetchAhead_msr, h2]
            · exact h2
          · exact hend
        | wait s1 row =>
          rw [OpEnd.state_wait] at hend
          dsimp only
          split
          · split
            · exact hend
            · rw [State.setRun_msr, hend]
          · exact hend
        | fault s1 event =>
          rw [OpEnd.state_fault] at hend
          dsimp only
          rw [State.teardown_msr, hend]
        | gone s1 => exact hend

@[simp] theorem State.advance_msr (rn : Nat) : (s.advance rn).msr = s.msr := by
  unfold State.advance
  split
  · rfl
  · split
    · rfl
    · exact s.runOps_msr _ _ _ _ _

@[simp] theorem State.resume_msr : s.resume.msr = s.msr := by
  unfold State.resume
  extract_lets all
  generalize waitOrder all = l
  induction l generalizing s with
  | nil => rfl
  | cons e l ih => rw [List.foldl_cons, ih, State.advance_msr]

/-! The action of an arm (R78). -/

@[simp] theorem State.workAgain_msr (p : Nat) : (s.workAgain p).msr = s.msr := by
  unfold State.workAgain
  split_ifs
  · rfl
  · exact s.resume_msr
  · exact s.drainLink_msr _ _
  · rfl

@[simp] theorem State.act_msr (c p code m : Nat) : (s.act c p code m).msr = s.msr := by
  unfold State.act
  split
  · exact s.jArm_msr _ _ _
  · split
    · exact s.setQuiesce_msr _ _
    · rw [State.workAgain_msr, State.setQuiesce_msr]
    · exact s.snap_msr _ _
    · exact s.sendArmed_msr _ _

end

end Sys2Proof.Machine
end

section
/-! Writes of the arm registers by REGISTER_WRITE (R33, R36, R94). -/

namespace Sys2Proof.Machine

open Safety

section
variable {s : State} {c : Client} {slot : Fin 256}

/-- The row of the arm actions, met by slot's (R94). -/
def armActHit (slot : Nat) : RegHit :=
  ⟨⟨0x1008, 256, 0x10, 1, 0, false, 0xffffff, 0, 0, 0, false, 0, false⟩, 0x1008 + 0x10 * slot, false⟩

theorem regHit_armAct : ∀ slot : Fin 256, regHit pageMsr (0x1008 + 0x10 * slot) = some (armActHit slot) := by decide +kernel

theorem armAct_split (slot : Fin 256) : R.ARM_ACT slot / 0x10000 = pageMsr ∧ R.ARM_ACT slot % 0x10000 = 0x1008 + 0x10 * slot := by
  have := slot.isLt
  simp only [R.ARM_ACT, pageMsr]
  omega

theorem armCmd_split (slot : Fin 256) : R.ARM_CMD slot / 0x10000 = pageMsr ∧ R.ARM_CMD slot % 0x10000 = 0x100C + 0x10 * slot := by
  have := slot.isLt
  simp only [R.ARM_CMD, pageMsr]
  omega

/-- A 32-bit write of a register of 32 bits, whose value is taken, has the effect of the register (R33, R35). -/
theorem State.write_narrow {addr p o v new raw : Nat} {h : RegHit} (hb : s.reached c = true) (ha : s.answers p = true)
    (hp : addr / 0x10000 = p) (hq : addr % 0x10000 = o) (h4 : o % 4 = 0) (hr : regHit p o = some h) (hw : h.rd.wide = false)
    (hv : v < 2 ^ 32) (hd : ∀ w, ({ s with wrHold := w } : State).verdict c p h v = .take new raw) (hraw : raw < 2 ^ 64) :
    ∃ w, s.write c addr .b32 v = ({ s with wrHold := w } : State).wrHook c p h new raw := by
  subst hp hq
  obtain ⟨w, e⟩ := s.dropHeld_eq c (addr / 0x10000) addr
  refine ⟨w, ?_⟩
  rw [State.write_word v hb ha h4, Nat.mod_eq_of_lt hv]
  simp only [State.write32, hr, hw, e, Bool.not_false, if_true]
  exact State.wrWhole_take ha hr (hd w) hraw

/-! What the registers make of a value (R94). -/

/-- An arm register but ARM_CMD drops what is written to a slot that is armed or announced (R94). -/
theorem State.wrMsr_armed {o key new raw : Nat} (hs : s.armState slot = 1 ∨ s.armState slot = 2) (ho : 0x1000 ≤ o)
    (hslot : (o - 0x1000) / 16 = slot) (h12 : o % 16 ≠ 12) : s.wrMsr c o key new raw = s.raise pageMsr 0x8009 none 0 0 := by
  have hf : (decide (s.armState slot ≠ 1) && decide (s.armState slot ≠ 2)) = false := by
    rcases hs with e | e
    · simp [e]
    · simp [e]
  have hno : ¬ (decide (s.armState slot ≠ 1) && decide (s.armState slot ≠ 2)) = true := by rw [hf]; decide
  unfold State.wrMsr
  rw [if_pos ho]
  extract_lets n
  have hn : n = slot := hslot
  rw [if_neg h12, hn, State.wrRange, if_neg hno]

theorem State.wrMsr_cmd {o key new raw : Nat} (ho : 0x1000 ≤ o) (hslot : (o - 0x1000) / 16 = slot) (h12 : o % 16 = 12) :
    s.wrMsr c o key new raw = s.armCmd c slot raw := by
  unfold State.wrMsr
  rw [if_pos ho]
  extract_lets n
  have hn : n = slot := hslot
  rw [if_pos h12, hn]

theorem State.wrHook_msr (s : State) (c : Nat) (h : RegHit) (new raw : Nat) (hb : 0x100 ≤ h.base) :
    s.wrHook c pageMsr h new raw = s.wrMsr c h.base (regKey c pageMsr h) new raw := if_neg (Nat.not_lt.mpr hb)

/-! What is written. -/

/-- A write of ARM_TGT, of 64 bits, of a slot that is armed or announced (R94). -/
theorem State.write_armTgt_armed {v : Nat} (ho : Open s c pageMsr) (hs : s.armState slot = 1 ∨ s.armState slot = 2) (hv : v < 2 ^ 64) :
    ∃ w, s.write c (R.ARM_TGT slot) .b64 v = ({ s with wrHold := w } : State).raise pageMsr 0x8009 none 0 0 := by
  obtain ⟨hp, hq, -, -⟩ := armTgt_split slot
  obtain ⟨w, e⟩ := s.dropHeld_eq c pageMsr (R.ARM_TGT slot)
  have hslot := slot.isLt
  have hform : accessForm (R.ARM_TGT slot) .b64 = .whole := by
    have hwide : wideAt pageMsr (0x1000 + 0x10 * slot) = true := by
      rw [wideAt, (regHit_armTgt slot).1]
      rfl
    have h1 : ¬ (decide ((0x1000 + 0x10 * slot.val) % 4 ≠ 0) || decide (0x10000 < 0x1000 + 0x10 * slot.val + 8)) = true := by
      simp only [Bool.or_eq_true, decide_eq_true_eq]
      omega
    have h2 : (decide ((0x1000 + 0x10 * slot.val) % 8 = 0) && wideAt pageMsr (0x1000 + 0x10 * slot)) = true := by
      rw [hwide, Bool.and_true, decide_eq_true_eq]
      omega
    simp only [accessForm, hp, hq]
    rw [if_neg h1, if_pos h2]
  have hc : ¬ (!s.reached c || !s.answers (R.ARM_TGT slot / 0x10000)) = true := by
    have ha : s.answers pageMsr = true := ho.2.1
    rw [ho.1, hp, ha]
    decide
  refine ⟨w, ?_⟩
  rw [State.write, if_neg hc, hform]
  simp only [hp, e]
  rw [State.wrWhole_take (h := armTgtHit slot false) (new := v) (raw := v) _ _ _ hv]
  · rw [hp, State.wrHook_msr _ _ _ _ _ (by simp only [armTgtHit]; omega)]
    exact State.wrMsr_armed (slot := slot) hs (by simp only [armTgtHit]; omega) (by simp only [armTgtHit]; omega)
      (by simp only [armTgtHit]; omega)
  · rw [hp]; exact ho.2.1
  · rw [hp, hq]; exact (regHit_armTgt slot).1
  · rw [hp]; exact State.verdict_armTgt slot false (ho.of_wrHold w) hv

/-- A write of ARM_ACT of a slot that is armed or announced (R94). -/
theorem State.write_armAct_armed {v : Nat} (ho : Open s c pageMsr) (hs : s.armState slot = 1 ∨ s.armState slot = 2) (hv : v < 2 ^ 32) :
    ∃ w, s.write c (R.ARM_ACT slot) .b32 v = ({ s with wrHold := w } : State).raise pageMsr 0x8009 none 0 0 := by
  obtain ⟨hp, hq⟩ := armAct_split slot
  have hmask : (armActHit slot).rwMask pageMsr = 0xffffff := if_neg (by simp only [armActHit]; omega)
  have h1C : (if (armActHit slot).base = 0x1C then irqBitsOf (typeCode pageMsr) else (armActHit slot).rd.w1c) = 0 :=
    if_neg (by simp only [armActHit]; omega)
  obtain ⟨w, e⟩ := State.write_narrow (raw := v) (new := (s.rd (regKey c pageMsr (armActHit slot)) &&& (0xFFFFFFFFFFFFFFFF ^^^
    (armActHit slot).rwMask pageMsr)) ||| (v &&& (armActHit slot).rwMask pageMsr)) ho.1 ho.2.1 hp hq (by omega) (regHit_armAct slot) rfl hv (fun w =>
    State.verdict_plain (ho.of_wrHold w) (fun _ => State.mayReach_msr (ho.of_wrHold w) _) rfl h1C rfl (by rw [hmask]; decide)
    (by rw [hmask]; decide)) (by omega)
  refine ⟨w, ?_⟩
  rw [e, State.wrHook_msr _ _ _ _ _ (by simp only [armActHit]; omega)]
  exact State.wrMsr_armed (slot := slot) hs (by simp only [armActHit]; omega) (by simp only [armActHit]; omega)
    (by simp only [armActHit]; omega)

/-- A write of ARM_CMD comes to the slot's command (R94). -/
theorem State.write_armCmd {v : Nat} (ho : Open s c pageMsr) (hv : v < 2 ^ 32) :
    ∃ w, s.write c (R.ARM_CMD slot) .b32 v = ({ s with wrHold := w } : State).armCmd c slot v := by
  obtain ⟨hp, hq⟩ := armCmd_split slot
  obtain ⟨w, e⟩ := State.write_narrow (raw := v) ho.1 ho.2.1 hp hq (by omega) (regHit_armCmd slot) rfl hv (fun w =>
    State.verdict_wo (ho.of_wrHold w) (fun _ => State.mayReach_msr (ho.of_wrHold w) _) rfl (.inr (Nat.and_zero _))) (by omega)
  refine ⟨w, ?_⟩
  rw [e, State.wrHook_msr _ _ _ _ _ (by simp only [armCmdHit]; omega)]
  exact State.wrMsr_cmd (slot := slot) (by simp only [armCmdHit]; omega) (by simp only [armCmdHit]; omega) (by simp only [armCmdHit]; omega)

end

end Sys2Proof.Machine
end

section
/-! Arms that drop what they are told, and the strike of a held arm (R78, R80, R94). -/

namespace Sys2Proof.Machine

open Safety

section
variable {s : State} {c : Client} {slot : Fin 256}

/-- A write of an arm register that is dropped with 0x8009 (R94). -/
theorem registerWrite_dropped {k : Nat} {w : Width} {v : BitVec 64} (ho : Open s c pageMsr) (hk : k < 2 ^ 24) (hp : k / 0x10000 = pageMsr)
    (h : ∃ h, s.write c k w (v.toNat % 2 ^ (8 * w.bytes)) = ({ s with wrHold := h } : State).raise pageMsr 0x8009 none 0 0) :
    Runs (.registerWrite c (BitVec.ofNat 24 k) w v) s fun t => t.rd (R.PG_ERR pageMsr) % 65536 = 0x8009 ∧ t.msr = s.msr ∧
      Within (fun _ => False) s t := by
  obtain ⟨w, e⟩ := h
  refine runs_registerWrite (by rw [toNat_addr hk, hp]; exact ho.2.1) ?_
  rw [toNat_addr hk]
  obtain ⟨h1, h2, h3⟩ := State.dropped_spec (by decide) e
  exact ⟨h1, h2, h3.1, h3.2⟩

/-- ARM on a slot that is armed or announced is dropped (R94). -/
theorem arm_dropped (ho : Open s c pageMsr) (hs : s.armState slot = 1 ∨ s.armState slot = 2) : Runs (.arm c slot) s fun t =>
    t.rd (R.PG_ERR pageMsr) % 65536 = 0x8009 ∧ t.msr = s.msr ∧ Within (fun _ => False) s t := by
  refine runs_of_effect (exec_arm ho) fun w => ?_
  have hst : (decide (({ s with wrHold := w } : State).armState slot = 1) || decide (({ s with wrHold := w } : State).armState slot = 2)) = true := by
    rw [Bool.or_eq_true, decide_eq_true_eq, decide_eq_true_eq]
    exact hs
  obtain ⟨h1, h2, h3⟩ := State.dropped_spec (t := ({ s with wrHold := w } : State).armSlot c slot) (by decide) (if_pos hst)
  exact ⟨h1, h2, h3.1, h3.2⟩

/-- ARM and CANCEL at once are dropped (R94). -/
theorem State.armCmd_both (s : State) (c slot : Nat) {v : Nat} (h0 : v.testBit 0 = true) (h1 : v.testBit 1 = true) :
    s.armCmd c slot v = s.raise pageMsr 0x8009 none 0 0 := if_pos (by rw [h0, h1]; rfl)

theorem both_dropped {v : BitVec 64} (ho : Open s c pageMsr) (h0 : v.getLsbD 0 = true) (h1 : v.getLsbD 1 = true) :
    Runs (.registerWrite c (BitVec.ofNat 24 (R.ARM_CMD slot)) .b32 v) s fun t =>
      t.rd (R.PG_ERR pageMsr) % 65536 = 0x8009 ∧ t.msr = s.msr ∧ Within (fun _ => False) s t := by
  have hlow (i : Nat) (hi : i < 32) : (v.toNat % 2 ^ (8 * Width.b32.bytes)).testBit i = v.getLsbD i := by
    rw [Nat.testBit_mod_two_pow, decide_eq_true (show i < 8 * Width.b32.bytes from hi), Bool.true_and]
    rfl
  have hslot := slot.isLt
  refine registerWrite_dropped ho (by simp only [R.ARM_CMD]; omega) (armCmd_split slot).1 ?_
  obtain ⟨w, e⟩ := State.write_armCmd (slot := slot) (v := v.toNat % 2 ^ (8 * Width.b32.bytes)) ho (Nat.mod_lt _ (by decide))
  exact ⟨w, e.trans (State.armCmd_both _ _ _ ((hlow 0 (by decide)).trans h0) ((hlow 1 (by decide)).trans h1))⟩

/-- CANCEL of a slot that is not armed changes nothing (R80, R94). -/
theorem cancel_idle (ho : Open s c pageMsr) (h1 : s.armState slot ≠ 1) : Runs (.cancel c slot) s fun t => t.msr = s.msr ∧
    (∀ k, catReg k = false → t.rd k = s.rd k) ∧ t.err = s.err ∧ SameMem s t := by
  refine runs_of_effect (exec_cancel ho) fun w => ?_
  have hw : ¬ ({ s with wrHold := w } : State).armState slot = 1 := h1
  rw [if_neg hw]
  exact ⟨State.settle_msr _, fun k hk => State.settle_rd _ hk, State.settle_err _, (State.settle_only _).flags.sameMem⟩

/-- An ARM command makes the slot its client's, whatever comes of it (R94). -/
theorem State.armSlot_client (s : State) (c slot : Nat) (h1 : s.armState slot ≠ 1) (h2 : s.armState slot ≠ 2) :
    (s.armSlot c slot).msr = (s.putArmClient c slot).msr := by
  rw [State.armSlot_eq _ _ _ h1 h2]
  split_ifs
  · rw [State.armFails_msr]
  · rw [State.armFails_msr]
  · rw [State.armFails_msr]
  · rw [State.setArm_msr]

theorem arm_client (ho : Open s c pageMsr) (h0 : s.armState slot = 0) {t : State} (he : exec (.arm c slot) s = .next t) :
    t.armClient slot = c := by
  obtain ⟨_, ⟨w, rfl⟩, e⟩ := exec_arm (slot := slot) ho
  have hw : ({ s with wrHold := w } : State).armState slot = 0 := h0
  have hm := State.armSlot_client { s with wrHold := w } c slot (by rw [hw]; decide) (by rw [hw]; decide)
  rw [he] at e
  injection e with e
  rw [e, State.armClient, State.settle_msr, hm]
  exact (kvGet_kvPut _ _ _ _ _).trans (if_pos rfl)

/-! The strike of an arm (R78, R80, R94). -/

theorem State.setBit_irq (s : State) (k i : Nat) (b : Bool) : (s.setBit k i b).irq = s.irq := rfl

theorem State.irqBit_strikeTo (s : State) (p b k : Nat) : (s.irqBit p b k).irq.strikeTo = s.irq.strikeTo := by
  unfold State.irqBit
  extract_lets key s1
  have h1 : s1.irq.strikeTo = s.irq.strikeTo := by rw [State.setBit_irq]
  clear_value s1
  exact h1

theorem State.settle_strikeTo (s : State) : s.settle.irq.strikeTo = s.irq.strikeTo := s.settle_only.cats.2

theorem State.setIrq_strikeTo (s : State) (p b k : Nat) : (s.setIrq p b k).irq.strikeTo = s.irq.strikeTo := by
  rw [State.setIrq, State.settle_strikeTo, State.irqBit_strikeTo]

theorem State.setIrq_shows (s : State) (p k : Nat) {b : Nat} (hb : b < 64) : (s.setIrq p b k).bit (R.PG_IRQ_STAT p) b = true := by
  have hr : (s.irqBit p b k).regs = (s.setBit (R.PG_IRQ_STAT p) b true).regs := by
    unfold State.irqBit
    extract_lets key s1
    rfl
  have h : (s.irqBit p b k).bit (R.PG_IRQ_STAT p) b = true := by
    rw [State.bit_congr (State.rd_congr hr _), s.bit_setBit _ b _ b true hb, if_pos ⟨rfl, rfl⟩]
  rw [State.setIrq, State.settle_bit _ (catReg_header p (o := 0x1C) (by decide) (by decide)), h]

/-- The strike's interrupt has its client (R93, R94). -/
def State.strikeFor (s : State) (c : Nat) : State := { s with irq := { s.irq with strikeTo := s.irq.strikeTo ||| 2 ^ c } }

theorem State.strikeSlot_eq (s : State) (slot : Nat) : s.strikeSlot slot =
    (((s.act (s.armClient slot) (s.armPage slot) (s.armCode slot) (s.armTgt slot)).setArm slot 3).strikeFor (s.armClient slot)).setIrq
      pageMsr 4 8 := rfl

/-- A slot that strikes is struck, tells its client, and leaves what else the measures hold (R78, R94). -/
theorem State.strikeSlot_spec (s : State) (slot : Fin 256) : (s.strikeSlot slot).settle.armState slot = 3 ∧
    (s.strikeSlot slot).settle.irq.strikeTo.testBit (s.armClient slot) = true ∧
    (s.strikeSlot slot).settle.bit (R.PG_IRQ_STAT pageMsr) 4 = true ∧ (s.strikeSlot slot).settle.msr = s.msr := by
  rw [State.strikeSlot_eq]
  have hm := s.act_msr (s.armClient slot) (s.armPage slot) (s.armCode slot) (s.armTgt slot)
  generalize s.act (s.armClient slot) (s.armPage slot) (s.armCode slot) (s.armTgt slot) = u at hm
  generalize s.armClient slot = n
  have hfor (t : State) : (t.strikeFor n).irq.strikeTo.testBit n = true := by
    show (t.irq.strikeTo ||| 2 ^ n).testBit n = true
    rw [Nat.testBit_or, Nat.testBit_two_pow_self, Bool.or_true]
  have harm : ((u.setArm slot 3).strikeFor n).armState slot = 3 := (u.armState_setArm slot 3 slot).trans (if_pos rfl)
  have hmsr : ((u.setArm slot 3).strikeFor n).msr = s.msr := hm
  have hto := hfor (u.setArm slot 3)
  generalize (u.setArm slot 3).strikeFor n = v at *
  refine ⟨?_, ?_, ?_, ?_⟩
  · rw [State.armState_settle, v.armState_congr (v.setIrq_rd pageMsr 4 8 (flagReg_armCmd slot)), harm]
  · rw [State.settle_strikeTo, v.setIrq_strikeTo, hto]
  · rw [State.settle_bit _ (by decide), v.setIrq_shows pageMsr 8 (by decide)]
  · rw [State.settle_msr, State.setIrq_msr, hmsr]

/-- A held strike that is held no longer (R80). -/
def State.unhold (s : State) (slot : Nat) : State :=
  { s with msr := { s.msr with held := kvErase s.msr.held slot, heldBy := kvErase s.msr.heldBy slot } }

/-- Its lag is told to the run that held it, if one did (R80). -/
def State.tellHeld (s : State) (slot d : Nat) : State :=
  match kvFind s.msr.heldBy slot with
  | some rn => (s.unhold slot).recordHeld rn (Machine.cyclesFrom d s.etime)
  | none => s.unhold slot

theorem State.tellHeld_msr (s : State) (slot d : Nat) : (s.tellHeld slot d).msr = (s.unhold slot).msr := by
  unfold State.tellHeld
  split
  · exact State.recordHeld_msr _ _ _
  · rfl

theorem heldArmStrike_exec {d : Nat} (hd : kvFind s.msr.held slot = some d) (hb : s.busyPage (s.armPage slot) = false) :
    exec (.heldArmStrike slot) s = settled ((s.tellHeld slot d).strikeSlot slot) := by
  show execHeldArmStrike slot s = _
  unfold execHeldArmStrike State.tellHeld
  cases kvFind s.msr.heldBy slot with
  | none =>
    simp only [hd, hb, Bool.false_eq_true, if_false]
    rfl
  | some rn =>
    simp only [hd, hb, Bool.false_eq_true, if_false]
    rfl

/-- The strike of a held arm, once its unit is free, is as another's (R80, R94). -/
theorem heldArmStrike_strikes {d : Nat} (hd : kvFind s.msr.held slot = some d) (hb : s.busyPage (s.armPage slot) = false) :
    Runs (.heldArmStrike slot) s fun t => t.armState slot = 3 ∧ t.irq.strikeTo.testBit (s.armClient slot) = true ∧
      t.bit (R.PG_IRQ_STAT pageMsr) 4 = true ∧ kvFind t.msr.held slot = none := by
  have hm := s.tellHeld_msr slot d
  refine ⟨_, heldArmStrike_exec hd hb, ?_⟩
  generalize s.tellHeld slot d = u at hm
  obtain ⟨h3, hto, hirq, hmsr⟩ := u.strikeSlot_spec slot
  have hc : u.armClient slot = s.armClient slot := by
    rw [State.armClient, hm]
    rfl
  rw [hc] at hto
  refine ⟨h3, hto, hirq, ?_⟩
  rw [hmsr, hm]
  exact (kvFind_kvErase _ _ _).trans (if_pos rfl)

end

end Sys2Proof.Machine

namespace Sys2Proof

open Machine Safety

/-- Settles O19: an armed slot's registers drop what is written, CANCEL elsewhere does nothing, and a strike, held or not, is its client's. -/
theorem armedSlotsDropWrites : Obligations.ArmedSlotsDropWrites := by
  intro s c slot ho dropped
  have hslot := slot.isLt
  refine ⟨fun hs => ⟨fun v => ?_, fun v => ?_, arm_dropped ho hs⟩, fun v h0 h1 => both_dropped ho h0 h1,
    fun h1 _ => cancel_idle ho h1, fun h0 t he _ => arm_client ho h0 he, fun d hd hb => heldArmStrike_strikes hd hb⟩
  · exact registerWrite_dropped ho (by simp only [R.ARM_TGT]; omega) (armTgt_split slot).1
      (State.write_armTgt_armed ho hs (Nat.mod_lt _ (by decide)))
  · exact registerWrite_dropped ho (by simp only [R.ARM_ACT]; omega) (armAct_split slot).1
      (State.write_armAct_armed ho hs (Nat.mod_lt _ (by decide)))

end Sys2Proof
end

section
/-! What the commands of QNT leave as it is, and what they are as writes of QNT_GCMD and QNT_MON_CMD (R8, R36, R133, R145, R147). -/

namespace Sys2Proof.Machine

open Safety

/-- The registers that neither events change nor p names stay, with the memories and the work. -/
def Spares (p : Nat → Prop) (s t : State) : Prop := Within p s t ∧ SameWork s t

section
variable {p q : Nat → Prop} {s t u : State}

theorem Spares.trans (h : Spares p s t) (h' : Spares p t u) : Spares p s u := by
  obtain ⟨hw, hc, ht, hs, hf, hl⟩ := h
  obtain ⟨hw', hc', ht', hs', hf', hl'⟩ := h'
  exact ⟨hw.trans hw', hc'.trans hc, ht'.trans ht, hs'.trans hs, hf'.trans hf, hl'.trans hl⟩

theorem Spares.mono (h : Spares p s t) (hp : ∀ k, p k → q k) : Spares q s t :=
  ⟨⟨fun k hf hq => h.1.1 k hf fun hk => hq (hp k hk), h.1.2⟩, h.2⟩

theorem Spares.of_flags (h : FlagsOnly s t) : Spares p s t := ⟨.of_flags h, h.ctxs, h.tiers, h.sched, h.search, h.cols⟩

theorem Spares.settle (h : Spares p s t) : Spares p s t.settle := h.trans (.of_flags t.settle_only.flags)

theorem State.wr_spares (s : State) {k : Nat} (v : Nat) (h : p k) : Spares p s (s.wr k v) :=
  ⟨⟨fun _ _ hp => s.rd_wr_ne v fun e => hp (e ▸ h), s.wr_sameMem k v⟩, rfl, rfl, rfl, rfl, rfl⟩

theorem State.setBit_spares (s : State) {k : Nat} (i : Nat) (b : Bool) (h : p k) : Spares p s (s.setBit k i b) := s.wr_spares _ h

/-- Extending a measurement slot leaves all but SEC_STAT (R470, R471). -/
theorem State.extend_spares (s : State) (slot : Nat) (data : List Byte) (h : p R.SEC_STAT) : Spares p s (s.extend slot data) := by
  refine ⟨⟨fun k _ hp => s.extend_rd slot data fun e => hp (e ▸ h), ?_⟩, ?_⟩
  · obtain ⟨_, _, _, _, _, _, _, _, _, e, -⟩ := s.extend_only slot data
    rw [e]
    exact ⟨rfl, rfl, rfl, rfl⟩
  · obtain ⟨_, _, _, _, _, _, _, _, _, e, -⟩ := s.extend_only slot data
    rw [e]
    exact ⟨rfl, rfl, rfl, rfl, rfl⟩

end

/-- The block registers of QNT are none that events change (R557). -/
theorem flagReg_qnt {k : Nat} (h : 0xe20100 ≤ k) (h' : k < 0xe30000) : flagReg k = false := by
  simp only [flagReg, R.SYS_ATTN, Bool.or_eq_false_iff, decide_eq_false_iff_not]
  omega

/-- A register given what another holds takes all of it. -/
theorem State.rd_wr_rd (s t : State) (k j k' : Nat) : (s.wr k (t.rd j)).rd k' = if k = k' then t.rd j else s.rd k' := by
  rw [State.rd_wr, Nat.mod_eq_of_lt (t.rd_lt j)]

/-! The two command registers: bit 8 is LOAD or LATCH, bit 9 is CLEAR (R147). -/

def gcmdHit : RegHit := ⟨⟨0x110, 1, 0, 1, 0, false, 0, 0, 0, 0x3ff, true, 0, false⟩, 0x110, false⟩
def monCmdHit : RegHit := ⟨⟨0x118, 1, 0, 1, 0, false, 0, 0, 0, 0, true, 0, false⟩, 0x118, false⟩

theorem regHit_gcmd : regHit pageQnt 0x110 = some gcmdHit := by decide
theorem regHit_monCmd : regHit pageQnt 0x118 = some monCmdHit := by decide

/-- A command word with bit 8 over its index has bit 9 clear. -/
theorem bits_add_256 {n : Nat} (h : n < 256) : (n + 0x100).testBit 8 = true ∧ (n + 0x100).testBit 9 = false := by
  simp only [Nat.testBit_eq_decide_div_mod_eq, decide_eq_true_eq, decide_eq_false_iff_not]
  omega

/-- A command word with bit 9 over its index has bit 8 clear. -/
theorem bits_add_512 {n : Nat} (h : n < 256) : (n + 0x200).testBit 8 = false ∧ (n + 0x200).testBit 9 = true := by
  simp only [Nat.testBit_eq_decide_div_mod_eq, decide_eq_true_eq, decide_eq_false_iff_not]
  omega

section
variable {s : State}

theorem State.gridCmd_load (s : State) (g : Fin 256) : s.gridCmd (g + 0x100) = s.gridLoad g := by
  obtain ⟨h8, h9⟩ := bits_add_256 g.isLt
  have hg : (g.val + 0x100) % 256 = g := by omega
  simp [State.gridCmd, h8, h9, hg]

theorem State.gridCmd_clear (s : State) (g : Fin 256) : s.gridCmd (g + 0x200) = s.gridClear g := by
  obtain ⟨h8, h9⟩ := bits_add_512 g.isLt
  have hg : (g.val + 0x200) % 256 = g := by omega
  simp [State.gridCmd, h8, h9, hg]

/-- Client 0 alone gives grid commands: its write of QNT_GCMD acts as it stands (R133, R147). -/
theorem State.command_gcmd {v : Nat} (eff : State → Nat → Nat → State) (ho : Open s 0 pageQnt) (hv : v < 2 ^ 64) :
    ∃ u, HeldOnly s u ∧ s.command 0 R.QNT_GCMD v eff = eff u 0 v :=
  State.command_effect eff ho.1 ho.2.1 regHit_gcmd (State.verdict_wo ho (fun _ => s.mayReach_super _ _) rfl (.inl rfl)) hv

theorem exec_gcmdLoad (ho : Open s 0 pageQnt) (g : Fin 256) :
    ∃ u, HeldOnly s u ∧ exec (.qntGcmdLoad 0 g) s = settled (u.gridLoad g) := by
  obtain ⟨u, hu, e⟩ := State.command_gcmd (v := g + 0x100) (fun t _ raw => t.gridCmd raw) ho (by omega)
  exact ⟨u, hu, congrArg settled (e.trans (u.gridCmd_load g))⟩

theorem exec_gcmdClear (ho : Open s 0 pageQnt) (g : Fin 256) :
    ∃ u, HeldOnly s u ∧ exec (.qntGcmdClear 0 g) s = settled (u.gridClear g) := by
  obtain ⟨u, hu, e⟩ := State.command_gcmd (v := g + 0x200) (fun t _ raw => t.gridCmd raw) ho (by omega)
  exact ⟨u, hu, congrArg settled (e.trans (u.gridCmd_clear g))⟩

variable {c : Client}

/-- Monitors are commanded by any client that the page is open to (R145). -/
theorem State.command_monCmd {v : Nat} (eff : State → Nat → Nat → State) (ho : Open s c pageQnt) (hv : v < 2 ^ 64) :
    ∃ u, HeldOnly s u ∧ s.command c R.QNT_MON_CMD v eff = eff u 0 v :=
  State.command_once eff ho
    (ho.reach (by simp [blockClient, pageQnt, pageIrq, pageSch, pageTier, pageDet, pageAcc, pageHif, pageCtx]) (by decide) (.inl (by decide)))
    regHit_monCmd (by decide) rfl rfl hv

/-- What a command of monitor m by client c comes to: its effect, or an access event (R145). -/
def State.asMonClient (s : State) (c m : Nat) (f : State → State) : State :=
  if c ≠ 0 ∧ s.fld (R.MON_CTL m) 11 8 ≠ c then s.accessEvent 0x1002 c R.QNT_MON_CMD else f s

theorem State.asMonClient_own {m n : Nat} (f : State → State) (h : n = 0 ∨ s.fld (R.MON_CTL m) 11 8 = n) :
    s.asMonClient n m f = f s := if_neg fun ⟨h0, hne⟩ => h.elim h0 hne

theorem State.asMonClient_other {m n : Nat} (f : State → State) (h0 : n ≠ 0) (h : s.fld (R.MON_CTL m) 11 8 ≠ n) :
    s.asMonClient n m f = s.accessEvent 0x1002 n R.QNT_MON_CMD := if_pos ⟨h0, h⟩

theorem State.monCmd_latch (s : State) (c : Nat) (m : Fin 64) :
    s.monCmd c (m + 0x100) = s.asMonClient c m fun t => t.monLatch m := by
  obtain ⟨h8, h9⟩ := bits_add_256 (n := m) (by omega)
  have hm : (m.val + 0x100) % 64 = m := by omega
  simp [State.monCmd, State.asMonClient, h8, h9, hm]

theorem State.monCmd_clear (s : State) (c : Nat) (m : Fin 64) :
    s.monCmd c (m + 0x200) = s.asMonClient c m fun t => t.monClear m := by
  obtain ⟨h8, h9⟩ := bits_add_512 (n := m) (by omega)
  have hm : (m.val + 0x200) % 64 = m := by omega
  simp [State.monCmd, State.asMonClient, h8, h9, hm]

theorem exec_monLatch (ho : Open s c pageQnt) (m : Fin 64) :
    ∃ u, HeldOnly s u ∧ exec (.qntMonLatch c m) s = settled (u.asMonClient c m fun t => t.monLatch m) := by
  obtain ⟨u, hu, e⟩ := State.command_monCmd (v := m + 0x100) (fun t _ raw => t.monCmd c raw) ho (by omega)
  exact ⟨u, hu, congrArg settled (e.trans (u.monCmd_latch c m))⟩

theorem exec_monClear (ho : Open s c pageQnt) (m : Fin 64) :
    ∃ u, HeldOnly s u ∧ exec (.qntMonClear c m) s = settled (u.asMonClient c m fun t => t.monClear m) := by
  obtain ⟨u, hu, e⟩ := State.command_monCmd (v := m + 0x200) (fun t _ raw => t.monCmd c raw) ho (by omega)
  exact ⟨u, hu, congrArg settled (e.trans (u.monCmd_clear c m))⟩

end

end Sys2Proof.Machine
end

section
/-! Grid slots: LOAD and CLEAR, accepted and refused (R133, R134, R147). -/

namespace Sys2Proof.Machine

open Safety

/-- The four level registers of a slot given values. -/
def State.putGrid (s : State) (g : Nat) (v : Nat → Nat) : State :=
  (List.range 4).foldl (fun t i => t.wr (R.QNT_GRID g i) (v i)) s

/-- The registers that an accepted grid command on slot g writes, but for the measurement log's. -/
def slotReg (g k : Nat) : Prop := k = R.QNT_GSTAT g ∨ k = R.QNT_GRESULT ∨ ∃ i, i < 4 ∧ k = R.QNT_GRID g i

section
variable {p : Nat → Prop} {s : State} {g : Nat}

/-- The fourfold write, written out. -/
theorem State.putGrid_eq (s : State) (g : Nat) (v : Nat → Nat) :
    s.putGrid g v = (((s.wr (R.QNT_GRID g 0) (v 0)).wr (R.QNT_GRID g 1) (v 1)).wr (R.QNT_GRID g 2) (v 2)).wr (R.QNT_GRID g 3) (v 3) := rfl

theorem State.putGrid_rd (s : State) (g : Nat) {v : Nat → Nat} (hv : ∀ i, v i < 2 ^ 64) {i : Nat} (hi : i < 4) :
    (s.putGrid g v).rd (R.QNT_GRID g i) = v i := by
  simp only [State.putGrid_eq, State.rd_wr, Nat.mod_eq_of_lt (hv _), Nat.add_left_cancel_iff]
  interval_cases i <;> rfl

theorem State.putGrid_spares (s : State) (v : Nat → Nat) (h : ∀ i, i < 4 → p (R.QNT_GRID g i)) : Spares p s (s.putGrid g v) :=
  (((s.wr_spares _ (h 0 (by decide))).trans (State.wr_spares _ _ (h 1 (by decide)))).trans
    (State.wr_spares _ _ (h 2 (by decide)))).trans (State.wr_spares _ _ (h 3 (by decide)))

/-- LOAD's copy reads the staging registers as they were: no level register of a slot is one of them. -/
theorem State.putGrid_staged (s : State) (g : Nat) :
    (List.range 4).foldl (fun t i => t.wr (R.QNT_GRID g i) (t.rd (R.QNT_GSTAGE i))) s = s.putGrid g fun i => s.rd (R.QNT_GSTAGE i) := by
  have hne (i : Nat) {j : Nat} (hj : j < 4) : R.QNT_GRID g i ≠ R.QNT_GSTAGE j := by
    simp only [R.QNT_GRID, R.QNT_GSTAGE]
    omega
  have hrd (t : State) (v i : Nat) {j : Nat} (hj : j < 4) : (t.wr (R.QNT_GRID g i) v).rd (R.QNT_GSTAGE j) = t.rd (R.QNT_GSTAGE j) :=
    t.rd_wr_ne v (hne i hj)
  simp only [State.putGrid_eq, show List.range 4 = [0, 1, 2, 3] from rfl, List.foldl_cons, List.foldl_nil,
    hrd _ _ _ (show 1 < 4 by decide), hrd _ _ _ (show 2 < 4 by decide), hrd _ _ _ (show 3 < 4 by decide)]

/-! The results. -/

theorem State.gridResult_accepted (s : State) (g : Nat) : s.gridResult g 0 = s.wr R.QNT_GRESULT (g + 0x100) := rfl

/-- A refused command tells its cause and raises its event, and leaves every other register (R133, R147). -/
theorem State.gridResult_refused (s : State) {g r code : Nat} (hg : g < 256) (hr : r = 1 ∧ code = 0x2201 ∨ r = 2 ∧ code = 0x2202) :
    (s.gridResult g r).settle.rd R.QNT_GRESULT = g + 0x100 + r * 0x200 ∧
      (s.gridResult g r).settle.rd (R.PG_ERR pageQnt) % 65536 = code ∧
      Kept s (s.gridResult g r).settle fun k => k = R.QNT_GRESULT := by
  have e : s.gridResult g r =
      ((s.wr R.QNT_GRESULT (g + 0x100 + r * 0x200)).setIrq pageQnt 5 2).raise pageQnt code none g 0 := by
    rcases hr with ⟨rfl, rfl⟩ | ⟨rfl, rfl⟩ <;> simp [State.gridResult]
  have hf : flagReg R.QNT_GRESULT = false := flagReg_qnt (by decide) (by decide)
  rw [e]
  refine ⟨?_, ?_, ?_⟩
  · rw [State.settle_rd _ (catReg_flagReg hf), State.raise_rd _ _ _ _ _ _ hf, State.setIrq_rd _ _ _ _ hf, State.rd_wr_same]
    omega
  · rw [State.settle_rd _ (catReg_header pageQnt (o := 0x14) (by decide) (by decide)), State.raise_pgErr]
    omega
  · have h : Spares (fun k => k = R.QNT_GRESULT) s (s.wr R.QNT_GRESULT (g + 0x100 + r * 0x200)) := s.wr_spares _ rfl
    exact ((h.trans (.of_flags (State.setIrq_flags _ _ _ _))).trans (.of_flags (State.raise_flags _ _ _ _ _ _))).settle.1.1

/-- What a slot shows after its registers were written and the result was told. -/
theorem State.gridShown (s : State) {g : Nat} (hg : g < 256) :
    (s.gridResult g 0).settle.gridValid g = s.gridValid g ∧
      (∀ i, i < 4 → (s.gridResult g 0).settle.rd (R.QNT_GRID g i) = s.rd (R.QNT_GRID g i)) ∧
      (s.gridResult g 0).settle.rd R.QNT_GRESULT = g + 0x100 := by
  have hrd {k : Nat} (h : 0xe20100 ≤ k) (h' : k < 0xe30000) :
      (s.gridResult g 0).settle.rd k = (s.wr R.QNT_GRESULT (g + 0x100)).rd k := State.settle_rd _ (catReg_flagReg (flagReg_qnt h h'))
  refine ⟨?_, fun i hi => ?_, ?_⟩
  · refine State.bit_congr ?_ 0
    rw [hrd (by simp only [R.QNT_GSTAT]; omega) (by simp only [R.QNT_GSTAT]; omega),
      State.rd_wr_ne _ _ (by simp only [R.QNT_GSTAT, R.QNT_GRESULT]; omega)]
  · rw [hrd (by simp only [R.QNT_GRID]; omega) (by simp only [R.QNT_GRID]; omega),
      State.rd_wr_ne _ _ (by simp only [R.QNT_GRID, R.QNT_GRESULT]; omega)]
  · rw [hrd (by decide) (by decide), State.rd_wr_same _ _ _ (by omega)]

/-! LOAD and CLEAR. -/

/-- The data that measurement slot 5 is extended with: the levels and the slot (R470). -/
def State.slotData (s : State) (g : Nat) : List Byte :=
  (s.levelsAt R.QNT_GSTAGE).flatMap (fun l => leBytes 1 (toTwos 8 l)) ++ leBytes 1 g

/-- Slot g with levels and its valid bit written. -/
def State.fillSlot (s : State) (g : Nat) (v : Nat → Nat) (b : Bool) : State := (s.putGrid g v).setBit (R.QNT_GSTAT g) 0 b

theorem State.fillSlot_valid (s : State) (g : Nat) (v : Nat → Nat) (b : Bool) : (s.fillSlot g v b).gridValid g = b := by
  rw [State.fillSlot, State.gridValid, State.bit_setBit _ _ _ _ _ _ (by decide), if_pos ⟨rfl, rfl⟩]

theorem State.fillSlot_levels (s : State) {g : Nat} (hg : g < 256) {v : Nat → Nat} (b : Bool) (hv : ∀ i, v i < 2 ^ 64) {i : Nat} (hi : i < 4) :
    (s.fillSlot g v b).rd (R.QNT_GRID g i) = v i := by
  rw [State.fillSlot, State.rd_setBit_ne _ _ _ (by simp only [R.QNT_GSTAT, R.QNT_GRID]; omega), s.putGrid_rd g hv hi]

theorem State.fillSlot_spares (s : State) (g : Nat) (v : Nat → Nat) (b : Bool) : Spares (slotReg g) s (s.fillSlot g v b) :=
  (s.putGrid_spares v fun i hi => .inr (.inr ⟨i, hi, rfl⟩)).trans (State.setBit_spares _ _ _ (.inl rfl))

theorem State.gridLoad_referenced (h : s.gridRefs g ≠ 0) : s.gridLoad g = s.gridResult g 2 := if_pos h

theorem State.gridClear_referenced (h : s.gridRefs g ≠ 0) : s.gridClear g = s.gridResult g 2 := if_pos h

theorem State.gridLoad_notIncreasing (h : s.gridRefs g = 0) (hl : increasing (s.levelsAt R.QNT_GSTAGE) = false) :
    s.gridLoad g = s.gridResult g 1 := by
  simp [State.gridLoad, h, hl]

theorem State.gridLoad_accepted (h : s.gridRefs g = 0) (hl : increasing (s.levelsAt R.QNT_GSTAGE) = true) :
    s.gridLoad g = ((s.fillSlot g (fun i => s.rd (R.QNT_GSTAGE i)) true).extend 5 (s.slotData g)).gridResult g 0 := by
  simp only [State.gridLoad, State.putGrid_staged, h, hl, ne_eq, not_true_eq_false, if_false, Bool.not_true, Bool.false_eq_true]
  rfl

theorem State.gridClear_accepted (h : s.gridRefs g = 0) : s.gridClear g = (s.fillSlot g (fun _ => 0) false).gridResult g 0 := by
  simp only [State.gridClear, h, ne_eq, not_true_eq_false, if_false]
  rfl

end

/-! The commands. -/

section
variable {s : State} {g : Fin 256}

/-- An accepted LOAD fills the slot from the staging registers and measures it (R133, R470). -/
theorem State.gridLoad_fills (h : s.gridRefs g = 0) (hl : increasing (s.levelsAt R.QNT_GSTAGE) = true) :
    (s.gridLoad g).settle.gridValid g = true ∧ (∀ i, i < 4 → (s.gridLoad g).settle.rd (R.QNT_GRID g i) = s.rd (R.QNT_GSTAGE i)) ∧
      (s.gridLoad g).settle.rd R.QNT_GRESULT = g.val + 0x100 ∧ (s.gridLoad g).settle.slotCount 5 = s.slotCount 5 + 1 ∧
      Spares (fun k => k = R.SEC_STAT ∨ slotReg g k) s (s.gridLoad g).settle := by
  rw [State.gridLoad_accepted h hl]
  obtain ⟨hvalid, hlevels, hresult⟩ :=
    ((s.fillSlot g (fun i => s.rd (R.QNT_GSTAGE i)) true).extend 5 (s.slotData g)).gridShown g.isLt
  have hext {k : Nat} (hk : k ≠ R.SEC_STAT) :=
    State.extend_rd (s.fillSlot g (fun i => s.rd (R.QNT_GSTAGE i)) true) 5 (s.slotData g) hk
  refine ⟨?_, fun i hi => ?_, hresult, ?_, ?_⟩
  · rw [hvalid, State.gridValid, State.bit_congr (hext (by simp only [R.QNT_GSTAT, R.SEC_STAT]; omega))]
    exact s.fillSlot_valid g _ true
  · rw [hlevels i hi, hext (by simp only [R.QNT_GRID, R.SEC_STAT]; omega), s.fillSlot_levels g.isLt true (fun _ => s.rd_lt _) hi]
  · rw [State.settle_slotCount]
    exact (State.extend_slotCount _ 5 5 _).trans (if_pos rfl)
  · exact ((((s.fillSlot_spares g _ true).mono fun _ => .inr).trans (State.extend_spares _ _ _ (.inl rfl))).trans
      (State.wr_spares _ _ (.inr (.inr (.inl rfl))))).settle

/-- An accepted CLEAR empties the slot (R133). -/
theorem State.gridClear_empties (h : s.gridRefs g = 0) : (s.gridClear g).settle.gridValid g = false ∧
    (∀ i, i < 4 → (s.gridClear g).settle.rd (R.QNT_GRID g i) = 0) ∧ (s.gridClear g).settle.rd R.QNT_GRESULT = g.val + 0x100 ∧
      Spares (slotReg g) s (s.gridClear g).settle := by
  rw [State.gridClear_accepted h]
  obtain ⟨hvalid, hlevels, hresult⟩ := (s.fillSlot g (fun _ => 0) false).gridShown g.isLt
  refine ⟨hvalid.trans (s.fillSlot_valid g _ false), fun i hi => ?_, hresult, ?_⟩
  · rw [hlevels i hi, s.fillSlot_levels g.isLt false (fun _ => by decide) hi]
  · exact ((s.fillSlot_spares g _ false).trans (State.wr_spares _ _ (.inr (.inl rfl)))).settle

/-- What a refused grid command leaves: its result, its event, and every other register. -/
def GridRefused (s t : State) (g : Fin 256) (result code : Nat) : Prop :=
  t.rd R.QNT_GRESULT = g.val + result ∧ t.rd (R.PG_ERR pageQnt) % 65536 = code ∧ Kept s t fun k => k = R.QNT_GRESULT

theorem gcmdLoad_referenced (ho : Open s 0 pageQnt) (h : s.gridRefs g ≠ 0) :
    Runs (.qntGcmdLoad 0 g) s fun t => GridRefused s t g 0x500 0x2202 :=
  runs_of_effect (exec_gcmdLoad ho g) fun w => by
    rw [State.gridLoad_referenced (s := { s with wrHold := w }) h]
    exact State.gridResult_refused _ g.isLt (.inr ⟨rfl, rfl⟩)

theorem gcmdLoad_notIncreasing (ho : Open s 0 pageQnt) (h : s.gridRefs g = 0) (hl : increasing (s.levelsAt R.QNT_GSTAGE) = false) :
    Runs (.qntGcmdLoad 0 g) s fun t => GridRefused s t g 0x300 0x2201 :=
  runs_of_effect (exec_gcmdLoad ho g) fun w => by
    rw [State.gridLoad_notIncreasing (s := { s with wrHold := w }) h hl]
    exact State.gridResult_refused _ g.isLt (.inl ⟨rfl, rfl⟩)

theorem gcmdClear_referenced (ho : Open s 0 pageQnt) (h : s.gridRefs g ≠ 0) :
    Runs (.qntGcmdClear 0 g) s fun t => GridRefused s t g 0x500 0x2202 :=
  runs_of_effect (exec_gcmdClear ho g) fun w => by
    rw [State.gridClear_referenced (s := { s with wrHold := w }) h]
    exact State.gridResult_refused _ g.isLt (.inr ⟨rfl, rfl⟩)

end

end Sys2Proof.Machine
end

section
/-! Monitors: LATCH, CLEAR, and the refusal of another client (R142, R145, R146). -/

namespace Sys2Proof.Machine

open Safety

/-- The live counters of a monitor. -/
def monLive (m k : Nat) : Prop := k = R.MON_N m ∨ k = R.MON_CLIP_LO m ∨ k = R.MON_CLIP_HI m ∨ k = R.MON_SQERR m

/-- They are the registers after MON_CTL, up to MON_SQERR. -/
theorem monLive.bounds {m k : Nat} (h : monLive m k) : R.MON_CTL m < k ∧ k ≤ R.MON_SQERR m := by
  simp only [monLive, R.MON_N, R.MON_CLIP_LO, R.MON_CLIP_HI, R.MON_SQERR] at h
  simp only [R.MON_CTL, R.MON_SQERR]
  omega

/-- The latched counters of a monitor, with the measure. -/
def monLatched (m k : Nat) : Prop :=
  k = R.MON_LN m ∨ k = R.MON_LCLIP_LO m ∨ k = R.MON_LCLIP_HI m ∨ k = R.MON_LSQERR m ∨ k = R.MON_LATCH_M m

/-- They are the registers after MON_SQERR, up to MON_LATCH_M. -/
theorem monLatched.bounds {m k : Nat} (h : monLatched m k) : R.MON_SQERR m < k ∧ k ≤ R.MON_LATCH_M m := by
  simp only [monLatched, R.MON_LN, R.MON_LCLIP_LO, R.MON_LCLIP_HI, R.MON_LSQERR, R.MON_LATCH_M] at h
  simp only [R.MON_SQERR, R.MON_LATCH_M]
  omega

/-- Interrupts routed at a command's end leave a monitor's registers (R53). -/
theorem State.settle_mon (s : State) (m : Fin 64) {k : Nat} (h : R.MON_CTL m ≤ k) (h' : k ≤ R.MON_LATCH_M m) : s.settle.rd k = s.rd k := by
  simp only [R.MON_CTL, R.MON_LATCH_M] at h h'
  exact State.settle_rd _ (catReg_flagReg (flagReg_qnt (by omega) (by omega)))

/-- A monitor's latched registers given the live counters and the measure. -/
def State.monCopy (s : State) (m : Nat) : State :=
  ((((s.wr (R.MON_LN m) (s.rd (R.MON_N m))).wr (R.MON_LCLIP_LO m) (s.rd (R.MON_CLIP_LO m))).wr (R.MON_LCLIP_HI m)
    (s.rd (R.MON_CLIP_HI m))).wr (R.MON_LSQERR m) (s.rd (R.MON_SQERR m))).wr (R.MON_LATCH_M m) (s.rd R.MSR_NOW)

section
variable {p : Nat → Prop} (s : State) (m : Nat) {k : Nat}

theorem State.monZero_live (h : monLive m k) : (s.monZero m).rd k = 0 := by
  rcases h with rfl | rfl | rfl | rfl <;> simp [State.monZero, State.rd_wr]

theorem State.monZero_other (h : ¬ monLive m k) : (s.monZero m).rd k = s.rd k := by
  obtain ⟨hn, hlo, hhi, hsq⟩ : k ≠ R.MON_N m ∧ k ≠ R.MON_CLIP_LO m ∧ k ≠ R.MON_CLIP_HI m ∧ k ≠ R.MON_SQERR m := by
    simpa only [monLive, not_or] using h
  rw [State.monZero, State.rd_wr_ne _ _ hsq.symm, State.rd_wr_ne _ _ hhi.symm, State.rd_wr_ne _ _ hlo.symm, State.rd_wr_ne _ _ hn.symm]

theorem State.monZero_spares (h : ∀ k, monLive m k → p k) : Spares p s (s.monZero m) :=
  (((s.wr_spares _ (h _ (.inl rfl))).trans (State.wr_spares _ _ (h _ (.inr (.inl rfl))))).trans
    (State.wr_spares _ _ (h _ (.inr (.inr (.inl rfl)))))).trans (State.wr_spares _ _ (h _ (.inr (.inr (.inr rfl)))))

/-- Each latched register takes its own live counter, and MON_LATCH_M the measure (R145). -/
theorem State.monCopy_latched : (s.monCopy m).rd (R.MON_LN m) = s.rd (R.MON_N m) ∧
    (s.monCopy m).rd (R.MON_LCLIP_LO m) = s.rd (R.MON_CLIP_LO m) ∧ (s.monCopy m).rd (R.MON_LCLIP_HI m) = s.rd (R.MON_CLIP_HI m) ∧
    (s.monCopy m).rd (R.MON_LSQERR m) = s.rd (R.MON_SQERR m) ∧ (s.monCopy m).rd (R.MON_LATCH_M m) = s.rd R.MSR_NOW := by
  simp [State.monCopy, State.rd_wr_rd]

theorem State.monCopy_other (h : ¬ monLatched m k) : (s.monCopy m).rd k = s.rd k := by
  obtain ⟨hn, hlo, hhi, hsq, hm⟩ : k ≠ R.MON_LN m ∧ k ≠ R.MON_LCLIP_LO m ∧ k ≠ R.MON_LCLIP_HI m ∧ k ≠ R.MON_LSQERR m ∧
      k ≠ R.MON_LATCH_M m := by
    simpa only [monLatched, not_or] using h
  rw [State.monCopy, State.rd_wr_ne _ _ hm.symm, State.rd_wr_ne _ _ hsq.symm, State.rd_wr_ne _ _ hhi.symm, State.rd_wr_ne _ _ hlo.symm,
    State.rd_wr_ne _ _ hn.symm]

theorem State.monCopy_spares (h : ∀ k, monLatched m k → p k) : Spares p s (s.monCopy m) :=
  ((((s.wr_spares _ (h _ (.inl rfl))).trans (State.wr_spares _ _ (h _ (.inr (.inl rfl))))).trans
    (State.wr_spares _ _ (h _ (.inr (.inr (.inl rfl)))))).trans (State.wr_spares _ _ (h _ (.inr (.inr (.inr (.inl rfl))))))).trans
      (State.wr_spares _ _ (h _ (.inr (.inr (.inr (.inr rfl))))))

/-- LATCH copies, and clears when MON_CTL[1] is set (R145, R146). -/
theorem State.monLatch_eq : s.monLatch m = if s.bit (R.MON_CTL m) 1 then (s.monCopy m).monZero m else s.monCopy m := rfl

theorem State.monLatch_live (h : monLive m k) : (s.monLatch m).rd k = if s.bit (R.MON_CTL m) 1 then 0 else s.rd k := by
  have hcopy : (s.monCopy m).rd k = s.rd k := s.monCopy_other m fun hl => by
    have := h.bounds
    have := hl.bounds
    omega
  rw [State.monLatch_eq]
  split
  · exact State.monZero_live _ m h
  · exact hcopy

theorem State.monLatch_latched (h : monLatched m k) : (s.monLatch m).rd k = (s.monCopy m).rd k := by
  have hl : ¬ monLive m k := fun hl => by
    have := h.bounds
    have := hl.bounds
    omega
  rw [State.monLatch_eq]
  split
  · exact State.monZero_other _ m hl
  · rfl

theorem State.monLatch_spares : Spares (fun k => R.MON_CTL m < k ∧ k ≤ R.MON_LATCH_M m) s (s.monLatch m) := by
  have hlast : R.MON_SQERR m ≤ R.MON_LATCH_M m := by simp only [R.MON_SQERR, R.MON_LATCH_M]; omega
  have hfirst : R.MON_CTL m ≤ R.MON_SQERR m := by simp only [R.MON_CTL, R.MON_SQERR]; omega
  have hcopy : Spares (fun k => R.MON_CTL m < k ∧ k ≤ R.MON_LATCH_M m) s (s.monCopy m) :=
    s.monCopy_spares m fun _ h => ⟨hfirst.trans_lt h.bounds.1, h.bounds.2⟩
  rw [State.monLatch_eq]
  split
  · exact hcopy.trans (State.monZero_spares _ m fun _ h => ⟨h.bounds.1, h.bounds.2.trans hlast⟩)
  · exact hcopy

end

section
variable {c : Client} {m : Fin 64}

/-- LATCH of an own monitor, at the command's end (R145, R146). -/
theorem State.monLatch_latches (s : State) (m : Fin 64) : (s.monLatch m).settle.rd (R.MON_LN m) = s.rd (R.MON_N m) ∧
    (s.monLatch m).settle.rd (R.MON_LCLIP_LO m) = s.rd (R.MON_CLIP_LO m) ∧
    (s.monLatch m).settle.rd (R.MON_LCLIP_HI m) = s.rd (R.MON_CLIP_HI m) ∧
    (s.monLatch m).settle.rd (R.MON_LSQERR m) = s.rd (R.MON_SQERR m) ∧
    (s.monLatch m).settle.rd (R.MON_LATCH_M m) = s.rd R.MSR_NOW ∧
    (∀ k, monLive m k → (s.monLatch m).settle.rd k = if s.bit (R.MON_CTL m) 1 then 0 else s.rd k) ∧
    Spares (fun k => R.MON_CTL m < k ∧ k ≤ R.MON_LATCH_M m) s (s.monLatch m).settle := by
  obtain ⟨hn, hlo, hhi, hsq, hm⟩ := s.monCopy_latched m
  have hrd {k : Nat} (h : monLatched m k) : (s.monLatch m).settle.rd k = (s.monCopy m).rd k := by
    rw [State.settle_mon _ m (Nat.le_trans (by simp only [R.MON_CTL, R.MON_SQERR]; omega) h.bounds.1.le) h.bounds.2, s.monLatch_latched m h]
  refine ⟨(hrd (.inl rfl)).trans hn, (hrd (.inr (.inl rfl))).trans hlo, (hrd (.inr (.inr (.inl rfl)))).trans hhi,
    (hrd (.inr (.inr (.inr (.inl rfl))))).trans hsq, (hrd (.inr (.inr (.inr (.inr rfl))))).trans hm, fun k h => ?_,
    (s.monLatch_spares m).settle⟩
  rw [State.settle_mon _ m h.bounds.1.le (Nat.le_trans h.bounds.2 (by simp only [R.MON_LATCH_M, R.MON_SQERR]; omega)), s.monLatch_live m h]

/-- CLEAR of an own monitor, at the command's end (R145). -/
theorem State.monClear_clears (s : State) (m : Fin 64) : (∀ k, monLive m k → (s.monClear m).settle.rd k = 0) ∧
    (s.monClear m).settle.bit (R.MON_CTL m) 16 = false ∧
    Spares (fun k => R.MON_CTL m ≤ k ∧ k ≤ R.MON_SQERR m) s (s.monClear m).settle := by
  have hlast : R.MON_SQERR m ≤ R.MON_LATCH_M m := by simp only [R.MON_SQERR, R.MON_LATCH_M]; omega
  have hfirst : R.MON_CTL m ≤ R.MON_SQERR m := by simp only [R.MON_CTL, R.MON_SQERR]; omega
  refine ⟨fun k h => ?_, ?_, ?_⟩
  · rw [State.settle_mon _ m h.bounds.1.le (h.bounds.2.trans hlast), State.monClear, State.rd_setBit_ne _ _ _ h.bounds.1.ne,
      s.monZero_live m h]
  · rw [State.bit_congr (State.settle_mon _ m (Nat.le_refl _) (hfirst.trans hlast)), State.monClear,
      State.bit_setBit _ _ _ _ _ _ (by decide), if_pos ⟨rfl, rfl⟩]
  · exact ((s.monZero_spares m fun _ h => ⟨h.bounds.1.le, h.bounds.2⟩).trans (State.setBit_spares _ _ _ ⟨Nat.le_refl _, hfirst⟩)).settle

/-- A command that does to a monitor what its own client may is refused to another (R145). -/
theorem runs_otherMonitor {i : Instr} {s : State} (f : State → State) (h0 : c ≠ 0) (hc : s.fld (R.MON_CTL m) 11 8 ≠ c.val)
    (he : ∃ u, HeldOnly s u ∧ exec i s = settled (u.asMonClient c m f)) :
    Runs i s fun t => t.rd (R.PG_ERR pageHif) % 65536 = 0x1002 ∧ t.rd R.HIF_ACC_LAST = R.QNT_MON_CMD + c.val * 2 ^ 24 ∧
      Kept s t fun k => k = R.HIF_ACC_LAST := by
  obtain ⟨u, hu, e⟩ := he
  have hne : u.fld (R.MON_CTL m) 11 8 ≠ c.val := by rwa [State.fld_congr (hu.rd _)]
  rw [State.asMonClient_other f (fun h => h0 (Fin.ext h)) hne] at e
  obtain ⟨hlast, herr, hkept⟩ := State.accessEvent_told (s := s) (code := 0x1002) (fun k _ => hu.rd k) c.isLt
    (show R.QNT_MON_CMD < 2 ^ 24 by decide) (by decide) fun _ hk => State.settle_rd _ hk
  exact ⟨_, e, herr, hlast, hkept⟩

/-- An own monitor's command has its effect. -/
theorem runs_ownMonitor {i : Instr} {s : State} {f : State → State} {P : State → Prop} (hc : c = 0 ∨ s.fld (R.MON_CTL m) 11 8 = c.val)
    (he : ∃ u, HeldOnly s u ∧ exec i s = settled (u.asMonClient c m f)) (h : ∀ w, P (f { s with wrHold := w }).settle) : Runs i s P :=
  runs_of_effect he fun w => by
    rw [State.asMonClient_own (s := { s with wrHold := w }) f (hc.imp_left fun h => congrArg Fin.val h)]
    exact h w

end

end Sys2Proof.Machine

namespace Sys2Proof

open Machine Safety

/-- Settles O28: each command comes to the write of one slot's or one monitor's registers, or to a refusal with its event. -/
theorem gridsAndMonitorsObeyTheirCommands : Obligations.GridsAndMonitorsObeyTheirCommands := by
  refine fun s => ⟨fun ho g => ⟨fun h hl => ?_, gcmdLoad_notIncreasing ho, fun h => ?_, fun h => ?_⟩,
    fun c m ho => ⟨fun hc => ⟨?_, ?_⟩, fun h0 hc => ⟨?_, ?_⟩⟩⟩
  · refine runs_of_effect (exec_gcmdLoad ho g) fun w => ?_
    obtain ⟨hvalid, hlevels, hresult, hcount, hframe⟩ := State.gridLoad_fills (s := { s with wrHold := w }) h hl
    obtain ⟨⟨hkept, hmem⟩, hwork⟩ := hframe.mono (q := fun k => k = R.QNT_GSTAT g ∨ k = R.QNT_GRESULT ∨ k = R.SEC_STAT ∨
      ∃ i, i < 4 ∧ k = R.QNT_GRID g i) fun k hk => by unfold slotReg at hk; tauto
    exact ⟨hvalid, hlevels, hresult, hcount, hmem, hwork, hkept⟩
  · refine runs_of_effect (exec_gcmdClear ho g) fun w => ?_
    obtain ⟨hvalid, hlevels, hresult, ⟨hkept, hmem⟩, hwork⟩ := State.gridClear_empties (s := { s with wrHold := w }) h
    exact ⟨hvalid, hlevels, hresult, hkept, hmem, hwork⟩
  · exact ⟨gcmdLoad_referenced ho h, gcmdClear_referenced ho h⟩
  · refine runs_ownMonitor hc (exec_monLatch ho m) fun w => ?_
    obtain ⟨hn, hlo, hhi, hsq, hm, hlive, ⟨hkept, hmem⟩, hwork⟩ := State.monLatch_latches { s with wrHold := w } m
    exact ⟨hn, hlo, hhi, hsq, hm, hlive, hkept, hmem, hwork⟩
  · refine runs_ownMonitor hc (exec_monClear ho m) fun w => ?_
    obtain ⟨hlive, hsat, ⟨hkept, hmem⟩, hwork⟩ := State.monClear_clears { s with wrHold := w } m
    exact ⟨hlive _ (.inl rfl), hlive _ (.inr (.inl rfl)), hlive _ (.inr (.inr (.inl rfl))), hlive _ (.inr (.inr (.inr rfl))), hsat,
      hkept, hmem, hwork⟩
  · exact runs_otherMonitor _ h0 hc (exec_monLatch ho m)
  · exact runs_otherMonitor _ h0 hc (exec_monClear ho m)

end Sys2Proof
end

section
/-! Rank order (R150, R151): it orders keys and then indices, sorting puts entries into it, and what stands first ranks first. -/

namespace Sys2Proof.Machine

section
variable {dir : Bool} {kt : Nat}

/-- Where rank order places a key: the lower, the earlier (R150). -/
def rankPlace (dir : Bool) (kt : Nat) (e : ColEntry) : Int := if dir then keyOrd kt e.key else -keyOrd kt e.key

theorem ranksBefore_iff (a b : ColEntry) : ranksBefore dir kt a b = true ↔
    rankPlace dir kt a < rankPlace dir kt b ∨ rankPlace dir kt a = rankPlace dir kt b ∧ a.index < b.index := by
  unfold ranksBefore keyBetter keyEq rankPlace
  cases dir with
  | false => simp
  | true => simp

/-- In a list in rank order a may stand before b. -/
def MayPrecede (dir : Bool) (kt : Nat) (a b : ColEntry) : Prop := ranksBefore dir kt b a = false

theorem mayPrecede_iff {a b : ColEntry} : MayPrecede dir kt a b ↔
    rankPlace dir kt a < rankPlace dir kt b ∨ rankPlace dir kt a = rankPlace dir kt b ∧ a.index ≤ b.index := by
  unfold MayPrecede
  rw [Bool.eq_false_iff, ne_eq, ranksBefore_iff]
  omega

theorem MayPrecede.refl (a : ColEntry) : MayPrecede dir kt a a := mayPrecede_iff.mpr (.inr ⟨rfl, Nat.le_refl _⟩)

theorem MayPrecede.trans {a b c : ColEntry} (h : MayPrecede dir kt a b) (h' : MayPrecede dir kt b c) : MayPrecede dir kt a c := by
  rw [mayPrecede_iff] at *
  omega

theorem mayPrecede_total (a b : ColEntry) : MayPrecede dir kt a b ∨ MayPrecede dir kt b a := by
  simp only [mayPrecede_iff]
  omega

theorem inRank_iff (l : List ColEntry) : inRank dir kt l = true ↔ l.Pairwise (MayPrecede dir kt) := by
  have htr : IsTrans ColEntry (MayPrecede dir kt) := ⟨fun _ _ _ => MayPrecede.trans⟩
  rw [← List.isChain_iff_pairwise]
  induction l with
  | nil => simp [inRank]
  | cons a l ih =>
    cases l with
    | nil => simp [inRank]
    | cons b l => simp [inRank, ih, MayPrecede]

/-- Sorting into rank order is the library's insertion sort. -/
theorem rankSort_eq (l : List ColEntry) [DecidableRel (MayPrecede dir kt)] :
    rankSort dir kt l = l.insertionSort (MayPrecede dir kt) := by
  have hins (e : ColEntry) (m : List ColEntry) : rankInsert dir kt e m = m.orderedInsert (MayPrecede dir kt) e := by
    induction m with
    | nil => rfl
    | cons a m ih =>
      rw [rankInsert, List.orderedInsert_cons, ih]
      cases h : ranksBefore dir kt a e with
      | false => rw [if_neg (by decide), if_pos (show MayPrecede dir kt e a from h)]
      | true => rw [if_pos rfl, if_neg (by simp [MayPrecede, h])]
  unfold rankSort List.insertionSort
  congr 1
  funext e m
  exact hins e m

theorem rankSort_perm (l : List ColEntry) : (rankSort dir kt l).Perm l := by
  classical
  rw [rankSort_eq]
  exact l.perm_insertionSort _

theorem rankSort_pairwise (l : List ColEntry) : (rankSort dir kt l).Pairwise (MayPrecede dir kt) := by
  classical
  have htr : IsTrans ColEntry (MayPrecede dir kt) := ⟨fun _ _ _ => MayPrecede.trans⟩
  have hto : Std.Total (MayPrecede dir kt) := ⟨mayPrecede_total⟩
  rw [rankSort_eq]
  exact l.pairwise_insertionSort _

/-- No entry left out of the first k ranks before one of them. -/
theorem not_ranksBefore_take {l : List ColEntry} {k : Nat} {e y : ColEntry} (h : l.Pairwise (MayPrecede dir kt)) (he : e ∈ l.take k)
    (hy : y ∈ l) (hn : y ∉ l.take k) : ranksBefore dir kt y e = false := by
  rw [← List.take_append_drop k l] at h hy
  exact (List.pairwise_append.mp h).2.2 e he y ((List.mem_append.mp hy).resolve_left hn)

end

end Sys2Proof.Machine
end

section
/-! The lists that TOPK, SORT and MERGE give: in rank order, complete, and for MERGE with each index once (R156 to R158). -/

namespace Sys2Proof.Machine

/-- TOPK's list: the K elements that rank first (R156). -/
theorem runTopk_list (d : Desc) (es : List ColEntry) : let kt := ktypeOf d.etype.val
    let o := runTopk d es
    inRank d.dir kt o.entries = true ∧ o.entries.length = min d.k ((es.filter fun e => !keyNaN kt e.key).length) ∧
    ∀ e ∈ o.entries, e ∈ es ∧ keyNaN kt e.key = false ∧
      ∀ y ∈ es, keyNaN kt y.key = false → y ∉ o.entries → ranksBefore d.dir kt y e = false := by
  intro kt o
  have hs : (rankSort d.dir kt (es.filter fun e => !keyNaN kt e.key)).Pairwise (MayPrecede d.dir kt) := rankSort_pairwise _
  have hp : (rankSort d.dir kt (es.filter fun e => !keyNaN kt e.key)).Perm (es.filter fun e => !keyNaN kt e.key) := rankSort_perm _
  have hm (e : ColEntry) : e ∈ rankSort d.dir kt (es.filter fun e => !keyNaN kt e.key) ↔ e ∈ es ∧ keyNaN kt e.key = false := by
    rw [hp.mem_iff, List.mem_filter, Bool.not_eq_true']
  refine ⟨(inRank_iff _).mpr (hs.sublist (List.take_sublist _ _)), (List.length_take ..).trans (by rw [hp.length_eq]), fun e he => ?_⟩
  obtain ⟨hes, hnan⟩ := (hm e).mp (List.mem_of_mem_take he)
  exact ⟨hes, hnan, fun y hy hn hout => not_ranksBefore_take hs he ((hm y).mpr ⟨hy, hn⟩) hout⟩

/-- SORT's list: every element that is no NaN (R157). -/
theorem runSort_list (d : Desc) (es : List ColEntry) : let kt := ktypeOf d.etype.val
    inRank d.dir kt (runSort d es).entries = true ∧ (runSort d es).entries.Perm (es.filter fun e => !keyNaN kt e.key) ∧
    (runSort d es).pad = 0 ∧ (runSort d es).valid = (es.filter fun e => !keyNaN kt e.key).length :=
  ⟨(inRank_iff _).mpr (rankSort_pairwise _), rankSort_perm _, rfl, (rankSort_perm _).length_eq⟩

/-! Duplicates (R158). -/

section
variable {kept es : List ColEntry}

theorem dropDuplicates_cons (e : ColEntry) : (dropDuplicates kept (e :: es)).1 =
    if kept.any fun x => x.index = e.index then (dropDuplicates kept es).1 else (dropDuplicates (e :: kept) es).1 := by
  rw [dropDuplicates]
  split
  · rfl
  · rfl

theorem dropDuplicates_sublist (kept es : List ColEntry) : (dropDuplicates kept es).1.Sublist (kept.reverse ++ es) := by
  induction es generalizing kept with
  | nil => simp [dropDuplicates]
  | cons e es ih =>
    rw [dropDuplicates_cons]
    split
    · exact (ih kept).trans ((List.sublist_cons_self e es).append_left _)
    · simpa using ih (e :: kept)

theorem subset_dropDuplicates (kept es : List ColEntry) : kept ⊆ (dropDuplicates kept es).1 := by
  induction es generalizing kept with
  | nil => simp [dropDuplicates]
  | cons e es ih =>
    rw [dropDuplicates_cons]
    split
    · exact ih kept
    · exact fun x hx => ih (e :: kept) (List.mem_cons_of_mem e hx)

theorem dropDuplicates_nodup (h : (kept.map ColEntry.index).Nodup) : ((dropDuplicates kept es).1.map ColEntry.index).Nodup := by
  induction es generalizing kept with
  | nil => simpa [dropDuplicates] using h
  | cons e es ih =>
    rw [dropDuplicates_cons]
    split
    · exact ih h
    · next hn =>
      refine ih (List.nodup_cons.mpr ⟨fun hm => hn ?_, h⟩)
      simpa using List.mem_map.mp hm

/-- Of the entries with an index the one kept ranks first. -/
theorem dropDuplicates_first {dir : Bool} {kt : Nat} {y : ColEntry} (h : es.Pairwise (MayPrecede dir kt))
    (hk : ∀ x ∈ kept, ∀ e ∈ es, MayPrecede dir kt x e) (hy : y ∈ es) :
    ∃ z ∈ (dropDuplicates kept es).1, z.index = y.index ∧ MayPrecede dir kt z y := by
  induction es generalizing kept with
  | nil => exact absurd hy List.not_mem_nil
  | cons e es ih =>
    obtain ⟨he, h⟩ := List.pairwise_cons.mp h
    have hk' : ∀ x ∈ kept, ∀ a ∈ es, MayPrecede dir kt x a := fun x hx a ha => hk x hx a (List.mem_cons_of_mem _ ha)
    rw [dropDuplicates_cons]
    split
    · next hd =>
      rcases List.mem_cons.mp hy with rfl | hy
      · obtain ⟨x, hx, hi⟩ := List.any_eq_true.mp hd
        exact ⟨x, subset_dropDuplicates kept es hx, of_decide_eq_true hi, hk x hx y List.mem_cons_self⟩
      · exact ih h hk' hy
    · rcases List.mem_cons.mp hy with rfl | hy
      · exact ⟨y, subset_dropDuplicates _ es List.mem_cons_self, rfl, .refl y⟩
      · exact ih h (List.forall_mem_cons.mpr ⟨he, hk'⟩) hy

end

/-- The entries that a MERGE ranks: those that name an element and are no NaN (R158). -/
def mergeable (kt : Nat) (ls : List ListView) : List ColEntry :=
  ((ls.flatMap ListView.entries).filter fun e => e.index ≠ sentinel).filter fun e => !keyNaN kt e.key

theorem mem_mergeable {kt : Nat} {ls : List ListView} {e : ColEntry} :
    e ∈ mergeable kt ls ↔ (∃ l ∈ ls, e ∈ l.entries) ∧ e.index ≠ sentinel ∧ keyNaN kt e.key = false := by
  rw [mergeable, List.mem_filter, List.mem_filter, List.mem_flatMap, and_assoc]
  simp

theorem runMerge_entries (d : Desc) (ls : List ListView) : (runMerge d ls).entries =
    (dropDuplicates [] (rankSort d.dir (ktypeOf d.etype.val) (mergeable (ktypeOf d.etype.val) ls))).1.take d.k := rfl

/-- MERGE's list: of each index the entry that ranks first, and of these the first K (R158). -/
theorem runMerge_list (d : Desc) (ls : List ListView) : let kt := ktypeOf d.etype.val
    let o := runMerge d ls
    inRank d.dir kt o.entries = true ∧ o.entries.length ≤ d.k ∧ (o.entries.map ColEntry.index).Nodup ∧
    ∀ e ∈ o.entries, (∃ l ∈ ls, e ∈ l.entries) ∧ ∀ l ∈ ls, ∀ y ∈ l.entries, y.index ≠ sentinel → keyNaN kt y.key = false →
      y.index ∉ o.entries.map ColEntry.index → ranksBefore d.dir kt y e = false := by
  intro kt o
  have ho : o.entries = (dropDuplicates [] (rankSort d.dir kt (mergeable kt ls))).1.take d.k := runMerge_entries d ls
  have hr : (rankSort d.dir kt (mergeable kt ls)).Pairwise (MayPrecede d.dir kt) := rankSort_pairwise _
  have hm (e : ColEntry) : e ∈ rankSort d.dir kt (mergeable kt ls) ↔ e ∈ mergeable kt ls := (rankSort_perm _).mem_iff
  have hsub := dropDuplicates_sublist [] (rankSort d.dir kt (mergeable kt ls))
  have hnd := dropDuplicates_nodup (kept := []) (es := rankSort d.dir kt (mergeable kt ls)) List.nodup_nil
  have hfirst {y : ColEntry} := dropDuplicates_first (kept := []) (y := y) hr (fun _ h => absurd h List.not_mem_nil)
  rw [ho]
  generalize (dropDuplicates [] (rankSort d.dir kt (mergeable kt ls))).1 = uniq at hsub hnd hfirst
  have hs : uniq.Pairwise (MayPrecede d.dir kt) := hr.sublist hsub
  refine ⟨(inRank_iff _).mpr (hs.sublist (List.take_sublist _ _)), List.length_take_le _ _,
    hnd.sublist ((List.take_sublist _ _).map _), fun e he => ⟨?_, fun l hl y hy hsent hnan hout => ?_⟩⟩
  · exact (mem_mergeable.mp ((hm e).mp (hsub.subset (List.mem_of_mem_take he)))).1
  · obtain ⟨z, hz, hi, hzy⟩ := hfirst ((hm y).mpr (mem_mergeable.mpr ⟨⟨l, hl, hy⟩, hsent, hnan⟩))
    have hze : MayPrecede d.dir kt e z := not_ranksBefore_take hs he hz fun h => hout (hi ▸ List.mem_map_of_mem h)
    exact hze.trans hzy

end Sys2Proof.Machine
end

section
/-! What leaves a register, the memories, and the steps that wait for no place in a Collator's queue (R164): the operations that follow
a Collator's work, each said once. -/

namespace Sys2Proof.Machine

open Safety

/-- No step waits for a place in a queue (R164). -/
def Calm (s : State) : Prop := ∀ e ∈ s.sched.runs, e.2.waitRow = none

theorem mem_of_kvFind {α : Type} {m : KV α} {k : Nat} {v : α} (h : kvFind m k = some v) : (k, v) ∈ m := by
  induction m with
  | nil => cases h
  | cons e m ih =>
    obtain ⟨a, w⟩ := e
    rw [kvFind] at h
    split at h
    · next e =>
      cases h
      exact e ▸ List.mem_cons_self
    · exact List.mem_cons_of_mem _ (ih h)

theorem Calm.run {s : State} {rn : Nat} {x : Run} (h : Calm s) (hx : s.run rn = some x) : x.waitRow = none := h _ (mem_of_kvFind hx)

/-- Where no step waits, none goes on when a place becomes free. -/
theorem Calm.resume {s : State} (h : Calm s) : s.resume = s := by
  have he : (s.sched.runs.filterMap fun e => e.2.waitRow.map fun w => (w.2, w.1, e.1)) = [] :=
    List.filterMap_eq_nil_iff.mpr fun e hm => by rw [h e hm]; rfl
  unfold State.resume
  rw [he]
  rfl

theorem State.run_setRun_same (s : State) (rn : Nat) (x : Run) : (s.setRun rn x).run rn = some x :=
  (kvFind_kvPut _ _ _ _).trans (if_pos rfl)

/-- Register r and the memories stay, and no step comes to wait. -/
structure Rests (r : Nat) (s t : State) : Prop where
  rd : t.rd r = s.rd r
  mem : SameMem s t
  calm : Calm s → Calm t

section
variable {r : Nat} {s t u : State}

theorem Rests.refl (r : Nat) (s : State) : Rests r s s := ⟨rfl, .refl s, id⟩

theorem Rests.trans (h : Rests r s t) (h' : Rests r t u) : Rests r s u := ⟨h'.rd.trans h.rd, h.mem.trans h'.mem, h'.calm ∘ h.calm⟩

theorem Rests.foldl {β : Type} (f : State → β → State) (hf : ∀ t b, Rests r t (f t b)) (l : List β) (s : State) :
    Rests r s (l.foldl f s) := by
  induction l generalizing s with
  | nil => exact .refl r s
  | cons b l ih => exact (hf s b).trans (ih _)

theorem calm_of_runs (e : t.sched.runs = s.sched.runs) : Calm s → Calm t := fun h => by
  rw [Calm, e]
  exact h

section
variable (h : Rests r s t)
include h

theorem Rests.same (hr : u.regs = t.regs) (hm : SameMem t u) (hs : u.sched.runs = t.sched.runs) : Rests r s u :=
  h.trans ⟨State.rd_congr hr r, hm, calm_of_runs hs⟩

theorem Rests.touches {S : Nat → Prop} (ht : Touches S t u) (hS : ¬ S r) : Rests r s u := h.trans ⟨ht.rd r hS, ht.mem, calm_of_runs ht.runs⟩

theorem Rests.wr {k : Nat} (v : Nat) (hk : k ≠ r) : Rests r s (t.wr k v) := h.trans ⟨t.rd_wr_ne v hk, t.wr_sameMem k v, id⟩

theorem Rests.setBit {k : Nat} (i : Nat) (b : Bool) (hk : k ≠ r) : Rests r s (t.setBit k i b) := h.wr _ hk

theorem Rests.setFld {k : Nat} (hi lo v : Nat) (hk : k ≠ r) : Rests r s (t.setFld k hi lo v) := h.wr _ hk

theorem Rests.count {k : Nat} (n : Nat) (hk : k ≠ r) : Rests r s (t.count k n) := h.wr _ hk

theorem Rests.countSat {k : Nat} (n : Nat) (hk : k ≠ r) : Rests r s (t.countSat k n) := h.wr _ hk

/-- A run changed that waits as it did. -/
theorem Rests.setRun {rn : Nat} {x y : Run} (hx : t.run rn = some x) (hy : y.waitRow = x.waitRow) : Rests r s (t.setRun rn y) := by
  refine h.trans ⟨rfl, ⟨rfl, rfl, rfl, rfl⟩, fun hc e he => ?_⟩
  rcases mem_kvPut he with rfl | he
  · exact hy.trans (hc.run hx)
  · exact hc e he

theorem Rests.runCharge (rn i n : Nat) : Rests r s (t.runCharge rn i n) := by
  unfold State.runCharge
  split
  · next x hx => exact h.setRun hx rfl
  · exact h

theorem Rests.setRow (row : Nat) (x : RowUnit) : Rests r s (t.setRow row x) := h.same rfl ⟨rfl, rfl, rfl, rfl⟩ rfl

theorem Rests.setCtrl (c : Nat) (x : Ctrl) : Rests r s (t.setCtrl c x) := h.same rfl ⟨rfl, rfl, rfl, rfl⟩ rfl

theorem Rests.setJournal (n : Nat) (j : Journal) : Rests r s (t.setJournal n j) := h.same rfl ⟨rfl, rfl, rfl, rfl⟩ rfl

end

end

/-- A Collator's COL_FAULT and PG_ERR, in which it tells of a fault (R161, R168), stand among these. -/
structure FaultReg (r : Nat) : Prop where
  low : 0x900000 ≤ r
  high : r < 0x980000
  place : r % 16 = 4

theorem faultReg_told (col : ColNo) : FaultReg (R.COL_FAULT col) ∧ FaultReg (R.PG_ERR (pageCol col)) := by
  have := col.isLt
  simp only [R.COL_FAULT, R.PG_ERR, pageCol]
  exact ⟨⟨by omega, by omega, by omega⟩, ⟨by omega, by omega, by omega⟩⟩

section
variable {r : Nat} {s t u : State} (hr : FaultReg r)
include hr

theorem FaultReg.ne_of_place {k : Nat} (h : k % 16 ≠ 4) : k ≠ r := fun e => h (e ▸ hr.place)

theorem FaultReg.ne_of_low {k : Nat} (h : k < 0x900000) : k ≠ r := Nat.ne_of_lt (Nat.lt_of_lt_of_le h hr.low)

theorem FaultReg.not_irqReg : ¬ irqReg r := by
  obtain ⟨h1, h2, h3⟩ := hr
  exact not_irqReg_of_page (by omega) (by omega)

theorem FaultReg.not_eventReg {p : Nat} (hp : p < 0x90) : ¬ eventReg p r := by
  have hi := hr.not_irqReg
  obtain ⟨h1, h2, h3⟩ := hr
  rintro ((e | e) | e | e | e)
  · exact hi e
  · omega
  · simp only [R.PG_ERR] at e
    omega
  · simp only [R.PG_STAT] at e
    omega
  · simp only [R.SYS_ATTN] at e
    omega

section
variable (h : Rests r s t)
include h

theorem Rests.settle : Rests r s t.settle := h.touches t.settle_touches hr.not_irqReg

theorem Rests.setIrq (p b c : Nat) : Rests r s (t.setIrq p b c) := h.touches (t.setIrq_touches p b c) hr.not_irqReg

theorem Rests.raise {p : Nat} (hp : p < 0x90) (code : Nat) (client : Option Nat) (addr aux : Nat) :
    Rests r s (t.raise p code client addr aux) := h.touches (t.raise_touches p code client addr aux) (hr.not_eventReg hp)

theorem Rests.setIdle (p : Nat) (idle : Bool) : Rests r s (t.setIdle p idle) := by
  have hk : R.PG_STAT p ≠ r := hr.ne_of_place (by simp only [R.PG_STAT]; omega)
  unfold State.setIdle
  split
  · exact h
  · extract_lets s1
    have h1 : Rests r s s1 := h.setBit 0 idle hk
    split
    · exact Rests.setIrq hr h1 p 2 0
    · exact h1

end

end

end Sys2Proof.Machine
end

section
/-! A teardown (R229) leaves what a Collator has told of a fault, the memories, and the steps that wait for no place: the end of a step
on its rows, of the run, and the completions of its commands. -/

namespace Sys2Proof.Machine

open Safety

section
variable {r : Nat} (hr : FaultReg r) (s : State)
include hr

/-! The end of a step on its rows (R127, R227, R235). -/

theorem State.waitOver_rests (x : Run) : Rests r s (s.waitOver x) := by
  unfold State.waitOver
  split
  · exact (Rests.refl r s).count _ (hr.ne_of_place (by simp only [R.ROW_CYC_STARVE]; omega))
  · exact .refl r s

theorem State.endRow_rests (cyc row : Nat) : Rests r s (s.endRow cyc row) := by
  have h1 : R.ROW_STAT row ≠ r := hr.ne_of_place (by simp only [R.ROW_STAT]; omega)
  have h2 : R.ROW_CTX row ≠ r := hr.ne_of_place (by simp only [R.ROW_CTX]; omega)
  have h3 : R.ROW_CYC_BUSY row ≠ r := hr.ne_of_place (by simp only [R.ROW_CYC_BUSY]; omega)
  unfold State.endRow
  exact Rests.setIdle hr (((((Rests.refl r s).setBit 3 false h1).setBit 31 false h2).count cyc h3).setRow row _) _ _

theorem State.repairBy_rests (c old new : Nat) : Rests r s (s.repairBy c old new) := by
  have hk (row : Nat) : R.ROW_STAT row ≠ r := hr.ne_of_place (by simp only [R.ROW_STAT]; omega)
  unfold State.repairBy
  extract_lets x s1
  have h1 : Rests r s s1 := (Rests.refl r s).same rfl ⟨rfl, rfl, rfl, rfl⟩ rfl
  have hw (u : State) : Rests r u (u.wake new) := by
    unfold State.wake
    extract_lets v
    split_ifs
    · exact .refl r u
    · exact (Rests.refl r u).setRow _ _
    · exact (Rests.refl r u).setRow _ _
    · exact .refl r u
  exact Rests.setIrq hr (((h1.setBit 2 false (hk old)).setBit 2 true (hk new)).trans (hw _)) _ _ _

theorem State.repairAtEnd_rests (rows : List Nat) : Rests r s (s.repairAtEnd rows) :=
  Rests.foldl _ (fun t _ => by
    split
    · exact t.repairBy_rests hr _ _ _
    · exact .refl r t) _ s

theorem State.endStep_rests (rn : Nat) (x : Run) : Rests r s (s.endStep rn x) := by
  have hk : R.ACC_ENG_ROW x.client ≠ r := hr.ne_of_place (by simp only [R.ACC_ENG_ROW]; omega)
  rw [State.endStep_eq]
  have h1 : Rests r s ((s.waitOver x).endRows (Machine.cyclesFrom x.admitAt s.etime) x.rows) :=
    (s.waitOver_rests hr x).trans (Rests.foldl _ (fun t row => t.endRow_rests hr _ row) _ _)
  exact ((h1.count _ hk).runCharge _ _ _).trans (State.repairAtEnd_rests hr _ _)

/-! Records of the journal (R261 to R263). -/

theorem State.jPut_rests (n : Nat) (j : JRecord) : Rests r s (s.jPut n j) := by
  have h1 : R.DJ_SEQ n ≠ r := hr.ne_of_place (by simp only [R.DJ_SEQ]; omega)
  have h2 : R.DET_J_FILL ≠ r := hr.ne_of_place (by decide)
  unfold State.jPut State.jShow
  exact (((Rests.refl r s).setJournal n _).wr _ h1).wr _ h2

theorem State.jGapDue_rests (n : Nat) : Rests r s (s.jGapDue n) := by
  have h1 : R.DJ_GAP n ≠ r := hr.ne_of_place (by simp only [R.DJ_GAP]; omega)
  unfold State.jGapDue
  extract_lets j s1
  split
  · exact .refl r s
  · exact Rests.raise hr (Rests.setIrq hr ((((Rests.refl r s).setJournal n _).trans (State.jPut_rests hr _ n _)).countSat _ h1) _ _ _)
      (by decide) _ _ _ _

theorem State.jAppend_rests (n : Nat) (j : JRecord) (must : Bool) : Rests r s (s.jAppend n j must).2 := by
  unfold State.jAppend
  extract_lets s1 jn
  have h1 : Rests r s s1 := s.jGapDue_rests hr n
  split
  · exact h1.trans (s1.jPut_rests hr n j)
  · exact h1.setJournal n _

theorem State.jRun_rests (rn ctx type : Nat) (payload : List Byte) (poison : Bool) : Rests r s (s.jRun rn ctx type payload poison) := by
  unfold State.jRun
  split
  · exact .refl r s
  · split
    · exact .refl r s
    · split
      next kept s1 h =>
        have h1 : Rests r s s1 := by
          have e : _ = s1 := congrArg Prod.snd h
          rw [← e]
          exact s.jAppend_rests hr _ _ _
        split
        · exact h1
        · split
          · next y hy => exact h1.setRun hy rfl
          · exact h1

theorem State.jTorn_rests (rn : Nat) (x : Run) : Rests r s (s.jTorn rn x) :=
  Rests.foldl _ (fun t _ => t.jRun_rests hr rn _ _ _ _) _ s

/-! The end of the run (R229). -/

theorem State.dropOfRun_rests (rn : Nat) : Rests r s (s.dropOfRun rn) := by
  have hk : R.TIER_STAT ≠ r := hr.ne_of_place (by decide)
  unfold State.dropOfRun State.dropTransfers State.tierShow
  refine Rests.setIdle hr (((Rests.setBit ?_ 0 _ hk).setBit 1 _ hk).setFld 5 2 _ hk |>.setFld 8 6 _ hk) _ _
  exact (Rests.refl r s).same rfl ⟨rfl, rfl, rfl, rfl⟩ rfl

theorem State.setCol_rests (n : Nat) (u : ColUnit) : Rests r s (s.setCol n u) := by
  unfold State.setCol
  refine Rests.setIdle hr (Rests.wr ?_ _ (hr.ne_of_place (by simp only [R.COL_STAT]; omega))) _ _
  exact (Rests.refl r s).same rfl ⟨rfl, rfl, rfl, rfl⟩ rfl

theorem State.colDrop_rests (rn : Nat) : Rests r s (s.colDrop rn) :=
  Rests.foldl _ (fun t _ => by
    split
    · exact t.setCol_rests hr _ _
    · exact .refl r t) _ s

theorem State.dropJobsOf_rests (rn : Nat) (e : Nat × ChanUnit) : Rests r s (s.dropJobsOf rn e) := by
  unfold State.dropJobsOf
  split
  · unfold State.setChan
    refine Rests.setIdle hr (Rests.setFld ?_ _ _ _ (hr.ne_of_place (by simp only [R.CHN_STAT]; omega))) _ _
    exact (Rests.refl r s).same rfl ⟨rfl, rfl, rfl, rfl⟩ rfl
  · exact .refl r s

theorem State.dropJobs_rests (rn : Nat) : Rests r s (s.dropJobs rn) := by
  rw [State.dropJobs_eq]
  have h : Rests r s (s.dropAllJobs rn) := Rests.foldl _ (fun t e => t.dropJobsOf_rests hr rn e) _ s
  exact h.same rfl ⟨rfl, rfl, rfl, rfl⟩ rfl

omit hr in
theorem State.windowBack_rests (x : Run) : Rests r s (s.windowBack x) := by
  unfold State.windowBack
  split
  · exact (Rests.refl r s).same rfl ⟨rfl, rfl, rfl, rfl⟩ rfl
  · exact .refl r s

theorem State.giveUp_rests (rn : Nat) (x : Run) : Rests r s (s.giveUp rn x) :=
  (((s.dropOfRun_rests hr rn).trans (State.colDrop_rests hr _ rn)).trans (State.dropJobs_rests hr _ rn)).trans (State.windowBack_rests _ x)

omit hr in
theorem State.setCtx_rests (x : Nat) (e : Ctx) : Rests r s (s.setCtx x e) := (Rests.refl r s).same rfl ⟨rfl, rfl, rfl, rfl⟩ rfl

omit hr in
theorem State.leaveRun_rests (x : Nat) : Rests r s (s.leaveRun x) := by
  unfold State.leaveRun
  split
  · exact .refl r s
  · exact s.setCtx_rests _ _

theorem State.showWork_rests : Rests r s s.showWork :=
  Rests.foldl _ (fun t p => Rests.setIdle hr (.refl r t) p _) _ s

theorem State.runOver_rests (rn : Nat) : Rests r s (s.runOver rn) := by
  unfold State.runOver
  split
  · exact .refl r s
  · next x _ =>
    extract_lets s1 s2
    have h2 : Rests r s s2 := (s.giveUp_rests hr rn x).trans (Rests.foldl _ (fun t m => t.leaveRun_rests _) _ _)
    clear_value s2
    split
    · next y hy =>
      refine Rests.trans ?_ (State.showWork_rests hr _)
      exact h2.setRun hy rfl
    · exact h2

omit hr in
theorem State.faultCtx_rests (x : Run) (event : Nat) (m : RunCmd) : Rests r s (s.faultCtx x event m) := by
  unfold State.faultCtx
  extract_lets e
  split_ifs
  · exact .refl r s
  · exact s.setCtx_rests _ _
  · exact s.setCtx_rests _ _

/-! Completions (R226, R412, R413, R430). -/

theorem State.latSeen_rests (c : Nat) (a : Option Nat) : Rests r s (s.latSeen c a) := by
  have hk : R.SCH_C_LAT_MAX c ≠ r := hr.ne_of_place (by simp only [R.SCH_C_LAT_MAX]; omega)
  cases a with
  | none => exact .refl r s
  | some a => exact (Rests.refl r s).wr _ hk

theorem State.placeCqe_rests (c cq : Nat) (q : CplQ) (e : Cqe) : Rests r s (s.placeCqe c cq q e) := by
  unfold State.placeCqe
  extract_lets x head tail q' s1 s2
  have h1 : Rests r s s1 := (Rests.refl r s).same rfl ⟨rfl, rfl, rfl, rfl⟩ rfl
  have h2 : Rests r s s2 := (h1.trans (s1.latSeen_rests hr c e.arrival)).setCtrl c _
  clear_value s2
  split
  · unfold State.sendMsix
    split
    · exact h2.same rfl ⟨rfl, rfl, rfl, rfl⟩ rfl
    · exact h2.same rfl ⟨rfl, rfl, rfl, rfl⟩ rfl
  · exact h2

/-- A completion is counted (R434). -/
theorem State.cplCount_rests (sct sc : Nat) :
    Rests r s (if sct = 0 && sc = 0 then s.count R.HIF_CMDS 1 else (s.count R.HIF_CMDS 1).count R.HIF_ERR_CPL 1) := by
  have h : Rests r s (s.count R.HIF_CMDS 1) := (Rests.refl r s).count 1 (hr.ne_of_low (by decide))
  split
  · exact h
  · exact h.count 1 (hr.ne_of_low (by decide))

theorem State.post_rests (c cq : Nat) (e : Cqe) : Rests r s (s.post c cq e) := by
  have hk : R.HIF_QHELD c ≠ r := hr.ne_of_place (by simp only [R.HIF_QHELD]; omega)
  unfold State.post
  extract_lets s1 s2
  have h2 : Rests r s s2 := s.cplCount_rests hr e.sct e.sc
  clear_value s2
  split
  · exact h2
  · split
    · extract_lets s3 s4
      have h4 : Rests r s s4 := Rests.setIrq hr ((h2.setCtrl c _).countSat 1 hk) _ _ _
      clear_value s4
      split
      · exact h4
      · exact Rests.raise hr (h4.same (u := { s4 with heldSaid := (c, cq) :: s4.heldSaid }) rfl ⟨rfl, rfl, rfl, rfl⟩ rfl) (by decide) _ _ _ _
    · exact h2.trans (s2.placeCqe_rests hr c cq _ e)

theorem State.finishDelete_rests (c q : Nat) : Rests r s (s.finishDelete c q) := by
  unfold State.finishDelete
  extract_lets x
  split
  · split
    · split
      · exact .refl r s
      · exact ((Rests.refl r s).setCtrl c _).trans (State.post_rests hr _ _ _ _)
    · exact .refl r s
  · exact .refl r s

theorem State.completeMailbox_rests (id sct sc : Nat) (dnr : Bool) (dw0 dw1 : Nat) :
    Rests r s (s.completeMailbox id sct sc dnr dw0 dw1) := by
  have hk (i : Nat) (h : i < 4) : R.HIF_PMB_CQE i ≠ r := hr.ne_of_low (by simp only [R.HIF_PMB_CQE]; omega)
  unfold State.completeMailbox
  extract_lets status s1 s2 s3
  have h1 : Rests r s s1 := ((((Rests.refl r s).wr _ (hk 0 (by decide))).wr _ (hk 1 (by decide))).wr _ (hk 2 (by decide))).wr _ (hk 3 (by decide))
  have h3 : Rests r s s3 := h1.trans (s1.cplCount_rests hr sct sc)
  exact Rests.setIdle hr (Rests.setIrq hr (h3.wr 2 (hr.ne_of_low (by decide))) _ _ _) _ _

theorem State.completeRun_rests (cid : Cid) (sct sc : Nat) (dnr : Bool) (dw0 dw1 : Nat) (a : Option Nat) :
    Rests r s (s.completeRun cid sct sc dnr dw0 dw1 a) := by
  unfold State.completeRun
  extract_lets e x cq x1 x2
  split_ifs
  · exact (s.latSeen_rests hr _ _).trans (State.completeMailbox_rests hr _ _ _ _ _ _ _)
  · exact (((Rests.refl r s).setCtrl _ _).trans (State.post_rests hr _ _ _ _)).trans (State.finishDelete_rests hr _ _ _)
  · exact .refl r s

theorem State.boundBroken_rests (x : Run) (cause : Nat) : Rests r s (s.boundBroken x cause) := by
  have h1 : R.SCH_C_BREAK x.client ≠ r := hr.ne_of_place (by simp only [R.SCH_C_BREAK]; omega)
  have h2 : R.SCH_C_LAST x.client ≠ r := hr.ne_of_place (by simp only [R.SCH_C_LAST]; omega)
  have h3 : R.SCH_C_LAST_CTX x.client ≠ r := hr.ne_of_place (by simp only [R.SCH_C_LAST_CTX]; omega)
  have h4 : R.ACC_LC_BREAK x.client ≠ r := hr.ne_of_place (by simp only [R.ACC_LC_BREAK]; omega)
  unfold State.boundBroken
  exact Rests.raise hr (Rests.setIrq hr (((((Rests.refl r s).countSat 1 h1).wr _ h2).wr _ h3).count 1 h4) _ _ _) (by decide) _ _ _ _

theorem State.postEach_rests (x : Run) (post : State → RunCmd × Nat → Bool → Nat → State) (h : ∀ t e b n, Rests r t (post t e b n)) :
    Rests r s (s.postEach x post) := by
  have key (l : List (RunCmd × Nat)) (a : Bool × State) : Rests r a.2 (l.foldl (fun (a : Bool × State) e =>
      let (broken, b) := a.2.boundNow x e.1
      let t := if broken && !a.1 then a.2.boundBroken x b else a.2
      (a.1 || broken, post t e broken b)) a).2 := by
    induction l generalizing a with
    | nil => exact .refl r a.2
    | cons e l ih =>
      refine Rests.trans ?_ (ih _)
      refine Rests.trans ?_ (h _ _ _ _)
      split
      · exact State.boundBroken_rests hr _ _ _
      · exact .refl r a.2
  exact key _ (false, s)

theorem State.failRun_rests (x : Run) (status event : Nat) : Rests r s (s.failRun x status event) :=
  s.postEach_rests hr x _ fun t _ _ _ => t.completeRun_rests hr _ _ _ _ _ _ _

/-- The teardown of a run that is no replay. -/
theorem State.teardown_rests {rn : Nat} (event : Nat) (hn : ∀ x, s.run rn = some x → x.replayOf = none) : Rests r s (s.teardown rn event) := by
  unfold State.teardown
  split
  · exact .refl r s
  · next x hx =>
    split
    · exact .refl r s
    · extract_lets s1 s2 s3 s4 s5
      have h1 : Rests r s s1 := by
        unfold s1
        split
        · exact s.endStep_rests hr rn x
        · exact .refl r s
      have h3 : Rests r s s3 := ((h1.trans (s1.jTorn_rests hr rn x)).trans (s2.runOver_rests hr rn)).same rfl ⟨rfl, rfl, rfl, rfl⟩ rfl
      have h4 : Rests r s s4 := h3.trans (Rests.foldl _ (fun t m => t.faultCtx_rests x event m) x.cmds s3)
      have hk : R.ACC_TEARDOWNS x.client ≠ r := hr.ne_of_place (by simp only [R.ACC_TEARDOWNS]; omega)
      have h5 : Rests r s s5 := (Rests.setIrq hr (Rests.setIrq hr h4 _ _ _) _ _ _).count 1 hk
      clear_value s5
      rw [hn x hx]
      exact h5.trans (s5.failRun_rests hr x _ _)

end

end Sys2Proof.Machine
end

section
/-! The stores that a Collator's lists stand in (R99, R153, R167): what a word put there leaves of the others, and a list written word by
word. -/

namespace Sys2Proof.Machine

open Safety

/-! Words of a Leaf, by its row, and of the gathering buffer. -/

/-- The words of a store: a Leaf's, or the gathering buffer's (R99, R442). -/
def storeWords : Option Nat → Nat
  | some _ => leafWords
  | none => gatherWords

/-- A word of a store. -/
def State.storeWord (s : State) : Option Nat → Nat → LeafWord
  | some r, a => s.leafWord r a
  | none, a => s.gatherWord a

theorem State.leafPut_leaf (s : State) (r a : Nat) (x : LeafWord) :
    (s.leafPut r a x).leaf = kvSet zeroWord s.leaf (leafWords * r + a) x := by
  unfold State.leafPut
  extract_lets s1
  split
  · rw [(State.poisonSeen_flags _ _).leaf]
    rfl
  · rfl

theorem State.leafPut_gather (s : State) (r a : Nat) (x : LeafWord) : (s.leafPut r a x).gather = s.gather := by
  unfold State.leafPut
  extract_lets s1
  split
  · rw [(State.poisonSeen_flags _ _).gather]
    rfl
  · rfl

theorem colFits_iff {rows : List Nat} {addr off n : Nat} : colFits rows addr off n = true ↔
    ∃ o w, colTarget rows addr = some (o, w) ∧ w + off + n ≤ storeWords o := by
  unfold colFits
  split
  · next r w h => simp [h, storeWords]
  · next w h => simp [h, storeWords]
  · next h => simp [h]

section
variable {s : State} {rows : List Nat} {addr : Nat} {o : Option Nat} {w : Nat} (ht : colTarget rows addr = some (o, w))
include ht

theorem State.colWord_eq (s : State) (i : Nat) : s.colWord rows addr i = s.storeWord o (w + i) := by
  rw [State.colWord, ht]
  cases o with
  | none => rfl
  | some r => rfl

/-- A word put into a store is the only one that changes. -/
theorem State.storeWord_colPut {i : Nat} (x : LeafWord) (hi : w + i < storeWords o) (o' : Option Nat) (a : Nat)
    (ha : o'.isSome = true → a < leafWords) :
    (s.colPut rows addr i x).storeWord o' a = if o' = o ∧ a = w + i then x else s.storeWord o' a := by
  rw [State.colPut, ht]
  cases o with
  | none =>
    have hp : s.gatherPut (w + i) x = { s with gather := kvSet zeroWord s.gather (w + i) x } := if_pos hi
    cases o' with
    | none => simp only [hp, State.storeWord, State.gatherWord, kvGet_kvSet, true_and, eq_comm]
    | some r' => simp [hp, State.storeWord, State.leafWord]
  | some r =>
    cases o' with
    | none => simp [State.storeWord, State.gatherWord, State.leafPut_gather]
    | some r' =>
      have hi : w + i < 16384 := hi
      have ha : a < 16384 := ha rfl
      have hk : leafWords * r + (w + i) = leafWords * r' + a ↔ some r' = some r ∧ a = w + i := by
        simp only [leafWords, Option.some.injEq]
        omega
      simp only [State.storeWord, State.leafWord, State.leafPut_leaf, kvGet_kvSet, hk]

end

/-! What a word put, and a list, leave beside the stores. -/

/-- At most the words of the Leaves and of the gathering buffer change, and what tells of poison in them (R120). -/
structure Stores (r : Nat) (s t : State) : Prop where
  rd : t.rd r = s.rd r
  cols : t.cols = s.cols
  sched : t.sched = s.sched
  mem : t.mem = s.mem

theorem Stores.trans {r : Nat} {s t u : State} (h : Stores r s t) (h' : Stores r t u) : Stores r s u :=
  ⟨h'.rd.trans h.rd, h'.cols.trans h.cols, h'.sched.trans h.sched, h'.mem.trans h.mem⟩

theorem State.colPut_stores {r : Nat} (s : State) (rows : List Nat) (addr i : Nat) (x : LeafWord) (hf : flagReg r = false)
    (hr : ∀ row, R.ROW_POISON row ≠ r) : Stores r s (s.colPut rows addr i x) := by
  unfold State.colPut
  split
  · next row w _ =>
    unfold State.leafPut
    extract_lets s1
    split
    · have h := (s1.countSat (R.ROW_POISON row) 1).poisonSeen_flags (pageRow row)
      exact ⟨(h.rd hf).trans (s1.rd_wr_ne _ (hr row)), h.cols, h.sched, h.mem⟩
    · exact ⟨rfl, rfl, rfl, rfl⟩
  · unfold State.gatherPut
    split
    · exact ⟨rfl, rfl, rfl, rfl⟩
    · exact ⟨rfl, rfl, rfl, rfl⟩
  · exact ⟨rfl, rfl, rfl, rfl⟩

/-! A list, word by word. -/

/-- The first m words of a list are written: the bytes left, and the state. -/
def State.colWords (s : State) (rows : List Nat) (addr : Nat) (bs : List Byte) (poison : Bool) (m : Nat) : List Byte × State :=
  (List.range m).foldl (fun (a : List Byte × State) i =>
    (a.1.drop 128, a.2.colPut rows addr i ((a.2.colWord rows addr i).patch 0 (a.1.take 128) (poison && i = 0)))) (bs, s)

section
variable (s : State) (rows : List Nat) (addr : Nat) (bs : List Byte) (poison : Bool)

theorem State.colWords_succ (m : Nat) : s.colWords rows addr bs poison (m + 1) =
    let a := s.colWords rows addr bs poison m
    (a.1.drop 128, a.2.colPut rows addr m ((a.2.colWord rows addr m).patch 0 (a.1.take 128) (poison && m = 0))) := by
  rw [State.colWords, List.range_succ, List.foldl_append]
  rfl

theorem State.colWords_rest (m : Nat) : (s.colWords rows addr bs poison m).1 = bs.drop (128 * m) := by
  induction m with
  | zero => rfl
  | succ m ih =>
    rw [State.colWords_succ]
    dsimp only
    rw [ih, List.drop_drop]
    congr 1

theorem State.colWords_stores {r : Nat} (hf : flagReg r = false) (hr : ∀ row, R.ROW_POISON row ≠ r) (m : Nat) :
    Stores r s (s.colWords rows addr bs poison m).2 := by
  induction m with
  | zero => exact ⟨rfl, rfl, rfl, rfl⟩
  | succ m ih =>
    rw [State.colWords_succ]
    exact ih.trans (State.colPut_stores _ _ _ _ _ hf hr)

/-- A list that fits its store: its words take its bytes, and no other word changes. -/
theorem State.storeWord_colWords {rows addr} {o : Option Nat} {w m : Nat} (ht : colTarget rows addr = some (o, w)) (hm : w + m ≤ storeWords o)
    (o' : Option Nat) (a : Nat) (ha : o'.isSome = true → a < leafWords) : (s.colWords rows addr bs poison m).2.storeWord o' a =
      if o' = o ∧ w ≤ a ∧ a < w + m then (s.storeWord o a).patch 0 ((bs.drop (128 * (a - w))).take 128) (poison && a - w = 0)
      else s.storeWord o' a := by
  induction m with
  | zero => exact (if_neg (by omega)).symm
  | succ m ih =>
    have ih := ih (by omega)
    rw [State.colWords_succ]
    dsimp only
    rw [State.storeWord_colPut ht _ (by omega) o' a ha, State.colWords_rest, State.colWord_eq ht]
    by_cases ho : o' = o
    · subst ho
      simp only [true_and] at ih ⊢
      by_cases h : a = w + m
      · subst h
        rw [if_neg (by omega)] at ih
        rw [if_pos rfl, if_pos (by omega), ih, Nat.add_sub_cancel_left]
      · rw [if_neg h, ih]
        have hk : a < w + (m + 1) ↔ a < w + m := by omega
        simp only [hk]
    · simp only [ho, false_and, if_false] at ih ⊢
      exact ih

end

/-- The words of a list's bytes. -/
theorem State.colBytes_eq (s : State) (rows : List Nat) (addr : Nat) (bs : List Byte) (poison : Bool) :
    s.colBytes rows addr bs poison = (s.colWords rows addr bs poison ((bs.length + 127) / 128)).2 := rfl

end Sys2Proof.Machine
end

section
/-! What a descriptor writes, and that a descriptor that no check refuses has room for it (R153 to R158, R161). -/

namespace Sys2Proof.Machine

open Safety

/-- A list as it is written: its header, its entries, its padding (R153, R154). -/
def ColResult.list (o : ColResult) (d : Desc) : List Byte :=
  o.header d ++ o.entries.flatMap ColEntry.bytes ++ (List.replicate o.pad padBytes).flatten

@[simp] theorem leBytes_length (n v : Nat) : (leBytes n v).length = n := by
  induction n generalizing v with
  | zero => rfl
  | succ n ih => rw [leBytes, List.length_cons, ih]

theorem ColResult.list_length (o : ColResult) (d : Desc) : (o.list d).length = 32 + 16 * (o.entries.length + o.pad) := by
  have he : (o.entries.flatMap ColEntry.bytes).length = 16 * o.entries.length := by
    induction o.entries with
    | nil => rfl
    | cons e es ih =>
      rw [List.flatMap_cons, List.length_append, ih, List.length_cons]
      simp only [ColEntry.bytes, List.length_append, leBytes_length]
      omega
  have hh : (o.header d).length = 32 := by
    simp only [ColResult.header, List.length_append, leBytes_length]
  have hp : padBytes.length = 16 := by
    simp only [padBytes, List.length_append, leBytes_length]
  rw [ColResult.list, List.length_append, List.length_append, he, hh, List.length_flatten, List.map_replicate, List.sum_replicate, hp]
  simp only [smul_eq_mul]
  omega

theorem State.rawElements_length (s : State) (rows : List Nat) (d : Desc) : (s.rawElements rows d).length = d.n := by
  simp [State.rawElements]

/-- No list is longer than its descriptor says (R155 to R158). -/
theorem State.colRun_room {s : State} {q : QDesc} (h : q.d.op ∈ [1, 2, 3, 4]) :
    (s.colRun q).entries.length + (s.colRun q).pad ≤ outRoom q.d := by
  have htake {α : Type} (l : List α) (k : Nat) : (l.take k).length + (k - (l.take k).length) ≤ k := by
    rw [List.length_take]
    omega
  simp only [List.mem_cons, List.not_mem_nil, or_false] at h
  unfold State.colRun outRoom
  rcases h with h | h | h | h
  · rw [h]
    exact List.length_take_le _ _
  · rw [h]
    exact htake _ _
  · rw [h]
    refine Nat.le_trans (Nat.le_of_eq (rankSort_perm _).length_eq) (Nat.le_trans (List.length_filter_le _ _) ?_)
    exact Nat.le_of_eq (s.rawElements_length _ _)
  · rw [h]
    exact htake _ _

/-- The list of a descriptor that is not refused lies in its store (R161). -/
theorem State.colCause_fits {s : State} {q : QDesc} (h : q.d.op ∈ [1, 2, 3, 4]) (hc : s.colCause q = none) :
    colFits q.rows q.d.dst 0 (listWords (outRoom q.d)) = true := by
  simp only [List.mem_cons, List.not_mem_nil, or_false] at h
  unfold State.colCause at hc
  extract_lets d raw mg ls total words thrKey tests at hc
  rw [Option.map_eq_none_iff, List.find?_eq_none] at hc
  have hrm : (raw || mg) = true := by
    simp only [raw, mg, d, Bool.or_eq_true, decide_eq_true_eq]
    tauto
  have h7 := hc _ (List.mem_of_getElem? (show tests[6]? = some _ from rfl))
  simp only [hrm, Bool.or_eq_true, Bool.true_and, not_or, Bool.not_eq_true', Bool.not_eq_false] at h7
  obtain ⟨⟨⟨-, hfits⟩, -⟩, -⟩ := h7
  exact hfits

/-- Where the list of a descriptor that is not refused goes, and that it lies there. -/
theorem State.colList_fits {s : State} {q : QDesc} (h : q.d.op ∈ [1, 2, 3, 4]) (hc : s.colCause q = none) :
    ∃ o w, colTarget q.rows q.d.dst = some (o, w) ∧ w + (((s.colRun q).list q.d).length + 127) / 128 ≤ storeWords o := by
  obtain ⟨o, w, ht, hw⟩ := colFits_iff.mp (State.colCause_fits h hc)
  refine ⟨o, w, ht, Nat.le_trans ?_ hw⟩
  have := s.colRun_room h
  rw [ColResult.list_length, listWords]
  omega

end Sys2Proof.Machine
end

section
/-! A Collator's queues and counters: what a descriptor that leaves its queue, and the counting of its work, leave (R164 to R170). -/

namespace Sys2Proof.Machine

open Safety

/-! A Collator replaced. -/

section
variable (s : State) (n : Nat) (u : ColUnit)

theorem State.setCol_flags : FlagsOnly ({ s with cols := kvPut s.cols n u }.wr (R.COL_STAT n) u.stat) (s.setCol n u) :=
  State.setIdle_flags _ _ _

@[simp] theorem State.setCol_cols : (s.setCol n u).cols = kvPut s.cols n u := (s.setCol_flags n u).cols

@[simp] theorem State.setCol_sched : (s.setCol n u).sched = s.sched := (s.setCol_flags n u).sched

theorem State.setCol_sameMem : SameMem s (s.setCol n u) := (s.setCol_flags n u).sameMem

theorem State.setCol_colUnit : (s.setCol n u).colUnit n = u := by
  rw [State.colUnit, State.setCol_cols, kvGet_kvPut, if_pos rfl]

theorem State.setCol_rd {r : Nat} (hf : flagReg r = false) (hr : R.COL_STAT n ≠ r) : (s.setCol n u).rd r = s.rd r :=
  ((s.setCol_flags n u).rd hf).trans (State.rd_wr_ne _ _ hr)

end

theorem State.colUnit_congr {s t : State} (h : t.cols = s.cols) (n : Nat) : t.colUnit n = s.colUnit n := by
  rw [State.colUnit, h, State.colUnit]

theorem State.run_congr {s t : State} (h : t.sched = s.sched) (rn : Nat) : t.run rn = s.run rn := by
  rw [State.run, h, State.run]

/-! A descriptor leaves its queue. -/

section
variable (s : State) (n : Nat) (q : QDesc)

@[simp] theorem State.colTake_sched : (s.colTake n q).sched = s.sched := s.setCol_sched n _

theorem State.colTake_sameMem : SameMem s (s.colTake n q) := s.setCol_sameMem n _

theorem State.colTake_rd {r : Nat} (hf : flagReg r = false) (hr : R.COL_STAT n ≠ r) : (s.colTake n q).rd r = s.rd r := s.setCol_rd n _ hf hr

theorem State.colTake_colUnit : (s.colTake n q).colUnit n =
    if q.d.lc then { s.colUnit n with lc := (s.colUnit n).lc.drop 1 }
    else { s.colUnit n with be := (s.colUnit n).be.drop 1, begun := none } := s.setCol_colUnit n _

end

/-- The block registers of the Collators are none that events change (R557). -/
theorem flagReg_collator (n : Nat) {o : Nat} (h : 0x100 ≤ o) (h' : o < 0x10000) : flagReg ((0x90 + n) * 0x10000 + o) = false := by
  simp only [flagReg, R.SYS_ATTN, Bool.or_eq_false_iff, decide_eq_false_iff_not]
  omega

/-! The counting of a descriptor's work. -/

/-- Beside counters: register r stays, and the memories, the queues of the Collator, the figures; the run has at most new charges and
flags, and no step comes to wait. -/
structure Books (r n rn : Nat) (s t : State) : Prop extends Rests r s t where
  lc : (t.colUnit n).lc = (s.colUnit n).lc
  be : (t.colUnit n).be = (s.colUnit n).be
  figures : t.sched.figures = s.sched.figures
  run : ∀ x, s.run rn = some x → ∃ c v, t.run rn = some { x with charges := c, vflags := v }

section
variable {r n rn : Nat} {s t u : State}

theorem Books.refl (r n rn : Nat) (s : State) : Books r n rn s s := ⟨.refl r s, rfl, rfl, rfl, fun x hx => ⟨x.charges, x.vflags, hx⟩⟩

section
variable (h : Books r n rn s t)
include h

theorem Books.keep (hr : u.rd r = t.rd r) (hm : SameMem t u) (hc : u.cols = t.cols) (hs : u.sched = t.sched) : Books r n rn s u := by
  refine ⟨h.toRests.trans ⟨hr, hm, calm_of_runs (by rw [hs])⟩, ?_, ?_, (by rw [hs, h.figures]), ?_⟩
  · rw [State.colUnit_congr hc, h.lc]
  · rw [State.colUnit_congr hc, h.be]
  · rw [State.run_congr hs]
    exact h.run

theorem Books.flags (hf : FlagsOnly t u) (hr : flagReg r = false) : Books r n rn s u := h.keep (hf.rd hr) hf.sameMem hf.cols hf.sched

theorem Books.wr {k : Nat} (v : Nat) (hk : k ≠ r) : Books r n rn s (t.wr k v) := h.keep (t.rd_wr_ne v hk) (t.wr_sameMem k v) rfl rfl

theorem Books.count {k : Nat} (v : Nat) (hk : k ≠ r) : Books r n rn s (t.count k v) := h.wr _ hk

theorem Books.countSat {k : Nat} (v : Nat) (hk : k ≠ r) : Books r n rn s (t.countSat k v) := h.wr _ hk

theorem Books.setRun {x : Run} (hx : t.run rn = some x) (c : List Nat) (v : KV Nat) :
    Books r n rn s (t.setRun rn { x with charges := c, vflags := v }) := by
  refine ⟨h.toRests.setRun hx rfl, h.lc, h.be, h.figures, fun x0 h0 => ⟨c, v, ?_⟩⟩
  obtain ⟨c0, v0, e⟩ := h.run x0 h0
  rw [State.run_setRun_same, Option.some_inj.mp (hx.symm.trans e)]

theorem Books.runCharge (i k : Nat) : Books r n rn s (t.runCharge rn i k) := by
  unfold State.runCharge
  split
  · next x hx => exact h.setRun hx _ x.vflags
  · exact h

theorem Books.energy {i : Nat} (k v : Nat) (hk : R.ACC_ENERGY_UJ i ≠ r) : Books r n rn s (t.energy i k v) := by
  obtain ⟨_, _, e, hrd⟩ := t.energy_charged (S := fun k => k = R.ACC_ENERGY_UJ i) (i := i) k v rfl
  have hr := hrd r fun e => hk e.symm
  rw [e] at hr ⊢
  exact h.keep hr ⟨rfl, rfl, rfl, rfl⟩ rfl rfl

/-- Flags of a run's contexts (R254). -/
theorem Books.flagUnits (b : Nat) (of : List Nat) (k : Nat) (units : List Nat) : Books r n rn s (t.flagUnits rn b of k units) := by
  have hv (l : List Nat) (x : Run) : ∃ v, l.foldl (fun y k => y.flagV k b) x = { x with vflags := v } := by
    induction l generalizing x with
    | nil => exact ⟨x.vflags, rfl⟩
    | cons i l ih =>
      obtain ⟨v, e⟩ := ih (x.flagV i b)
      exact ⟨v, e⟩
  unfold State.flagUnits
  split
  · exact h
  · next x hx =>
    obtain ⟨v, e⟩ := hv (units.flatMap (x.owners of k)).eraseDups x
    rw [e]
    exact h.setRun hx x.charges v

/-- A Collator replaced that holds the same queues. -/
theorem Books.setCol {v : ColUnit} (hl : v.lc = (t.colUnit n).lc) (hb : v.be = (t.colUnit n).be) (hf : flagReg r = false)
    (hr : R.COL_STAT n ≠ r) : Books r n rn s (t.setCol n v) := by
  refine ⟨h.toRests.trans ⟨t.setCol_rd n v hf hr, t.setCol_sameMem n v, calm_of_runs (by rw [State.setCol_sched])⟩, ?_, ?_, ?_, ?_⟩
  · rw [State.setCol_colUnit, hl, h.lc]
  · rw [State.setCol_colUnit, hb, h.be]
  · rw [State.setCol_sched, h.figures]
  · rw [State.run_congr (t.setCol_sched n v)]
    exact h.run

end

end

/-! Cycles of the engine (R166, R235, R246). -/

/-- The cycles of the engine that a client is charged. -/
def State.colCharge (s : State) (rn c cyc : Nat) : State := (s.count (R.ACC_ENG_COL c) cyc).runEnergy rn c 3 cyc

theorem State.colBusy_eq (s : State) (n rn c cyc : Nat) : s.colBusy n rn c cyc = (s.count (R.COL_CYC_BUSY n) cyc).colCharge rn c cyc := rfl

theorem Books.colCharge {r n rn c : Nat} {s t : State} (h : Books r n rn s t) (cyc : Nat) (hc : c < 16) (hr : 0x900000 ≤ r) :
    Books r n rn s (t.colCharge rn c cyc) := by
  have h1 : R.ACC_ENG_COL c ≠ r := by
    simp only [R.ACC_ENG_COL]
    omega
  have h2 : R.ACC_ENERGY_UJ c ≠ r := by
    simp only [R.ACC_ENERGY_UJ]
    omega
  exact ((h.count cyc h1).energy 3 cyc h2).runCharge 5 _

theorem State.colCharge_cols (s : State) (rn c cyc : Nat) : (s.colCharge rn c cyc).cols = s.cols := by
  obtain ⟨_, _, e, -⟩ := (s.count (R.ACC_ENG_COL c) cyc).energy_charged (S := fun _ => True) (i := c) 3 cyc trivial
  unfold State.colCharge State.runEnergy State.runCharge
  rw [e]
  split
  · rfl
  · rfl

/-- The engine's cycles are counted and charged, and nothing else comes of them (R166). -/
theorem State.colBusy_counts (s : State) (n rn cyc : Nat) {c : Nat} (hc : c < 16) :
    (s.colBusy n rn c cyc).rd (R.COL_CYC_BUSY n) = (s.rd (R.COL_CYC_BUSY n) + cyc) % 2 ^ 64 ∧
      (s.colBusy n rn c cyc).cols = s.cols ∧ SameMem s (s.colBusy n rn c cyc) ∧ (Calm s → Calm (s.colBusy n rn c cyc)) := by
  have h : Books (R.COL_CYC_BUSY n) n rn (s.count (R.COL_CYC_BUSY n) cyc) (s.colBusy n rn c cyc) :=
    (Books.refl _ n rn _).colCharge cyc hc (by simp only [R.COL_CYC_BUSY]; omega)
  refine ⟨?_, ?_, ?_, fun hcalm => h.calm hcalm⟩
  · rw [h.rd, State.count_eq, State.rd_wr, if_pos rfl]
  · rw [State.colBusy_eq, State.colCharge_cols, State.count_eq, State.wr_cols]
  · exact (s.wr_sameMem _ _).trans h.mem

end Sys2Proof.Machine
end

section
/-! The commands of a Collator, case by case: a descriptor whose run was torn down, one that a check refuses, one that is executed, and a
segment boundary (R161, R164, R229). -/

namespace Sys2Proof.Machine

open Safety

/-- The four operations' codes, with their commands at a Collator (R149). -/
def collatorOps (col : ColNo) : List (Nat × Instr) := [(1, .thresh col 0), (2, .topk col 0), (3, .sort col 0), (4, .merge col 0)]

theorem collatorOps_exec {col : ColNo} {c : Nat × Instr} (h : c ∈ collatorOps col) (s : State) :
    c.1 ∈ [1, 2, 3, 4] ∧ exec c.2 s = settled (s.colStep col 0 c.1) := by
  simp only [collatorOps, List.mem_cons, List.not_mem_nil, or_false] at h
  rcases h with rfl | rfl | rfl | rfl
  · exact ⟨by simp, rfl⟩
  · exact ⟨by simp, rfl⟩
  · exact ⟨by simp, rfl⟩
  · exact ⟨by simp, rfl⟩

/-- A command of an operation ends in the state that its step comes to. -/
theorem runs_collatorOp {col : ColNo} {c : Nat × Instr} {s t : State} {P : State → Prop} (h : c ∈ collatorOps col)
    (hs : s.colStep col 0 c.1 = t) (hP : P t.settle) : Runs c.2 s P :=
  ⟨_, (collatorOps_exec h s).2, by rw [hs]; exact hP⟩

section
variable {s : State} {n : Nat} {q : QDesc} (hn : s.colNext n = some q)
include hn

/-! A run torn down (R229). -/

theorem State.colStep_void (hv : q.void = true) :
    s.colStep n 0 q.d.op = ((s.colTake n q).colBusy n q.run q.client (((s.colUnit n).begun).getD 0)).resume := by
  simp [State.colStep, State.colExecute, hn, hv]

/-- The descriptor of a run torn down leaves its queue, and its cycles count (R229). -/
theorem State.colStep_discards (hv : q.void = true) (hl : q.d.lc = false) (hq : q.client < 16) (hc : Calm s) :
    SameMem s (s.colStep n 0 q.d.op) ∧
      (s.colStep n 0 q.d.op).colUnit n = { s.colUnit n with be := (s.colUnit n).be.drop 1, begun := none } ∧
      (s.colStep n 0 q.d.op).rd (R.COL_CYC_BUSY n) = (s.rd (R.COL_CYC_BUSY n) + ((s.colUnit n).begun).getD 0) % 2 ^ 64 := by
  obtain ⟨hrd, hcols, hmem, hcalm⟩ := (s.colTake n q).colBusy_counts n q.run (((s.colUnit n).begun).getD 0) hq
  rw [State.colStep_void hn hv, (hcalm (calm_of_runs (by rw [State.colTake_sched]) hc)).resume]
  refine ⟨(s.colTake_sameMem n q).trans hmem, ?_, ?_⟩
  · rw [State.colUnit_congr hcols, State.colTake_colUnit, hl]
    rfl
  · rw [hrd, State.colTake_rd _ _ _ (flagReg_collator n (by decide) (by decide)) (by simp only [R.COL_STAT]; omega)]

/-! A check that fails (R161). -/

section
variable {x : Run} {cause : Nat} (hv : q.void = false) (hx : s.run q.run = some x) (hc : s.colCause q = some cause)
include hv hx hc

theorem State.colStep_refused : s.colStep n 0 q.d.op =
    (((s.colTake n q).colFault { x with forCtx := q.x } n cause q).teardown q.run 0x2301).resume := by
  simp [State.colStep, State.colExecute, hn, hv, hx, hc]

end

end

/-- What a Collator tells of a check that fails: its cause, and the event (R161, R168). -/
theorem State.colFault_tells (s : State) (x : Run) (n cause : Nat) (q : QDesc) :
    (s.colFault x n cause q).rd (R.COL_FAULT n) = cause % 2 ^ 64 ∧ (s.colFault x n cause q).rd (R.PG_ERR (pageCol n)) % 65536 = 0x2301 ∧
      SameMem s (s.colFault x n cause q) ∧ (s.colFault x n cause q).sched = s.sched := by
  unfold State.colFault State.runEvent
  extract_lets s1
  have hf := (s1.setIrq_flags (pageCol n) 4 2).trans (State.raise_flags _ (pageCol n) 0x2301 (some x.client) 0 x.opCtx)
  refine ⟨?_, State.raise_pgErr _ _ _ _ _ _, ((s.wr_sameMem _ _).trans (State.wr_sameMem _ _ _)).trans hf.sameMem, hf.sched⟩
  rw [hf.rd (flagReg_collator n (by decide) (by decide)), State.rd_wr_ne _ _ (by simp only [R.COL_FAULT_SRC]; omega),
    State.rd_wr, if_pos rfl]

/-- A descriptor that a check refuses ends its run, with its cause and the event (R161, R229). -/
theorem State.colStep_faults {s : State} {col : ColNo} {q : QDesc} {x : Run} {cause : Nat} (hn : s.colNext col = some q)
    (hv : q.void = false) (hx : s.run q.run = some x) (hc : s.colCause q = some cause) (hr : x.replayOf = none) (hcalm : Calm s) :
    (s.colStep col 0 q.d.op).rd (R.COL_FAULT col) = cause % 2 ^ 64 ∧
      (s.colStep col 0 q.d.op).rd (R.PG_ERR (pageCol col)) % 65536 = 0x2301 ∧ SameMem s (s.colStep col 0 q.d.op) := by
  obtain ⟨hfault, herr, hmem, hsched⟩ := (s.colTake col q).colFault_tells { x with forCtx := q.x } col cause q
  rw [State.colTake_sched] at hsched
  obtain ⟨h1, h2⟩ := faultReg_told col
  rw [State.colStep_refused hn hv hx hc]
  generalize (s.colTake col q).colFault { x with forCtx := q.x } col cause q = f at hfault herr hmem hsched ⊢
  have hnone (y : Run) (hy : f.run q.run = some y) : y.replayOf = none := by
    rw [State.run_congr hsched, hx] at hy
    rw [← Option.some_inj.mp hy, hr]
  have ht1 := f.teardown_rests h1 0x2301 hnone
  have ht2 := f.teardown_rests h2 0x2301 hnone
  rw [(ht1.calm (calm_of_runs (by rw [hsched]) hcalm)).resume]
  exact ⟨ht1.rd.trans hfault, by rw [ht2.rd, herr], ((s.colTake_sameMem col q).trans hmem).trans ht1.mem⟩

end Sys2Proof.Machine
end

section
/-! A descriptor executed: its list is written, it leaves its queue and is counted, and its run goes on (R155 to R164, R170). -/

namespace Sys2Proof.Machine

open Safety

/-! What is counted and told beside the list. -/

/-- What a list's writing is followed by: the counters of its fields, and what they tell (R155, R163, R168, R170). -/
def State.colTold (s : State) (x : Run) (n : Nat) (q : QDesc) (o : ColResult) : State :=
  let s3 := ((s.count (R.COL_ELEMS n) o.read).countSat (R.COL_DUP n) o.dup).countSat (R.COL_TIE n) o.tie.toNat
  let s4 := (s3.countSat (R.COL_POISON n) o.poison.toNat).countSat (R.COL_LOSS n) o.loss.toNat
  let s5 := if o.poison then s4.poisonSeen (pageCol n) else s4
  let s6 := if o.loss then s5.flagUnits q.run 20 q.x q.x.length (List.range q.x.length) else s5
  let s7 := s6.colNan x q.run n o.newNan
  if o.overflow then s7.colOvf x q.run n else s7

/-- The cycles of a descriptor that has been executed are counted (R166, R170). -/
def State.colCounted (s : State) (n : Nat) (q : QDesc) (c cyc wait late : Nat) : State :=
  let t := (s.colBusy n q.run c cyc).count (R.COL_CYC_WAIT n) wait
  if q.d.lc then t.raiseTo (R.COL_LC_WAIT_MAX n) late else t

section
variable {n : Nat} {q : QDesc} {s t : State}

/-- COL_OPS is none of the registers that events change. -/
theorem flagReg_colOps (n : Nat) : flagReg (R.COL_OPS n) = false := flagReg_collator n (by decide) (by decide)

/-- The Collator's other counters are not COL_OPS. -/
theorem ne_colOps (n : Nat) {o : Nat} (h : o ≠ 0x110) : (0x90 + n) * 0x10000 + o ≠ R.COL_OPS n := by
  simp only [R.COL_OPS]
  omega

section
variable (h : Books (R.COL_OPS n) n q.run s t)
include h

/-- An event said once per step (R168). -/
theorem Books.sayOnce {u : ColUnit} (x : Run) (b code : Nat) (hl : u.lc = (t.colUnit n).lc) (hb : u.be = (t.colUnit n).be) :
    Books (R.COL_OPS n) n q.run s (((t.setCol n u).setIrq (pageCol n) b 2).runEvent x (pageCol n) code) :=
  ((h.setCol hl hb (flagReg_colOps n) (ne_colOps n (by decide))).flags (State.setIrq_flags _ _ _ _) (flagReg_colOps n)).flags
    (State.raise_flags _ _ _ _ _ _) (flagReg_colOps n)

theorem Books.colNan (x : Run) (k : Nat) : Books (R.COL_OPS n) n q.run s (t.colNan x q.run n k) := by
  unfold State.colNan
  extract_lets s1 u
  have h1 : Books (R.COL_OPS n) n q.run s s1 := h.countSat k (ne_colOps n (by decide))
  split_ifs
  · exact h
  · exact h1
  · exact h1.sayOnce x 5 0x2302 rfl rfl

theorem Books.colOvf (x : Run) : Books (R.COL_OPS n) n q.run s (t.colOvf x q.run n) := by
  unfold State.colOvf
  extract_lets s1 u
  have h1 : Books (R.COL_OPS n) n q.run s s1 := h.countSat 1 (ne_colOps n (by decide))
  split_ifs
  · exact h1
  · exact h1.sayOnce x 6 0x2303 rfl rfl

theorem Books.colTold (x : Run) (o : ColResult) : Books (R.COL_OPS n) n q.run s (t.colTold x n q o) := by
  unfold State.colTold
  extract_lets s3 s4 s5 s6 s7
  have h3 : Books (R.COL_OPS n) n q.run s s3 :=
    ((h.count _ (ne_colOps n (by decide))).countSat _ (ne_colOps n (by decide))).countSat _ (ne_colOps n (by decide))
  have h4 : Books (R.COL_OPS n) n q.run s s4 := (h3.countSat _ (ne_colOps n (by decide))).countSat _ (ne_colOps n (by decide))
  have h5 : Books (R.COL_OPS n) n q.run s s5 := by
    unfold s5
    split
    · exact h4.flags (State.poisonSeen_flags _ _) (flagReg_colOps n)
    · exact h4
  have h6 : Books (R.COL_OPS n) n q.run s s6 := by
    unfold s6
    split
    · exact h5.flagUnits _ _ _ _
    · exact h5
  have h7 : Books (R.COL_OPS n) n q.run s s7 := h6.colNan x o.newNan
  split
  · exact h7.colOvf x
  · exact h7

theorem Books.colCounted {c : Nat} (cyc wait late : Nat) (hc : c < 16) : Books (R.COL_OPS n) n q.run s (t.colCounted n q c cyc wait late) := by
  have h1 : Books (R.COL_OPS n) n q.run s (t.colBusy n q.run c cyc) :=
    (h.count cyc (ne_colOps n (by decide))).colCharge cyc hc (by simp only [R.COL_OPS]; omega)
  have h2 := h1.count wait (ne_colOps n (o := 0x128) (by decide))
  unfold State.colCounted
  dsimp only
  split
  · exact h2.wr _ (ne_colOps n (by decide))
  · exact h2

end

end

/-! The step of a Collator. -/

theorem foldl_search {β : Type} (f : State → β → State) (hf : ∀ t b, ∃ x, f t b = { t with search := x }) (l : List β) (s : State) :
    ∃ x, l.foldl f s = { s with search := x } := by
  induction l generalizing s with
  | nil => exact ⟨s.search, rfl⟩
  | cons b l ih =>
    obtain ⟨x, e⟩ := hf s b
    obtain ⟨y, e'⟩ := ih { s with search := x }
    exact ⟨y, by rw [List.foldl_cons, e, e']⟩

/-- The duplicates and the edges of a search are no part of a Collator (R331, R332). -/
theorem State.mergedQuery_eq (s : State) (rn : Nat) (d : Desc) (o : ColResult) :
    ∃ x, s.mergedQuery rn d o = { s with search := x } := by
  unfold State.mergedQuery
  refine foldl_search _ (fun t e => ?_) _ s
  dsimp only
  split
  · split
    · exact ⟨_, rfl⟩
    · exact ⟨_, rfl⟩
  · exact ⟨t.search, rfl⟩

/-- What a search's summary takes of a merge, before its MERGE is executed (R331). -/
def State.colSearch (s : State) (q : QDesc) : State :=
  if !q.void && q.d.op = 4 && q.d.op = 4 && (s.colCause q).isNone then s.mergedQuery q.run q.d (s.colRun q) else s

theorem State.colSearch_eq (s : State) (q : QDesc) : ∃ x, s.colSearch q = { s with search := x } := by
  unfold State.colSearch
  split
  · exact s.mergedQuery_eq _ _ _
  · exact ⟨s.search, rfl⟩

/-- A descriptor that no check refuses is executed: the search's summary, a free wait, the queue, the list, the counts. -/
def State.colDone (s : State) (n : Nat) (q : QDesc) (x : Run) (cyc wait late : Nat) : State :=
  ((((s.colSearch q).free.2.colTake n q).colWrite { x with forCtx := q.x } n q (s.colRun q))).colCounted n q x.client cyc wait late

section
variable {s : State} {n : Nat} {q : QDesc} {x : Run} (hn : s.colNext n = some q) (hv : q.void = false) (hx : s.run q.run = some x)
  (hc : s.colCause q = none)
include hn hv hx hc

theorem State.colStep_executes : ∃ cyc wait late, s.colStep n 0 q.d.op = (s.colDone n q x cyc wait late).resume.advance q.run := by
  obtain ⟨y, e⟩ := s.colSearch_eq q
  have hs : s.colStep n 0 q.d.op = match (s.colSearch q).colExecute n 0 (fun o => o = q.d.op || (q.d.op = 1 && (o = 0 || 4 < o))) with
      | (some (rn, true), s1) => (s1.teardown rn 0x2301).resume
      | (some (rn, false), s1) => s1.resume.advance rn
      | (none, s1) => s1.resume := by
    unfold State.colStep
    rw [hn]
    rfl
  have hn' : ({ s with search := y } : State).colNext n = some q := hn
  have hx' : ({ s with search := y } : State).run q.run = some x := hx
  have hc' : ({ s with search := y } : State).colCause q = none := hc
  rw [hs]
  unfold State.colDone
  rw [e]
  unfold State.colExecute
  simp only [hn', hx', hc', hv, decide_true, Bool.true_or, Bool.not_true, Bool.false_eq_true, if_false]
  exact ⟨_, _, _, rfl⟩

end

end Sys2Proof.Machine
end

section
/-! What an executed descriptor leaves: its list in its store, its queue, its count, and its run (R155 to R164, R170). -/

namespace Sys2Proof.Machine

open Safety

theorem State.storeWord_sameMem {s t : State} (h : SameMem s t) (o : Option Nat) (a : Nat) : t.storeWord o a = s.storeWord o a := by
  obtain ⟨-, -, hl, hg⟩ := h
  cases o with
  | none => rw [State.storeWord, State.gatherWord, hg, State.storeWord, State.gatherWord]
  | some r => rw [State.storeWord, State.leafWord, hl, State.storeWord, State.leafWord]

/-- The descriptor has left its queue. -/
def State.colTaken (s : State) (n : Nat) (q : QDesc) : State := (s.colSearch q).free.2.colTake n q

/-- Its list is written. -/
def State.colWritten (s : State) (n : Nat) (q : QDesc) : State :=
  (s.colTaken n q).colBytes q.rows q.d.dst ((s.colRun q).list q.d) (s.colRun q).poison

/-- The words of its list. -/
def State.listLength (s : State) (q : QDesc) : Nat := (((s.colRun q).list q.d).length + 127) / 128

theorem State.colDone_eq (s : State) (n : Nat) (q : QDesc) (x : Run) (cyc wait late : Nat) : s.colDone n q x cyc wait late =
    (((s.colWritten n q).count (R.COL_OPS n) 1).colTold { x with forCtx := q.x } n q (s.colRun q)).colCounted n q x.client cyc wait late := rfl

section
variable (s : State) (n : Nat) (q : QDesc)

theorem State.colTaken_sameMem : SameMem s (s.colTaken n q) := by
  obtain ⟨y, e⟩ := s.colSearch_eq q
  unfold State.colTaken
  rw [e]
  exact State.colTake_sameMem _ n q

theorem State.colTaken_sched : (s.colTaken n q).sched = s.sched := by
  obtain ⟨y, e⟩ := s.colSearch_eq q
  unfold State.colTaken
  rw [e]
  exact State.colTake_sched _ n q

theorem State.colTaken_ops : (s.colTaken n q).rd (R.COL_OPS n) = s.rd (R.COL_OPS n) := by
  obtain ⟨y, e⟩ := s.colSearch_eq q
  unfold State.colTaken
  rw [e]
  exact State.colTake_rd _ n q (flagReg_colOps n) (ne_colOps n (by decide))

theorem State.colTaken_colUnit : (s.colTaken n q).colUnit n =
    if q.d.lc then { s.colUnit n with lc := (s.colUnit n).lc.drop 1 }
    else { s.colUnit n with be := (s.colUnit n).be.drop 1, begun := none } := by
  obtain ⟨y, e⟩ := s.colSearch_eq q
  unfold State.colTaken
  rw [e]
  exact State.colTake_colUnit _ n q

theorem State.colWritten_stores : Stores (R.COL_OPS n) (s.colTaken n q) (s.colWritten n q) :=
  State.colWords_stores _ _ _ _ _ (flagReg_colOps n) (fun row => by simp only [R.ROW_POISON, R.COL_OPS]; omega) _

theorem State.colWritten_sched : (s.colWritten n q).sched = s.sched := (s.colWritten_stores n q).sched.trans (s.colTaken_sched n q)

end

section
variable {s : State} {n : Nat} {q : QDesc} (hop : q.d.op ∈ [1, 2, 3, 4]) (hc : s.colCause q = none)
include hop hc

theorem State.storeWord_colWritten {o : Option Nat} {w : Nat} (ht : colTarget q.rows q.d.dst = some (o, w)) (o' : Option Nat) (a : Nat)
    (ha : o'.isSome = true → a < leafWords) : (s.colWritten n q).storeWord o' a =
      if o' = o ∧ w ≤ a ∧ a < w + s.listLength q then
        (s.storeWord o a).patch 0 ((((s.colRun q).list q.d).drop (128 * (a - w))).take 128) ((s.colRun q).poison && a - w = 0)
      else s.storeWord o' a := by
  obtain ⟨p, v, hp, hw⟩ := State.colList_fits hop hc
  cases Option.some_inj.mp (hp.symm.trans ht)
  unfold State.colWritten
  rw [State.colBytes_eq, State.storeWord_colWords _ _ _ ht hw o' a ha, State.storeWord_sameMem (s.colTaken_sameMem n q),
    State.storeWord_sameMem (s.colTaken_sameMem n q)]
  rfl

/-! The state after the step, whose stores are those that the list was written in. -/

section
variable {t : State} (hm : SameMem (s.colWritten n q) t)
include hm

/-- The words of the list take its bytes (R153). -/
theorem State.colWord_written {i : Nat} (hi : i < s.listLength q) : t.colWord q.rows q.d.dst i =
    (s.colWord q.rows q.d.dst i).patch 0 ((((s.colRun q).list q.d).drop (128 * i)).take 128) ((s.colRun q).poison && i = 0) := by
  obtain ⟨o, w, ht, hw⟩ := State.colList_fits hop hc
  have ha : o.isSome = true → w + i < leafWords := by
    cases o with
    | none => exact fun h => nomatch h
    | some r => exact fun _ => Nat.lt_of_lt_of_le (Nat.add_lt_add_left hi w) hw
  rw [State.colWord_eq ht, State.storeWord_sameMem hm, State.storeWord_colWritten hop hc ht o _ ha, if_pos ⟨rfl, by omega, by omega⟩,
    Nat.add_sub_cancel_left, State.colWord_eq ht]

/-- No other word of a store changes. -/
theorem State.storeWord_kept (o : Option Nat) (a : Nat) (ha : o.isSome = true → a < leafWords)
    (hout : ∀ w, colTarget q.rows q.d.dst = some (o, w) → a < w ∨ w + s.listLength q ≤ a) : t.storeWord o a = s.storeWord o a := by
  obtain ⟨p, w, ht, -⟩ := State.colList_fits hop hc
  rw [State.storeWord_sameMem hm, State.storeWord_colWritten hop hc ht o a ha]
  refine if_neg fun ⟨e, h1, h2⟩ => ?_
  have := hout w (e ▸ ht)
  omega

end

end

/-! The run goes on: its step has no operation left. -/

theorem State.stepDef_charged {s t : State} (h : t.sched.figures = s.sched.figures) (x : Run) (c : List Nat) (v : KV Nat) :
    t.stepDef { x with charges := c, vflags := v } = s.stepDef x := by
  simp only [State.stepDef, State.path, State.runCore, h]

/-- A run whose step has no operation left does not go on by itself. -/
theorem Books.advance {r n rn : Nat} {s t : State} {x : Run} (h : Books r n rn s t) (hx : s.run rn = some x)
    (hops : (s.stepDef x).ops.length ≤ x.pc) : t.advance rn = t := by
  obtain ⟨c, v, hy⟩ := h.run x hx
  have he : (t.stepDef { x with charges := c, vflags := v }).ops.drop x.pc = [] := by
    rw [State.stepDef_charged h.figures]
    exact List.drop_eq_nil_of_le hops
  unfold State.advance
  rw [hy]
  dsimp only
  rw [he]
  split
  · rfl
  · rfl

theorem Books.settle {r n rn : Nat} {s t : State} (h : Books r n rn s t) (hr : flagReg r = false) : Books r n rn s t.settle :=
  h.keep (t.settle_rd (catReg_flagReg hr)) t.settle_sameMem t.settle_cols t.settle_sched

/-- A descriptor executed: its list written and counted, all that follows is told and counted (R155 to R164, R170). -/
theorem State.colStep_books {s : State} {n : Nat} {q : QDesc} {x : Run} (hn : s.colNext n = some q) (hv : q.void = false)
    (hx : s.run q.run = some x) (hc : s.colCause q = none) (hops : (s.stepDef x).ops.length ≤ x.pc) (hxc : x.client < 16) (hcalm : Calm s) :
    Books (R.COL_OPS n) n q.run ((s.colWritten n q).count (R.COL_OPS n) 1) (s.colStep n 0 q.d.op).settle := by
  obtain ⟨cyc, wait, late, e⟩ := State.colStep_executes hn hv hx hc
  have hs : ((s.colWritten n q).count (R.COL_OPS n) 1).sched = s.sched := s.colWritten_sched n q
  have h : Books (R.COL_OPS n) n q.run ((s.colWritten n q).count (R.COL_OPS n) 1) (s.colDone n q x cyc wait late) := by
    rw [State.colDone_eq]
    exact ((Books.refl _ _ _ _).colTold _ _).colCounted cyc wait late hxc
  have hx' : ((s.colWritten n q).count (R.COL_OPS n) 1).run q.run = some x := (State.run_congr hs _).trans hx
  have hd : ((s.colWritten n q).count (R.COL_OPS n) 1).stepDef x = s.stepDef x :=
    State.stepDef_charged (by rw [hs]) x x.charges x.vflags
  rw [e, (h.calm (calm_of_runs (by rw [hs]) hcalm)).resume, h.advance hx' (hd ▸ hops)]
  exact h.settle (flagReg_colOps n)

end Sys2Proof.Machine
end

section
/-! A divided descriptor yields (R164), and the Collator's descriptors together (R149 to R170, R229). -/

namespace Sys2Proof.Machine

open Safety

/-- A BE descriptor with more than a segment left yields at the boundary (R164). -/
theorem State.colSegment_runs {s : State} {col : ColNo} {q : QDesc} {left : Nat} (hn : s.colNext col = some q) (hv : q.void = false)
    (hl : q.d.lc = false) (hc : s.colCause q = none) (hq : q.client < 16)
    (hleft : left = ((s.colUnit col).begun).getD (colCycles q.d (s.colRun q))) (hbig : 2048 < left) :
    Runs (.collatorSegmentBoundary col) s fun t => t.colUnit col = { s.colUnit col with begun := some (left - 2048) } ∧
      t.rd (R.COL_CYC_BUSY col) = (s.rd (R.COL_CYC_BUSY col) + 2048) % 2 ^ 64 ∧ SameMem s t := by
  have hf : flagReg (R.COL_CYC_BUSY col) = false := flagReg_collator col (by decide) (by decide)
  obtain ⟨hrd, hcols, hmem, -⟩ :=
    (s.setCol col { s.colUnit col with begun := some (left - 2048) }).colBusy_counts col q.run 2048 hq
  have he : exec (.collatorSegmentBoundary col) s =
      settled ((s.setCol col { s.colUnit col with begun := some (left - 2048) }).colBusy col q.run q.client 2048) := by
    change execCollatorSegmentBoundary col s = _
    unfold execCollatorSegmentBoundary
    simp only [hn, hl, hv, hc, ← hleft, if_neg (Nat.not_le.mpr hbig), Option.isSome_none, Bool.and_false, Bool.or_false, Bool.false_eq_true,
      if_false]
  refine ⟨_, he, ?_, ?_, ((s.setCol_sameMem _ _).trans hmem).trans (State.settle_sameMem _)⟩
  · rw [State.colUnit_congr (State.settle_cols _), State.colUnit_congr hcols, State.setCol_colUnit]
  · rw [State.settle_rd _ (catReg_flagReg hf), hrd, State.setCol_rd _ _ _ hf (by simp only [R.COL_STAT, R.COL_CYC_BUSY]; omega)]

end Sys2Proof.Machine

namespace Sys2Proof

open Machine Safety

/-- Settles O29: each command is the Collator's step for its operation, whose cases are those of the descriptor taken next; a list is written
word by word in a store that the checks found large enough, and what is counted and told after it leaves stores, queues and memories. -/
theorem collatorsExecuteDescriptors : Obligations.CollatorsExecuteDescriptors := by
  refine ⟨fun s col q x hn hx hphase _ hops hxc hqc hv hcalm => ⟨?executed, ?refused, ?divided⟩, ?void, runTopk_list, runSort_list, runMerge_list⟩
  case executed =>
    intro c hm hop hc
    have h4 : q.d.op ∈ [1, 2, 3, 4] := hop ▸ (collatorOps_exec hm s).1
    have h := State.colStep_books hn hv hx hc hops hxc hcalm
    have hst := s.colWritten_stores col q
    obtain ⟨htaken, -⟩ := s.colTaken_sameMem col q
    have hu : ((s.colWritten col q).count (R.COL_OPS col) 1).colUnit col = _ := (State.colUnit_congr hst.cols col).trans (s.colTaken_colUnit col q)
    have hmem : SameMem (s.colWritten col q) _ := ((s.colWritten col q).wr_sameMem _ _).trans h.mem
    refine runs_collatorOp hm rfl ?_
    rw [← hop]
    refine ⟨fun i hi => State.colWord_written h4 hc hmem hi, fun r a ha hout => State.storeWord_kept h4 hc hmem (some r) a (fun _ => ha) hout,
      fun a hout => State.storeWord_kept h4 hc hmem none a (fun h => nomatch h) hout, ?_, fun hl => ⟨?_, ?_⟩, fun hl => ⟨?_, ?_⟩, ?_, ?_⟩
    · exact hmem.1.trans (hst.mem.trans htaken)
    · rw [h.lc, hu, if_pos hl]
    · rw [h.be, hu, if_pos hl]
    · rw [h.be, hu, hl]
      rfl
    · rw [h.lc, hu, hl]
      rfl
    · rw [h.rd, State.count_eq, State.rd_wr, if_pos rfl, hst.rd, s.colTaken_ops]
    · obtain ⟨_, _, hy⟩ := h.run x ((State.run_congr (s.colWritten_sched col q) _).trans hx)
      exact ⟨_, hy, hphase⟩
  case refused =>
    intro c hm cause hop hc hr _
    obtain ⟨hfault, herr, hmem⟩ := State.colStep_faults hn hv hx hc hr hcalm
    refine runs_collatorOp hm rfl ?_
    rw [← hop]
    refine ⟨?_, ?_, hmem.trans (State.settle_sameMem _)⟩
    · rw [State.settle_rd _ (catReg_flagReg (flagReg_collator col (by decide) (by decide))), hfault]
    · rw [State.settle_keepsErr, herr]
  case divided =>
    intro left hleft hbig hl hc
    exact State.colSegment_runs hn hv hl hc hqc hleft hbig
  case void =>
    intro s col q hn hv hl hq hcalm c hm hop
    obtain ⟨hmem, hu, hrd⟩ := State.colStep_discards hn hv hl hq hcalm
    refine runs_collatorOp hm rfl ?_
    rw [← hop]
    refine ⟨hmem.trans (State.settle_sameMem _), ?_, ?_⟩
    · rw [State.colUnit_congr (State.settle_cols _), hu]
    · rw [State.settle_rd _ (catReg_flagReg (flagReg_collator col (by decide) (by decide))), hrd]

end Sys2Proof
end

section
/-! A layer whose STREAM waits to be asked for again once TIER accepts work (R562, log entry 51) is still queued, though it stands in
neither queue of the Binder: LAYER_LANDED leaves it (R185). -/

namespace Sys2Proof.Machine

open Safety

/-- LAYER_LANDED changes nothing for a layer among the transfers to be asked for again. -/
theorem exec_layerLanded_of_again {s : State} {run layer : Nat} {u : Transfer} (hu : u ∈ s.tiers.again)
    (hk : u.kind = trStream ∧ u.run = run ∧ u.layer = layer) : exec (.layerLanded run layer) s = settled s := by
  obtain ⟨rfl, rfl⟩ := hk.2
  have hq : ((s.tiers.lc ++ s.tiers.be ++ s.tiers.again).any fun t => t.kind = trStream && t.run = u.run && t.layer = u.layer) = true :=
    List.any_eq_true.mpr ⟨u, List.mem_append_right _ hu, by simp [hk.1]⟩
  change execLayerLanded u.run u.layer s = settled s
  unfold execLayerLanded
  split
  · rfl
  · split
    · rfl
    · simp only [hq, Bool.not_true, Bool.and_false, Bool.false_eq_true, if_false]

/-- A run whose layer 0 is issued and has not landed. -/
def layerIssued : Run := { newRun 0 0 false false [] 0 0 with layers := [(0, ⟨true, 0, false, false⟩)] }

/-- The module with that run, the STREAM of whose layer is to be asked for again. -/
def streamAgain : State :=
  { State.reset with
    sched := { State.reset.sched with runs := [(0, layerIssued)] }
    tiers := { State.reset.tiers with again := [⟨trStream, false, none, 0, 0, 0, 1, false, none⟩] } }

end Sys2Proof.Machine

namespace Sys2Proof

open Machine Safety

/-- Refutes O30: a layer issued that stands in neither queue of the Binder, but among the transfers to be asked for again after a block
reset of TIER, has not landed, and LAYER_LANDED leaves it so. -/
theorem not_layersStreamLandAndShare : ¬ Obligations.LayersStreamLandAndShare := by
  intro h
  obtain ⟨-, hlanded, -⟩ := h streamAgain
  obtain ⟨t, e, hrun, -⟩ := hlanded 0 0 layerIssued ⟨true, 0, false, false⟩ rfl rfl rfl (fun _ hu => nomatch hu)
  rw [exec_layerLanded_of_again (u := ⟨trStream, false, none, 0, 0, 0, 1, false, none⟩) List.mem_cons_self ⟨rfl, rfl, rfl⟩] at e
  cases e
  have hstays : streamAgain.settle.run 0 = some layerIssued := by rw [State.run, State.settle_sched]; rfl
  have hlayers := congrArg (Option.map Run.layers) (hstays.symm.trans hrun)
  exact absurd hlayers (by decide)

end Sys2Proof
end

section
/-! A command that leaves the whole state as it was leaves it with every pending category shown (R53): where one is not yet shown, every
command changes IRQ_CAT_STAT at its end, one that waits in its queue and one that reaches nothing included. -/

namespace Sys2Proof.Machine

open Safety

theorem shown_of_runs_unchanged {i : Instr} {s : State} (h : Runs i s fun t => t = s) : IrqShown s := by
  obtain ⟨t, e, rfl⟩ := h
  exact exec_shown _ _ _ e

/-- The interrupt of row 0 pends for client 0 and is not shown. -/
theorem messageWaits_hidden : ¬ IrqShown messageWaits := fun h =>
  absurd (h rfl 0 (by decide) 0 (by decide) (by decide +kernel)) (by decide +kernel)

/-- The same with TIER in service and under a quiesce request. -/
def messageWaitsPaused : State := (messageWaits.wr (R.PG_PRESENT pageTier) 3).wr (R.PG_CTL pageTier) 3

theorem messageWaitsPaused_hidden : ¬ IrqShown messageWaitsPaused := fun h =>
  absurd (h rfl 0 (by decide) 0 (by decide) (by decide +kernel)) (by decide +kernel)

end Sys2Proof.Machine

namespace Sys2Proof

open Machine Safety

/-- Refutes O33: a REGION_ALLOC that waits because TIER is paused does nothing of its own, but the command ends with a pending category
shown that was not, so the state is not what it was. -/
theorem not_regionsComeAndGoAndMove : ¬ Obligations.RegionsComeAndGoAndMove := by
  intro h
  obtain ⟨hpaused, -⟩ := h messageWaitsPaused ⟨0, 1, 0⟩ ⟨1, 0, 0, 0, 0, 0, 0, 0, 0, 0⟩
  exact messageWaitsPaused_hidden (shown_of_runs_unchanged (hpaused (by decide +kernel) _ List.mem_cons_self))

/-- Refutes O53: a decoder's commit by a client that no host reaches does nothing of its own, but the command ends with a pending category
shown that was not, so the state is not what it was. -/
theorem not_hostInterfaceAndCxlMem : ¬ Obligations.HostInterfaceAndCxlMem := by
  intro h
  obtain ⟨-, hunreached, -⟩ := h messageWaits 0
  exact messageWaits_hidden (shown_of_runs_unchanged (hunreached (by decide +kernel) _ List.mem_cons_self))

end Sys2Proof
end

section
/-! What the tiers' commands leave beside what they are for: registers outside a set, memories, regions and queues; and with them the
contexts, the runs and the rights in force (R177, R190, R233). -/

namespace Sys2Proof.Machine

open Safety

/-- The registers outside S, the memories, and the Binder with the tier manager stay. -/
structure Stays (S : Nat → Prop) (s t : State) : Prop where
  rd : ∀ k, ¬ S k → t.rd k = s.rd k
  mem : SameMem s t
  tiers : t.tiers = s.tiers

/-- Beside them the contexts, the scheduler, the rights in force and the FTL stay. -/
structure Aside (S : Nat → Prop) (s t : State) : Prop extends Stays S s t where
  ctxs : t.ctxs = s.ctxs
  sched : t.sched = s.sched
  inForce : t.inForce = s.inForce
  ftl : t.ftl = s.ftl

section
variable {S S' : Nat → Prop} {s t u : State}

theorem Stays.refl (S : Nat → Prop) (s : State) : Stays S s s := ⟨fun _ _ => rfl, .refl s, rfl⟩

theorem Stays.trans (h : Stays S s t) (h' : Stays S t u) : Stays S s u :=
  ⟨fun k hk => (h'.rd k hk).trans (h.rd k hk), h.mem.trans h'.mem, h'.tiers.trans h.tiers⟩

theorem Stays.foldl {β : Type} (f : State → β → State) (hf : ∀ t b, Stays S t (f t b)) (l : List β) (s : State) : Stays S s (l.foldl f s) := by
  induction l generalizing s with
  | nil => exact .refl S s
  | cons b l ih => exact (hf s b).trans (ih _)

theorem State.wr_stays (s : State) {k : Nat} (v : Nat) (h : S k) : Stays S s (s.wr k v) :=
  ⟨fun _ hk => s.rd_wr_ne v fun e => hk (e ▸ h), s.wr_sameMem k v, rfl⟩

theorem Stays.bit (h : Stays S s t) {k : Nat} (hk : ¬ S k) (i : Nat) : t.bit k i = s.bit k i := State.bit_congr (h.rd k hk) i

theorem Stays.region (h : Stays S s t) (g : Nat) : t.region g = s.region g := by rw [State.region, h.tiers, State.region]

theorem Stays.memByte (h : Stays S s t) (g o : Nat) : t.memByte g o = s.memByte g o := by rw [State.memByte, h.mem.1, State.memByte]

theorem Stays.memPoisoned (h : Stays S s t) (g o : Nat) : t.memPoisoned g o = s.memPoisoned g o := by
  rw [State.memPoisoned, h.mem.2.1, State.memPoisoned]

theorem Aside.refl (S : Nat → Prop) (s : State) : Aside S s s := ⟨.refl S s, rfl, rfl, rfl, rfl⟩

theorem Aside.trans (h : Aside S s t) (h' : Aside S t u) : Aside S s u :=
  ⟨h.toStays.trans h'.toStays, h'.ctxs.trans h.ctxs, h'.sched.trans h.sched, h'.inForce.trans h.inForce, h'.ftl.trans h.ftl⟩

theorem Aside.foldl {β : Type} (f : State → β → State) (hf : ∀ t b, Aside S t (f t b)) (l : List β) (s : State) : Aside S s (l.foldl f s) := by
  induction l generalizing s with
  | nil => exact .refl S s
  | cons b l ih => exact (hf s b).trans (ih _)

theorem State.wr_aside (s : State) {k : Nat} (v : Nat) (h : S k) : Aside S s (s.wr k v) := ⟨s.wr_stays v h, rfl, rfl, rfl, rfl⟩

theorem Aside.of_flags (h : FlagsOnly s t) (hS : ∀ k, flagReg k = true → S k) : Aside S s t := by
  obtain ⟨_, _, _, _, _, _, rfl, hr, -⟩ := h
  exact ⟨⟨fun k hk => hr k (Bool.eq_false_iff.mpr fun e => hk (hS k e)), ⟨rfl, rfl, rfl, rfl⟩, rfl⟩, rfl, rfl, rfl, rfl⟩

theorem Aside.of_charged (h : Charged S s t) : Aside S s t := by
  obtain ⟨_, _, rfl, hr⟩ := h
  exact ⟨⟨hr, ⟨rfl, rfl, rfl, rfl⟩, rfl⟩, rfl, rfl, rfl, rfl⟩

theorem Aside.of_post (h : PostOnly s t) (hS : ∀ k, flagReg k = true ∨ postReg k → S k) : Aside S s t := by
  obtain ⟨_, _, _, _, _, _, _, rfl, hr, -⟩ := h
  exact ⟨⟨fun k hk => hr k (Bool.eq_false_iff.mpr fun e => hk (hS k (.inl e))) fun e => hk (hS k (.inr e)), ⟨rfl, rfl, rfl, rfl⟩, rfl⟩,
    rfl, rfl, rfl, rfl⟩

theorem Aside.settle (h : Aside S s t) (hS : ∀ k, flagReg k = true → S k) : Aside S s t.settle :=
  h.trans (.of_flags t.settle_only.flags hS)

theorem Aside.ctx (h : Aside S s t) (x : Nat) : t.ctx x = s.ctx x := by rw [State.ctx, h.ctxs, State.ctx]

end

/-! The block registers of TIER, and those that its queues, charges and completions change. -/

/-- The registers of TIER's block (R204). -/
def tierBlock (k : Nat) : Prop := 0xA0100 ≤ k ∧ k < 0xB0000

theorem tierBlock.not_flag {k : Nat} (h : tierBlock k) : flagReg k = false := by
  simp only [tierBlock] at h
  simp only [flagReg, Bool.or_eq_false_iff, decide_eq_false_iff_not, R.SYS_ATTN]
  omega

/-- Flags, and TIER_STAT: what the Binder's queues show (R204). -/
def queueReg (k : Nat) : Prop := flagReg k = true ∨ k = R.TIER_STAT

theorem tierBlock.not_queue {k : Nat} (h : tierBlock k) (h1 : k ≠ R.TIER_STAT) : ¬ queueReg k := by
  rintro (e | e)
  · rw [h.not_flag] at e
    cases e
  · exact h1 e

theorem State.tierShow_aside (s : State) : Aside queueReg s s.tierShow := by
  have hw (t : State) (v : Nat) : Aside queueReg t (t.wr R.TIER_STAT v) := t.wr_aside v (.inr rfl)
  unfold State.tierShow
  extract_lets all busy work dec enc
  exact ((((hw s _).trans (hw _ _)).trans (hw _ _)).trans (hw _ _)).trans (.of_flags (State.setIdle_flags _ _ _) fun _ => .inl)

/-- Charges count in ACC alone (R236, R237). -/
def accReg (k : Nat) : Prop := k / 0x10000 = pageAcc

theorem tierBlock.not_acc {k : Nat} (h : tierBlock k) : ¬ accReg k := by
  simp only [tierBlock] at h
  simp only [accReg, pageAcc]
  omega

section
variable (s : State) {c : Nat} (hc : c < 16)
include hc

theorem State.chargeT1_charged (rd wr : Nat) : Charged accReg s (s.chargeT1 c rd wr) := by
  have hk : accReg (R.ACC_T1_RD c) ∧ accReg (R.ACC_T1_WR c) ∧ accReg (R.ACC_ENERGY_UJ c) := by
    simp only [accReg, pageAcc, R.ACC_T1_RD, R.ACC_T1_WR, R.ACC_ENERGY_UJ]
    omega
  obtain ⟨h1, h2, he⟩ := hk
  exact (s.charge_charged 5 rd h1 he).trans (State.charge_charged _ 5 wr h2 he)

theorem State.chargeT2_charged (rd wr : Nat) : Charged accReg s (s.chargeT2 c rd wr) := by
  have hk : accReg (R.ACC_T2_RD c) ∧ accReg (R.ACC_T2_WR c) ∧ accReg (R.ACC_ENERGY_UJ c) := by
    simp only [accReg, pageAcc, R.ACC_T2_RD, R.ACC_T2_WR, R.ACC_ENERGY_UJ]
    omega
  obtain ⟨h1, h2, he⟩ := hk
  exact (s.charge_charged 6 rd h1 he).trans (State.charge_charged _ 6 wr h2 he)

end

/-- Flags, and the registers of HIF: what a command's completion changes, by a queue or by the mailbox (R413, R430, R434). -/
def answerReg (k : Nat) : Prop := flagReg k = true ∨ k / 0x10000 = pageHif

theorem tierBlock.not_answer {k : Nat} (h : tierBlock k) : ¬ answerReg k := by
  rintro (e | e)
  · rw [h.not_flag] at e
    cases e
  · simp only [tierBlock] at h
    simp only [pageHif] at e
    omega

theorem answerReg_of_post {k : Nat} (h : flagReg k = true ∨ postReg k) : answerReg k := by
  rcases h with h | rfl | rfl | ⟨c, hc, rfl⟩
  · exact .inl h
  · exact .inr (by decide)
  · exact .inr (by decide)
  · refine .inr ?_
    simp only [R.HIF_QHELD, pageHif]
    omega

theorem State.completeMailbox_aside (s : State) (id sct sc : Nat) (dnr : Bool) (dw0 dw1 : Nat) :
    Aside answerReg s (s.completeMailbox id sct sc dnr dw0 dw1) := by
  have hflag {t u : State} (h : FlagsOnly t u) : Aside answerReg t u := .of_flags h fun _ => .inl
  have hw (t : State) {k : Nat} (v : Nat) (h : k / 0x10000 = pageHif) : Aside answerReg t (t.wr k v) := t.wr_aside v (.inr h)
  unfold State.completeMailbox
  extract_lets status s1 s2 s3
  have h1 : Aside answerReg s s1 :=
    (((hw s _ (by decide)).trans (hw _ _ (by decide))).trans (hw _ _ (by decide))).trans (hw _ _ (by decide))
  have h3 : Aside answerReg s1 s3 := .of_post (s1.postCount_only sct sc) fun _ => answerReg_of_post
  exact (((h1.trans h3).trans (hw s3 2 (by decide))).trans (hflag (State.setIrq_flags _ _ _ _))).trans (hflag (State.setIdle_flags _ _ _))

/-- A command's completion leaves the tiers, the memories and the runs. -/
theorem State.complete_aside (s : State) (cid : Cid) (sct sc : Nat) (dnr : Bool) (dw0 dw1 : Nat) :
    Aside answerReg s (s.complete cid sct sc dnr dw0 dw1) := by
  by_cases hq : cid.q = pmbQ
  · unfold State.complete State.completeRun
    extract_lets e
    rw [if_pos hq]
    exact s.completeMailbox_aside _ _ _ _ _ _
  · exact .of_post (s.complete_only cid sct sc dnr dw0 dw1 hq) fun _ => answerReg_of_post

end Sys2Proof.Machine
end

section
/-! The tests of an allocation (R191, R194, R195): what they read. -/

namespace Sys2Proof.Machine

open Safety

/-- A client's quota and use registers, and a tier's capacity, stand in TIER's block, above TIER_STAT (R204). -/
theorem tierBlock_quota {c i : Nat} (hc : c < 16) (hi : i ≤ 3) :
    (tierBlock (tqMin c i) ∧ tqMin c i ≠ R.TIER_STAT) ∧ (tierBlock (tqMax c i) ∧ tqMax c i ≠ R.TIER_STAT) ∧
      (tierBlock (tqUse c i) ∧ tqUse c i ≠ R.TIER_STAT) ∧ tierBlock (tierCap i) ∧ tierCap i ≠ R.TIER_STAT := by
  simp only [tierBlock, tqMin, tqMax, tqUse, tierCap, R.TIER_STAT]
  omega

theorem State.force_congr {s t : State} {k : Nat} (hi : t.inForce = s.inForce) (hr : t.rd k = s.rd k) : t.force k = s.force k := by
  rw [State.force, State.force, hi, hr]

theorem sumClients_congr {f g : Nat → Nat} (h : ∀ d < 16, f d = g d) : sumClients f = sumClients g :=
  List.foldl_ext _ _ _ fun a d hd => by rw [h d (List.mem_range.mp hd)]

/-- What the Binder's queues show takes no part in the tests of an allocation. -/
theorem Aside.allocTest {s t : State} (h : Aside queueReg s t) {c i : Nat} (hc : c < 16) (hi : i ≤ 3) (n : Nat) :
    t.allocTest c i n = s.allocTest c i n := by
  have hmin {d : Nat} (hd : d < 16) : t.force (tqMin d i) = s.force (tqMin d i) :=
    State.force_congr h.inForce (h.rd _ ((tierBlock_quota hd hi).1.1.not_queue (tierBlock_quota hd hi).1.2))
  have huse {d : Nat} (hd : d < 16) : t.rd (tqUse d i) = s.rd (tqUse d i) := by
    obtain ⟨-, -, ⟨hb, hn⟩, -⟩ := tierBlock_quota hd hi
    exact h.rd _ (hb.not_queue hn)
  obtain ⟨-, ⟨hmax, hmaxn⟩, -, hcap, hcapn⟩ := tierBlock_quota hc hi
  have hsum : (sumClients fun d => if d = c then 0 else max (t.rd (tqUse d i)) (t.force (tqMin d i))) =
      sumClients fun d => if d = c then 0 else max (s.rd (tqUse d i)) (s.force (tqMin d i)) :=
    sumClients_congr fun d hd => by rw [huse hd, hmin hd]
  simp only [State.allocTest, State.readOnly, h.tiers, h.ftl, huse hc, State.force_congr h.inForce (h.rd _ (hmax.not_queue hmaxn)),
    h.rd _ (hcap.not_queue hcapn), hsum]

end Sys2Proof.Machine
end

section
/-! A context's state moves between T1 and T2 (R177, R190, R233): its region changes tier with its charge, and nothing else of the tiers
does. -/

namespace Sys2Proof.Machine

open Safety

/-- What the move of a context's region r to a tier leaves; `spilled` is what the context table then shows. -/
structure Retiered (s t : State) (x : Nat) (r : Region) (to_ : Nat) (spilled : Bool) : Prop where
  ctx : t.ctx x = { s.ctx x with spilled := spilled }
  region : t.region (s.ctx x).region = some { r with tier := to_ }
  less : t.rd (tqUse r.client r.tier) = s.rd (tqUse r.client r.tier) - chargeOf r.tier r.bytes
  more : t.rd (tqUse r.client to_) = (s.rd (tqUse r.client to_) + chargeOf r.tier r.bytes) % 2 ^ 64
  mem : SameMem s t
  sched : t.sched = s.sched
  queues : t.tiers.lc = s.tiers.lc ∧ t.tiers.be = s.tiers.be

theorem State.ctx_setCtx_same (s : State) {x : Nat} {e : Ctx} (h : e.state ≠ 0) : (s.setCtx x e).ctx x = e := by
  rw [State.ctx, State.setCtx, if_neg h, kvGet_kvPut, if_pos rfl]

/-- The registers that a move of state changes beside the uses: ACC's, and those of flags. -/
def chargeReg (k : Nat) : Prop := flagReg k = true ∨ accReg k

theorem tierBlock.not_charge {k : Nat} (h : tierBlock k) : ¬ chargeReg k := by
  rintro (e | e)
  · rw [h.not_flag] at e
    cases e
  · exact h.not_acc e

/-- The region changes tier, the context's entry follows, and the bytes are charged. -/
theorem State.retier_spec {s t : State} {x to_ : Nat} {r : Region} {b : Bool} (hs : (s.ctx x).state ≠ 0) (hc : r.client < 16)
    (ht : r.tier + to_ = 3) (hu : Charged accReg ((s.retier (s.ctx x).region r to_).setCtx x { s.ctx x with spilled := b }) t) :
    Retiered s t.settle x r to_ b := by
  have hne : tqUse r.client r.tier ≠ tqUse r.client to_ := by
    simp only [tqUse]
    omega
  obtain ⟨-, -, ⟨hfrom, -⟩, -⟩ := tierBlock_quota hc (i := r.tier) (by omega)
  obtain ⟨-, -, ⟨hto, -⟩, -⟩ := tierBlock_quota hc (i := to_) (by omega)
  have h : Aside chargeReg ((s.retier (s.ctx x).region r to_).setCtx x { s.ctx x with spilled := b }) t.settle := by
    obtain ⟨rg, ar, e, hr⟩ := hu
    exact Aside.settle (.of_charged ⟨rg, ar, e, fun k hk => hr k fun ha => hk (.inr ha)⟩) fun _ => .inl
  refine ⟨?_, ?_, ?_, ?_, ?_, h.sched, by rw [h.tiers]; exact ⟨rfl, rfl⟩⟩
  · exact (h.ctx x).trans (State.ctx_setCtx_same _ hs)
  · rw [h.region]
    exact (kvFind_kvPut _ _ _ _).trans (if_pos rfl)
  · rw [h.rd _ hfrom.not_charge]
    refine (State.rd_wr_ne _ _ hne.symm).trans ?_
    exact s.rd_wr_same _ _ (Nat.lt_of_le_of_lt (Nat.sub_le _ _) (s.rd_lt _))
  · rw [h.rd _ hto.not_charge]
    refine (State.rd_wr _ _ _ _).trans ?_
    rw [if_pos rfl, State.subUse, s.rd_wr_ne _ hne]
  · exact SameMem.trans ⟨rfl, rfl, rfl, rfl⟩ h.mem

/-- A context that is due, as the fields of its entry say (R233). -/
theorem State.spillDue_eq {s : State} {x : Nat} (hs : (s.ctx x).state ≠ 0) (hr : (s.ctx x).inRun = false) (hp : (s.ctx x).pinned = false)
    (hl : (s.ctx x).spilled = false) (hb : (s.ctx x).resetBy = []) (h0 : 0 < (s.ctx x).stepCtr)
    (ht : (s.ctx x).touchedAt + s.rd R.SCH_HOT ≤ s.msr.count) : s.spillDue x = true := by
  simp [State.spillDue, hs, hr, hp, hl, hb, h0, ht]

section
variable {s : State} {x : Fin 262144} {r : Region} (hreg : s.region (s.ctx x).region = some r)
include hreg

/-- With no transfer before it a spill that is due and that T2's quotas allow is done at once. -/
theorem contextSpill_moves (hcl : r.client = (s.ctx x).client) (hc : r.client < 16) (ht : r.tier = 1) (hd : s.spillDue x = true)
    (hs : (s.ctx x).state ≠ 0) (hf : s.binderFree = true) (ha : s.allocTest r.client 2 (chargeOf 2 r.bytes) = 0) :
    Runs (.contextSpill x 0 []) s fun t => Retiered s t x r 2 true := by
  have hu := ((((s.retier (s.ctx x).region r 2).setCtx x { s.ctx x with spilled := true }).chargeT1_charged hc r.bytes 0).trans
    (State.chargeT2_charged _ hc 0 r.bytes))
  refine ⟨_, ?_, State.retier_spec hs hc (by rw [ht]) hu⟩
  change settled _ = settled _
  rw [hcl] at ha
  simp only [hf, if_true, State.spillNow, hreg, hd, ha, Bool.not_true, ne_eq, not_true_eq_false, decide_false, Bool.or_self,
    Bool.false_eq_true, if_false, hcl]
  rfl

/-- A spill that T2's quotas do not allow is left undone (R191, R233). -/
theorem contextSpill_refused (hcl : r.client = (s.ctx x).client) (hf : s.binderFree = true)
    (ha : s.allocTest r.client 2 (chargeOf 2 r.bytes) ≠ 0) : exec (.contextSpill x 0 []) s = settled s := by
  change settled _ = settled _
  rw [hcl] at ha
  simp only [hf, if_true, State.spillNow, hreg, ne_eq, ha, not_false_eq_true, decide_true, Bool.or_true]

/-- Behind transfers that wait, and with no spill among them, the spill waits as a transfer of its own (R177). -/
theorem contextSpill_waits (hd : s.spillDue x = true) (hf : s.binderFree = false) (hn : ∀ u ∈ s.tiers.be, u.job = none) :
    exec (.contextSpill x 0 []) s = settled (s.waitJob x r.bytes (.spill x 0 [])) := by
  change settled _ = settled _
  simp only [hf, Bool.false_eq_true, if_false, hreg, hd, Bool.not_true, Bool.false_or]
  refine congrArg settled (if_neg fun hq => ?_)
  obtain ⟨u, hu, hj⟩ := List.any_eq_true.mp hq
  simp [hn u hu] at hj

end

theorem mem_enqueue (t : Transfer) (l : List Transfer) : t ∈ enqueue t l := by
  induction l with
  | nil => exact List.mem_cons_self
  | cons x xs ih =>
    rw [enqueue]
    split
    · exact List.mem_cons_self
    · exact List.mem_cons_of_mem _ ih

/-- A transfer that answers a command, or spills, joins the BE queue (R177). -/
theorem State.waitJob_aside (s : State) (x n : Nat) (j : BinderJob) :
    ∃ l, (∃ u ∈ l, u.job = some j) ∧ Aside queueReg { s with tiers := { s.tiers with be := l } } (s.waitJob x n j) :=
  ⟨_, ⟨_, mem_enqueue _ s.tiers.be, rfl⟩, State.tierShow_aside _⟩

/-- The state with the transfers that a test names gone from the queues. -/
def State.unqueued (s : State) (p : Transfer → Bool) : State :=
  { s with tiers := { s.tiers with lc := s.tiers.lc.filter (!p ·), be := s.tiers.be.filter (!p ·), again := s.tiers.again.filter (!p ·) } }

theorem State.dropTransfers_aside (s : State) (p : Transfer → Bool) : Aside queueReg (s.unqueued p) (s.dropTransfers p) :=
  State.tierShow_aside _

theorem State.not_mem_unqueued {s : State} {p : Transfer → Bool} {u : Transfer}
    (hu : u ∈ (s.unqueued p).tiers.lc ++ (s.unqueued p).tiers.be) : p u = false := by
  rcases List.mem_append.mp hu with hu | hu
  · exact Bool.not_eq_true' _ ▸ (List.mem_filter.mp hu).2
  · exact Bool.not_eq_true' _ ▸ (List.mem_filter.mp hu).2

/-- The fill of a context that T1's quotas allow, once its transfer may end (R233). -/
theorem fill_moves {s : State} {x : Fin 262144} {r : Region} {tr : Transfer} (hreg : s.region (s.ctx x).region = some r)
    (hcl : r.client = (s.ctx x).client) (hc : r.client < 16) (ht : r.tier = 2) (hs : (s.ctx x).state ≠ 0)
    (hl : (s.ctx x).spilled = true) (hh : s.headTransfer (fun t => t.kind = trFill && t.ctx = x.val) = some tr)
    (ha : s.allocTest r.client 1 (chargeOf 1 r.bytes) = 0) :
    Runs (.fill x 0 []) s fun t => Retiered (s.dropTransfers fun t => t.kind = trFill && t.ctx = x.val) t x r 1 false := by
  have hd := s.dropTransfers_aside fun t => t.kind = trFill && t.ctx = x.val
  have hx : (s.dropTransfers fun t => t.kind = trFill && t.ctx = x.val).ctx x = s.ctx x := hd.ctx x
  have hr : (s.dropTransfers fun t => t.kind = trFill && t.ctx = x.val).region (s.ctx x).region = some r := (hd.region _).trans hreg
  have ha' := (hd.allocTest hc (by decide) _).trans ha
  change ∃ t, settled _ = .next t ∧ _
  rw [hh]
  dsimp only
  generalize s.dropTransfers (fun t => t.kind = trFill && t.ctx = x.val) = u at hx hr ha' ⊢
  have hu := ((((u.retier (u.ctx x).region r 1).setCtx x { u.ctx x with spilled := false }).chargeT2_charged hc r.bytes 0).trans
    (State.chargeT1_charged _ hc 0 r.bytes))
  refine ⟨_, ?_, State.retier_spec (by rw [hx]; exact hs) hc (by rw [ht]) hu⟩
  rw [hcl] at ha'
  simp only [hx, hr, hl, ha', Bool.not_true, Bool.false_eq_true, if_false, ne_eq, not_true_eq_false, hcl]
  rfl

end Sys2Proof.Machine
end

section
/-! The end of a zero fill (R196, R199): the region's bytes are zero and clean, and what waited for the fill goes on. -/

namespace Sys2Proof.Machine

open Safety

/-- What the stores of region bytes read once the keys of a region are dropped from them. -/
theorem kvGet_dropRegion {α : Type} (d : α) (m : KV α) {h g i : Nat} (hi : i < regionSpan) :
    kvGet d (kvDropRange m (h * regionSpan) ((h + 1) * regionSpan)) (g * regionSpan + i) =
      if g = h then d else kvGet d m (g * regionSpan + i) := by
  have hkey : h * regionSpan ≤ g * regionSpan + i ∧ g * regionSpan + i < (h + 1) * regionSpan ↔ g = h := by
    simp only [regionSpan] at hi ⊢
    omega
  simp only [kvGet, kvFind_kvDropRange, hkey]
  split <;> rfl

theorem State.memByte_memZero (s : State) {h g o : Nat} (ho : o < regionSpan) :
    (s.memZero h).memByte g o = if g = h then 0 else s.memByte g o := kvGet_dropRegion _ _ ho

theorem State.memPoisoned_memZero (s : State) {h g o : Nat} (ho : o < regionSpan) :
    (s.memZero h).memPoisoned g o = if g = h then false else s.memPoisoned g o :=
  kvGet_dropRegion _ _ (Nat.lt_of_le_of_lt (Nat.div_le_self o 8) ho)

/-- The region is zero and filled, and a window of CXL.mem is ready (R199). -/
def State.zeroed (s : State) (h : Nat) (r : Region) : State :=
  let s1 := (s.memZero h).setRegion h { r with filled := true }
  if r.use = useCxlm then s1.setBit (R.TQ_CXLM_STAT r.client) 1 true else s1

theorem State.zeroed_tiers (s : State) (h : Nat) (r : Region) :
    (s.zeroed h r).tiers = { s.tiers with regions := kvPut s.tiers.regions h { r with filled := true } } := by
  unfold State.zeroed
  extract_lets s1
  split <;> rfl

theorem State.zeroed_sameMem (s : State) (h : Nat) (r : Region) : SameMem (s.memZero h) (s.zeroed h r) := by
  unfold State.zeroed
  extract_lets s1
  split
  · exact ⟨rfl, rfl, rfl, rfl⟩
  · exact ⟨rfl, rfl, rfl, rfl⟩

theorem State.zeroed_ready (s : State) (h : Nat) {r : Region} (hu : r.use = useCxlm) :
    (s.zeroed h r).bit (R.TQ_CXLM_STAT r.client) 1 = true := by
  unfold State.zeroed
  extract_lets s1
  rw [if_pos hu, State.bit_setBit _ _ _ _ _ _ (by decide), if_pos ⟨rfl, rfl⟩]

/-- CTX_RESULT of each client, in its bank (R245). -/
def resultReg (k : Nat) : Prop := k % bankStep = R.CTX_RESULT

/-- The resets of a context that waited for the fill of region h are told to their clients (R232). -/
def State.resetTold (h : Nat) (s : State) (e : Nat × Ctx) : State :=
  if e.2.region = h then
    e.2.resetBy.foldl (fun u c => u.wr (R.CTX_RESULT + c * bankStep) 1) (s.setCtx e.1 { e.2 with resetBy := [] })
  else s

theorem State.resetTold_stays (h : Nat) (s : State) (e : Nat × Ctx) : Stays resultReg s (s.resetTold h e) := by
  have hset : Stays resultReg s (s.setCtx e.1 { e.2 with resetBy := [] }) := ⟨fun _ _ => rfl, ⟨rfl, rfl, rfl, rfl⟩, rfl⟩
  unfold State.resetTold
  split
  · exact hset.trans (.foldl _ (fun t c => t.wr_stays 1 (by simp only [resultReg, R.CTX_RESULT, bankStep]; omega)) _ _)
  · exact .refl resultReg s

/-- No command waits for the fill of a region any more. -/
def State.unwaited (s : State) (h : Nat) : State :=
  { s with tiers := { s.tiers with pendingFills := s.tiers.pendingFills.filter fun e => e.1 ≠ h } }

theorem Stays.unwaited {S : Nat → Prop} {s t : State} (h : Stays S s t) (g : Nat) : Stays S (s.unwaited g) (t.unwaited g) :=
  ⟨h.rd, h.mem, congrArg (fun x : TierState => { x with pendingFills := x.pendingFills.filter fun e => e.1 ≠ g }) h.tiers⟩

theorem State.fillsDone_aside (s : State) (h : Nat) : Aside answerReg (s.unwaited h) (s.fillsDone h) :=
  Aside.foldl _ (fun t _ => t.complete_aside _ _ _ _ _ _) _ _

/-- Flags, HIF's registers and CTX_RESULT: what follows a fill (R196, R232). -/
def filledReg (k : Nat) : Prop := answerReg k ∨ resultReg k

theorem Stays.mono {S S' : Nat → Prop} {s t : State} (h : Stays S s t) (hS : ∀ k, S k → S' k) : Stays S' s t :=
  ⟨fun k hk => h.rd k fun e => hk (hS k e), h.mem, h.tiers⟩

/-- The end of a zero fill comes to the region zeroed, with what waits for it gone from the tiers. -/
theorem zeroFillComplete_stays {s : State} {h : Nat} {r : Region} (hr : s.region h = some r) (hf : r.filled = false) :
    Runs (.zeroFillComplete h) s fun t => Stays filledReg ((s.zeroed h r).unwaited h) t := by
  have hresets : Stays resultReg (s.zeroed h r) _ := Stays.foldl _ (State.resetTold_stays h) (s.zeroed h r).ctxs _
  have hdone := (State.fillsDone_aside ((s.zeroed h r).ctxs.foldl (State.resetTold h) (s.zeroed h r)) h).settle fun _ => .inl
  refine ⟨_, ?_, ((hresets.unwaited h).mono fun _ => .inr).trans (hdone.toStays.mono fun _ => .inl)⟩
  change execZeroFillComplete h s = settled (State.fillsDone _ h)
  unfold execZeroFillComplete
  rw [hr]
  simp only [hf, Bool.false_eq_true, if_false]
  rfl

theorem not_filledReg_cxlmStat {c : Nat} (hc : c < 16) : ¬ filledReg (R.TQ_CXLM_STAT c) := by
  have hb : tierBlock (R.TQ_CXLM_STAT c) := by
    simp only [tierBlock, R.TQ_CXLM_STAT]
    omega
  rintro (e | e)
  · exact hb.not_answer e
  · simp only [resultReg, bankStep, R.TQ_CXLM_STAT, R.CTX_RESULT] at e
    omega

end Sys2Proof.Machine

namespace Sys2Proof

open Machine Safety

/-- Settles O31: a spill and a fill are the region's change of tier behind the Binder's queues, and the end of a zero fill is the region
zeroed, after which only completions, flags and CTX_RESULT follow. -/
theorem contextStateMovesBetweenTiers : Obligations.ContextStateMovesBetweenTiers := by
  refine fun s => ⟨fun x r hreg hcl hc => ⟨?spill, ?fill⟩, ?zero⟩
  case spill =>
    intro ht hs hrun hpin hsp hby h0 hhot
    have hd := State.spillDue_eq hs hrun hpin hsp hby h0 hhot
    refine ⟨fun hf ha => ?_, fun hf ha => ?_, fun hf hn => ?_⟩
    · obtain ⟨t, e, h⟩ := contextSpill_moves hreg hcl hc ht hd hs hf ha
      have hless := h.less
      have hmore := h.more
      rw [ht] at hless hmore
      exact ⟨t, e, h.ctx, h.region, hless, hmore, h.mem, h.sched⟩
    · refine ⟨_, contextSpill_refused hreg hcl hf ha, ⟨by simp, by simp, by simp, by simp, by simp⟩, s.settle_sameMem,
        fun k hk _ => s.settle_rd (catReg_flagReg hk)⟩
    · obtain ⟨l, ⟨u, hu, hj⟩, h⟩ := s.waitJob_aside x r.bytes (.spill x 0 [])
      have h' := h.settle fun _ => .inl
      refine ⟨_, contextSpill_waits hreg hd hf hn, ⟨u, ?_, hj⟩, ?_, h'.ctxs, ?_, SameMem.trans ⟨rfl, rfl, rfl, rfl⟩ h'.mem⟩
      · rw [h'.tiers]
        exact hu
      · rw [h'.tiers]
      · rw [h'.tiers]
  case fill =>
    intro tr ht hs hsp hh ha
    obtain ⟨t, e, h⟩ := fill_moves hreg hcl hc ht hs hsp hh ha
    have hd := s.dropTransfers_aside fun t => t.kind = trFill && t.ctx = x.val
    have huse {i : Nat} (hi : i ≤ 3) :
        (s.dropTransfers fun t => t.kind = trFill && t.ctx = x.val).rd (tqUse r.client i) = s.rd (tqUse r.client i) := by
      obtain ⟨-, -, ⟨hb, hn⟩, -⟩ := tierBlock_quota hc hi
      exact hd.rd _ (hb.not_queue hn)
    refine ⟨t, e, ?_, ?_, ?_, ?_, SameMem.trans ⟨rfl, rfl, rfl, rfl⟩ (hd.mem.trans h.mem), h.sched.trans hd.sched, ?_⟩
    · rw [h.ctx, hd.ctx]
      rfl
    · have := h.region
      rw [hd.ctx] at this
      exact this
    · have := h.less
      rw [ht, huse (by decide)] at this
      exact this
    · have := h.more
      rw [ht, huse (by decide)] at this
      exact this
    · rw [h.queues.1, h.queues.2, hd.tiers]
      intro u hu hk
      have := State.not_mem_unqueued hu
      simp [hk.1, hk.2] at this
  case zero =>
    intro h r hr hf
    obtain ⟨t, e, ht⟩ := zeroFillComplete_stays hr hf
    have hm := s.zeroed_sameMem h r
    have hb (g o : Nat) : t.memByte g o = (s.memZero h).memByte g o := by
      rw [ht.memByte, State.memByte, State.memByte]
      exact congrArg (kvGet 0 · _) hm.1
    have hp (g o : Nat) : t.memPoisoned g o = (s.memZero h).memPoisoned g o := by
      rw [ht.memPoisoned, State.memPoisoned, State.memPoisoned]
      exact congrArg (kvGet false · _) hm.2.1
    refine ⟨t, e, fun o ho => ?_, fun g o hg ho => ?_, ?_, ?_, ht.mem.2.2.1.trans hm.2.2.1, fun hu hc => ?_⟩
    · rw [hb, hp, s.memByte_memZero ho, s.memPoisoned_memZero ho, if_pos rfl, if_pos rfl]
      exact ⟨rfl, rfl⟩
    · rw [hb, hp, s.memByte_memZero ho, s.memPoisoned_memZero ho, if_neg hg, if_neg hg]
      exact ⟨rfl, rfl⟩
    · rw [ht.region, State.region, State.unwaited, s.zeroed_tiers]
      exact (kvFind_kvPut _ _ _ _).trans (if_pos rfl)
    · rw [ht.tiers]
      intro e he
      exact of_decide_eq_true (List.mem_filter.mp he).2
    · rw [ht.bit (not_filledReg_cxlmStat hc)]
      exact s.zeroed_ready h hu

end Sys2Proof
end

section
/-! Changes of rights that take effect (R479, R481): what they leave of the registers and memories, and the rights in force after them. -/

namespace Sys2Proof.Machine

open Safety

/-- The registers outside S, the memories, the measures and the rights in force stay. -/
structure KeepsForce (S : Nat → Prop) (s t : State) : Prop where
  rd : ∀ k, ¬ S k → t.rd k = s.rd k
  mem : SameMem s t
  msr : t.msr = s.msr
  inForce : t.inForce = s.inForce

section
variable {S : Nat → Prop} {s t u : State}

theorem KeepsForce.refl (S : Nat → Prop) (s : State) : KeepsForce S s s := ⟨fun _ _ => rfl, .refl s, rfl, rfl⟩

theorem KeepsForce.trans (h : KeepsForce S s t) (h' : KeepsForce S t u) : KeepsForce S s u :=
  ⟨fun k hk => (h'.rd k hk).trans (h.rd k hk), h.mem.trans h'.mem, h'.msr.trans h.msr, h'.inForce.trans h.inForce⟩

theorem KeepsForce.foldl {β : Type} (f : State → β → State) (hf : ∀ t b, KeepsForce S t (f t b)) (l : List β) (s : State) :
    KeepsForce S s (l.foldl f s) := by
  induction l generalizing s with
  | nil => exact .refl S s
  | cons b l ih => exact (hf s b).trans (ih _)

theorem State.wr_keepsForce (s : State) {k : Nat} (v : Nat) (h : S k) : KeepsForce S s (s.wr k v) :=
  ⟨fun _ hk => s.rd_wr_ne v fun e => hk (e ▸ h), s.wr_sameMem k v, rfl, rfl⟩

theorem KeepsForce.of_flags (h : FlagsOnly s t) (hr : ∀ k, ¬ S k → t.rd k = s.rd k) : KeepsForce S s t := ⟨hr, h.sameMem, h.msr, h.inForce⟩

/-- Whether a change of rights waits is read from what stays (R479, R481). -/
theorem KeepsForce.rightsWait (h : KeepsForce S s t) (h1 : ¬ S R.SEC_RIGHTS_CTL) (h2 : ¬ S R.MSR_CTL) : t.rightsWait = s.rightsWait := by
  simp only [State.rightsWait, State.bit, h.rd _ h1, h.rd _ h2, h.msr]

theorem KeepsForce.force (h : KeepsForce S s t) {k : Nat} (hk : ¬ S k) : t.force k = s.force k := State.force_congr h.inForce (h.rd k hk)

end

/-- The registers that changes of rights set as they take effect: ROW_STAT, the generation and the measure, and those of an interrupt
(R213, R479). -/
def effectReg (k : Nat) : Prop := irqReg k ∨ (∃ r, k = R.ROW_STAT r) ∨ k = R.SEC_RIGHTS_GEN ∨ k = R.SEC_RIGHTS_M

theorem not_effectReg {k : Nat} (h : 0xA0000 ≤ k) (h' : k < 0xB0000) (h1 : k % 0x10000 ≠ 0x1C) : ¬ effectReg k := by
  rintro (e | ⟨r, e⟩ | e | e)
  · exact not_irqReg_of_page (by omega) h1 e
  · simp only [R.ROW_STAT] at e
    omega
  · simp only [R.SEC_RIGHTS_GEN] at e
    omega
  · simp only [R.SEC_RIGHTS_M] at e
    omega

theorem tierBlock.not_effect {k : Nat} (h : tierBlock k) : ¬ effectReg k := by
  simp only [tierBlock] at h
  exact not_effectReg (by omega) h.2 (by omega)

theorem State.setIrq_keepsForce (s : State) (p b c : Nat) : KeepsForce effectReg s (s.setIrq p b c) :=
  .of_flags (s.setIrq_flags p b c) fun k hk => (s.setIrq_touches p b c).rd k fun e => hk (.inl e)

theorem State.wake_keepsForce (s : State) (r : Nat) : KeepsForce effectReg s (s.wake r) := by
  unfold State.wake
  extract_lets u
  split_ifs
  · exact .refl _ s
  · exact ⟨fun _ _ => rfl, ⟨rfl, rfl, rfl, rfl⟩, rfl, rfl⟩
  · exact ⟨fun _ _ => rfl, ⟨rfl, rfl, rfl, rfl⟩, rfl, rfl⟩
  · exact .refl _ s

theorem State.applyMap_keepsForce (s : State) (m : KV Nat) : KeepsForce effectReg s (s.applyMap m) := by
  unfold State.applyMap
  extract_lets e s1 s2
  have h1 : KeepsForce effectReg s s1 := ⟨fun _ _ => rfl, ⟨rfl, rfl, rfl, rfl⟩, rfl, rfl⟩
  have h2 : KeepsForce effectReg s1 s2 := KeepsForce.foldl _ (fun t r => by
    have h (b) := t.wr_keepsForce (S := effectReg) (k := R.ROW_STAT r) b (.inr (.inl ⟨r, rfl⟩))
    dsimp only
    split
    · exact (h _).trans (State.wake_keepsForce _ r)
    · exact h _) _ s1
  exact (h1.trans h2).trans (s2.setIrq_keepsForce _ _ _)

theorem State.applyEndpoint_keepsForce (s : State) (e : Nat) (new : Endpoint) : KeepsForce effectReg s (s.applyEndpoint e new) := by
  unfold State.applyEndpoint
  extract_lets old kept
  split
  · exact ⟨fun _ _ => rfl, ⟨rfl, rfl, rfl, rfl⟩, rfl, rfl⟩
  · exact ⟨fun _ _ => rfl, ⟨rfl, rfl, rfl, rfl⟩, rfl, rfl⟩

/-- Where changes of rights wait for nothing, all are in force: no older value is (R479). -/
theorem State.takeEffect_keepsForce (s : State) : KeepsForce effectReg { s with inForce := [] } s.takeEffect := by
  unfold State.takeEffect
  split
  · next hp =>
    have hi : s.inForce = [] := by
      simp only [State.rightsPending, Bool.not_eq_true', Bool.or_eq_false_iff, Bool.not_eq_false'] at hp
      exact List.isEmpty_iff.mp hp.1.1
    exact ⟨fun _ _ => rfl, ⟨rfl, rfl, rfl, rfl⟩, rfl, hi⟩
  · extract_lets s1 s2 e s3
    have h2 : KeepsForce effectReg s1 s2 := by
      simp only [s2]
      split
      · exact s1.applyMap_keepsForce _
      · exact .refl _ s1
    have h3 : KeepsForce effectReg s2 s3 := KeepsForce.trans (t := { s2 with spt := { s2.spt with staged := [] } })
      ⟨fun _ _ => rfl, ⟨rfl, rfl, rfl, rfl⟩, rfl, rfl⟩
      (.foldl _ (fun t (b : Nat × Endpoint) => t.applyEndpoint_keepsForce b.1 b.2) _ _)
    have h4 := (s3.wr_keepsForce (S := effectReg) (k := R.SEC_RIGHTS_GEN) (s3.rd R.SEC_RIGHTS_GEN + 1) (.inr (.inr (.inl rfl)))).trans
      (State.wr_keepsForce _ (k := R.SEC_RIGHTS_M) (s3.rd R.MSR_NOW) (.inr (.inr (.inr rfl))))
    exact ((h2.trans h3).trans h4).trans (State.setIrq_keepsForce _ _ _ _)

/-- Settling the rights leaves every register that no change of rights sets, and the memories. -/
theorem State.settleRights_rd (s : State) {k : Nat} (hk : ¬ effectReg k) : s.settleRights.rd k = s.rd k := by
  unfold State.settleRights
  split
  · rfl
  · exact s.takeEffect_keepsForce.rd k hk

theorem State.settleRights_sameMem (s : State) : SameMem s s.settleRights := by
  unfold State.settleRights
  split
  · exact .refl s
  · exact SameMem.trans ⟨rfl, rfl, rfl, rfl⟩ s.takeEffect_keepsForce.mem

/-- With neither a hold nor a strike awaited a register's value is in force at once (R479). -/
theorem State.settleRights_force {s : State} (hw : s.rightsWait = false) {k : Nat} (hk : ¬ effectReg k) : s.settleRights.force k = s.rd k := by
  unfold State.settleRights
  rw [hw]
  exact s.takeEffect_keepsForce.force hk

theorem State.settleRights_of_wait {s : State} (hw : s.rightsWait = true) : s.settleRights = s := if_pos hw

/-- A register that holds rights takes the value written, and what was in force stays so for the time being (R479). -/
theorem State.wrRights_rd (s : State) (k v j : Nat) : (s.wrRights k v).rd j = (s.wr k v).rd j := by
  unfold State.wrRights
  extract_lets old s1
  split <;> rfl

theorem State.wrRights_sameMem (s : State) (k v : Nat) : SameMem s (s.wrRights k v) := by
  unfold State.wrRights
  extract_lets old s1
  split <;> exact ⟨rfl, rfl, rfl, rfl⟩

theorem State.wrRights_msr (s : State) (k v : Nat) : (s.wrRights k v).msr = s.msr := by
  unfold State.wrRights
  extract_lets old s1
  split <;> rfl

theorem State.wrRights_force (s : State) (k v : Nat) : (s.wrRights k v).force k = s.force k := by
  have hrd : (s.wr k (s.rd k)).rd k = s.rd k := s.rd_wr_same k _ (s.rd_lt k)
  unfold State.wrRights
  extract_lets old s1
  split
  · next h =>
    obtain ⟨hn, -⟩ := (Bool.and_eq_true _ _).mp h
    have hold : (BitVec.ofNat 64 old).toNat = s.rd k := by rw [BitVec.toNat_ofNat, Nat.mod_eq_of_lt (s.rd_lt k)]
    simp only [State.force, kvFind_kvPut, if_true, hold, Option.isNone_iff_eq_none.mp hn]
  · next h =>
    cases hf : kvFind s.inForce k with
    | some w =>
      have hf1 : kvFind s1.inForce k = some w := hf
      simp only [State.force, hf, hf1]
    | none =>
      have hv : s.rd k = v := by simpa [hf, old] using h
      exact State.force_congr rfl (by simpa only [s1, ← hv] using hrd)

theorem State.wrRights_rightsWait (s : State) {k : Nat} (v : Nat) (h1 : k ≠ R.SEC_RIGHTS_CTL) (h2 : k ≠ R.MSR_CTL) :
    (s.wrRights k v).rightsWait = s.rightsWait := by
  rw [State.rightsWait, State.bit, State.bit, State.wrRights_rd, State.wrRights_rd, State.wrRights_msr, s.rd_wr_ne v h1,
    s.rd_wr_ne v h2, State.rightsWait, State.bit, State.bit]

end Sys2Proof.Machine
end

section
/-! Quotas (R190, R194, R197, R204): the registers, the check of a value, and the value taken. -/

namespace Sys2Proof.Machine

open Safety

/-- A command of the supervisor that writes a register with writable bits has the effect of those bits replaced, whoever else may write
them (R36, R561). -/
theorem State.command_super {s : State} {p o v m : Nat} (eff : State → Nat → Nat → State) {h : RegHit} (ho : Open s 0 p)
    (hr : regHit p o = some h) (ho' : o < 0x10000) (hw : h.rd.wo = false)
    (h1 : (if h.base = 0x1C then irqBitsOf (typeCode p) else h.rd.w1c) = 0) (hmask : h.rwMask p = m) (h0 : m ≠ 0)
    (hk : regKey 0 p h = p * 0x10000 + o) (hv : v < 2 ^ 64) :
    ∃ u, HeldOnly s u ∧ s.command 0 (p * 0x10000 + o) v eff =
      eff u ((s.rd (p * 0x10000 + o) &&& (0xFFFFFFFFFFFFFFFF ^^^ m)) ||| (v &&& m)) v := by
  obtain ⟨hp, hq⟩ : (p * 0x10000 + o) / 0x10000 = p ∧ (p * 0x10000 + o) % 0x10000 = o := by omega
  subst hmask
  have hd := State.verdict_super (v := v) ho hw h1 h0
  rw [hk] at hd
  exact s.command_effect eff ho.1 (by rw [hp]; exact ho.2.1) (by rw [hp, hq]; exact hr) (by rw [hp]; exact hd) hv

/-- The offset of a client's QMAX or QMIN in tier k + 1, and the row that it meets there (R204). -/
def quotaOff (n k : Nat) (max : Bool) : Nat := 0x1000 + 0x100 * n + 0x18 * k + (if max then 8 else 0)

def quotaHit (n k : Nat) (max : Bool) : RegHit :=
  ⟨⟨0x1000 + 0x18 * k + (if max then 8 else 0), 16, 0x100, 1, 0, true, 0xffffffffffffffff, 0, 0, 0xffffffffffffffff, false, 0, false⟩,
    quotaOff n k max, false⟩

theorem regHit_quota : ∀ (n : Fin 16) (k : Fin 3) (max : Bool), regHit pageTier (quotaOff n k max) = some (quotaHit n k max) := by
  decide +kernel

/-- The register of a client's QMAX or QMIN. -/
def quotaKey (n t : Nat) (max : Bool) : Nat := if max then tqMax n t else tqMin n t

theorem quotaKey_eq (n k : Nat) (max : Bool) : quotaKey n (k + 1) max = pageTier * 0x10000 + quotaOff n k max := by
  cases max
  · simp only [quotaKey, quotaOff, tqMin, pageTier, Bool.false_eq_true, if_false]
    omega
  · simp only [quotaKey, quotaOff, tqMax, pageTier, if_true]
    omega

theorem tierBlock_quotaKey {n t : Nat} (hn : n < 16) (ht : t ≤ 3) (max : Bool) : tierBlock (quotaKey n t max) := by
  obtain ⟨⟨h1, -⟩, ⟨h2, -⟩, -⟩ := tierBlock_quota hn ht
  cases max
  · exact h1
  · exact h2

/-- QUOTA_WRITE by the supervisor sets the quota to the value written (R194). -/
theorem quotaWrite_effect {s : State} (n : Client) (ho : Open s 0 pageTier) (k : Fin 3) (max : Bool) (v : BitVec 64) :
    ∃ u, HeldOnly s u ∧ exec (.quotaWrite 0 n k max v) s = settled (u.setQuota n (k + 1) max v.toNat) := by
  have hoff : quotaOff n k max < 0x10000 := by
    have := n.isLt
    have := k.isLt
    unfold quotaOff
    split <;> omega
  have hbase : (quotaHit n k max).base ≠ 0x1C ∧ (quotaHit n k max).base ≠ 0x18 := by
    simp only [quotaHit, quotaOff]
    omega
  obtain ⟨u, hu, e⟩ := State.command_super (v := v.toNat) (m := 2 ^ 64 - 1) (fun t new _ => t.setQuota n (k + 1) max new) ho
    (regHit_quota n k max) hoff rfl
    (by rw [if_neg hbase.1]; rfl) (by rw [RegHit.rwMask, if_neg hbase.2]; rfl) (by decide) rfl v.isLt
  rw [show (0xFFFFFFFFFFFFFFFF : Nat) = 2 ^ 64 - 1 from rfl, Nat.xor_self, Nat.and_zero, Nat.zero_or,
    Nat.and_two_pow_sub_one_of_lt_two_pow v.isLt, ← quotaKey_eq] at e
  exact ⟨u, hu, congrArg settled e⟩

/-- A value that R194 allows: whole units of 2 MiB in T1 and T2, QMIN no more than QMAX, and a QMIN raised within the tier's capacity. -/
def State.quotaFits (s : State) (n t : Nat) (max : Bool) (v : Nat) : Prop :=
  (t = 3 ∨ v % twoMiB = 0) ∧ (max = true → s.rd (tqMin n t) ≤ v) ∧
    (max = false → v ≤ s.rd (tqMax n t) ∧
      (s.rd (quotaKey n t max) < v → sumClients (fun d => if d = n then v else s.rd (tqMin d t)) ≤ s.rd (tierCap t)))

/-- The value taken: written, the capacity tested, and a quota of T3 kept in NOR (R194, R195, R487). -/
def State.quotaTaken (s : State) (n t : Nat) (max : Bool) (v : Nat) : State :=
  let s1 := (s.wrRights (quotaKey n t max) v).capCheck t
  if t = 3 then s1.norSet logQuotas (quotaKey n t max) v else s1

/-- An event of the tier manager's checks, with its interrupt (R195, R204). -/
def State.tierEvent (s : State) (code n a : Nat) : State := (s.setIrq pageTier 6 3).raise pageTier code (some n) a 0

theorem State.setQuota_of_not_fits {s : State} {n t : Nat} {max : Bool} {v : Nat} (h : ¬ s.quotaFits n t max v) :
    s.setQuota n t max v = s.tierEvent 0x3005 n t := by
  unfold State.setQuota
  refine if_pos ?_
  cases max
  · simp [State.quotaFits, quotaKey] at h ⊢
    omega
  · simp [State.quotaFits, quotaKey] at h ⊢
    omega

theorem State.setQuota_of_fits {s : State} {n t : Nat} {max : Bool} {v : Nat} (h : s.quotaFits n t max v) :
    s.setQuota n t max v = (if max && v < s.rd (tqUse n t) && s.rd (tqUse n t) ≤ s.rd (quotaKey n t max)
      then (s.quotaTaken n t max v).tierEvent 0x3004 n t else s.quotaTaken n t max v).settleRights := by
  unfold State.setQuota
  refine if_neg ?_
  cases max
  · simp [State.quotaFits, quotaKey] at h ⊢
    omega
  · simp [State.quotaFits, quotaKey] at h ⊢
    omega

/-! The value in force, and the event of a QMAX below the use (R194). -/

/-- The registers that events and writes into NOR set. -/
def norEventReg (k : Nat) : Prop := flagReg k = true ∨ norReg k

theorem tierBlock.not_event {k : Nat} (h : tierBlock k) : ¬ norEventReg k := by
  rintro (e | e)
  · rw [h.not_flag] at e
    cases e
  · simp only [tierBlock] at h
    simp only [norReg, R.NOR_LAST_SECT, R.NOR_SUSP] at e
    omega

theorem KeepsForce.of_nor {s t : State} (h : NorOnly s t) : KeepsForce norEventReg s t := by
  obtain ⟨_, _, _, _, _, _, _, _, _, _, _, rfl, hr, -⟩ := h
  exact ⟨fun k hk => hr k (Bool.eq_false_iff.mpr fun e => hk (.inl e)) fun e => hk (.inr e), ⟨rfl, rfl, rfl, rfl⟩, rfl, rfl⟩

section
variable (s : State)

theorem State.tierEvent_flags (code n a : Nat) : FlagsOnly s (s.tierEvent code n a) := (s.setIrq_flags _ _ _).trans (State.raise_flags _ _ _ _ _ _)

/-- Testing a tier's capacity changes which tiers are degraded, and raises an event (R195). -/
theorem State.capCheck_keepsForce (i : Nat) : KeepsForce norEventReg s (s.capCheck i) := by
  unfold State.capCheck
  extract_lets short was
  split_ifs
  · exact KeepsForce.trans (t := { s with tiers := { s.tiers with degraded := i :: s.tiers.degraded } })
      ⟨fun _ _ => rfl, ⟨rfl, rfl, rfl, rfl⟩, rfl, rfl⟩
      (.of_nor ((State.setIrq_flags _ _ _ _).trans (State.raise_flags _ _ _ _ _ _)).norOnly)
  · exact ⟨fun _ _ => rfl, ⟨rfl, rfl, rfl, rfl⟩, rfl, rfl⟩
  · exact .refl _ s

theorem State.norSet_keepsForce (k key v : Nat) : KeepsForce norEventReg s (s.norSet k key v) :=
  KeepsForce.trans (t := { s with nor := { s.nor with settings := kvPut s.nor.settings key v } })
    ⟨fun _ _ => rfl, ⟨rfl, rfl, rfl, rfl⟩, rfl, rfl⟩ (.of_nor (State.norLog_only _ _ _))

end

section
variable {s : State} {n i v : Nat} {max : Bool}

/-- A quota's value settled: taken, and an event where a QMAX falls below the use (R194). -/
def State.quotaChecked (s : State) (n t : Nat) (max : Bool) (v : Nat) : State :=
  if max && v < s.rd (tqUse n t) && s.rd (tqUse n t) ≤ s.rd (quotaKey n t max) then (s.quotaTaken n t max v).tierEvent 0x3004 n t
  else s.quotaTaken n t max v

theorem State.quotaChecked_keepsForce (s : State) (n t : Nat) (max : Bool) (v : Nat) :
    KeepsForce norEventReg (s.wrRights (quotaKey n t max) v) (s.quotaChecked n t max v) := by
  have hc := (s.wrRights (quotaKey n t max) v).capCheck_keepsForce t
  have ht : KeepsForce norEventReg (s.wrRights (quotaKey n t max) v) (s.quotaTaken n t max v) := by
    unfold State.quotaTaken
    extract_lets s1
    split
    · exact hc.trans (State.norSet_keepsForce _ _ _ _)
    · exact hc
  unfold State.quotaChecked
  split
  · exact ht.trans (.of_nor (State.tierEvent_flags _ _ _ _).norOnly)
  · exact ht

/-- A value that R194 allows is what the register holds, with the memories as they were. -/
theorem setQuota_rd (h : s.quotaFits n i max v) (hn : n < 16) (hi : i ≤ 3) (hv : v < 2 ^ 64) :
    (s.setQuota n i max v).settle.rd (quotaKey n i max) = v := by
  have hk := tierBlock_quotaKey hn hi max
  rw [State.settle_rd _ (catReg_flagReg hk.not_flag), State.setQuota_of_fits h, State.settleRights_rd _ hk.not_effect]
  exact ((s.quotaChecked_keepsForce n i max v).rd _ hk.not_event).trans ((s.wrRights_rd _ _ _).trans (s.rd_wr_same _ _ hv))

theorem setQuota_sameMem (h : s.quotaFits n i max v) : SameMem s (s.setQuota n i max v).settle := by
  rw [State.setQuota_of_fits h]
  exact ((s.wrRights_sameMem _ _).trans (s.quotaChecked_keepsForce n i max v).mem).trans
    ((State.settleRights_sameMem _).trans (State.settle_only _).flags.sameMem)

theorem quotaChecked_rightsWait (hn : n < 16) (hi : i ≤ 3) : (s.quotaChecked n i max v).rightsWait = s.rightsWait := by
  have hk := tierBlock_quotaKey hn hi max
  have h1 : ¬ norEventReg R.SEC_RIGHTS_CTL ∧ ¬ norEventReg R.MSR_CTL := by
    unfold norEventReg norReg
    decide
  have h2 : quotaKey n i max ≠ R.SEC_RIGHTS_CTL ∧ quotaKey n i max ≠ R.MSR_CTL := by
    simp only [tierBlock] at hk
    simp only [R.SEC_RIGHTS_CTL, R.MSR_CTL]
    omega
  rw [(s.quotaChecked_keepsForce n i max v).rightsWait h1.1 h1.2, s.wrRights_rightsWait v h2.1 h2.2]

/-- In force at once when neither a hold nor a strike is awaited (R479). -/
theorem setQuota_force (h : s.quotaFits n i max v) (hn : n < 16) (hi : i ≤ 3) (hv : v < 2 ^ 64) (hw : s.rightsWait = false) :
    (s.setQuota n i max v).settle.force (quotaKey n i max) = v := by
  have hk := tierBlock_quotaKey hn hi max
  rw [State.force_congr (State.settle_inForce _) (State.settle_rd _ (catReg_flagReg hk.not_flag)), State.setQuota_of_fits h]
  exact (State.settleRights_force ((quotaChecked_rightsWait hn hi).trans hw) hk.not_effect).trans
    (((s.quotaChecked_keepsForce n i max v).rd _ hk.not_event).trans ((s.wrRights_rd _ _ _).trans (s.rd_wr_same _ _ hv)))

/-- While one is awaited the former value stays in force (R479). -/
theorem setQuota_force_of_wait (h : s.quotaFits n i max v) (hn : n < 16) (hi : i ≤ 3) (hw : s.rightsWait = true) :
    (s.setQuota n i max v).settle.force (quotaKey n i max) = s.force (quotaKey n i max) := by
  have hk := tierBlock_quotaKey hn hi max
  have hr : (s.quotaChecked n i max v).settleRights = s.quotaChecked n i max v :=
    State.settleRights_of_wait ((quotaChecked_rightsWait hn hi).trans hw)
  rw [State.force_congr (State.settle_inForce _) (State.settle_rd _ (catReg_flagReg hk.not_flag)), State.setQuota_of_fits h]
  exact (congrArg (fun t => State.force t _) hr).trans
    (((s.quotaChecked_keepsForce n i max v).force hk.not_event).trans (s.wrRights_force _ _))

/-- An event of the tier manager leaves its code in the page's PG_ERR. -/
theorem State.tierEvent_code (s : State) (code n a : Nat) : (s.tierEvent code n a).rd (R.PG_ERR pageTier) % 65536 = code % 65536 :=
  State.raise_pgErr _ _ _ _ _ _

/-- A QMAX below a use that was within it raises 0x3004 (R194). -/
theorem setQuota_event (h : s.quotaFits n i max v) (hm : max = true) (hu : v < s.rd (tqUse n i))
    (hq : s.rd (tqUse n i) ≤ s.rd (quotaKey n i max)) : (s.setQuota n i max v).settle.rd (R.PG_ERR pageTier) % 65536 = 0x3004 := by
  have he : ¬ effectReg (R.PG_ERR pageTier) := not_effectReg (by decide) (by decide) (by decide)
  have hc : s.quotaChecked n i max v = (s.quotaTaken n i max v).tierEvent 0x3004 n i := if_pos (by simp [hm, hu, hm ▸ hq])
  rw [State.settle_keepsErr, State.setQuota_of_fits h]
  exact (congrArg (· % 65536) (State.settleRights_rd _ he)).trans (by rw [← State.quotaChecked, hc, State.tierEvent_code])

/-- What QUOTA_WRITE of a value that R194 allows leaves. -/
theorem setQuota_taken (h : s.quotaFits n i max v) (hn : n < 16) (hi : i ≤ 3) (hv : v < 2 ^ 64) :
    (s.setQuota n i max v).settle.rd (quotaKey n i max) = v ∧
      (s.rightsWait = false → (s.setQuota n i max v).settle.force (quotaKey n i max) = v) ∧
      (s.rightsWait = true → (s.setQuota n i max v).settle.force (quotaKey n i max) = s.force (quotaKey n i max)) ∧
      SameMem s (s.setQuota n i max v).settle ∧
      (max = true → v < s.rd (tqUse n i) → s.rd (tqUse n i) ≤ s.rd (quotaKey n i max) →
        (s.setQuota n i max v).settle.rd (R.PG_ERR pageTier) % 65536 = 0x3004) :=
  ⟨setQuota_rd h hn hi hv, setQuota_force h hn hi hv, setQuota_force_of_wait h hn hi, setQuota_sameMem h, setQuota_event h⟩

/-- An event of the tier manager alone: its code stands, and nothing else has changed (R204). -/
theorem State.tierEvent_alone (s : State) (code n a : Nat) :
    (s.tierEvent code n a).settle.rd (R.PG_ERR pageTier) % 65536 = code % 65536 ∧ Kept s (s.tierEvent code n a).settle (fun _ => False) ∧
      SameMem s (s.tierEvent code n a).settle ∧ SameWork s (s.tierEvent code n a).settle := by
  obtain ⟨⟨hk, hm⟩, hw⟩ := (Spares.of_flags (p := fun _ => False) (s.tierEvent_flags code n a)).settle
  exact ⟨by rw [State.settle_keepsErr, State.tierEvent_code], hk, hm, hw⟩

/-- A value that R194 does not allow is refused (R194). -/
theorem setQuota_refused (h : ¬ s.quotaFits n i max v) :
    (s.setQuota n i max v).settle.rd (R.PG_ERR pageTier) % 65536 = 0x3005 ∧ Kept s (s.setQuota n i max v).settle (fun _ => False) ∧
      SameMem s (s.setQuota n i max v).settle ∧ SameWork s (s.setQuota n i max v).settle := by
  rw [State.setQuota_of_not_fits h]
  exact s.tierEvent_alone _ _ _

end

end Sys2Proof.Machine
end

section
/-! CXL.mem windows (R199): the register, the sizes of all clients, and the window made. -/

namespace Sys2Proof.Machine

open Safety

/-- The row that a client's TQ_CXLM meets (R204). -/
def cxlmHit (n : Nat) : RegHit :=
  ⟨⟨0x1050, 16, 0x100, 1, 0, false, 0x7ff, 0, 0, 0x7ff, false, 0, false⟩, 0x1050 + 0x100 * n, false⟩

theorem regHit_cxlm : ∀ n : Fin 16, regHit pageTier (0x1050 + 0x100 * n) = some (cxlmHit n) := by
  decide +kernel

theorem cxlm_eq (n : Nat) : R.TQ_CXLM n = pageTier * 0x10000 + (0x1050 + 0x100 * n) := by
  simp only [R.TQ_CXLM, pageTier]
  omega

/-- TQ_CXLM_WRITE by the supervisor sets the window's size to a value that the field holds (R199). -/
theorem tqCxlmWrite_effect {s : State} (n : Client) (ho : Open s 0 pageTier) (v : BitVec 32) (hv : v.toNat ≤ 1024)
    (h0 : s.rd (R.TQ_CXLM n) = 0) : ∃ u, HeldOnly s u ∧ exec (.tqCxlmWrite 0 n v) s = settled (u.setCxlm n v.toNat) := by
  have hbase : (cxlmHit n).base ≠ 0x1C ∧ (cxlmHit n).base ≠ 0x18 := by
    simp only [cxlmHit]
    omega
  obtain ⟨u, hu, e⟩ := State.command_super (v := v.toNat) (m := 2 ^ 11 - 1) (fun t new _ => t.setCxlm n new) ho
    (regHit_cxlm n) (by have := n.isLt; omega) rfl (by rw [if_neg hbase.1]; rfl) (by rw [RegHit.rwMask, if_neg hbase.2]; rfl)
    (by decide) rfl (by omega)
  rw [← cxlm_eq, h0, Nat.zero_and, Nat.zero_or, Nat.and_two_pow_sub_one_of_lt_two_pow (by omega)] at e
  exact ⟨u, hu, congrArg settled e⟩

theorem sumClients_eq_sum (f : Nat → Nat) : sumClients f = ∑ d ∈ Finset.range 16, f d := by
  simp [sumClients, Finset.sum_range_succ, List.range, List.range.loop]

/-- One client's share grows by v: so does the sum. -/
theorem sumClients_add {f g : Nat → Nat} {n v : Nat} (hn : n < 16) (h : g n = f n + v) (hd : ∀ d < 16, d ≠ n → g d = f d) :
    sumClients g = sumClients f + v := by
  have hmem : n ∈ Finset.range 16 := Finset.mem_range.mpr hn
  have hrest : ∑ d ∈ (Finset.range 16).erase n, g d = ∑ d ∈ (Finset.range 16).erase n, f d :=
    Finset.sum_congr rfl fun d hd' => hd d (Finset.mem_range.mp (Finset.mem_of_mem_erase hd')) (Finset.ne_of_mem_erase hd')
  rw [sumClients_eq_sum, sumClients_eq_sum, ← Finset.add_sum_erase _ g hmem, ← Finset.add_sum_erase _ f hmem, hrest, h]
  omega

theorem chargeOf_window (v : Nat) : chargeOf 2 (v * 2 ^ 28) = v * 2 ^ 28 := by
  simp only [chargeOf, roundUp, twoMiB, Nat.reduceEqDiff, if_false]
  omega

section
variable {s : State} {n v : Nat}

/-- The state with other tiers. -/
def State.withTiers (s : State) (w : TierState) : State := { s with tiers := w }

theorem State.withTiers_rd (s : State) (w : TierState) (k : Nat) : (s.withTiers w).rd k = s.rd k := rfl

theorem State.withTiers_tiers (s : State) (w : TierState) : (s.withTiers w).tiers = w := rfl

theorem State.withTiers_sameMem (s : State) (w : TierState) : SameMem s (s.withTiers w) := ⟨rfl, rfl, rfl, rfl⟩

/-- A new region takes the next handle, and its charge is its client's (R190, R196). -/
theorem State.newRegion_eq (s : State) (c t b use : Nat) (striped : Bool) (channel : Nat) (filled : Bool) :
    s.newRegion c t b use striped channel filled = (s.tiers.nextHandle,
      (s.withTiers { s.tiers with
        regions := kvPut s.tiers.regions s.tiers.nextHandle ⟨c, t, b, use, striped, channel, filled, 0, 0⟩
        nextHandle := s.tiers.nextHandle + 1 }).addUse c t (chargeOf t b)) := rfl

/-- The registers of a window of a new size: not ready, and the size counted (R199). -/
def State.windowSized (s : State) (n v : Nat) : State :=
  let u := (s.wr (R.TQ_CXLM n) v).setBit (R.TQ_CXLM_STAT n) 1 false
  u.wr R.TIER_CXLM_TOTAL u.cxlmTotal

/-- Its region in T2, still to be filled. -/
def windowRegion (n v : Nat) : Region := ⟨n, 2, v * 2 ^ 28, useCxlm, false, 0, false, 0, 0⟩

/-- The window allocated, charged to the client and held by the next handle. -/
def State.windowMade (s : State) (n v : Nat) : State :=
  let t := (s.windowSized n v).newRegion n 2 (v * 2 ^ 28) useCxlm false 0 false
  t.2.withTiers { t.2.tiers with cxlm := kvPut (kvErase s.tiers.cxlm n) n t.1 }

/-- A client without a window gets one where all sizes stay within 256 GiB and T2 has room for it (R199). -/
theorem setCxlm_makes (h0 : s.rd (R.TQ_CXLM n) = 0) (hc : kvFind s.tiers.cxlm n = none) (hb : s.bit (R.TQ_CXLM_STAT n) 0 = false)
    (hv : 0 < v) (ht : s.cxlmTotal + v ≤ 1024) (ha : s.allocStatus n 2 (v * 2 ^ 28) = 0) : s.setCxlm n v = s.windowMade n v := by
  have hz : chargeOf 2 (0 * 2 ^ 28) = 0 := by decide
  have hv0 : v ≠ 0 := by omega
  unfold State.setCxlm
  simp only [h0, hc, hb, hz, ha, Nat.sub_zero, hv0, Nat.not_lt.mpr ht, ne_eq, not_true_eq_false, decide_false, Bool.or_self,
    Bool.and_false, Bool.false_eq_true, if_false]
  rfl

/-- A window that takes all sizes beyond 256 GiB is refused (R199). -/
theorem setCxlm_refused (h0 : s.rd (R.TQ_CXLM n) = 0) (ht : 1024 < s.cxlmTotal + v) :
    (s.setCxlm n v).settle.rd (R.PG_ERR pageTier) % 65536 = 0x3007 ∧ Kept s (s.setCxlm n v).settle (fun _ => False) ∧
      SameMem s (s.setCxlm n v).settle ∧ SameWork s (s.setCxlm n v).settle := by
  have e : s.setCxlm n v = s.tierEvent 0x3007 n ((kvFind s.tiers.cxlm n).getD 0) := by
    unfold State.setCxlm
    rw [h0]
    extract_lets old refuse freed
    exact if_pos (by simp [old, ht])
  rw [e]
  exact s.tierEvent_alone _ _ _

theorem State.windowSized_rd_size (s : State) (hv : v ≤ 1024) (d : Nat) :
    ((s.wr (R.TQ_CXLM n) v).setBit (R.TQ_CXLM_STAT n) 1 false).rd (R.TQ_CXLM d) = if n = d then v else s.rd (R.TQ_CXLM d) := by
  rw [State.setBit_eq, State.rd_wr_ne _ _ (by simp only [R.TQ_CXLM_STAT, R.TQ_CXLM]; omega), State.rd_wr]
  have : R.TQ_CXLM n = R.TQ_CXLM d ↔ n = d := by
    simp only [R.TQ_CXLM]
    omega
  simp only [this]
  split
  · omega
  · rfl

theorem State.windowSized_total (hn : n < 16) (h0 : s.rd (R.TQ_CXLM n) = 0) (ht : s.cxlmTotal + v ≤ 1024) :
    (s.windowSized n v).rd R.TIER_CXLM_TOTAL = s.cxlmTotal + v := by
  have hsum : ((s.wr (R.TQ_CXLM n) v).setBit (R.TQ_CXLM_STAT n) 1 false).cxlmTotal = s.cxlmTotal + v :=
    sumClients_add hn (by rw [State.windowSized_rd_size s (by omega), if_pos rfl, h0, Nat.zero_add]) fun d _ hdn => by
      rw [State.windowSized_rd_size s (by omega), if_neg (Ne.symm hdn)]
  unfold State.windowSized
  extract_lets u
  rw [State.rd_wr_same _ _ _ (by rw [hsum]; omega)]
  exact hsum

theorem State.windowMade_rd (s : State) (n v k : Nat) :
    (s.windowMade n v).rd k = ((s.windowSized n v).addUse n 2 (chargeOf 2 (v * 2 ^ 28))).rd k := by
  simp only [State.windowMade, State.newRegion_eq, State.withTiers_rd, State.addUse, State.rd_wr]

/-- The window's registers: its size, not ready, and the size in the client's use of T2 (R190, R199). -/
theorem State.windowMade_regs (s : State) (hn : n < 16) (hv : v ≤ 1024) :
    (s.windowMade n v).rd (R.TQ_CXLM n) = v ∧ (s.windowMade n v).bit (R.TQ_CXLM_STAT n) 1 = false ∧
      (s.windowMade n v).rd R.TIER_CXLM_TOTAL = (s.windowSized n v).rd R.TIER_CXLM_TOTAL ∧
      (s.windowMade n v).rd (tqUse n 2) = (s.rd (tqUse n 2) + v * 2 ^ 28) % 2 ^ 64 := by
  have hne {k : Nat} (h : tqUse n 2 ≠ k) : (s.windowMade n v).rd k = (s.windowSized n v).rd k :=
    (s.windowMade_rd n v k).trans (State.rd_wr_ne _ _ h)
  have hsz {k : Nat} (h : R.TIER_CXLM_TOTAL ≠ k) :
      (s.windowSized n v).rd k = ((s.wr (R.TQ_CXLM n) v).setBit (R.TQ_CXLM_STAT n) 1 false).rd k := State.rd_wr_ne _ _ h
  refine ⟨?_, ?_, ?_, ?_⟩
  · rw [hne (by simp only [tqUse, R.TQ_CXLM]; omega), hsz (by simp only [R.TIER_CXLM_TOTAL, R.TQ_CXLM]; omega),
      s.windowSized_rd_size hv, if_pos rfl]
  · rw [State.bit_congr (hne (by simp only [tqUse, R.TQ_CXLM_STAT]; omega)),
      State.bit_congr (hsz (by simp only [R.TIER_CXLM_TOTAL, R.TQ_CXLM_STAT]; omega)), State.bit_setBit _ _ _ _ _ _ (by decide),
      if_pos ⟨rfl, rfl⟩]
  · exact hne (by simp only [tqUse, R.TIER_CXLM_TOTAL]; omega)
  · have huse : (s.windowSized n v).rd (tqUse n 2) = s.rd (tqUse n 2) := by
      rw [hsz (by simp only [tqUse, R.TIER_CXLM_TOTAL]; omega), State.setBit_eq,
        State.rd_wr_ne _ _ (by simp only [tqUse, R.TQ_CXLM_STAT]; omega), State.rd_wr_ne _ _ (by simp only [tqUse, R.TQ_CXLM]; omega)]
    rw [State.windowMade_rd, State.addUse, State.rd_wr, if_pos rfl, huse, chargeOf_window]

/-- The tiers after it: its region at the next handle, and the handle the client's window. -/
theorem State.windowMade_tiers (s : State) (n v : Nat) : (s.windowMade n v).tiers =
    { s.tiers with
      regions := kvPut s.tiers.regions s.tiers.nextHandle (windowRegion n v)
      nextHandle := s.tiers.nextHandle + 1
      cxlm := kvPut (kvErase s.tiers.cxlm n) n s.tiers.nextHandle } := by
  have hz : (s.windowSized n v).tiers = s.tiers := rfl
  simp only [State.windowMade, State.newRegion_eq, State.withTiers_tiers, State.addUse, State.wr_tiers, hz, windowRegion]

theorem State.windowMade_sameMem (s : State) (n v : Nat) : SameMem s (s.windowMade n v) := by
  have hz : SameMem s (s.windowSized n v) := ((s.wr_sameMem _ _).trans (State.wr_sameMem _ _ _)).trans (State.wr_sameMem _ _ _)
  simp only [State.windowMade, State.newRegion_eq, State.addUse]
  exact hz.trans (((State.withTiers_sameMem _ _).trans (State.wr_sameMem _ _ _)).trans (State.withTiers_sameMem _ _))

/-- What a window leaves once made: its size, its region, its charge, and nothing filled (R196, R199). -/
theorem setCxlm_window (hn : n < 16) (h0 : s.rd (R.TQ_CXLM n) = 0) (hc : kvFind s.tiers.cxlm n = none)
    (hb : s.bit (R.TQ_CXLM_STAT n) 0 = false) (hv : 0 < v) (ht : s.cxlmTotal + v ≤ 1024) (ha : s.allocStatus n 2 (v * 2 ^ 28) = 0) :
    (s.setCxlm n v).settle.rd (R.TQ_CXLM n) = v ∧ (s.setCxlm n v).settle.bit (R.TQ_CXLM_STAT n) 1 = false ∧
      (s.setCxlm n v).settle.rd R.TIER_CXLM_TOTAL = s.cxlmTotal + v ∧
      kvFind (s.setCxlm n v).settle.tiers.cxlm n = some s.tiers.nextHandle ∧
      (s.setCxlm n v).settle.region s.tiers.nextHandle = some ⟨n, 2, v * 2 ^ 28, useCxlm, false, 0, false, 0, 0⟩ ∧
      (s.setCxlm n v).settle.rd (tqUse n 2) = (s.rd (tqUse n 2) + v * 2 ^ 28) % 2 ^ 64 ∧ SameMem s (s.setCxlm n v).settle := by
  rw [setCxlm_makes h0 hc hb hv ht ha]
  obtain ⟨hsize, hready, htotal, huse⟩ := s.windowMade_regs (v := v) hn (by omega)
  have hkeep {k : Nat} (hk : tierBlock k) : (s.windowMade n v).settle.rd k = (s.windowMade n v).rd k :=
    State.settle_rd _ (catReg_flagReg hk.not_flag)
  have hblock : tierBlock (R.TQ_CXLM n) ∧ tierBlock (R.TQ_CXLM_STAT n) ∧ tierBlock R.TIER_CXLM_TOTAL := by
    simp only [tierBlock, R.TQ_CXLM, R.TQ_CXLM_STAT, R.TIER_CXLM_TOTAL]
    omega
  have huseBlock : tierBlock (tqUse n 2) := by
    obtain ⟨-, -, ⟨h, -⟩, -⟩ := tierBlock_quota (i := 2) hn (by decide)
    exact h
  refine ⟨(hkeep hblock.1).trans hsize, (State.bit_congr (hkeep hblock.2.1) 1).trans hready,
    (hkeep hblock.2.2).trans (htotal.trans (s.windowSized_total hn h0 ht)), ?_, ?_, (hkeep huseBlock).trans huse,
    (s.windowMade_sameMem n v).trans (State.settle_only _).flags.sameMem⟩
  · rw [State.settle_tiers, State.windowMade_tiers]
    exact (kvFind_kvPut _ _ _ _).trans (if_pos rfl)
  · rw [State.region, State.settle_tiers, State.windowMade_tiers]
    exact (kvFind_kvPut _ _ _ _).trans (if_pos rfl)

end

end Sys2Proof.Machine

namespace Sys2Proof

open Machine Safety

/-- Settles O32: a quota's value and a window by what the write of its register leaves. -/
theorem quotasAndWindowsAreChecked : Obligations.QuotasAndWindowsAreChecked := by
  unfold Obligations.QuotasAndWindowsAreChecked
  refine fun s n ho => ⟨fun k max v => ⟨fun hf => ?taken, fun hf => ?refused⟩,
    fun v h0 hv hrd hc hb => ⟨fun ht ha => ?window, fun ht => ?beyond⟩⟩
  case taken =>
    have hi : k.val + 1 ≤ 3 := k.isLt
    exact runs_of_effect (quotaWrite_effect n ho k max v) fun w =>
      setQuota_taken (s := { s with wrHold := w }) hf n.isLt hi v.isLt
  case refused =>
    exact runs_of_effect (quotaWrite_effect n ho k max v) fun w => setQuota_refused (s := { s with wrHold := w }) hf
  case window =>
    exact runs_of_effect (tqCxlmWrite_effect n ho v hv hrd) fun w =>
      setCxlm_window (s := { s with wrHold := w }) n.isLt hrd hc hb h0 ht ha
  case beyond =>
    exact runs_of_effect (tqCxlmWrite_effect n ho v hv hrd) fun w => setCxlm_refused (s := { s with wrHold := w }) hrd ht

end Sys2Proof
end
